-- ==== Sys2Proof/Word.lean ====
section
/-! DEFINITION. The word, byte and index types of the model (spec 00 "Notation", R8). -/
namespace Sys2Proof

/-- One byte. -/
abbrev Byte := BitVec 8
/-- A register of setup space is 64 bits wide. -/
abbrev Word := BitVec 64
/-- A run of bytes, the byte of the lowest address first (R8). -/
abbrev Bytes := List (BitVec 8)
/-- A physical function PF0 to PF3 (R75). -/
abbrev Fn := Fin 4
/-- A pipeline: 0 to 3 the bulk pipelines, 4 the plant pipeline (R199). -/
abbrev Pl := Fin 5
/-- A bulk pipeline. -/
abbrev BulkPl := Fin 4
/-- A network port N0 to N7. -/
abbrev NPort := Fin 8
/-- A plant port P0 to P3. -/
abbrev PPort := Fin 4
/-- A port the traffic manager schedules (R289): 0 to 7 network ports, 8 to 11 plant ports, 12 the recirculation port. -/
abbrev TmPort := Fin 13
/-- A flow core. -/
abbrev Core := Fin 32
/-- A flow core, or 32 for the housekeeping core. -/
abbrev CoreHk := Fin 33
/-- A thread of a core. -/
abbrev Thr := Fin 8
/-- A media bay B0 to B3. -/
abbrev Bay := Fin 4
/-- Clove cycles elapsed in the current Clove tick: a tick of 1.024 us has 1,280 cycles of 1.25 GHz (R319). -/
abbrev Cyc := Fin 1280

end Sys2Proof
end

