-- ==== Sys2Proof/Syntax.lean ====
section
/-! DEFINITION. The commands of the block: one constructor for each row of the spec's table of operations and events,
with the operands that reach the block from outside (spec 95). -/
namespace Sys2Proof

/-- How a device read of host memory is answered (R89). -/
inductive Read where
  | data (b : Bytes) | poison | timeout | ur | ca
  deriving DecidableEq, Repr

/-- The outstanding device reads whose completion or timeout is a command of its own (R89, R90):
a doorbell record, a descriptor, a consumer record, a boot descriptor, an image copy, a payload, a flow core's DMA_RD. -/
inductive ReadWork where
  | doorbell (fq : BitVec 20) | descriptor (fq : BitVec 20) | consumer (fevq : BitVec 16)
  | bootDescriptor | bootImage | payload (fq : BitVec 20) (idx : BitVec 32)
  | flowCore (core : CoreHk) (t : Thr)
  deriving DecidableEq, Repr

/-- The configuration fields that a configuration write sets (R84, R76, R77, R94, R102); of `ecrcEnable` bit 0 enables
generation and bit 1 checking (R72), and `laneMargin` is the margining control of a lane (R76). -/
inductive CfgField where
  | memSpaceEnable | msixEnable | msixFunctionMask | ptmEnable | aspmL1Enable | pmeEnable | pmeStatusClear
  | maxPayload | maxReadRequest | extendedTag | tag10 | tag14 | completionTimeoutDisable
  | aerUncorrectableStatus | aerCorrectableStatus | aerUncorrectableMask | aerCorrectableMask | aerSeverity
  | ecrcEnable | bar0Lo | bar0Hi | bar2Lo | bar2Hi | bar4Lo | bar4Hi | interruptLine | commandOther
  | aspmL11Enable | pmL11Enable | laneMargin (lane : Fin 16)
  deriving DecidableEq, Repr

/-- The array that failed BIST and the failing address (R46, R510). -/
structure BistFail where
  array : BitVec 16
  addr : BitVec 64
  deriving DecidableEq, Repr

/-- How the words that an operation reads from one array come (R32): right, corrected by the array's code, or
uncorrectable. -/
inductive Ecc where
  | good | corrected | bad
  deriving DecidableEq, Repr

/-- What an admission meets (R32, R506): a namespace entry that is right, corrected or uncorrectable, or an uncorrectable
error log setting, read where the admission fails. -/
inductive AdmErr where
  | good | corrected | bad | elog
  deriving DecidableEq, Repr

/-- What a descriptor fetch meets (R32, R506): a queue context that is right, corrected or uncorrectable, or what the
admission of the storage command it fetches will meet, since ADMISSION has no operand of its own (log entry 220). -/
inductive FetchErr where
  | good | corrected | bad | admission (e : AdmErr)
  deriving DecidableEq, Repr

/-- What a commit meets (R32, R506): staged data that is right, corrected or uncorrectable, or an uncorrectable word of the
group's slot or of its domain's token ring. -/
inductive CgErr where
  | good | corrected | bad | slot | ring
  deriving DecidableEq, Repr

/-- Residue mismatches of one token operation (R31): none, one that the recompute settles, or a second one. -/
inductive Residue where
  | good | once | twice
  deriving DecidableEq, Repr

/-- What goes wrong under a parse word (R31, R32); `corrected` is a word of the control store or of the header buffer
that the array's code corrects. -/
inductive ParseErr where
  | none | residue | overrun | headerBuffer | controlStore | corrected
  deriving DecidableEq, Repr

/-- What goes wrong in a chain stage (R31, R32, R506): one key mismatch, two, an uncorrectable table entry, a corrected
one; one mismatch of a meter's token operation, two, or its tokens uncorrectable. -/
inductive ClassErr where
  | none | residueOnce | residueTwice | arrayError | corrected | tokensOnce | tokensTwice | tokens
  deriving DecidableEq, Repr

/-- What goes wrong in a token operation or a start on a port (R31, R32, R23, R506); `leafNode` is an uncorrectable word of
the leaf or group node chosen, `classNode` one of its class or port node, `cellList` one of the free-cell lists. -/
inductive SchedErr where
  | none | residueOnce | residueTwice | underrun | tokens | cell | corrected | leafNode | classNode | cellList
  deriving DecidableEq, Repr

/-- What goes wrong under a flow-core instruction (R31, R32, R386): an ALU residue mismatch, an uncorrectable memory
word, an uncorrectable code word, an uncorrectable table entry read by a LOOKUP (R506), or a word corrected by the code
of an SRAM array or of a DRAM stack. -/
inductive FcErr where
  | none | residue | memEcc | codeEcc | tableEcc | corrected | dramCorrected
  deriving DecidableEq, Repr

/-- What is wrong with an inbound TLP, or on the link as it comes (R72, R89): poisoned data, an ECRC that does not match,
a receiver error on its first transmission, a malformed TLP, a DLLP that is bad, or one that breaks the protocol of the
data link layer. -/
inductive TlpErr where
  | none | poisoned | ecrc | receiver | malformed | badDllp | dllpProtocol
  deriving DecidableEq, Repr

/-- An access to BAR0 or BAR2 of a function that no command of its own makes: a write of a wrong shape, or a read of a
number of bytes (R81, R83). -/
inductive BarAccess where
  | write | read0 (len : BitVec 13) | read2 (len : BitVec 13)
  deriving DecidableEq, Repr

/-- A frame source of a pipeline (R173). -/
inductive Source where
  | net (p : NPort) | host | recirc | handoff
  deriving DecidableEq, Repr

/-- A bucket of the lazy refill (R294, R297). -/
inductive Bucket where
  | leaf (n : BitVec 20) | group (n : BitVec 16) | cls (n : BitVec 9) | port (p : TmPort) | meter (n : BitVec 18)
  deriving DecidableEq, Repr

/-- One active namespace of a pack, as its identify data gives it (R529). -/
structure PackNs where
  nsid : BitVec 32
  lbads : BitVec 8
  deallocZero : Bool
  capacity : BitVec 64
  deriving DecidableEq, Repr

/-- What a pack reports at INIT (R456, R451). -/
structure PackIdent where
  serial : Bytes
  model : Bytes
  firmware : BitVec 64
  ioQueues : BitVec 7
  nvme20 : Bool
  /-- MDTS in bytes; 0 when the pack states no limit (R450). -/
  mdts : Nat
  /-- AWUPF of Identify Controller (R424). -/
  awupf : BitVec 16
  pct : BitVec 8
  crit : BitVec 8
  namespaces : List PackNs
  deriving DecidableEq, Repr

/-- How one chunk of a rebuild ends (R466, R467): with the data read from the in-sync extent, where the read gave any. -/
inductive ChunkResult where
  | copied (data : Bytes) | sourceFailed | targetFailed (data : Bytes)
  deriving DecidableEq, Repr

/-- A storage member of a journal record (R487). -/
structure MediaMember where
  fns : BitVec 16
  zero : Bool
  slba : BitVec 64
  nblocks : BitVec 32
  data : Bytes
  deriving DecidableEq, Repr

/-- A record in the scanned part of a log that is whole (R487): its seq, domain and token, whether a retire or cancel
entry names it, and its members. -/
structure MediaRecord where
  seq : BitVec 64
  domain : BitVec 13
  token : BitVec 64
  named : Bool
  members : List MediaMember
  deriving DecidableEq, Repr

/-- What the journal medium holds when it is opened (R490): of a journal, the seq after its last whole entry, the offset
in the log after it and the log bytes in use, the tokens of each domain's pack token ring, oldest first, and the whole records from the head, in seq order. -/
inductive JournalMedia where
  | blank
  | journal (nextSeq : BitVec 64) (tail used : Nat) (tokens : List (BitVec 13 × BitVec 64)) (records : List MediaRecord)
  | foreign | readFailed
  deriving DecidableEq, Repr

/-- The SMBus/MCTP message types the endpoint serves (R553). -/
inductive MctpKind where
  | control | pldm | vendor | other
  deriving DecidableEq, Repr

/-- The JTAG instructions (R555). -/
inductive JtagInstr where
  | bypass | idcode | sample | preload | extest | extestPulse | extestTrain | clamp | highz | debug
  deriving DecidableEq, Repr

/-- The commands of the block, in the order of the table. -/
inductive Instr where
  /-- VDD_AON_GOOD (R34): VDD_AON comes within range; the device enters stage 0 and samples the bypass strap balls. -/
  | vddAonGood (pb01 pb23 : BitVec 2)
  /-- PLANT_REFERENCE_STABLE (R40): The 25 MHz plant reference becomes stable, which starts the 2 ms bypass bring-up bound. -/
  | plantReferenceStable
  /-- BYPASS_START (R40): The Caraway bypass begins forwarding every permitted pair no later than 2 ms after VDD_AON good and the reference are both present. -/
  | bypassStart
  /-- BYPASS_FRAME (R40): A frame arriving on a bypassed plant lane is re-timed and forwarded unchanged to the partner lane after a fixed elastic delay. -/
  | bypassFrame (port : PPort) (frame : Bytes) (fcsOk : Bool)
  /-- VDD_AON_LOSS (R65): Loss of VDD_AON stops the bypass and loses everything except the fuses. -/
  | vddAonLoss
  /-- PERST_ASSERT (R65): PERST# asserted takes the host link down, asserts the bypass within 2 µs and holds the device in stage 0. -/
  | perstAssert
  /-- PERST_RELEASE (R43): PERST# released starts stage 1: fuse sensing, BIST, DRAM training and scrub. -/
  | perstRelease
  /-- FUSE_SENSE_DONE (R43): Fuse sensing completes with identity CRC check and majority vote, after which the SMBus/MCTP endpoint answers. -/
  | fuseSenseDone
  /-- BIST_DONE (R46): BIST of every on-die array completes; a failure sets bist_fail and posts BIST_FAIL. -/
  | bistDone (fail : Option BistFail)
  /-- DRAM_TRAIN_DONE (R43): Training and zero-scrub of both DRAM stacks completes. -/
  | dramTrainDone (failed : Bool)
  /-- STAGE1_DONE (R43): Configuration space and setup space come up with their after-stage-1 values and stage1_done is set. -/
  | stage1Done
  /-- RRS_PERIOD_END (R44): 60 ms after PERST# release, counted on the plant reference, the device stops answering configuration requests with RRS. -/
  | rrsPeriodEnd
  /-- CONFIGURATION_REQUEST (R44): A configuration request is answered with RRS during the RRS period, or live afterwards, or with Unsupported Request for an absent function. -/
  | configurationRequest (fn : Fn) (off : BitVec 12)
  /-- CONFIG_WRITE (R84): A configuration write without behaviour of its own sets configuration fields such as Memory Space Enable or MSI-X Enable. -/
  | configWrite (fn : Fn) (field : CfgField) (v : BitVec 32)
  /-- BOOT_ENABLE (R37): A write of boot_enable in stage 1 enters stage 2 if stage1_done is 1 and bist_fail is 0, otherwise sets boot_refused. -/
  | bootEnable
  /-- GO_SERVICE (R63): A write of go_service in stage 2 requests stage 3, which is decided once the boot ring holds no fetched descriptor. -/
  | goService
  /-- STAGE3_ENTRY (R63): With no boot descriptor fetched, the device enters stage 3 and PF0 instance 0 becomes ON, or sets go_refused. -/
  | stage3Entry
  /-- BOOT_DESCRIPTOR_FETCH (R55): The boot sequencer fetches the next boot descriptor while prod differs from head and Bus Master Enable of PF0 is 1. -/
  | bootDescriptorFetch (d : Read × Ecc)
  /-- BOOT_LOAD (R57): A BOOT_LOAD copies an image to staging, checks it in order and writes its target or fails with the first failing status. -/
  | bootLoad (img : Read)
  /-- BOOT_FUSE (R61): A BOOT_FUSE checks a fuse authorisation image and burns the anti-rollback and revocation links it asks for. -/
  | bootFuse (img : Read)
  /-- FUSE_LINK_BURN (R61): A fuse link burn of 60 µs completes and is verified, failing the operation with BURN_FAIL on a bad verify. -/
  | fuseLinkBurn (verified : Bool)
  /-- HOT_RESET (R65): A hot reset asserts the bypass within 2 µs and returns the device to stage 1, repeating all of stage 1. -/
  | hotReset
  /-- DL_DOWN (R95): A DL_Down of the host link not caused by PERST# acts as a hot reset. -/
  | dlDown
  /-- FLR_PF0 (R65): An FLR on PF0 asserts the bypass and returns to stage 1, repeating only array clears and DRAM scrub. -/
  | flrPf0
  /-- FLR (R96): An FLR on PF1, PF2 or PF3 resets that function's configuration, increments its epoch, drains its instances and quiesces its queues. -/
  | flr (fn : Fn)
  /-- FLR_DONE (R97): The FLR of PF1 to PF3 completes and configuration requests to the function stop completing with RRS. -/
  | flrDone (fn : Fn)
  /-- D3HOT_ENTRY (R92): A function entering D3hot stops its DMA; when all present functions are in D3hot the device enters device-wide D3hot. -/
  | d3hotEntry (fn : Fn)
  /-- D0_RETURN (R93): A return from D3hot to D0 keeps setup, leaves queues quiesced and the plant pairs in bypass. -/
  | d0Return (fn : Fn)
  /-- BUS_MASTER_ENABLE_CLEAR (R99): Bus Master Enable of a function changes from 1 to 0, stopping new requests and quiescing every queue of the function. -/
  | busMasterEnableClear (fn : Fn)
  /-- BUS_MASTER_ENABLE_SET (R100): Bus Master Enable changes to 1, resuming the boot sequencer, waiting quiesce requests, pending messages and overflow re-reads. -/
  | busMasterEnableSet (fn : Fn)
  /-- PASID_ENABLE_CHANGE (R151): A change of PASID Enable in a function faults every ON instance other than instance 0 with a generation increment and drain. -/
  | pasidEnableChange (fn : Fn) (on : Bool)
  /-- LINK_TRAIN (R71): The host link trains to its rate and width and enters Flit Mode where the partner supports it. -/
  | linkTrain (speed : BitVec 3) (width : BitVec 5) (flit : Bool)
  /-- REGISTER_WRITE (R10): A BAR0 write to a register with no behaviour of its own sets its RW, W1C or W1S fields. -/
  | registerWrite (fn : Fn) (off : BitVec 26) (four : Bool) (v : BitVec 64)
  /-- BAD_SHAPE_ACCESS (R81): A BAR0 access that is not a naturally aligned 4-byte or 8-byte access completes with Unsupported Request or is dropped and counted. -/
  | badShapeAccess (fn : Fn) (off : BitVec 26) (access : BarAccess)
  /-- PEER_WRITE (R105): An inbound memory write to PF3 BAR4 is matched against the active peer windows and lands in the image region or is dropped whole. -/
  | peerWrite (off : BitVec 30) (data : Bytes) (err : TlpErr)
  /-- PEER_READ (R105): A memory read to PF3 BAR4 completes with Unsupported Request. -/
  | peerRead (off : BitVec 30)
  /-- PW_COMMIT (R104): A write to HL_PW_COMMIT copies the selected shadow peer windows to their active sets together, or refuses the whole write. -/
  | pwCommit (v : BitVec 64)
  /-- QUIESCE (R100): A request bit of HL_FN_QUIESCE disables every queue of a function, writing held completions and publishing exact heads. -/
  | quiesce (v : BitVec 64)
  /-- PTM_TRIGGER (R102): A write of HL_PTM_CTRL.trigger starts one PTM exchange, or sets failed if PTM Enable is 0. -/
  | ptmTrigger (cyc : Cyc)
  /-- PTM_PERIOD (R102): The periodic PTM timer expires and starts a PTM exchange. -/
  | ptmPeriod (cyc : Cyc)
  /-- PTM_RESPONSE (R102): A PTM Response arrives and t1, t4, master time and propagation delay are latched and seq incremented. -/
  | ptmResponse (master : BitVec 64) (prop : BitVec 32) (cyc : Cyc)
  /-- PTM_TIMEOUT (R102): A PTM exchange sees no response within 10 ms and sets failed. -/
  | ptmTimeout
  /-- READ_COMPLETION (R89): A completion for a device read arrives and is used, discarded, dropped for a stale epoch, or fails its work. -/
  | readCompletion (fn : Fn) (epoch : BitVec 4) (work : ReadWork) (r : Read)
  /-- COMPLETION_TIMEOUT (R89): A device read meets a Completion Timeout and the work that issued it fails with DMA_TIMEOUT. -/
  | completionTimeout (fn : Fn) (work : ReadWork)
  /-- L1_ENTRY (R91): After l1_idle Clove ticks with no TLP pending the link requests ASPM L1. -/
  | l1Entry
  /-- MAGIC_PACKET (R94): A magic-packet frame on an enabled network port in device-wide D3hot raises PME. -/
  | magicPacket (port : NPort)
  /-- LANE_SIGNAL_CHANGE (R94): Loss or gain of lane signal on an enabled plant port in device-wide D3hot raises PME. -/
  | laneSignalChange (port : PPort) (gain : Bool)
  /-- PPS_IN_LOSS (R94): No PPS_IN edge for 2 s in device-wide D3hot raises PME when enabled. -/
  | ppsInLoss
  /-- CLOVE_TICK (R24): A 1.024 µs Clove tick reaches each fabric consumer exactly once and in order. -/
  | cloveTick
  /-- PACE_WINDOW (R25): A pace monitor window of W ticks ends and each index, current, extremes and window_seq are updated. -/
  | paceWindow (completions : List (BitVec 32))
  /-- CLEAR_EXTREMES (R27): A write of clear_extremes loads min_seen with 0xFFFF and max_seen with 0x0000. -/
  | clearExtremes
  /-- TEMP (R33): The junction sensors read above +130 °C for 10 µs and the device raises a device fault. -/
  | temp (sensor : BitVec 4)
  /-- VCORE (R33): The VDD_CORE monitor reads below 0.705 V for 1 µs and the device raises a device fault. -/
  | vcore
  /-- THERM_TRIP (R550): Any sensor at +140 °C or more for 100 µs asserts THERM_TRIP_N until VDD_AON is lost. -/
  | thermTrip
  /-- HINT (R128): An 8-byte hint written to an instance hint page triggers a doorbell record read, arms an event queue, or is dropped and counted. -/
  | hint (fn : Fn) (page : BitVec 10) (chunk : BitVec 64) (bytes : Nat) (intakeFull : Bool)
  /-- DOORBELL_RECORD_RETURN (R128): A doorbell record read returns; P is checked, p_seen updated, fetching runs up to P and a re-read is issued if owed. -/
  | doorbellRecordReturn (fn : Fn) (fq : BitVec 20) (r : Read)
  /-- SWEEP (R129): An instance's sweep period expires and the record of every sweep-enabled running queue is read in queue order. -/
  | sweep (fn : Fn) (inst : BitVec 10)
  /-- DESCRIPTOR_FETCH (R123): The queue engine fetches a descriptor and checks lap, opcode, reserved bits and share, stopping the queue on the first failure. -/
  | descriptorFetch (fn : Fn) (fq : BitVec 20) (r : Read) (ecc : FetchErr)
  /-- COMPLETION_BATCH (R131): The device writes up to 64 completion overwrites for a queue and publishes the head record after them. -/
  | completionBatch (fn : Fn) (fq : BitVec 20)
  /-- NOP (R122): A NOP descriptor completes done with status OK and no other effect. -/
  | nop (fn : Fn) (fq : BitVec 20)
  /-- COUNT_DELTA (R484): A COUNT_DELTA adds two deltas atomically to one counter pair of a bulk pipeline. -/
  | countDelta (fn : Fn) (fq : BitVec 20)
  /-- QUEUE_CONFIG (R137): A QUEUE_CONFIG writes the host fields of a disabled queue's context after its checks. -/
  | queueConfig (cq : BitVec 20)
  /-- QUEUE_ENABLE (R133): A QUEUE_ENABLE sets head, fetch and p_seen to the start index of a disabled queue and makes it RUNNING. -/
  | queueEnable (cq : BitVec 20)
  /-- QUEUE_DISABLE (R135): A QUEUE_DISABLE stops fetching, discards work not past its commit point and finishes work past it. -/
  | queueDisable (cq : BitVec 20)
  /-- DISABLE_DONE (R135): The last past-commit entry of a disabling queue finishes and the exact head is published with a QUEUE_STOPPED event. -/
  | disableDone (fn : Fn) (fq : BitVec 20)
  /-- QUEUE_RESUME (R136): A QUEUE_RESUME restarts a stopped queue at latched or latched + 1, or fails with BAD_INDEX. -/
  | queueResume (cq : BitVec 20)
  /-- EVQ_CONFIG (R138): An EVQ_CONFIG enables an event queue with its start index, or stops it and discards its held events. -/
  | evqConfig (cq : BitVec 20)
  /-- QE_CTL_ENABLE (R558): A write of QE_CTL_GO.enable configures and enables a queue of PF0 instance 0 from the QE_CTL registers. -/
  | qeCtlEnable
  /-- QE_CTL_DISABLE (R558): A write of QE_CTL_GO.disable disables a queue of PF0 instance 0. -/
  | qeCtlDisable
  /-- CONSUMER_RECORD_RETURN (R143): A consumer record read returns; a full queue is declared in overflow, or space ends the overflow with an OVERFLOW event. -/
  | consumerRecordReturn (fn : Fn) (fevq : BitVec 16) (r : Read × Ecc)
  /-- OVERFLOW_REREAD (R143): While overflow is set, the 10 µs period expires and the consumer record is read again. -/
  | overflowReread (fn : Fn) (fevq : BitVec 16)
  /-- INTERRUPT_MESSAGE (R145): An owed message from the interrupt message store is sent once mask, R86 conditions and holdoff allow. -/
  | interruptMessage (g : BitVec 16 × Ecc)
  /-- INST_ENABLE (R152): An INST_ENABLE makes an OFF instance ON after its checks. -/
  | instEnable (cq : BitVec 20)
  /-- INST_DISABLE (R151): An INST_DISABLE makes an ON instance with all queues disabled OFF. -/
  | instDisable (cq : BitVec 20)
  /-- INST_RESET (R151): An INST_RESET increments the generation and drains the instance, or joins a drain in progress. -/
  | instReset (cq : BitVec 20)
  /-- DLOG_EPOCH (R166): A DLOG_EPOCH closes the current dirty-page log epoch and opens the next one with a new ring. -/
  | dlogEpoch (cq : BitVec 20)
  /-- DRAIN_COMPLETE (R159): No work of an older generation remains and the instance's queues are set for the cause that decides the outcome. -/
  | drainComplete (fn : Fn) (inst : BitVec 10)
  /-- FN_SHARE_WRITE (R149): A write to IM_FN_SHARE.n_log2 changes the instance count only under its conditions, otherwise sets refused. -/
  | fnShareWrite (fn : Fn) (v : BitVec 64)
  /-- INST_REGISTER_WRITE (R153): A write of pasid or bind_id in IM_INST takes effect only while the instance is OFF and exists, otherwise counts in IM_REFUSED. -/
  | instRegisterWrite (fn : Fn) (inst : BitVec 10) (wordB : Bool) (v : BitVec 64)
  /-- NP_MODE_WRITE (R172): A write to NP_MODE sets the lane mode only while every network port is disabled, otherwise sets refused. -/
  | npModeWrite (v : BitVec 64)
  /-- NETWORK_FRAME_RECEIVE (R280): A frame arriving at a network port is admitted to the packet buffer by ingress accounting or dropped. -/
  | networkFrameReceive (port : NPort) (frame : Bytes) (fcsOk : Bool × BitVec 16 × BitVec 16) (overflow : Bool) (cyc : Cyc)
  /-- NETWORK_LINK_UP (R281): A network port's link comes up and the device computes and reserves PFC headroom per priority. -/
  | networkLinkUp (port : NPort)
  /-- DEAL (R175): The dealer chooses a source by weighted round robin and gives its frame to the next idle parse unit with a reorder entry. -/
  | deal (pl : BulkPl)
  /-- PARSE_NOP (R206): A parse microword with op NOP has no effect beyond its extract, stack and next-address control. -/
  | parseNop (pl : Pl) (unit : Fin 32) (err : ParseErr)
  /-- PARSE_MOV (R206): A parse MOV writes A to dst. -/
  | parseMov (pl : Pl) (unit : Fin 32) (err : ParseErr)
  /-- PARSE_ADD (R206): A parse ADD writes A + B mod 2^32 to dst. -/
  | parseAdd (pl : Pl) (unit : Fin 32) (err : ParseErr)
  /-- PARSE_SUB (R206): A parse SUB writes A − B mod 2^32 to dst. -/
  | parseSub (pl : Pl) (unit : Fin 32) (err : ParseErr)
  /-- PARSE_AND (R206): A parse AND writes A AND B to dst. -/
  | parseAnd (pl : Pl) (unit : Fin 32) (err : ParseErr)
  /-- PARSE_OR (R206): A parse OR writes A OR B to dst. -/
  | parseOr (pl : Pl) (unit : Fin 32) (err : ParseErr)
  /-- PARSE_XOR (R206): A parse XOR writes A XOR B to dst. -/
  | parseXor (pl : Pl) (unit : Fin 32) (err : ParseErr)
  /-- PARSE_SHL (R206): A parse SHL writes A shifted left by B[4:0] to dst. -/
  | parseShl (pl : Pl) (unit : Fin 32) (err : ParseErr)
  /-- PARSE_SHR (R206): A parse SHR writes A shifted right logically by B[4:0] to dst. -/
  | parseShr (pl : Pl) (unit : Fin 32) (err : ParseErr)
  /-- CMPEQ (R206): A parse CMPEQ sets c to A = B. -/
  | parseCmpeq (pl : Pl) (unit : Fin 32) (err : ParseErr)
  /-- CMPLT (R206): A parse CMPLT sets c to A < B unsigned. -/
  | parseCmplt (pl : Pl) (unit : Fin 32) (err : ParseErr)
  /-- TEST (R206): A parse TEST sets c when A AND B is not 0. -/
  | parseTest (pl : Pl) (unit : Fin 32) (err : ParseErr)
  /-- RANGE (R206): A parse RANGE sets c when A lies within the immediate bounds. -/
  | parseRange (pl : Pl) (unit : Fin 32) (err : ParseErr)
  /-- ADVANCE (R206): A parse ADVANCE adds A[15:0] to the cursor. -/
  | parseAdvance (pl : Pl) (unit : Fin 32) (err : ParseErr)
  /-- SETCUR (R206): A parse SETCUR loads the cursor with A[15:0]. -/
  | parseSetcur (pl : Pl) (unit : Fin 32) (err : ParseErr)
  /-- MARK (R206): A parse MARK sets an offset slot of the current layer and, for slot 1, its l3 kind. -/
  | parseMark (pl : Pl) (unit : Fin 32) (err : ParseErr)
  /-- TAG (R206): A parse TAG stores a tag slot and kind, advances the cursor, and makes a ninth tag malformed with TAG_LIMIT. -/
  | parseTag (pl : Pl) (unit : Fin 32) (err : ParseErr)
  /-- TUNNEL (R206): A parse TUNNEL opens a new layer, or makes the frame malformed with TUNNEL_LIMIT at layer 3. -/
  | parseTunnel (pl : Pl) (unit : Fin 32) (err : ParseErr)
  /-- EMIT (R206): A parse EMIT writes A big-endian into the field area of the parse record. -/
  | parseEmit (pl : Pl) (unit : Fin 32) (err : ParseErr)
  /-- SETF (R206): A parse SETF clears and sets bits of uflags. -/
  | parseSetf (pl : Pl) (unit : Fin 32) (err : ParseErr)
  /-- CSUM (R206): A parse CSUM sets the checksum request flags and layer of the record. -/
  | parseCsum (pl : Pl) (unit : Fin 32) (err : ParseErr)
  /-- HASH (R206): A parse HASH continues the CRC-32C hash state over A and B and sets hash_valid. -/
  | parseHash (pl : Pl) (unit : Fin 32) (err : ParseErr)
  /-- MALF (R206): A parse MALF makes the frame malformed with a microcode-defined reason and ends the run. -/
  | parseMalf (pl : Pl) (unit : Fin 32) (err : ParseErr)
  /-- STEP_LIMIT (R212): A run that reaches step_limit words without committing makes the frame malformed with STEP_LIMIT. -/
  | stepLimit (pl : Pl) (unit : Fin 32)
  /-- REORDER_RELEASE (R176): A reorder entry whose parse is done, frame whole and older entries released is released to the chain or its malformed action. -/
  | reorderRelease (pl : BulkPl) (src : Source × Ecc)
  /-- CLASSIFY_STAGE (R231): A chain stage builds its key, makes its lookup and applies its action entry to the frame. -/
  | classifyStage (pl : BulkPl) (frame : Nat) (err : ClassErr)
  /-- HEADER_EDIT (R186): The header editor runs the frame's edit program, or makes it malformed with EDIT_FAULT. -/
  | headerEdit (pl : BulkPl) (frame : Nat × Ecc)
  /-- EPOCH_FLIP (R242): A requested flip proceeds once retired equals current, raising current between two dealings. -/
  | epochFlip (pl : Pl)
  /-- ACT_WRITE (R245): An ACT_WRITE writes an action entry to the named pipelines through an epoch flip. -/
  | actWrite (cq : BitVec 20)
  /-- JT_NODE_WRITE (R245): A JT_NODE_WRITE writes Juniper nodes from host memory into the named pipelines. -/
  | jtNodeWrite (cq : BitVec 20) (r : Read)
  /-- JT_RULE_WRITE (R245): A JT_RULE_WRITE writes rule slots from host memory into the named pipelines. -/
  | jtRuleWrite (cq : BitVec 20) (r : Read)
  /-- JT_ROOT_WRITE (R245): A JT_ROOT_WRITE switches a Juniper root entry through an epoch flip. -/
  | jtRootWrite (cq : BitVec 20)
  /-- DIR_WRITE (R269): A DIR_WRITE writes a direct exact-match entry to the named pipelines. -/
  | dirWrite (cq : BitVec 20)
  /-- STA_WRITE (R269): A STA_WRITE places, replaces or deletes a station entry in the named pipelines. -/
  | staWrite (cq : BitVec 20)
  /-- LPM_WRITE (R267): An LPM_WRITE adds, replaces or deletes a prefix by building copied nodes and making one epoch-bound change. -/
  | lpmWrite (cq : BitVec 20)
  /-- STA_FLUSH (R263): A STA_FLUSH removes in one pass the non-static station entries matching its filter. -/
  | staFlush (cq : BitVec 20)
  /-- HASH_SEED_WRITE (R273): A write to FT_HASH_SEED is dropped and sets seed_refused while any station entry is valid or reserved. -/
  | hashSeedWrite (pl : Pl) (v : BitVec 64)
  /-- LEARN_REQUEST (R258): A learn request reaches its pipeline's learn engine and is held, applied late, or dropped when the hold set is full. -/
  | learnRequest (pl : Pl)
  /-- LEARN_APPLY (R258): A held learn request whose hold has ended places, refreshes or moves a station entry and posts its learn event. -/
  | learnApply (pl : Pl)
  /-- AGE_TICK (R262): An age tick advances now and the scanner removes station entries older than age_limit. -/
  | ageTick (pl : Pl)
  /-- TX_SEND (R189): A TX_SEND reads a frame's segments, computes checksums, applies a context and admits the frame to its leaf queue. -/
  | txSend (fn : Fn) (fq : BitVec 20) (r : Read)
  /-- TX_LAUNCH (R189): A TX_LAUNCH admits a frame to a plant leaf to be sent at its launch time. -/
  | txLaunch (fn : Fn) (fq : BitVec 20) (r : Read)
  /-- TX_PIPE (R190): A TX_PIPE sends a frame with initial metadata into a bulk pipeline as its host source. -/
  | txPipe (fn : Fn) (fq : BitVec 20) (r : Read)
  /-- RX_BUF (R192): An RX_BUF posts a receive buffer for the next frame forwarded to the queue's leaf. -/
  | rxBuf (fn : Fn) (fq : BitVec 20)
  /-- RX_DELIVER (R193): A frame waiting on a NET_RX leaf is written to a fetched RX_BUF buffer and the entry completed, or dropped as too long. -/
  | rxDeliver (fn : Fn) (fq : BitVec 20) (ecc : Ecc)
  /-- SPILL_RETURN (R287): A spilled head frame of an otherwise eligible leaf is brought back on die into spill return. -/
  | spillReturn (leaf : BitVec 20 × Ecc)
  /-- SCHEDULE_CHOICE (R290): When a port can take a frame the scheduler picks class, function, instance, group and leaf and starts the frame, debiting its shapers. -/
  | scheduleChoice (port : TmPort) (err : SchedErr) (cyc : Cyc)
  /-- BUCKET_SWEEP (R294): The sweep touches a bucket, bringing its tokens up to the current tick. -/
  | bucketSweep (b : Bucket × Residue)
  /-- PFC_REFRESH (R282): Half of 0xFFFF quanta passes in XOFF and the device sends PFC with quanta 0xFFFF again. -/
  | pfcRefresh (port : NPort) (k : Fin 8)
  /-- PFC_XON (R282): Headroom use falls to 0 and shared room returns, so the device sends PFC with quanta 0 and returns to XON. -/
  | pfcXon (port : NPort) (k : Fin 8)
  /-- PFC_RECEIVE (R283): A received PFC frame pauses or releases priorities of a network port and is consumed and counted. -/
  | pfcReceive (port : NPort) (prios : BitVec 8) (quanta : List (BitVec 16))
  /-- PFC_PAUSE_EXPIRY (R283): The pause timer of a priority runs out and its classes may start frames again. -/
  | pfcPauseExpiry (port : NPort) (k : Fin 8)
  /-- TM_LEAF_WRITE (R300): A TM_LEAF_WRITE sets a leaf's parent, enable, weight, limit and shaper, optionally flushing its frames. -/
  | tmLeafWrite (cq : BitVec 20 × Residue)
  /-- TM_GROUP_WRITE (R300): A TM_GROUP_WRITE sets a group node's parent, enable, weight and shaper. -/
  | tmGroupWrite (cq : BitVec 20 × Residue)
  /-- TM_CLASS_WRITE (R300): A TM_CLASS_WRITE sets a class node's port, priority, weight, flags, alpha, gate and shaper. -/
  | tmClassWrite (cq : BitVec 20 × Residue)
  /-- TM_METER_WRITE (R300): A TM_METER_WRITE sets a meter's mode, rates and bursts, pending until the next tick boundary. -/
  | tmMeterWrite (cq : BitVec 20 × Residue)
  /-- BUF_CTRL_WRITE (R302): A write to TM_BUF_CTRL enables or disables spill and sets its placement, or is refused. -/
  | bufCtrlWrite (v : BitVec 64)
  /-- PLANT_FRAME_RECEIVE (R307): A frame arriving at a plant port is admitted and dealt to a plant parse unit once its lookup window is in. -/
  | plantFrameReceive (port : PPort) (frame : Bytes) (overflow : Bool) (cyc : Cyc)
  /-- PLANT_RELEASE (R308): A plant reorder entry is released on commit without waiting for the frame's last bit and passes the fixed plant chain. -/
  | plantRelease (port : PPort) (ecc : Ecc)
  /-- PLANT_FRAME_END (R308): A plant frame's last bit arrives; a bad FCS cuts or frees its copies, a good one allows hand-off, deposits and learning. -/
  | plantFrameEnd (port : PPort) (fcsOk : Bool) (cyc : Cyc)
  /-- STREAM_WRITE (R316): A STREAM_WRITE places or removes a stream table entry. -/
  | streamWrite (cq : BitVec 20)
  /-- GATE_INTERVAL_END (R325): An oper schedule interval ends and the gate states of the next entry apply. -/
  | gateIntervalEnd (blk : Fin 68)
  /-- CYCLE_START (R325): A cycle start of a port's oper schedule begins a new cycle of its gate list. -/
  | cycleStart (blk : Fin 68 × BitVec 13 × Ecc)
  /-- SCHEDULE_CHANGE (R326): A write of change copies admin parameters to a pending set and sets the switch time, or is refused. -/
  | scheduleChange (blk : Fin 68) (cyc : Cyc)
  /-- SCHEDULE_SWITCH (R326): At the first cycle boundary at or after the switch time the pending set becomes the oper schedule. -/
  | scheduleSwitch (blk : Fin 68)
  /-- LAUNCH_ELIGIBLE (R329): A TX_LAUNCH head frame becomes eligible lead_ns before its launch time. -/
  | launchEligible (leaf : BitVec 20)
  /-- LAUNCH_LATE (R329): A launch frame cannot start by launch + late_ns, so launch_late is counted and the frame freed or sent late. -/
  | launchLate (leaf : BitVec 20)
  /-- CK_STEP (R320): A write to CK_STEP_NS adds the signed offset to Clove time, or is refused and sets step_refused. -/
  | ckStep (v : BitVec 64) (cyc : Cyc)
  /-- TIME_LATCH (R320): A read of CK_TIME_NS latches the whole Clove time for a following read of CK_TIME_SEC. -/
  | timeLatch (cyc : Cyc)
  /-- CLOVE_REF (R320): The selected 10 MHz input shows no edge for 1 µs; the time base enters holdover, sets ref_lost and posts CLOVE_REF. -/
  | cloveRef
  /-- PPS_OUT_EDGE (R322): At each whole second of Clove time PPS_OUT rises and stays high for pps_width_ms. -/
  | ppsOutEdge
  /-- PPS_IN_EDGE (R322): A rising edge of PPS_IN latches Clove time into CK_PPS_IN and increments seq. -/
  | ppsInEdge (cyc : Cyc)
  /-- ARM (R331): A write of arm checks the pair and arms takeover at time T, or records the refusal result. -/
  | arm (pair : Fin 2) (cyc : Cyc)
  /-- DISARM (R331): A write of disarm cancels an armed takeover and returns the pair to BYPASS. -/
  | disarm (pair : Fin 2)
  /-- RELEASE (R331): A write of release returns a pair in TAKING or SERVICE to bypass with a PAIR_BYPASS event. -/
  | release (pair : Fin 2) (cyc : Cyc)
  /-- TAKEOVER_TIME (R331): Clove time reaches T; the checks are made again and the pair splits its ingress and enters TAKING, or returns to BYPASS. -/
  | takeoverTime (pair : Fin 2)
  /-- PAIR_TAKEN (R333): Both egresses of a taking pair are drained and handed to the service MACs; the pair enters SERVICE. -/
  | pairTaken (pair : Fin 2) (cyc : Cyc)
  /-- RX_IMAGE_FLIP (R339): After deposits of frames stamped before the boundary have landed, every RX image flips. -/
  | rxImageFlip (port : PPort)
  /-- IMG_PUT (R340): An IMG_PUT copies a host buffer into an image's back buffer, with optional read-back retries. -/
  | imgPut (fq : BitVec 20) (r : Read) (seqBefore : BitVec 64) (seqAfter : BitVec 64 × Ecc)
  /-- IMG_GET (R340): An IMG_GET copies an image's front buffer into a host buffer and returns flips, deposit count and boundary time. -/
  | imgGet (fq : BitVec 20) (flipped : Bool) (back : Read × Ecc)
  /-- IG_CTRL_WRITE (R350): A write to IG_CTRL enables the image engine or sets the image region base, or is dropped and sets refused. -/
  | igCtrlWrite (v : BitVec 64)
  /-- CTX_WRITE (R356): A CTX_WRITE reads and checks a context image at fetch and writes it at its commit point. -/
  | ctxWrite (cq : BitVec 20) (r : Read)
  /-- CTX_CLEAR (R356): A CTX_CLEAR empties a context and zeroes its key and seq. -/
  | ctxClear (cq : BitVec 20)
  /-- CONTEXT_FILL (R366): A context cache miss fills the context from DRAM. -/
  | contextFill (g : BitVec 20) (ecc : Ecc)
  /-- CX_CTRL_WRITE (R368): A write to CX_CTRL sets the context region base and event queue, or is dropped and sets refused. -/
  | cxCtrlWrite (v : BitVec 64)
  /-- MSG_POST (R382): A MSG_POST delivers one message to a flow-core or housekeeping mailbox, waiting while the mailbox is full. -/
  | msgPost (fn : Fn) (fq : BitVec 20)
  /-- MAILBOX_DELIVERY (R378): A waiting CORE_MSG message is delivered when a RECV frees an unreserved slot. -/
  | mailboxDelivery (core : CoreHk) (mbox : Fin 32)
  /-- TURN_LIMIT (R373): A thread executes its 64th instruction of the turn and goes to READY. -/
  | turnLimit (core : CoreHk)
  /-- LONG_STALL_END (R373): A thread's long-stall access, call or wait completes and the thread becomes READY. -/
  | longStallEnd (core : CoreHk) (t : Thr)
  /-- THREAD_SWITCH (R374): At a switch the core gives the next turn to the first READY thread after the last one that ran. -/
  | threadSwitch (core : CoreHk)
  /-- ADD (R401): ALU ADD writes ra + rb mod 2^64 to rd. -/
  | fcAdd (core : CoreHk) (t : Thr) (err : FcErr)
  /-- SUB (R401): ALU SUB writes ra − rb mod 2^64 to rd. -/
  | fcSub (core : CoreHk) (t : Thr) (err : FcErr)
  /-- AND (R401): ALU AND writes ra AND rb to rd. -/
  | fcAnd (core : CoreHk) (t : Thr) (err : FcErr)
  /-- OR (R401): ALU OR writes ra OR rb to rd. -/
  | fcOr (core : CoreHk) (t : Thr) (err : FcErr)
  /-- XOR (R401): ALU XOR writes ra XOR rb to rd. -/
  | fcXor (core : CoreHk) (t : Thr) (err : FcErr)
  /-- SHL (R401): ALU SHL writes ra shifted left by rb[5:0] to rd. -/
  | fcShl (core : CoreHk) (t : Thr) (err : FcErr)
  /-- SHR (R401): ALU SHR writes ra shifted right logically by rb[5:0] to rd. -/
  | fcShr (core : CoreHk) (t : Thr) (err : FcErr)
  /-- SAR (R401): ALU SAR writes ra shifted right arithmetically by rb[5:0] to rd. -/
  | fcSar (core : CoreHk) (t : Thr) (err : FcErr)
  /-- SEQ (R401): ALU SEQ writes 1 to rd if ra equals rb, else 0. -/
  | fcSeq (core : CoreHk) (t : Thr) (err : FcErr)
  /-- SLT (R401): ALU SLT writes 1 to rd if ra is below rb signed, else 0. -/
  | fcSlt (core : CoreHk) (t : Thr) (err : FcErr)
  /-- SLTU (R401): ALU SLTU writes 1 to rd if ra is below rb unsigned, else 0. -/
  | fcSltu (core : CoreHk) (t : Thr) (err : FcErr)
  /-- MUL (R401): ALU MUL writes the low 64 bits of ra × rb to rd. -/
  | fcMul (core : CoreHk) (t : Thr) (err : FcErr)
  /-- MULHU (R401): ALU MULHU writes the high 64 bits of the unsigned product to rd. -/
  | fcMulhu (core : CoreHk) (t : Thr) (err : FcErr)
  /-- DSTEP (R401): ALU DSTEP performs one step of unsigned 32-bit division. -/
  | fcDstep (core : CoreHk) (t : Thr) (err : FcErr)
  /-- SLTU128 (R401): ALU SLTU128 compares two 128-bit register pairs unsigned. -/
  | fcSltu128 (core : CoreHk) (t : Thr) (err : FcErr)
  /-- CLZ (R401): ALU CLZ writes the count of leading zeros of ra. -/
  | fcClz (core : CoreHk) (t : Thr) (err : FcErr)
  /-- POPC (R401): ALU POPC writes the count of 1 bits of ra. -/
  | fcPopc (core : CoreHk) (t : Thr) (err : FcErr)
  /-- BSWAP (R401): ALU BSWAP writes ra with its eight bytes reversed. -/
  | fcBswap (core : CoreHk) (t : Thr) (err : FcErr)
  /-- ADDI (R402): ALUI ADDI writes ra plus the sign-extended immediate. -/
  | fcAddi (core : CoreHk) (t : Thr) (err : FcErr)
  /-- ANDI (R402): ALUI ANDI writes ra AND the zero-extended immediate. -/
  | fcAndi (core : CoreHk) (t : Thr) (err : FcErr)
  /-- ORI (R402): ALUI ORI writes ra OR the zero-extended immediate. -/
  | fcOri (core : CoreHk) (t : Thr) (err : FcErr)
  /-- XORI (R402): ALUI XORI writes ra XOR the zero-extended immediate. -/
  | fcXori (core : CoreHk) (t : Thr) (err : FcErr)
  /-- SHLI (R402): ALUI SHLI shifts ra left by an immediate amount. -/
  | fcShli (core : CoreHk) (t : Thr) (err : FcErr)
  /-- SHRI (R402): ALUI SHRI shifts ra right logically by an immediate amount. -/
  | fcShri (core : CoreHk) (t : Thr) (err : FcErr)
  /-- SARI (R402): ALUI SARI shifts ra right arithmetically by an immediate amount. -/
  | fcSari (core : CoreHk) (t : Thr) (err : FcErr)
  /-- SEQI (R402): ALUI SEQI writes 1 if ra equals the sign-extended immediate. -/
  | fcSeqi (core : CoreHk) (t : Thr) (err : FcErr)
  /-- SLTI (R402): ALUI SLTI writes 1 if ra is below the immediate signed. -/
  | fcSlti (core : CoreHk) (t : Thr) (err : FcErr)
  /-- SLTUI (R402): ALUI SLTUI writes 1 if ra is below the immediate unsigned. -/
  | fcSltui (core : CoreHk) (t : Thr) (err : FcErr)
  /-- EXTU (R402): ALUI EXTU extracts an unsigned bit field of ra. -/
  | fcExtu (core : CoreHk) (t : Thr) (err : FcErr)
  /-- MOVI (R400): MOVI loads a register with the sign-extended 20-bit immediate. -/
  | fcMovi (core : CoreHk) (t : Thr) (err : FcErr)
  /-- LIM (R400): LIM shifts a register left 20 bits and ORs in the immediate. -/
  | fcLim (core : CoreHk) (t : Thr) (err : FcErr)
  /-- LD (R403): LD loads a naturally aligned value from the thread's address space into rd. -/
  | fcLd (core : CoreHk) (t : Thr) (err : FcErr)
  /-- ST (R403): ST stores the low bytes of rd to a naturally aligned address. -/
  | fcSt (core : CoreHk) (t : Thr) (err : FcErr)
  /-- SWAP (R404): AMO SWAP atomically exchanges a location with rd. -/
  | fcSwap (core : CoreHk) (t : Thr) (err : FcErr)
  /-- FADD (R404): AMO FADD atomically adds rd to a location and returns the old value. -/
  | fcFadd (core : CoreHk) (t : Thr) (err : FcErr)
  /-- CAS (R404): AMO CAS atomically compares a location with rd and on equality writes the next register. -/
  | fcCas (core : CoreHk) (t : Thr) (err : FcErr)
  /-- BC (R405): BC branches relative when the register test of its condition holds. -/
  | fcBc (core : CoreHk) (t : Thr) (err : FcErr)
  /-- JAL (R400): JAL writes the return address and jumps relative. -/
  | fcJal (core : CoreHk) (t : Thr) (err : FcErr)
  /-- JR (R400): JR writes the return address and jumps to a register plus immediate. -/
  | fcJr (core : CoreHk) (t : Thr) (err : FcErr)
  /-- CLAIM (R376): CLAIM reserves a slot of a local channel or mailbox, stalling until granted. -/
  | fcClaim (core : CoreHk) (t : Thr) (err : FcErr)
  /-- PUT (R376): PUT writes one word of the claimed message, held in the core. -/
  | fcPut (core : CoreHk) (t : Thr) (err : FcErr)
  /-- SEND (R376): SEND publishes the claimed message whole and releases the claim. -/
  | fcSend (core : CoreHk) (t : Thr) (err : FcErr)
  /-- RECV (R377): RECV takes the oldest visible message of an own channel or mailbox, stalling when none is there. -/
  | fcRecv (core : CoreHk) (t : Thr) (err : FcErr)
  /-- POLL (R406): POLL returns the count of visible messages without stalling. -/
  | fcPoll (core : CoreHk) (t : Thr) (err : FcErr)
  /-- HALT (R408): SYS HALT makes the thread HALTED and releases any claim. -/
  | fcHalt (core : CoreHk) (t : Thr) (err : FcErr)
  /-- WAIT (R408): SYS WAIT starts a timer wait of n Clove ticks. -/
  | fcWait (core : CoreHk) (t : Thr) (err : FcErr)
  /-- TIME (R408): SYS TIME reads Clove time in 64-bit form. -/
  | fcTime (core : CoreHk) (t : Thr) (err : FcErr)
  /-- TICK (R408): SYS TICK reads the Clove tick index. -/
  | fcTick (core : CoreHk) (t : Thr) (err : FcErr)
  /-- TID (R408): SYS TID reads the thread's core and thread number. -/
  | fcTid (core : CoreHk) (t : Thr) (err : FcErr)
  /-- YIELD (R408): SYS YIELD ends the thread's turn. -/
  | fcYield (core : CoreHk) (t : Thr) (err : FcErr)
  /-- BKPT (R408): SYS BKPT stops the thread as a breakpoint, or faults with DEBUG_LOCKED. -/
  | fcBkpt (core : CoreHk) (t : Thr) (err : FcErr)
  /-- FAULT (R408): SYS FAULT raises thread fault SOFT with the immediate as detail. -/
  | fcFault (core : CoreHk) (t : Thr) (err : FcErr)
  /-- DMA_RD (R411): The DMA_RD call reads host memory into local memory for an instance. -/
  | dmaRd (core : CoreHk) (t : Thr) (r : Read) (err : FcErr)
  /-- DMA_WR (R411): The DMA_WR call writes local memory to host memory through the gate. -/
  | dmaWr (core : CoreHk) (t : Thr) (err : FcErr)
  /-- PKT_READ (R412): The PKT_READ call copies bytes of a held frame or its metadata cell into local memory. -/
  | pktRead (core : CoreHk) (t : Thr) (err : FcErr)
  /-- PKT_WRITE (R412): The PKT_WRITE call copies local bytes into a held frame or its metadata cell. -/
  | pktWrite (core : CoreHk) (t : Thr) (err : FcErr)
  /-- PKT_SEND (R412): The PKT_SEND call edits a held frame and enqueues it on a leaf under buffer admission. -/
  | pktSend (core : CoreHk) (t : Thr) (err : FcErr)
  /-- PKT_FREE (R412): The PKT_FREE call frees a held frame and its metadata cell. -/
  | pktFree (core : CoreHk) (t : Thr) (err : FcErr)
  /-- PKT_NEW (R412): The PKT_NEW call builds a new held frame from local memory and returns its handle. -/
  | pktNew (core : CoreHk) (t : Thr) (err : FcErr)
  /-- LOOKUP (R413): The LOOKUP call makes a table lookup at a pipeline's current or given epoch without side effects. -/
  | lookup (core : CoreHk) (t : Thr) (err : FcErr)
  /-- CRYPT (R414): The CRYPT call runs a hash, AEAD seal or open, or a context transform of a held frame. -/
  | crypt (core : CoreHk) (t : Thr) (err : FcErr)
  /-- COUNT (R415): The COUNT call adds two deltas atomically to a counter pair. -/
  | count (core : CoreHk) (t : Thr) (err : FcErr)
  /-- GOPEN (R416): The GOPEN call opens a core commit group and returns its handle. -/
  | gopen (core : CoreHk) (t : Thr) (err : FcErr)
  /-- GJOIN (R417): The GJOIN call stages a descriptor or frame member into the thread's open group. -/
  | gjoin (core : CoreHk) (t : Thr) (err : FcErr)
  /-- GCLOSE (R418): The GCLOSE call closes the thread's group and stalls until it commits or aborts. -/
  | gclose (core : CoreHk) (t : Thr) (err : FcErr)
  /-- KILL (R385): A write of kill makes a thread HALTED at once, abandoning its access and releasing its claim. -/
  | kill (core : Core) (t : Thr)
  /-- START (R385): A write of start makes a HALTED thread READY at the entry or start_pc. -/
  | start (core : Core) (t : Thr)
  /-- CORE_HALT (R385): A write of halt kills every thread of the core at its next instruction boundary and discards local channel messages. -/
  | coreHalt (core : Core)
  /-- THAW (R384): A write of thaw returns every frozen thread of the core to its wait as STALLED. -/
  | thaw (core : Core)
  /-- STOP (R387): A debug stop request stops a thread at its next boundary, at once, or when its stall ends. -/
  | stop (core : CoreHk) (t : Thr)
  /-- RESUME (R387): A debug resume returns a STOPPED thread to READY. -/
  | resume (core : CoreHk) (t : Thr)
  /-- STEP (R387): A debug step runs one instruction of a STOPPED thread and stops it again. -/
  | debugStep (core : CoreHk) (t : Thr)
  /-- CLOSED_WAIT (R383): A core's closed-wait condition holds for 12,500 Clove cycles and its channel-waiting threads are frozen. -/
  | closedWait (core : Core)
  /-- HK_HEARTBEAT (R392): The housekeeping heartbeat does not advance for 100 ms in stage 2 or 3 and a device fault is raised. -/
  | hkHeartbeat
  /-- ST_READ (R430): An ST_READ reads blocks from one extent into the host buffer under a shared lock. -/
  | stRead (fq : BitVec 20) (idx : BitVec 32) (sgl : Read)
  /-- ST_WRITE (R430): An ST_WRITE reads data from the host and writes it with FUA to every extent that takes writes. -/
  | stWrite (fq : BitVec 20) (idx : BitVec 32) (sgl r : Read)
  /-- ST_FLUSH (R430): An ST_FLUSH waits for earlier writes on its namespace and then flushes each extent's pack namespace. -/
  | stFlush (fq : BitVec 20) (idx : BitVec 32)
  /-- ST_ZERO (R430): An ST_ZERO issues Write Zeroes with FUA to every extent that takes writes. -/
  | stZero (fq : BitVec 20) (idx : BitVec 32)
  /-- ST_TRIM (R430): An ST_TRIM issues a Dataset Management deallocate to every extent. -/
  | stTrim (fq : BitVec 20) (idx : BitVec 32)
  /-- ST_CMPWRITE (R430): An ST_CMPWRITE compares blocks under an exclusive lock and writes only if they match. -/
  | stCmpwrite (fq : BitVec 20) (idx : BitVec 32) (cmp r : Read)
  /-- NS_CONFIG (R425): An NS_CONFIG enables a virtual namespace with its mapping after checks, or disables it. -/
  | nsConfig (cq : BitVec 20)
  /-- ST_ELOG_CONFIG (R443): An ST_ELOG_CONFIG sets or stops the error log ring of a PF2 instance. -/
  | stElogConfig (cq : BitVec 20)
  /-- ADMISSION (R432): The admission arbiter admits one storage command, checking it and taking its range-lock entry. -/
  | admission
  /-- LOCK_GRANT (R434): A range lock is granted once no earlier conflicting overlapping entry is held and the command is issued to its packs. -/
  | lockGrant (cmd : Nat × Ecc)
  /-- PACK_COMPLETION (R437): A pack answers an NVMe command; the storage command completes, repairs or degrades a mirror, or freezes its queue. -/
  | packCompletion (bay : Bay) (cid : Nat) (sf : BitVec 15) (data : Bytes) (failLba : Option (BitVec 64))
  /-- BAY_POWER_ON (R454): A write of pwr_ctrl 1 in stage 3 raises BAYn_PWREN and the bay enters POWERING. -/
  | bayPowerOn (bay : Bay)
  /-- BAY_POWER_OFF (R457): A write of pwr_ctrl 0 shuts a pack down, or is refused and sets pwr_refused unless forced. -/
  | bayPowerOff (bay : Bay) (force : Bool)
  /-- PRESENCE_CHANGE (R454): A debounced change of BAYn_PRSNT_N marks a pack seated or removed and posts BAY_PRESENCE. -/
  | presenceChange (bay : Bay) (present : Bool)
  /-- POWER_SETTLE (R454): 100 ms after power-on the bay releases BAYn_PERST_N and enters TRAINING. -/
  | powerSettle (bay : Bay)
  /-- BAY_LINK_UP (R454): The bay link comes up and after 100 ms the device enumerates the pack in INIT. -/
  | bayLinkUp (bay : Bay) (speed : BitVec 3) (width : BitVec 4)
  /-- BAY_TRAINING_TIMEOUT (R454): No bay link within 100 ms of TRAINING fails the bay with fail_cause 1. -/
  | bayTrainingTimeout (bay : Bay)
  /-- BAY_INIT_DONE (R456): Every INIT step of queue set-up, identity and first life poll completes and the bay becomes READY. -/
  | bayInitDone (bay : Bay) (ident : Option PackIdent)
  /-- BAY_READY_TIMEOUT (R454): CSTS.RDY not set within CAP.TO × 500 ms fails the bay with fail_cause 2. -/
  | bayReadyTimeout (bay : Bay)
  /-- PACK_FAILURE (R459): CSTS.CFS or DL_Down with presence asserted on a READY pack fails the bay and treats the pack as removed. -/
  | packFailure (bay : Bay) (cfs : Bool)
  /-- SHUTDOWN_COMPLETE (R454): CSTS.SHST shows complete, or 10 s pass, and the stopping bay removes power and becomes OFF. -/
  | shutdownComplete (bay : Bay)
  /-- ATTENTION_BUTTON (R461): A debounced press of the attention button sets atn_pressed and posts BAY_BUTTON. -/
  | attentionButton (bay : Bay)
  /-- LIFE_POLL (R462): The poll_s period expires and the housekeeping core issues a SMART log read to each READY pack. -/
  | lifePoll
  /-- POLL_ANSWER (R463): A SMART log answer loads pct_used and crit_warn and life flags and their events are evaluated. -/
  | pollAnswer (bay : Bay) (ok : Bool) (pct crit : BitVec 8)
  /-- LIFE_THRESHOLD_WRITE (R463): A write of warn_thr or ro_thr re-evaluates the life flags of the bay. -/
  | lifeThresholdWrite (bay : Bay) (warn ro : BitVec 8)
  /-- NS_REBUILD (R465): An NS_REBUILD starts or stops the online rebuild of a degraded mirrored namespace. -/
  | nsRebuild (cq : BitVec 20)
  /-- REBUILD_CHUNK (R466): A rebuild copies one chunk of up to 1 MiB under a shared lock at the set rate, ending with REBUILD_DONE at the last. -/
  | rebuildChunk (slot : Fin 8) (res : ChunkResult)
  /-- COMMIT_POINT (R479): A closed group with every member staged and its record durable commits, flipping tables and applying every effect. -/
  | commitPoint (slot : BitVec 16 × CgErr)
  /-- JOURNAL_SUBMIT (R487): A closed group with staged data, granted locks and log space submits its journal record. -/
  | journalSubmit (slot : BitVec 16)
  /-- RETIRE_APPEND (R488): After home writes are durable the unit appends a retire entry and then releases the members' locks. -/
  | retireAppend (slot : BitVec 16)
  /-- JOURNAL_OPEN (R490): A JOURNAL_OPEN formats a new journal or recovers an existing one, replaying its whole unretired records. -/
  | journalOpen (cq : BitVec 20) (media : JournalMedia)
  /-- JOURNAL_CLOSE (R486): A JOURNAL_CLOSE moves an open journal to CLOSING and to CLOSED once no storage group or live record remains. -/
  | journalClose (cq : BitVec 20)
  /-- CG_DISCARD (R494): A CG_DISCARD frees an aborted group record at once. -/
  | cgDiscard (cq : BitVec 20)
  /-- CG_CTRL_WRITE (R499): A write to CG_CTRL enables the commit unit or sets its region, or is refused and sets refused. -/
  | cgCtrlWrite (v : BitVec 64)
  /-- SNAPSHOT (R514): A write of go to FX_SNAPn latches a run of setup-space words at one Clove-cycle boundary, or is refused. -/
  | snapshot (n : Fin 4) (cyc : Cyc)
  /-- WINDOW_READ (R524): A write of read_go copies whole structure entries into a window's data words. -/
  | windowRead (w : Fin 4)
  /-- WINDOW_WRITE (R524): A write of write_go applies a window's data words to whole structure entries, or refuses them all. -/
  | windowWrite (w : Fin 4)
  /-- MCTP_MESSAGE (R553): An MCTP message on the SMBus endpoint is answered in hardware or passed to the housekeeping image. -/
  | mctpMessage (kind : MctpKind) (body : Bytes)
  /-- JTAG_INSTRUCTION (R555): A JTAG instruction is loaded and boundary-scan or debug actions take effect. -/
  | jtagInstruction (i : JtagInstr)
  /-- NETWORK_LINK_DOWN (R282): A network port's link goes down, PFC becomes inactive for its priorities and the port stops being eligible for frames. -/
  | networkLinkDown (port : NPort)
  /-- PLANT_LINK_UP (R345): A plant port's link comes up and link_up is set, making the port eligible and passing the PORT_DOWN check of arming. -/
  | plantLinkUp (port : PPort)
  /-- PLANT_LINK_DOWN (R331): A plant port's link goes down, clearing link_up, making the port ineligible and returning an ARMED pair to BYPASS with PORT_DOWN. -/
  | plantLinkDown (port : PPort)
  /-- TEMP_SENSOR_READ (R549): Every 1 ms the junction and stack sensors are read, updating tj_max, tj_peak, the stack temperatures and the doubled-refresh flags. -/
  | tempSensorRead (die : List (BitVec 8)) (stack0 stack1 : BitVec 8)
  /-- VPP_FUSE_CHANGE (R36): VPP_FUSE enters or leaves its burn window and SB_STATUS.vpp_ok changes. -/
  | vppFuseChange (inWindow : Bool)
  /-- PLANT_REFERENCE_LOSS (R543): The 25 MHz plant reference is lost and the bypass stops forwarding. -/
  | plantReferenceLoss
  deriving DecidableEq, Repr

end Sys2Proof
end

