-- ==== Sys2Proof/Decode.lean ====
section
/-! DEFINITION. Decoding: the spec's table of operations gives no row any bits, so no word spells a command. -/
namespace Sys2Proof

/-- The command that a word spells by the table's bits: none, since the table gives no row bits. -/
def decodeTableWord (_nbits _w : Nat) : Option Instr := none

end Sys2Proof
end

