-- ==== Sys2Proof/Machine/Bits.lean ====
section
/-! DEFINITION. Bit fields, byte order, check codes and the sparse tables the state is built of. -/
namespace Sys2Proof.Machine

/-! ### Bit fields -/

/-- Field of `len` bits at bit `lo` of a word, as a number. -/
def fld (w : Word) (lo len : Nat) : Nat := (w.toNat >>> lo) % 2 ^ len

/-- One bit of a word. -/
def bit (w : Word) (i : Nat) : Bool := w.getLsbD i

/-- The word with ones in the `len` bits from `lo`. -/
def mask (lo len : Nat) : Word := BitVec.ofNat 64 ((2 ^ len - 1) * 2 ^ lo)

/-- The word with the field of `len` bits at `lo` set to `v` (taken modulo `2^len`). -/
def setFld (w : Word) (lo len v : Nat) : Word :=
  (w &&& ~~~ mask lo len) ||| BitVec.ofNat 64 ((v % 2 ^ len) * 2 ^ lo)

/-- The word with bit `i` set to `b`. -/
def setBit (w : Word) (i : Nat) (b : Bool) : Word := setFld w i 1 (if b then 1 else 0)

/-- A Bool as a bit. -/
def b2n (b : Bool) : Nat := if b then 1 else 0

/-- Bit `i` of a number. -/
def nbit (n i : Nat) : Bool := n.testBit i

/-- Two's-complement value of the low `len` bits of `n`. -/
def signed (len n : Nat) : Int :=
  let m := n % 2 ^ len
  if m < 2 ^ (len - 1) then (m : Int) else (m : Int) - (2 ^ len : Nat)

/-- `z` modulo `2^len`, as a number. -/
def wrapInt (len : Nat) (z : Int) : Nat := (z % ((2 ^ len : Nat) : Int)).toNat

/-! ### Byte order (R8: host structures are little-endian; frames are in network order) -/

/-- Bytes as a little-endian number. -/
def leNat : Bytes → Nat
  | [] => 0
  | b :: bs => b.toNat + 256 * leNat bs

/-- Bytes as a big-endian number. -/
def beNat (bs : Bytes) : Nat := bs.foldl (fun a b => a * 256 + b.toNat) 0

/-- The low `n` bytes of a number, least significant first. -/
def leBytes : Nat → Nat → Bytes
  | 0, _ => []
  | n + 1, v => BitVec.ofNat 8 v :: leBytes n (v / 256)

/-- The low `n` bytes of a number, most significant first. -/
def beBytes (n v : Nat) : Bytes := (leBytes n v).reverse

/-- `n` bytes of a run from offset `o`; bytes past its end read as zero. -/
def slice (bs : Bytes) (o n : Nat) : Bytes :=
  let r := (bs.drop o).take n
  r ++ List.replicate (n - r.length) 0

/-- Little-endian field of `n` bytes at offset `o`. -/
def le (bs : Bytes) (o n : Nat) : Nat := leNat (slice bs o n)

/-- Big-endian field of `n` bytes at offset `o`. -/
def be (bs : Bytes) (o n : Nat) : Nat := beNat (slice bs o n)

/-- The 64-bit little-endian word at offset `o`. -/
def leWord (bs : Bytes) (o : Nat) : Word := BitVec.ofNat 64 (le bs o 8)

/-- The bits `[lo+len-1:lo]` of the 64-bit little-endian word at offset `o`. -/
def lef (bs : Bytes) (o lo len : Nat) : Nat := fld (leWord bs o) lo len

/-- A run with `new` written over it from offset `o`; the part of `new` past its end is dropped. -/
def splice (bs : Bytes) (o : Nat) (new : Bytes) : Bytes :=
  (bs.take o ++ new ++ bs.drop (o + new.length)).take bs.length

/-- Bytes from a list of little-endian words. -/
def wordsBytes (ws : List Word) : Bytes := ws.flatMap (fun w => leBytes 8 w.toNat)

/-- Every byte of a run is zero. -/
def allZero (bs : Bytes) : Bool := bs.all (· == 0)

/-! ### Check codes -/

/-- One byte into a reflected CRC-32C register (Castagnoli polynomial 0x1EDC_6F41, reflected 0x82F6_3B78) (R47). -/
def crc32cByte (c : BitVec 32) (b : Byte) : BitVec 32 :=
  (List.range 8).foldl (fun c _ => if c.getLsbD 0 then (c >>> 1) ^^^ 0x82F63B78#32 else c >>> 1)
    (c ^^^ b.setWidth 32)

/-- The CRC-32C register after a run of bytes, from a given register. -/
def crc32cRun (c : BitVec 32) (bs : Bytes) : BitVec 32 := bs.foldl crc32cByte c

/-- CRC-32C of a run: initial value and final XOR all ones (R47). -/
def crc32c (bs : Bytes) : BitVec 32 := ~~~ crc32cRun 0xFFFFFFFF#32 bs

/-- The 16-bit ones' complement sum of a run taken as big-endian 16-bit units, an odd last byte padded with zero. -/
def onesSum : Bytes → Nat
  | [] => 0
  | [a] => a.toNat * 256
  | a :: b :: rest =>
    let t := a.toNat * 256 + b.toNat + onesSum rest
    if 0xFFFF < t then t - 0xFFFF else t

/-- The Internet checksum of a run. -/
def inetChecksum (bs : Bytes) : Nat := 0xFFFF - onesSum bs

/-- Bitwise majority of three copies (R50). -/
def majority {n : Nat} (a b c : BitVec n) : BitVec n := (a &&& b) ||| (a &&& c) ||| (b &&& c)

/-- Number of ones. -/
def popcount {n : Nat} (a : BitVec n) : Nat := ((List.range n).filter (fun i => a.getLsbD i)).length

/-! ### Sparse tables

A table lists, in rising key order, the entries that differ from what an unlisted key reads as. -/

/-- A sparse table of entries by number. -/
abbrev Tab (α : Type) := List (Nat × α)

/-- The listed entry of a key, if any. -/
def tabFind {α : Type} : Tab α → Nat → Option α
  | [], _ => none
  | (k, v) :: t, n => if n = k then some v else if n < k then none else tabFind t n

/-- The entry of a key; an unlisted key reads as `d`. -/
def tabGet {α : Type} (d : Nat → α) (t : Tab α) (n : Nat) : α := (tabFind t n).getD (d n)

/-- The table without a key. -/
def tabErase {α : Type} : Tab α → Nat → Tab α
  | [], _ => []
  | (k, v) :: t, n => if n = k then t else if n < k then (k, v) :: t else (k, v) :: tabErase t n

/-- The table with an entry listed for a key. -/
def tabInsert {α : Type} : Tab α → Nat → α → Tab α
  | [], n, x => [(n, x)]
  | (k, v) :: t, n, x =>
    if n = k then (n, x) :: t else if n < k then (n, x) :: (k, v) :: t else (k, v) :: tabInsert t n x

/-- Write an entry; writing what an unlisted key reads as removes the entry, so that equal tables are equal data. -/
def tabSet {α : Type} [DecidableEq α] (d : Nat → α) (t : Tab α) (n : Nat) (x : α) : Tab α :=
  if x = d n then tabErase t n else tabInsert t n x

/-- Keys strictly rise, from above `lo` on. -/
def tabSorted {α : Type} : Option Nat → Tab α → Bool
  | _, [] => true
  | none, (k, _) :: t => tabSorted (some k) t
  | some lo, (k, _) :: t => decide (lo < k) && tabSorted (some k) t

/-- The canonical form: keys rise and no entry equals what an unlisted key reads as. -/
def tabWf {α : Type} [DecidableEq α] (d : Nat → α) (t : Tab α) : Bool :=
  tabSorted none t && t.all (fun e => !decide (e.2 = d e.1))

/-! ### Byte memories -/

/-- A memory: the listed bytes of an address space (R43: every array and the DRAM are cleared to zero in stage 1). -/
abbrev Memory := List Host.Cell

/-- What an unlisted address reads as: zero (R43). -/
def memDefault (_ : Nat) : BitVec 8 := 0

/-- Read one byte. -/
def memByte (m : Memory) (a : Nat) : BitVec 8 := tabGet memDefault m a

/-- Write one byte. -/
def memSetByte (m : Memory) (a : Nat) (b : BitVec 8) : Memory := tabSet memDefault m a b

/-- Read `n` bytes from an address. -/
def memRead (m : Memory) (a : Nat) : Nat → Bytes
  | 0 => []
  | n + 1 => memByte m a :: memRead m (a + 1) n

/-- Write a run of bytes at an address. -/
def memWrite (m : Memory) (a : Nat) : Bytes → Memory
  | [] => m
  | b :: bs => memWrite (memSetByte m a b) (a + 1) bs

/-- The canonical form of a memory. -/
def Memory.wf (m : Memory) : Bool := tabWf memDefault m

end Sys2Proof.Machine
end

