-- ==== Sys2Proof/Machine/Crypto.lean ====
section
/-! DEFINITION. The published algorithms that the spec names and does not restate: SHA-256, SHA-384 and SHA-512 (FIPS 180-4),
ECDSA P-384 verification (FIPS 186, SEC 1), AES-GCM (FIPS 197, SP 800-38D), ChaCha20-Poly1305 (RFC 8439) (R57, R352, R414). -/
namespace Sys2Proof.Machine

/-! ### SHA-2, of words of `n` bits: 32 for SHA-256, 64 for SHA-384 and SHA-512 -/

/-- The run cut in pieces of `n` bytes, the last one as long as it is; at most `fuel` of them. -/
def pieces (n : Nat) : Nat → Bytes → List Bytes
  | 0, _ => []
  | fuel + 1, b => if b.isEmpty then [] else b.take n :: pieces n fuel (b.drop n)

/-- Three rotations. -/
def rot3 {n : Nat} (x : BitVec n) (a b c : Nat) : BitVec n := x.rotateRight a ^^^ x.rotateRight b ^^^ x.rotateRight c
/-- Two rotations and a shift. -/
def rot2 {n : Nat} (x : BitVec n) (a b c : Nat) : BitVec n := x.rotateRight a ^^^ x.rotateRight b ^^^ (x >>> c)

/-- The functions of a round and of the message schedule. -/
def shaBig0 {n : Nat} (x : BitVec n) : BitVec n := if n = 32 then rot3 x 2 13 22 else rot3 x 28 34 39
def shaBig1 {n : Nat} (x : BitVec n) : BitVec n := if n = 32 then rot3 x 6 11 25 else rot3 x 14 18 41
def shaSmall0 {n : Nat} (x : BitVec n) : BitVec n := if n = 32 then rot2 x 7 18 3 else rot2 x 1 8 7
def shaSmall1 {n : Nat} (x : BitVec n) : BitVec n := if n = 32 then rot2 x 17 19 10 else rot2 x 19 61 6

/-- The constants of the 80 rounds of SHA-512; the upper halves of the first 64 are those of SHA-256. -/
def shaK : List (BitVec 64) :=
  [0x428a2f98d728ae22, 0x7137449123ef65cd, 0xb5c0fbcfec4d3b2f, 0xe9b5dba58189dbbc] ++
  [0x3956c25bf348b538, 0x59f111f1b605d019, 0x923f82a4af194f9b, 0xab1c5ed5da6d8118] ++
  [0xd807aa98a3030242, 0x12835b0145706fbe, 0x243185be4ee4b28c, 0x550c7dc3d5ffb4e2] ++
  [0x72be5d74f27b896f, 0x80deb1fe3b1696b1, 0x9bdc06a725c71235, 0xc19bf174cf692694] ++
  [0xe49b69c19ef14ad2, 0xefbe4786384f25e3, 0x0fc19dc68b8cd5b5, 0x240ca1cc77ac9c65] ++
  [0x2de92c6f592b0275, 0x4a7484aa6ea6e483, 0x5cb0a9dcbd41fbd4, 0x76f988da831153b5] ++
  [0x983e5152ee66dfab, 0xa831c66d2db43210, 0xb00327c898fb213f, 0xbf597fc7beef0ee4] ++
  [0xc6e00bf33da88fc2, 0xd5a79147930aa725, 0x06ca6351e003826f, 0x142929670a0e6e70] ++
  [0x27b70a8546d22ffc, 0x2e1b21385c26c926, 0x4d2c6dfc5ac42aed, 0x53380d139d95b3df] ++
  [0x650a73548baf63de, 0x766a0abb3c77b2a8, 0x81c2c92e47edaee6, 0x92722c851482353b] ++
  [0xa2bfe8a14cf10364, 0xa81a664bbc423001, 0xc24b8b70d0f89791, 0xc76c51a30654be30] ++
  [0xd192e819d6ef5218, 0xd69906245565a910, 0xf40e35855771202a, 0x106aa07032bbd1b8] ++
  [0x19a4c116b8d2d0c8, 0x1e376c085141ab53, 0x2748774cdf8eeb99, 0x34b0bcb5e19b48a8] ++
  [0x391c0cb3c5c95a63, 0x4ed8aa4ae3418acb, 0x5b9cca4f7763e373, 0x682e6ff3d6b2b8a3] ++
  [0x748f82ee5defb2fc, 0x78a5636f43172f60, 0x84c87814a1f0ab72, 0x8cc702081a6439ec] ++
  [0x90befffa23631e28, 0xa4506cebde82bde9, 0xbef9a3f7b2c67915, 0xc67178f2e372532b] ++
  [0xca273eceea26619c, 0xd186b8c721c0c207, 0xeada7dd6cde0eb1e, 0xf57d4f7fee6ed178] ++
  [0x06f067aa72176fba, 0x0a637dc5a2c898a6, 0x113f9804bef90dae, 0x1b710b35131c471b] ++
  [0x28db77f523047d84, 0x32caab7b40c72493, 0x3c9ebe0a15c9bebc, 0x431d67c49c100d4c] ++
  [0x4cc5d4becb3e42b6, 0x597f299cfc657e2a, 0x5fcb6fab3ad6faec, 0x6c44198c4a475817]

/-- Initial value of SHA-512; its upper halves are that of SHA-256. -/
def shaIv512 : List (BitVec 64) :=
  [0x6a09e667f3bcc908, 0xbb67ae8584caa73b, 0x3c6ef372fe94f82b, 0xa54ff53a5f1d36f1] ++
  [0x510e527fade682d1, 0x9b05688c2b3e6c1f, 0x1f83d9abfb41bd6b, 0x5be0cd19137e2179]

/-- Initial value of SHA-384. -/
def shaIv384 : List (BitVec 64) :=
  [0xcbbb9d5dc1059ed8, 0x629a292a367cd507, 0x9159015a3070dd17, 0x152fecd8f70e5939] ++
  [0x67332667ffc00b31, 0x8eb44a8768581511, 0xdb0c2e0d64f98fa7, 0x47b5481dbefa4fa4]

/-- The upper halves of words. -/
def upperHalves (l : List (BitVec 64)) : List (BitVec 32) := l.map (fun (x : BitVec 64) => (x >>> 32).setWidth 32)

/-- One round, on the eight working variables. -/
def shaRound {n : Nat} (k w : BitVec n) (h : List (BitVec n)) : List (BitVec n) :=
  match h with
  | [a, b, c, d, e, f, g, i] =>
    let t1 := i + shaBig1 e + ((e &&& f) ^^^ (~~~ e &&& g)) + k + w
    let t2 := shaBig0 a + ((a &&& b) ^^^ (a &&& c) ^^^ (b &&& c))
    [t1 + t2, a, b, c, d + t1, e, f, g]
  | h => h

/-- The word of the message schedule after the 16 that are held. -/
def shaNext {n : Nat} (w : List (BitVec n)) : BitVec n :=
  shaSmall1 (w.getD 14 0) + w.getD 9 0 + shaSmall0 (w.getD 1 0) + w.getD 0 0

/-- The rounds of a block: their constants, the next 16 words of the schedule, the working variables. -/
def shaRounds {n : Nat} : List (BitVec n) → List (BitVec n) → List (BitVec n) → List (BitVec n)
  | [], _, h => h
  | k :: ks, w, h => shaRounds ks (w.drop 1 ++ [shaNext w]) (shaRound k (w.getD 0 0) h)

/-- The 16 words of a block. -/
def shaWords (n : Nat) (b : Bytes) : List (BitVec n) :=
  (pieces (n / 8) 16 b).map (fun x => BitVec.ofNat n (beNat x))

/-- One block into the hash value. -/
def shaBlock {n : Nat} (ks h : List (BitVec n)) (b : Bytes) : List (BitVec n) :=
  List.zipWith (· + ·) h (shaRounds ks (shaWords n b) h)

/-- The message padded to whole blocks of `2 n` bytes. -/
def shaPad (n : Nat) (b : Bytes) : Bytes :=
  b ++ [0x80] ++ List.replicate ((2 * n - (b.length + 1 + n / 4) % (2 * n)) % (2 * n)) 0 ++ beBytes (n / 4) (8 * b.length)

/-- The hash of a message from an initial value. -/
def shaHash {n : Nat} (ks iv : List (BitVec n)) (b : Bytes) : Bytes :=
  ((pieces (2 * n) (b.length / (2 * n) + 2) (shaPad n b)).foldl (shaBlock ks) iv).flatMap (fun x => beBytes (n / 8) x.toNat)

/-- SHA-256: 32 bytes. -/
def sha256 (b : Bytes) : Bytes := shaHash ((upperHalves shaK).take 64) (upperHalves shaIv512) b
/-- SHA-384: 48 bytes. -/
def sha384 (b : Bytes) : Bytes := (shaHash shaK shaIv384 b).take 48
/-- SHA-512: 64 bytes. -/
def sha512 (b : Bytes) : Bytes := shaHash shaK shaIv512 b

/-! ### ECDSA over P-384 -/

/-- `b ^ e` modulo `m`, for an exponent of at most `bits` bits. -/
def powMod (m : Nat) : Nat → Nat → Nat → Nat
  | 0, _, _ => 1 % m
  | bits + 1, b, e =>
    let r := powMod m bits (b * b % m) (e / 2)
    if e % 2 = 1 then r * b % m else r

/-- The inverse modulo a prime of at most 384 bits. -/
def invMod (m a : Nat) : Nat := powMod m 384 (a % m) (m - 2)

/-- The prime of the curve `y^2 = x^3 - 3 x + b`, its `b`, and the order and the base point of its group. -/
def p384P : Nat := 2 ^ 384 - 2 ^ 128 - 2 ^ 96 + 2 ^ 32 - 1
def p384B : Nat := 0xb3312fa7e23ee7e4988e056be3f82d19181d9c6efe8141120314088f5013875ac656398d8a2ed19d2a85c8edd3ec2aef
def p384N : Nat := 0xffffffffffffffffffffffffffffffffffffffffffffffffc7634d81f4372ddf581a0db248b0a77aecec196accc52973
def p384Gx : Nat := 0xaa87ca22be8b05378eb1c71ef320ad746e1d3b628ba79b9859f741e082542a385502f25dbf55296c3a545e3872760ab7
def p384Gy : Nat := 0x3617de4a96262c6f5d9e98bf9292dc29f8f41dbd289a147ce9da3113b5f0b8c00a60b1ce1d7e819d7a431d7c90ea0e5f

/-- The point with the slope `l` of a line through points of first coordinates `x` and `u`, the first at `(x, y)`. -/
def ecThird (l x y u : Nat) : Option (Nat × Nat) :=
  let v := (l * l + 2 * p384P - x - u) % p384P
  some (v, (l * (x + p384P - v) + p384P - y) % p384P)

/-- The sum of two points; none is the point at infinity. -/
def ecAdd (a b : Option (Nat × Nat)) : Option (Nat × Nat) :=
  match a, b with
  | none, b => b
  | a, none => a
  | some (x, y), some (u, v) =>
    if x = u then
      if (y + v) % p384P = 0 then none
      else ecThird ((3 * x * x + p384P - 3) * invMod p384P (2 * y) % p384P) x y u
    else ecThird ((v + p384P - y) * invMod p384P (u + p384P - x) % p384P) x y u

/-- A point taken `k` times, for a `k` of at most `bits` bits. -/
def ecMul : Nat → Nat → Option (Nat × Nat) → Option (Nat × Nat)
  | 0, _, _ => none
  | bits + 1, k, a =>
    let r := ecMul bits (k / 2) (ecAdd a a)
    if k % 2 = 1 then ecAdd r a else r

/-- A point lies on the curve. -/
def onP384 (x y : Nat) : Bool :=
  decide (x < p384P) && decide (y < p384P) && y * y % p384P == (x * x * x + 3 * (p384P - x) + p384B) % p384P

/-- A signature, r then s, of a digest of 48 bytes verifies under a public key, X then Y, all big-endian (R56, R57). -/
def ecdsaVerify (key digest sig : Bytes) : Bool :=
  let x := be key 0 48
  let y := be key 48 48
  let r := be sig 0 48
  let s := be sig 48 48
  let w := invMod p384N s
  onP384 x y && decide (0 < r) && decide (r < p384N) && decide (0 < s) && decide (s < p384N) &&
  (match ecAdd (ecMul 384 (be digest 0 48 * w % p384N) (some (p384Gx, p384Gy))) (ecMul 384 (r * w % p384N) (some (x, y))) with
   | none => false
   | some v => v.1 % p384N == r)

/-! ### AES -/

/-- The S-box, entry 0 in the most significant byte. -/
def aesSbox : Nat :=
  0x637c777bf26b6fc53001672bfed7ab76ca82c97dfa5947f0add4a2af9ca472c0b7fd9326363ff7cc34a5e5f171d8311504c723c31896059a071280e2eb27b27509832c1a1b6e5aa0523bd6b329e32f8453d100ed20fcb15b6acbbe394a4c58cfd0efaafb434d338545f9027f503c9fa851a3408f929d38f5bcb6da2110fff3d2cd0c13ec5f974417c4a77e3d645d197360814fdc222a908846eeb814de5e0bdbe0323a0a4906245cc2d3ac629195e479e7c8376d8dd54ea96c56f4ea657aae08ba78252e1ca6b4c6e8dd741f4bbd8b8a703eb5664803f60e613557b986c11d9ee1f8981169d98e949b1e87e9ce5528df8ca1890dbfe6426841992d0fb054bb16

/-- A byte through the S-box. -/
def aesSub (b : Byte) : Byte := BitVec.ofNat 8 (aesSbox >>> (8 * (255 - b.toNat)))

/-- A byte times x in the field of AES. -/
def aesTwice (b : Byte) : Byte := if b.getLsbD 7 then (b <<< 1) ^^^ 0x1B else b <<< 1

/-- Bytes of two runs, each xored with the other's. -/
def xorBytes (a b : Bytes) : Bytes := List.zipWith (· ^^^ ·) a b

/-- Round constant. -/
def aesRcon : Nat → Byte
  | 0 => 0
  | 1 => 1
  | n + 1 => aesTwice (aesRcon n)

/-- The key schedule: the words so far, extended by a number of words; `nk` is the key's length in words. -/
def aesExpand (nk : Nat) : Nat → List Bytes → List Bytes
  | 0, ws => ws
  | n + 1, ws =>
    let i := ws.length
    let t := ws.getD (i - 1) []
    let t := if i % nk = 0 then xorBytes ((t.drop 1 ++ t.take 1).map aesSub) [aesRcon (i / nk), 0, 0, 0]
      else if nk = 8 ∧ i % nk = 4 then t.map aesSub else t
    aesExpand nk n (ws ++ [xorBytes (ws.getD (i - nk) []) t])

/-- The round keys of a key of 16 or 32 bytes. -/
def aesRoundKeys (key : Bytes) : List Bytes :=
  let nk := key.length / 4
  pieces 16 (nk + 7) (aesExpand nk (4 * (nk + 7) - nk) (pieces 4 nk key)).flatten

/-- The rows of a block of four columns rotated. -/
def aesShiftRows (b : Bytes) : Bytes :=
  (List.range 16).map (fun i => b.getD (i % 4 + 4 * ((i / 4 + i % 4) % 4)) 0)

/-- A column mixed. -/
def aesMixColumn (b : Bytes) : Bytes :=
  (List.range 4).map (fun i =>
    let x := fun k => b.getD ((i + k) % 4) 0
    aesTwice (x 0) ^^^ aesTwice (x 1) ^^^ x 1 ^^^ x 2 ^^^ x 3)

/-- The rounds after the first key; the last one mixes no columns. -/
def aesRounds : List Bytes → Bytes → Bytes
  | [], b => b
  | [k], b => xorBytes k (aesShiftRows (b.map aesSub))
  | k :: ks, b => aesRounds ks (xorBytes k ((pieces 4 4 (aesShiftRows (b.map aesSub))).flatMap aesMixColumn))

/-- A block of 16 bytes enciphered under round keys. -/
def aesBlock (ks : List Bytes) (b : Bytes) : Bytes :=
  match ks with
  | [] => b
  | k :: ks => aesRounds ks (xorBytes k b)

/-! ### GCM -/

/-- The product of two blocks in the field of GHASH, its bit 0 the most significant. -/
def ghashMul (x y : BitVec 128) : BitVec 128 :=
  ((List.range 128).foldl (fun (z : BitVec 128 × BitVec 128) i =>
    (if x.getMsbD i then z.1 ^^^ z.2 else z.1, if z.2.getLsbD 0 then (z.2 >>> 1) ^^^ (0xE1#128 <<< 120) else z.2 >>> 1)) (0, y)).1

/-- A run padded with zeros to a multiple of 16 bytes. -/
def pad16 (b : Bytes) : Bytes := b ++ List.replicate ((16 - b.length % 16) % 16) 0

/-- GHASH of whole blocks under a hash key. -/
def ghash (h : BitVec 128) (b : Bytes) : BitVec 128 :=
  (pieces 16 (b.length / 16) b).foldl (fun y x => ghashMul (y ^^^ BitVec.ofNat 128 (beNat x)) h) 0

/-- A run xored with the key stream of the counter blocks from 2 on: it enciphers and deciphers. -/
def gcmStream (ks : List Bytes) (nonce b : Bytes) : Bytes :=
  xorBytes b ((List.range ((b.length + 15) / 16)).flatMap (fun i => aesBlock ks (nonce ++ beBytes 4 (i + 2))))

/-- The tag of additional data and a ciphertext under a nonce of 12 bytes. -/
def gcmTag (ks : List Bytes) (nonce aad ct : Bytes) : Bytes :=
  let h := BitVec.ofNat 128 (beNat (aesBlock ks (List.replicate 16 0)))
  let s := ghash h (pad16 aad ++ pad16 ct ++ beBytes 8 (8 * aad.length) ++ beBytes 8 (8 * ct.length))
  xorBytes (aesBlock ks (nonce ++ beBytes 4 1)) (beBytes 16 s.toNat)

/-! ### ChaCha20-Poly1305 -/

/-- A quarter round on four of the 16 words. -/
def chachaQuarter (s : List (BitVec 32)) (q : Nat × Nat × Nat × Nat) : List (BitVec 32) :=
  let step (s : List (BitVec 32)) (i j k n : Nat) : List (BitVec 32) :=
    let x := s.getD i 0 + s.getD j 0
    (s.set i x).set k ((s.getD k 0 ^^^ x).rotateLeft n)
  let (a, b, c, d) := q
  step (step (step (step s a b d 16) c d b 12) a b d 8) c d b 7

/-- A column round and a diagonal round. -/
def chachaDouble (s : List (BitVec 32)) : List (BitVec 32) :=
  [(0, 4, 8, 12), (1, 5, 9, 13), (2, 6, 10, 14), (3, 7, 11, 15), (0, 5, 10, 15), (1, 6, 11, 12), (2, 7, 8, 13), (3, 4, 9, 14)].foldl chachaQuarter s

/-- A block of 64 bytes of key stream. -/
def chachaBlock (key nonce : Bytes) (n : Nat) : Bytes :=
  let words (b : Bytes) (k : Nat) : List (BitVec 32) := (List.range k).map (fun i => BitVec.ofNat 32 (le b (4 * i) 4))
  let s := [0x61707865, 0x3320646e, 0x79622d32, 0x6b206574] ++ words key 8 ++ [BitVec.ofNat 32 n] ++ words nonce 3
  (List.zipWith (· + ·) s ((List.range 10).foldl (fun s _ => chachaDouble s) s)).flatMap (fun x => leBytes 4 x.toNat)

/-- A run xored with the key stream from block 1 on. -/
def chachaStream (key nonce b : Bytes) : Bytes :=
  xorBytes b ((List.range ((b.length + 63) / 64)).flatMap (fun i => chachaBlock key nonce (i + 1)))

/-- Poly1305 of a run under a one-time key of 32 bytes. -/
def poly1305 (key b : Bytes) : Bytes :=
  let r := le key 0 16 &&& 0x0ffffffc0ffffffc0ffffffc0fffffff
  let a := (pieces 16 (b.length / 16 + 1) b).foldl (fun a x => (a + leNat x + 2 ^ (8 * x.length)) * r % (2 ^ 130 - 5)) 0
  leBytes 16 (a + le key 16 16)

/-- The tag of additional data and a ciphertext. -/
def chachaTag (key nonce aad ct : Bytes) : Bytes :=
  poly1305 ((chachaBlock key nonce 0).take 32) (pad16 aad ++ pad16 ct ++ leBytes 8 aad.length ++ leBytes 8 ct.length)

/-! ### Authenticated encryption (R352) -/

/-- The key stream of an algorithm on a run: 0 AES-GCM-128, 1 AES-GCM-256, 2 ChaCha20-Poly1305. -/
def aeadStream (alg : Nat) (key nonce b : Bytes) : Bytes :=
  if alg = 2 then chachaStream key nonce b else gcmStream (aesRoundKeys key) nonce b

/-- The tag of an algorithm. -/
def aeadTag (alg : Nat) (key nonce aad ct : Bytes) : Bytes :=
  if alg = 2 then chachaTag key nonce aad ct else gcmTag (aesRoundKeys key) nonce aad ct

/-- Authenticated encryption: ciphertext with the 16-byte tag after it. -/
def aeadSeal (alg : Nat) (key nonce aad pt : Bytes) : Bytes :=
  let ct := aeadStream alg key nonce pt
  ct ++ aeadTag alg key nonce aad ct

/-- Authenticated decryption of a ciphertext with its tag; none when the tag is wrong. -/
def aeadOpen (alg : Nat) (key nonce aad ct : Bytes) : Option Bytes :=
  let n := ct.length - 16
  if ct.drop n = aeadTag alg key nonce aad (ct.take n) then some (aeadStream alg key nonce (ct.take n)) else none

end Sys2Proof.Machine
end

