-- ==== Sys2Proof/Config.lean ====
section
/-! DEFINITION. What the spec leaves open: free values, with no body, so that nothing can be proved of their values.
Each is named in the assumption log. -/
namespace Sys2Proof

/-- A free value: a value the spec states no number for; `n` is the state's counter, so that each use is fresh. -/
opaque Config.freeValue : Nat → BitVec 64

/-- A free byte. -/
opaque Config.freeByte : Nat → BitVec 8

/-- The SHA-384 key hash that the modelled part has in a key slot (R52): a value of manufacture that the spec does not give. -/
opaque Config.keyHash : Nat → BitVec 384

/-- The hardware's answer to an MCTP control or PLDM message (R553): the message kind (0 control, 1 PLDM), its body, the
temperature register, and whether the housekeeping image runs. -/
opaque Config.mctpAnswer : Nat → Bytes → BitVec 64 → Bool → Bytes

/-- Where the search for a free tag index starts (R74): the spec does not say which free index a read takes. -/
opaque Config.tagStart : Nat → Nat

/-- The margin status of a lane under a margining control, as the base specification sets out (R76): lane, control. -/
opaque Config.marginStatus : Nat → BitVec 16 → BitVec 16

/-- The set of the context cache that a context belongs to (R366): the spec does not say how an index picks its set. -/
opaque Config.contextSet : Nat → Nat

/-- The dirty-page filter entry that a page of an instance uses (R164). -/
opaque Config.filterSlot : Nat → Nat → Nat

/-- What the route engine chooses for a node (R268): the bits it skips and the bits it takes, from the first address bit
that no node above has taken and the prefixes below; each is brought into its range by its user. -/
opaque Config.routeSkip : Nat → List (Nat × Nat) → Nat
opaque Config.routeStride : Nat → List (Nat × Nat) → Nat

/-- Where the route engine places a node of a stage, and the result index it gives a prefix (R265): pipeline, stage or
family and table, and the prefixes of the node or of the route. -/
opaque Config.routeAddr : Nat → Nat → List (Nat × Nat) → Nat
opaque Config.routeResult : Nat → Nat → Nat × Nat → Nat

end Sys2Proof
end

