-- ==== Sys2Proof/Machine/RegMap.lean ====
section
/-! DEFINITION. Setup space (R518 to R520): the blocks, the offset of every register by its name in the spec, and for
each register its field types (R10) and its value after stage 1. Offsets are PF0 BAR0 byte offsets of 8-byte registers. -/
namespace Sys2Proof.Machine

/-- A block of setup space: number in the order of R9, base, log2 of its size (R518, R520). -/
structure Block where
  num : Nat
  base : Nat
  sizeLog2 : Nat
  deriving DecidableEq, Repr

/-- The blocks of PF0 BAR0 (R518), numbered as R9 orders their prefixes. -/
def blocks : List Block := [
  ⟨0, 0x0, 16⟩,
  ⟨2, 0x10000, 16⟩,
  ⟨1, 0x20000, 16⟩,
  ⟨3, 0x30000, 16⟩,
  ⟨6, 0x40000, 16⟩,
  ⟨9, 0x50000, 16⟩,
  ⟨10, 0x60000, 16⟩,
  ⟨11, 0x70000, 16⟩,
  ⟨8, 0x80000, 16⟩,
  ⟨12, 0x90000, 16⟩,
  ⟨13, 0xA0000, 16⟩,
  ⟨14, 0xB0000, 16⟩,
  ⟨15, 0xC0000, 16⟩,
  ⟨16, 0xD0000, 16⟩,
  ⟨17, 0xE0000, 16⟩,
  ⟨18, 0xF0000, 16⟩,
  ⟨5, 0x100000, 18⟩,
  ⟨7, 0x140000, 18⟩,
  ⟨19, 0x180000, 18⟩,
  ⟨4, 0x400000, 22⟩]

/-- The block an offset lies in. -/
def blockOf (off : Nat) : Option Block :=
  blocks.find? (fun b => decide (b.base ≤ off) && decide (off < b.base + 2 ^ b.sizeLog2))

/-- Block number of DV_ (R9). -/
def blkDV : Nat := 0
/-- Block number of FS_ (R9). -/
def blkFS : Nat := 1
/-- Block number of SB_ (R9). -/
def blkSB : Nat := 2
/-- Block number of HL_ (R9). -/
def blkHL : Nat := 3
/-- Block number of QE_ (R9). -/
def blkQE : Nat := 4
/-- Block number of IM_ (R9). -/
def blkIM : Nat := 5
/-- Block number of NP_ (R9). -/
def blkNP : Nat := 6
/-- Block number of PL_ (R9). -/
def blkPL : Nat := 7
/-- Block number of PP_ (R9). -/
def blkPP : Nat := 8
/-- Block number of CL_ (R9). -/
def blkCL : Nat := 9
/-- Block number of FT_ (R9). -/
def blkFT : Nat := 10
/-- Block number of TM_ (R9). -/
def blkTM : Nat := 11
/-- Block number of CK_ (R9). -/
def blkCK : Nat := 12
/-- Block number of IG_ (R9). -/
def blkIG : Nat := 13
/-- Block number of FC_ (R9). -/
def blkFC : Nat := 14
/-- Block number of CX_ (R9). -/
def blkCX : Nat := 15
/-- Block number of ST_ (R9). -/
def blkST : Nat := 16
/-- Block number of MB_ (R9). -/
def blkMB : Nat := 17
/-- Block number of CG_ (R9). -/
def blkCG : Nat := 18
/-- Block number of FX_ (R9). -/
def blkFX : Nat := 19

/-- DV_PACE_CTRL (R27). -/
def DV_PACE_CTRL : Nat := 0x400
/-- DV_PACE_INDEX (R28). -/
def DV_PACE_INDEX : Nat := 0x408
/-- DV_PACE_ALARM (R29). -/
def DV_PACE_ALARM : Nat := 0x410
/-- DV_PACE_MON (R30). -/
def DV_PACE_MON (n : Nat) : Nat := 0x420 + 0x8 * n
/-- DV_TEMP (R549). -/
def DV_TEMP : Nat := 0x500
/-- DV_WIN_SEL (R523). -/
def DV_WIN_SEL (n : Nat) : Nat := 0x1000 + 0x1000 * n
/-- DV_WIN_CTRL (R523). -/
def DV_WIN_CTRL (n : Nat) : Nat := 0x1008 + 0x1000 * n
/-- DV_WIN_DATA (R523). -/
def DV_WIN_DATA (n : Nat) (k : Nat) : Nat := 0x1800 + 0x1000 * n + 0x8 * k
/-- SB_STATUS (R36). -/
def SB_STATUS : Nat := 0x10000
/-- SB_CTRL (R37). -/
def SB_CTRL : Nat := 0x10008
/-- SB_BOOT_RING (R53). -/
def SB_BOOT_RING : Nat := 0x10010
/-- SB_BOOT_PROD (R53). -/
def SB_BOOT_PROD : Nat := 0x10018
/-- SB_BOOT_HEAD (R53). -/
def SB_BOOT_HEAD : Nat := 0x10020
/-- FS_IDENTITY_LO (R51). -/
def FS_IDENTITY_LO : Nat := 0x20000
/-- FS_IDENTITY_HI (R51). -/
def FS_IDENTITY_HI : Nat := 0x20008
/-- FS_PROTECT (R52). -/
def FS_PROTECT : Nat := 0x20010
/-- FS_ARB_RAW (R51). -/
def FS_ARB_RAW : Nat := 0x20018
/-- FS_SENSE_DISAGREE. -/
def FS_SENSE_DISAGREE : Nat := 0x20028
/-- FS_KEYHASH (R51). -/
def FS_KEYHASH (n : Nat) (k : Nat) : Nat := 0x20100 + 0x30 * n + 0x8 * k
/-- HL_LINK_STATUS (R106). -/
def HL_LINK_STATUS : Nat := 0x30000
/-- HL_FN_QUIESCE (R107). -/
def HL_FN_QUIESCE : Nat := 0x30010
/-- HL_L1_CTRL (R108). -/
def HL_L1_CTRL : Nat := 0x30018
/-- HL_PME_CTRL (R109). -/
def HL_PME_CTRL : Nat := 0x30020
/-- HL_PME_STATUS (R109). -/
def HL_PME_STATUS : Nat := 0x30028
/-- HL_PTM_CTRL (R110). -/
def HL_PTM_CTRL : Nat := 0x30030
/-- HL_PTM_T1 (R110). -/
def HL_PTM_T1 : Nat := 0x30038
/-- HL_PTM_T4 (R110). -/
def HL_PTM_T4 : Nat := 0x30040
/-- HL_PTM_MASTER (R110). -/
def HL_PTM_MASTER : Nat := 0x30048
/-- HL_PTM_PROP (R110). -/
def HL_PTM_PROP : Nat := 0x30050
/-- HL_EPOCH (R111). -/
def HL_EPOCH : Nat := 0x30058
/-- HL_PW_SHADOW_A (R112). -/
def HL_PW_SHADOW_A (n : Nat) : Nat := 0x31000 + 0x10 * n
/-- HL_PW_SHADOW_B (R112). -/
def HL_PW_SHADOW_B (n : Nat) : Nat := 0x31008 + 0x10 * n
/-- HL_PW_ACTIVE_A. -/
def HL_PW_ACTIVE_A (n : Nat) : Nat := 0x31100 + 0x10 * n
/-- HL_PW_ACTIVE_B. -/
def HL_PW_ACTIVE_B (n : Nat) : Nat := 0x31108 + 0x10 * n
/-- HL_PW_COMMIT (R113). -/
def HL_PW_COMMIT : Nat := 0x31200
/-- HL_PW_MISS (R113). -/
def HL_PW_MISS : Nat := 0x31208
/-- HL_PW_MISS_ADDR (R113). -/
def HL_PW_MISS_ADDR : Nat := 0x31210
/-- QE_HINT_ACCEPTED (R147). -/
def QE_HINT_ACCEPTED : Nat := 0x400000
/-- QE_HINT_DROPPED (R147). -/
def QE_HINT_DROPPED : Nat := 0x400008
/-- QE_STOPS (R147). -/
def QE_STOPS : Nat := 0x400010
/-- QE_EVQ_OVERFLOWS (R147). -/
def QE_EVQ_OVERFLOWS : Nat := 0x400018
/-- QE_EVQ_DISCARDED (R147). -/
def QE_EVQ_DISCARDED : Nat := 0x400020
/-- QE_LAST_STOP (R147). -/
def QE_LAST_STOP : Nat := 0x400028
/-- QE_CTL_CTX (R558). -/
def QE_CTL_CTX (n : Nat) : Nat := 0x400100 + 0x8 * n
/-- QE_CTL_TARGET (R558). -/
def QE_CTL_TARGET : Nat := 0x400120
/-- QE_CTL_GO (R558). -/
def QE_CTL_GO : Nat := 0x400128
/-- QE_SWEEP (R147). -/
def QE_SWEEP (n : Nat) : Nat := 0x408000 + 0x8 * n
/-- QE_INT_A (R144). -/
def QE_INT_A (n : Nat) : Nat := 0x500000 + 0x10 * n
/-- QE_INT_B (R144). -/
def QE_INT_B (n : Nat) : Nat := 0x500008 + 0x10 * n
/-- IM_FN_SHARE (R168). -/
def IM_FN_SHARE (n : Nat) : Nat := 0x100000 + 0x8 * n
/-- IM_REFUSED (R170). -/
def IM_REFUSED : Nat := 0x100020
/-- IM_GATE_DROPPED (R170). -/
def IM_GATE_DROPPED : Nat := 0x100028
/-- IM_INST_A (R169). -/
def IM_INST_A (n : Nat) : Nat := 0x110000 + 0x10 * n
/-- IM_INST_B (R169). -/
def IM_INST_B (n : Nat) : Nat := 0x110008 + 0x10 * n
/-- NP_MODE (R196). -/
def NP_MODE : Nat := 0x40000
/-- NP_PORT_CTRL (R197). -/
def NP_PORT_CTRL (n : Nat) : Nat := 0x40100 + 0x8 * n
/-- NP_RX_FRAMES. -/
def NP_RX_FRAMES (n : Nat) : Nat := 0x41000 + 0x80 * n
/-- NP_RX_OCTETS. -/
def NP_RX_OCTETS (n : Nat) : Nat := 0x41008 + 0x80 * n
/-- NP_TX_FRAMES. -/
def NP_TX_FRAMES (n : Nat) : Nat := 0x41010 + 0x80 * n
/-- NP_TX_OCTETS. -/
def NP_TX_OCTETS (n : Nat) : Nat := 0x41018 + 0x80 * n
/-- NP_RX_FCS_ERR. -/
def NP_RX_FCS_ERR (n : Nat) : Nat := 0x41020 + 0x80 * n
/-- NP_RX_TOO_LONG. -/
def NP_RX_TOO_LONG (n : Nat) : Nat := 0x41028 + 0x80 * n
/-- NP_RX_OVERFLOW. -/
def NP_RX_OVERFLOW (n : Nat) : Nat := 0x41030 + 0x80 * n
/-- NP_TX_UNDERRUN. -/
def NP_TX_UNDERRUN (n : Nat) : Nat := 0x41038 + 0x80 * n
/-- NP_FEC_UNCORRECTED. -/
def NP_FEC_UNCORRECTED (n : Nat) : Nat := 0x41040 + 0x80 * n
/-- NP_FEC_CORRECTED. -/
def NP_FEC_CORRECTED (n : Nat) : Nat := 0x41048 + 0x80 * n
/-- PL_CTRL (R199). -/
def PL_CTRL (n : Nat) : Nat := 0x140000 + 0x100 * n
/-- PL_DEALS (R200). -/
def PL_DEALS (n : Nat) : Nat := 0x140008 + 0x100 * n
/-- PL_RECIRCS. -/
def PL_RECIRCS (n : Nat) : Nat := 0x140010 + 0x100 * n
/-- PL_RESTARTS. -/
def PL_RESTARTS (n : Nat) : Nat := 0x140018 + 0x100 * n
/-- PL_RX_BUF_SHORT. -/
def PL_RX_BUF_SHORT (n : Nat) : Nat := 0x140020 + 0x100 * n
/-- PL_ENTRY (R220). -/
def PL_ENTRY (n : Nat) : Nat := 0x140040 + 0x100 * n
/-- PL_UC_STATUS (R221). -/
def PL_UC_STATUS (n : Nat) : Nat := 0x140048 + 0x100 * n
/-- PL_MALF_ACTION (R201). -/
def PL_MALF_ACTION (n : Nat) (k : Nat) : Nat := 0x150000 + 0x400 * n + 0x8 * k
/-- PL_MALF_COUNT. -/
def PL_MALF_COUNT (n : Nat) (k : Nat) : Nat := 0x160000 + 0x400 * n + 0x8 * k
/-- CL_CHAIN (R246). -/
def CL_CHAIN (n : Nat) : Nat := 0x50000 + 0x100 * n
/-- CL_EPOCH (R248). -/
def CL_EPOCH (n : Nat) : Nat := 0x50008 + 0x100 * n
/-- CL_DROPS. -/
def CL_DROPS (n : Nat) : Nat := 0x50010 + 0x100 * n
/-- CL_NO_DISP. -/
def CL_NO_DISP (n : Nat) : Nat := 0x50018 + 0x100 * n
/-- CL_KEY_CHECK. -/
def CL_KEY_CHECK (n : Nat) : Nat := 0x50020 + 0x100 * n
/-- CL_MIRROR_EXCESS. -/
def CL_MIRROR_EXCESS (n : Nat) : Nat := 0x50028 + 0x100 * n
/-- CL_JT_FAULT. -/
def CL_JT_FAULT (n : Nat) : Nat := 0x50030 + 0x100 * n
/-- CL_JT_LAST_FAULT. -/
def CL_JT_LAST_FAULT (n : Nat) : Nat := 0x50038 + 0x100 * n
/-- CL_SHADOW. -/
def CL_SHADOW (n : Nat) : Nat := 0x50040 + 0x100 * n
/-- CL_STAGE_A (R247). -/
def CL_STAGE_A (n : Nat) (k : Nat) : Nat := 0x51000 + 0x200 * n + 0x20 * k
/-- CL_STAGE_B (R247). -/
def CL_STAGE_B (n : Nat) (k : Nat) : Nat := 0x51008 + 0x200 * n + 0x20 * k
/-- CL_STAGE_C (R247). -/
def CL_STAGE_C (n : Nat) (k : Nat) : Nat := 0x51010 + 0x200 * n + 0x20 * k
/-- FT_LEARN_CTRL (R271). -/
def FT_LEARN_CTRL (n : Nat) : Nat := 0x60000 + 0x100 * n
/-- FT_AGE_CTRL (R272). -/
def FT_AGE_CTRL (n : Nat) : Nat := 0x60008 + 0x100 * n
/-- FT_HASH_SEED (R273). -/
def FT_HASH_SEED (n : Nat) : Nat := 0x60010 + 0x100 * n
/-- FT_STATION_USE (R273). -/
def FT_STATION_USE (n : Nat) : Nat := 0x60018 + 0x100 * n
/-- FT_LEARNS (R273). -/
def FT_LEARNS (n : Nat) : Nat := 0x60020 + 0x100 * n
/-- FT_MOVES (R273). -/
def FT_MOVES (n : Nat) : Nat := 0x60028 + 0x100 * n
/-- FT_AGED (R273). -/
def FT_AGED (n : Nat) : Nat := 0x60030 + 0x100 * n
/-- FT_LEARN_FULL (R273). -/
def FT_LEARN_FULL (n : Nat) : Nat := 0x60038 + 0x100 * n
/-- FT_LEARN_DROPPED (R273). -/
def FT_LEARN_DROPPED (n : Nat) : Nat := 0x60040 + 0x100 * n
/-- FT_LEARN_LATE (R273). -/
def FT_LEARN_LATE (n : Nat) : Nat := 0x60048 + 0x100 * n
/-- FT_STATIC_CONFLICT (R273). -/
def FT_STATIC_CONFLICT (n : Nat) : Nat := 0x60050 + 0x100 * n
/-- FT_DIR_MAP (R274). -/
def FT_DIR_MAP (n : Nat) (k : Nat) : Nat := 0x61000 + 0x200 * n + 0x8 * k
/-- FT_LPM_USE. -/
def FT_LPM_USE (n : Nat) (k : Nat) : Nat := 0x62000 + 0x40 * n + 0x8 * k
/-- TM_BUF_CTRL (R302). -/
def TM_BUF_CTRL : Nat := 0x70000
/-- TM_BUF_USE (R302). -/
def TM_BUF_USE : Nat := 0x70008
/-- TM_HR_USE (R302). -/
def TM_HR_USE : Nat := 0x70010
/-- TM_G_USE (R302). -/
def TM_G_USE : Nat := 0x70018
/-- TM_SPILL_USE (R302). -/
def TM_SPILL_USE : Nat := 0x70020
/-- TM_FN_WEIGHT (R303). -/
def TM_FN_WEIGHT : Nat := 0x70028
/-- TM_TICK (R303). -/
def TM_TICK : Nat := 0x70030
/-- TM_RECOMPUTE (R303). -/
def TM_RECOMPUTE : Nat := 0x70038
/-- TM_HR_OVERRUN (R303). -/
def TM_HR_OVERRUN : Nat := 0x70040
/-- TM_GEN_DISCARD (R303). -/
def TM_GEN_DISCARD : Nat := 0x70048
/-- TM_PORT_A (R304). -/
def TM_PORT_A (n : Nat) : Nat := 0x70400 + 0x40 * n
/-- TM_PORT_B (R304). -/
def TM_PORT_B (n : Nat) : Nat := 0x70408 + 0x40 * n
/-- TM_PORT_C (R304). -/
def TM_PORT_C (n : Nat) : Nat := 0x70410 + 0x40 * n
/-- TM_PORT_D (R304). -/
def TM_PORT_D (n : Nat) : Nat := 0x70418 + 0x40 * n
/-- TM_PORT_E (R304). -/
def TM_PORT_E (n : Nat) : Nat := 0x70420 + 0x40 * n
/-- TM_PORT_F (R304). -/
def TM_PORT_F (n : Nat) : Nat := 0x70428 + 0x40 * n
/-- TM_CLASS_CNT_A (R305). -/
def TM_CLASS_CNT_A (n : Nat) : Nat := 0x78000 + 0x20 * n
/-- TM_CLASS_CNT_B (R305). -/
def TM_CLASS_CNT_B (n : Nat) : Nat := 0x78008 + 0x20 * n
/-- TM_CLASS_CNT_C (R305). -/
def TM_CLASS_CNT_C (n : Nat) : Nat := 0x78010 + 0x20 * n
/-- TM_CLASS_CNT_D (R305). -/
def TM_CLASS_CNT_D (n : Nat) : Nat := 0x78018 + 0x20 * n
/-- PP_PLANT_CTRL (R345). -/
def PP_PLANT_CTRL : Nat := 0x80000
/-- PP_PORT_A (R345). -/
def PP_PORT_A (n : Nat) : Nat := 0x80100 + 0x40 * n
/-- PP_PORT_B (R345). -/
def PP_PORT_B (n : Nat) : Nat := 0x80108 + 0x40 * n
/-- PP_SCHED_A (R346). -/
def PP_SCHED_A (n : Nat) : Nat := 0x82000 + 0x40 * n
/-- PP_SCHED_B (R346). -/
def PP_SCHED_B (n : Nat) : Nat := 0x82008 + 0x40 * n
/-- PP_SCHED_C (R346). -/
def PP_SCHED_C (n : Nat) : Nat := 0x82010 + 0x40 * n
/-- PP_SCHED_D (R346). -/
def PP_SCHED_D (n : Nat) : Nat := 0x82018 + 0x40 * n
/-- PP_SCHED_E (R346). -/
def PP_SCHED_E (n : Nat) : Nat := 0x82020 + 0x40 * n
/-- PP_SCHED_F (R346). -/
def PP_SCHED_F (n : Nat) : Nat := 0x82028 + 0x40 * n
/-- PP_PAIR_A (R347). -/
def PP_PAIR_A (n : Nat) : Nat := 0x80800 + 0x40 * n
/-- PP_PAIR_B (R347). -/
def PP_PAIR_B (n : Nat) : Nat := 0x80808 + 0x40 * n
/-- PP_PAIR_C (R347). -/
def PP_PAIR_C (n : Nat) : Nat := 0x80810 + 0x40 * n
/-- PP_PAIR_D (R347). -/
def PP_PAIR_D (n : Nat) : Nat := 0x80818 + 0x40 * n
/-- PP_RX_FRAMES (R348). -/
def PP_RX_FRAMES (n : Nat) : Nat := 0x81000 + 0x80 * n
/-- PP_RX_OCTETS. -/
def PP_RX_OCTETS (n : Nat) : Nat := 0x81008 + 0x80 * n
/-- PP_TX_FRAMES. -/
def PP_TX_FRAMES (n : Nat) : Nat := 0x81010 + 0x80 * n
/-- PP_TX_OCTETS. -/
def PP_TX_OCTETS (n : Nat) : Nat := 0x81018 + 0x80 * n
/-- PP_RX_FCS_ERR. -/
def PP_RX_FCS_ERR (n : Nat) : Nat := 0x81020 + 0x80 * n
/-- PP_RX_OVERFLOW. -/
def PP_RX_OVERFLOW (n : Nat) : Nat := 0x81028 + 0x80 * n
/-- PP_TX_UNDERRUN. -/
def PP_TX_UNDERRUN (n : Nat) : Nat := 0x81030 + 0x80 * n
/-- PP_TX_FCS_CUT. -/
def PP_TX_FCS_CUT (n : Nat) : Nat := 0x81038 + 0x80 * n
/-- PP_LAUNCH_LATE. -/
def PP_LAUNCH_LATE (n : Nat) : Nat := 0x81040 + 0x80 * n
/-- PP_GATE_OVERSIZE. -/
def PP_GATE_OVERSIZE (n : Nat) : Nat := 0x81048 + 0x80 * n
/-- PP_BYPASS_DROPS. -/
def PP_BYPASS_DROPS (n : Nat) : Nat := 0x81050 + 0x80 * n
/-- CK_CTRL (R349). -/
def CK_CTRL : Nat := 0x90000
/-- CK_TIME_NS (R349). -/
def CK_TIME_NS : Nat := 0x90008
/-- CK_TIME_SEC (R349). -/
def CK_TIME_SEC : Nat := 0x90010
/-- CK_RATE (R349). -/
def CK_RATE : Nat := 0x90018
/-- CK_STEP_SEC (R349). -/
def CK_STEP_SEC : Nat := 0x90020
/-- CK_STEP_NS (R349). -/
def CK_STEP_NS : Nat := 0x90028
/-- CK_PPS_IN_NS (R349). -/
def CK_PPS_IN_NS : Nat := 0x90030
/-- CK_PPS_IN_SEC (R349). -/
def CK_PPS_IN_SEC : Nat := 0x90038
/-- CK_TS_CTRL (R349). -/
def CK_TS_CTRL : Nat := 0x90040
/-- CK_PORT_CORR (R349). -/
def CK_PORT_CORR (n : Nat) : Nat := 0x90100 + 0x8 * n
/-- IG_CTRL (R350). -/
def IG_CTRL : Nat := 0xA0000
/-- IG_PEER_DROPS (R350). -/
def IG_PEER_DROPS : Nat := 0xA0008
/-- IG_CHAN_A (R350). -/
def IG_CHAN_A (n : Nat) : Nat := 0xA0100 + 0x10 * n
/-- IG_CHAN_B (R350). -/
def IG_CHAN_B (n : Nat) : Nat := 0xA0108 + 0x10 * n
/-- CX_CTRL (R368). -/
def CX_CTRL : Nat := 0xC0000
/-- CX_CACHE_HITS (R368). -/
def CX_CACHE_HITS : Nat := 0xC0008
/-- CX_CACHE_MISSES (R368). -/
def CX_CACHE_MISSES : Nat := 0xC0010
/-- CX_NO_CTX (R368). -/
def CX_NO_CTX : Nat := 0xC0018
/-- CX_POISONED (R368). -/
def CX_POISONED : Nat := 0xC0020
/-- FC_CORE_CTRL (R393). -/
def FC_CORE_CTRL (n : Nat) : Nat := 0xB0000 + 0x40 * n
/-- FC_CORE_STATUS (R393). -/
def FC_CORE_STATUS (n : Nat) : Nat := 0xB0008 + 0x40 * n
/-- FC_CORE_DRAM (R393). -/
def FC_CORE_DRAM (n : Nat) : Nat := 0xB0010 + 0x40 * n
/-- FC_STALE_MSGS. -/
def FC_STALE_MSGS (n : Nat) : Nat := 0xB0018 + 0x40 * n
/-- FC_CLOSED_WAITS. -/
def FC_CLOSED_WAITS (n : Nat) : Nat := 0xB0020 + 0x40 * n
/-- FC_RETIRED. -/
def FC_RETIRED (n : Nat) : Nat := 0xB0028 + 0x40 * n
/-- FC_THR_A (R394). -/
def FC_THR_A (n : Nat) : Nat := 0xB1000 + 0x20 * n
/-- FC_THR_B (R394). -/
def FC_THR_B (n : Nat) : Nat := 0xB1008 + 0x20 * n
/-- FC_THR_C (R394). -/
def FC_THR_C (n : Nat) : Nat := 0xB1010 + 0x20 * n
/-- FC_THR_D (R394). -/
def FC_THR_D (n : Nat) : Nat := 0xB1018 + 0x20 * n
/-- FC_DBG_CTRL (R395). -/
def FC_DBG_CTRL (n : Nat) : Nat := 0xB3000 + 0x40 * n
/-- FC_DBG_BP (R395). -/
def FC_DBG_BP (n : Nat) (k : Nat) : Nat := 0xB3008 + 0x40 * n + 0x8 * k
/-- FC_HK_STATUS. -/
def FC_HK_STATUS : Nat := 0xB4000
/-- FC_PUNT_DROPS. -/
def FC_PUNT_DROPS : Nat := 0xB4008
/-- ST_CMDS. -/
def ST_CMDS : Nat := 0xD0000
/-- ST_RD_BYTES. -/
def ST_RD_BYTES : Nat := 0xD0008
/-- ST_WR_BYTES. -/
def ST_WR_BYTES : Nat := 0xD0010
/-- ST_FREEZES. -/
def ST_FREEZES : Nat := 0xD0018
/-- ST_CMP_MISMATCH. -/
def ST_CMP_MISMATCH : Nat := 0xD0020
/-- ST_REPAIRS. -/
def ST_REPAIRS : Nat := 0xD0028
/-- ST_ELOG_LOST. -/
def ST_ELOG_LOST : Nat := 0xD0030
/-- ST_LOCK_USE. -/
def ST_LOCK_USE : Nat := 0xD0038
/-- ST_LOCK_WAITS. -/
def ST_LOCK_WAITS : Nat := 0xD0040
/-- ST_ELOG_A. -/
def ST_ELOG_A (n : Nat) : Nat := 0xD1000 + 0x10 * n
/-- ST_ELOG_B (R448). -/
def ST_ELOG_B (n : Nat) : Nat := 0xD1008 + 0x10 * n
/-- MB_CTRL (R469). -/
def MB_CTRL : Nat := 0xE0000
/-- MB_BAY_A (R470). -/
def MB_BAY_A (n : Nat) : Nat := 0xE0100 + 0x100 * n
/-- MB_BAY_B (R470). -/
def MB_BAY_B (n : Nat) : Nat := 0xE0108 + 0x100 * n
/-- MB_BAY_C (R470). -/
def MB_BAY_C (n : Nat) : Nat := 0xE0110 + 0x100 * n
/-- MB_BAY_SERIAL. -/
def MB_BAY_SERIAL (n : Nat) (k : Nat) : Nat := 0xE0118 + 0x100 * n + 0x8 * k
/-- MB_BAY_MODEL. -/
def MB_BAY_MODEL (n : Nat) (k : Nat) : Nat := 0xE0130 + 0x100 * n + 0x8 * k
/-- MB_BAY_FW. -/
def MB_BAY_FW (n : Nat) : Nat := 0xE0158 + 0x100 * n
/-- MB_BAY_REMOVALS. -/
def MB_BAY_REMOVALS (n : Nat) : Nat := 0xE0160 + 0x100 * n
/-- MB_BAY_POLL_ERRORS. -/
def MB_BAY_POLL_ERRORS (n : Nat) : Nat := 0xE0168 + 0x100 * n
/-- MB_REBUILD_A. -/
def MB_REBUILD_A (n : Nat) : Nat := 0xE0800 + 0x10 * n
/-- MB_REBUILD_B. -/
def MB_REBUILD_B (n : Nat) : Nat := 0xE0808 + 0x10 * n
/-- CG_CTRL (R499). -/
def CG_CTRL : Nat := 0xF0000
/-- CG_STATUS. -/
def CG_STATUS : Nat := 0xF0008
/-- CG_JOURNAL_SEQ. -/
def CG_JOURNAL_SEQ : Nat := 0xF0010
/-- CG_JOURNAL_USE. -/
def CG_JOURNAL_USE : Nat := 0xF0018
/-- CG_STAGING. -/
def CG_STAGING : Nat := 0xF0020
/-- CG_COMMITS. -/
def CG_COMMITS : Nat := 0xF0028
/-- CG_REISSUES. -/
def CG_REISSUES : Nat := 0xF0030
/-- CG_ABORTS. -/
def CG_ABORTS : Nat := 0xF0038
/-- CG_HOME_FAIL. -/
def CG_HOME_FAIL : Nat := 0xF0040
/-- CG_CNT_MAP (R501). -/
def CG_CNT_MAP (n : Nat) : Nat := 0xF0100 + 0x8 * n
/-- FX_CTRL (R515). -/
def FX_CTRL : Nat := 0x180000
/-- FX_LOG_SEQ (R515). -/
def FX_LOG_SEQ : Nat := 0x180008
/-- FX_CORR_SRAM (R515). -/
def FX_CORR_SRAM : Nat := 0x180010
/-- FX_CORR_DRAM (R515). -/
def FX_CORR_DRAM : Nat := 0x180018
/-- FX_CORR_RESIDUE (R515). -/
def FX_CORR_RESIDUE : Nat := 0x180020
/-- FX_INST_FAULTS (R515). -/
def FX_INST_FAULTS : Nat := 0x180028
/-- FX_ARRAY_ERRORS (R515). -/
def FX_ARRAY_ERRORS : Nat := 0x180030
/-- FX_LAST_FAULT_A (R516). -/
def FX_LAST_FAULT_A : Nat := 0x180040
/-- FX_LAST_FAULT_B (R516). -/
def FX_LAST_FAULT_B : Nat := 0x180048
/-- FX_LAST_FAULT_C (R516). -/
def FX_LAST_FAULT_C : Nat := 0x180050
/-- FX_SNAP_A (R517). -/
def FX_SNAP_A (n : Nat) : Nat := 0x180100 + 0x20 * n
/-- FX_SNAP_B (R517). -/
def FX_SNAP_B (n : Nat) : Nat := 0x180108 + 0x20 * n
/-- FX_SNAP_C (R517). -/
def FX_SNAP_C (n : Nat) : Nat := 0x180110 + 0x20 * n
/-- FX_SNAP_D (R517). -/
def FX_SNAP_D (n : Nat) : Nat := 0x180118 + 0x20 * n
/-- FX_LOG_ENTRY. -/
def FX_LOG_ENTRY (n : Nat) (k : Nat) : Nat := 0x190000 + 0x20 * n + 0x8 * k
/-- FX_SNAP_DATA. -/
def FX_SNAP_DATA (n : Nat) (k : Nat) : Nat := 0x1A0000 + 0x1000 * n + 0x8 * k

/-- A family of registers: `base + s1*i + s2*j` for `i < n1`, `j < n2`; the bits a write sets (RW), clears with a 1
(W1C) and that only act (WO); the value after stage 1. -/
structure RegRow where
  base : Nat
  s1 : Nat
  n1 : Nat
  s2 : Nat
  n2 : Nat
  rw : Word
  w1c : Word
  wo : Word
  dflt : Word
  deriving DecidableEq, Repr

/-- The row holds the register at an offset. -/
def RegRow.has (r : RegRow) (off : Nat) : Bool :=
  decide (r.base ≤ off) &&
  (let d := off - r.base
   if r.s1 = 0 then d == 0
   else decide (d / r.s1 < r.n1) &&
     (let e := d % r.s1
      if r.s2 = 0 then e == 0 else e % r.s2 == 0 && decide (e / r.s2 < r.n2)))

/-- The registers of block DV_. -/
def rowsDV : List RegRow := [
  ⟨0x400, 0x0, 1, 0x0, 1, 0xF1#64, 0x0#64, 0x100#64, 0xA1#64⟩,
  ⟨0x408, 0x0, 1, 0x0, 1, 0x0#64, 0x0#64, 0x0#64, 0xFFFF0000#64⟩,
  ⟨0x410, 0x0, 1, 0x0, 1, 0x1FFFF#64, 0x20000#64, 0x0#64, 0x100#64⟩,
  ⟨0x420, 0x8, 8, 0x0, 1, 0x0#64, 0x0#64, 0x0#64, 0x0#64⟩,
  ⟨0x500, 0x0, 1, 0x0, 1, 0x0#64, 0x0#64, 0x0#64, 0x0#64⟩,
  ⟨0x1000, 0x1000, 4, 0x0, 1, 0xFFFFFFFFFF01FFFF#64, 0x0#64, 0x0#64, 0x1000000#64⟩,
  ⟨0x1008, 0x1000, 4, 0x0, 1, 0x0#64, 0x18#64, 0x3#64, 0x0#64⟩,
  ⟨0x1800, 0x1000, 4, 0x8, 64, 0xFFFFFFFFFFFFFFFF#64, 0x0#64, 0x0#64, 0x0#64⟩]

/-- The registers of block FS_. -/
def rowsFS : List RegRow := [
  ⟨0x20000, 0x0, 1, 0x0, 1, 0x0#64, 0x0#64, 0x0#64, 0x0#64⟩,
  ⟨0x20008, 0x0, 1, 0x0, 1, 0x0#64, 0x0#64, 0x0#64, 0x0#64⟩,
  ⟨0x20010, 0x0, 1, 0x0, 1, 0x0#64, 0x0#64, 0x0#64, 0x0#64⟩,
  ⟨0x20018, 0x0, 1, 0x0, 1, 0x0#64, 0x0#64, 0x0#64, 0x0#64⟩,
  ⟨0x20028, 0x0, 1, 0x0, 1, 0x0#64, 0x0#64, 0x0#64, 0x0#64⟩,
  ⟨0x20100, 0x30, 4, 0x8, 6, 0x0#64, 0x0#64, 0x0#64, 0x0#64⟩]

/-- The registers of block SB_. -/
def rowsSB : List RegRow := [
  ⟨0x10000, 0x0, 1, 0x0, 1, 0x0#64, 0x3000#64, 0x0#64, 0x5#64⟩,
  ⟨0x10008, 0x0, 1, 0x0, 1, 0x1#64, 0x0#64, 0x2#64, 0x0#64⟩,
  ⟨0x10010, 0x0, 1, 0x0, 1, 0xFFFFFFFFFFFFF00F#64, 0x0#64, 0x0#64, 0x4#64⟩,
  ⟨0x10018, 0x0, 1, 0x0, 1, 0xFFFFFFFF#64, 0x0#64, 0x0#64, 0x0#64⟩,
  ⟨0x10020, 0x0, 1, 0x0, 1, 0x0#64, 0x0#64, 0x0#64, 0x0#64⟩]

/-- The registers of block HL_. -/
def rowsHL : List RegRow := [
  ⟨0x30000, 0x0, 1, 0x0, 1, 0x0#64, 0x0#64, 0x0#64, 0x0#64⟩,
  ⟨0x30010, 0x0, 1, 0x0, 1, 0x0#64, 0xF000#64, 0xF#64, 0x0#64⟩,
  ⟨0x30018, 0x0, 1, 0x0, 1, 0xFFFF#64, 0x0#64, 0x0#64, 0x8#64⟩,
  ⟨0x30020, 0x0, 1, 0x0, 1, 0x1FFFF#64, 0x0#64, 0x0#64, 0x0#64⟩,
  ⟨0x30028, 0x0, 1, 0x0, 1, 0x0#64, 0x1FFFF#64, 0x0#64, 0x0#64⟩,
  ⟨0x30030, 0x0, 1, 0x0, 1, 0xFFFF02#64, 0x1000000#64, 0x1#64, 0x3E800#64⟩,
  ⟨0x30038, 0x0, 1, 0x0, 1, 0x0#64, 0x0#64, 0x0#64, 0x0#64⟩,
  ⟨0x30040, 0x0, 1, 0x0, 1, 0x0#64, 0x0#64, 0x0#64, 0x0#64⟩,
  ⟨0x30048, 0x0, 1, 0x0, 1, 0x0#64, 0x0#64, 0x0#64, 0x0#64⟩,
  ⟨0x30050, 0x0, 1, 0x0, 1, 0x0#64, 0x0#64, 0x0#64, 0x0#64⟩,
  ⟨0x30058, 0x0, 1, 0x0, 1, 0x0#64, 0x0#64, 0x0#64, 0x0#64⟩,
  ⟨0x31000, 0x10, 16, 0x0, 1, 0x1FFFFF3FFFFFC1#64, 0x0#64, 0x0#64, 0x0#64⟩,
  ⟨0x31008, 0x10, 16, 0x0, 1, 0x3FFFFFC0#64, 0x0#64, 0x0#64, 0x0#64⟩,
  ⟨0x31100, 0x10, 16, 0x0, 1, 0x0#64, 0x0#64, 0x0#64, 0x0#64⟩,
  ⟨0x31108, 0x10, 16, 0x0, 1, 0x0#64, 0x0#64, 0x0#64, 0x0#64⟩,
  ⟨0x31200, 0x0, 1, 0x0, 1, 0x0#64, 0xFFFF0000#64, 0xFFFF#64, 0x0#64⟩,
  ⟨0x31208, 0x0, 1, 0x0, 1, 0x0#64, 0x0#64, 0x0#64, 0x0#64⟩,
  ⟨0x31210, 0x0, 1, 0x0, 1, 0x0#64, 0x0#64, 0x0#64, 0x0#64⟩]

/-- The registers of block QE_. -/
def rowsQE : List RegRow := [
  ⟨0x400000, 0x0, 1, 0x0, 1, 0x0#64, 0x0#64, 0x0#64, 0x0#64⟩,
  ⟨0x400008, 0x0, 1, 0x0, 1, 0x0#64, 0x0#64, 0x0#64, 0x0#64⟩,
  ⟨0x400010, 0x0, 1, 0x0, 1, 0x0#64, 0x0#64, 0x0#64, 0x0#64⟩,
  ⟨0x400018, 0x0, 1, 0x0, 1, 0x0#64, 0x0#64, 0x0#64, 0x0#64⟩,
  ⟨0x400020, 0x0, 1, 0x0, 1, 0x0#64, 0x0#64, 0x0#64, 0x0#64⟩,
  ⟨0x400028, 0x0, 1, 0x0, 1, 0x0#64, 0x0#64, 0x0#64, 0x0#64⟩,
  ⟨0x400100, 0x8, 4, 0x0, 1, 0xFFFFFFFFFFFFFFFF#64, 0x0#64, 0x0#64, 0x0#64⟩,
  ⟨0x400120, 0x0, 1, 0x0, 1, 0xFFFFFFFF000FFFFF#64, 0x0#64, 0x0#64, 0x0#64⟩,
  ⟨0x400128, 0x0, 1, 0x0, 1, 0x0#64, 0x8#64, 0x3#64, 0x0#64⟩,
  ⟨0x408000, 0x8, 4096, 0x0, 1, 0x7FFFD#64, 0x0#64, 0x0#64, 0xFA0#64⟩,
  ⟨0x500000, 0x10, 65536, 0x0, 1, 0xFFFFFFFFFFFFFFFC#64, 0x0#64, 0x0#64, 0x0#64⟩,
  ⟨0x500008, 0x10, 65536, 0x0, 1, 0xFFFF0003FFFFFFFF#64, 0x0#64, 0x0#64, 0x100000000#64⟩]

/-- The registers of block IM_. -/
def rowsIM : List RegRow := [
  ⟨0x100000, 0x8, 4, 0x0, 1, 0xF#64, 0x10#64, 0x0#64, 0x0#64⟩,
  ⟨0x100020, 0x0, 1, 0x0, 1, 0x0#64, 0x0#64, 0x0#64, 0x0#64⟩,
  ⟨0x100028, 0x0, 1, 0x0, 1, 0x0#64, 0x0#64, 0x0#64, 0x0#64⟩,
  ⟨0x110000, 0x10, 4096, 0x0, 1, 0x3FFFFFFF0000#64, 0x0#64, 0x0#64, 0x0#64⟩,
  ⟨0x110008, 0x10, 4096, 0x0, 1, 0x0#64, 0x0#64, 0x0#64, 0x0#64⟩]

/-- The registers of block NP_. -/
def rowsNP : List RegRow := [
  ⟨0x40000, 0x0, 1, 0x0, 1, 0x3#64, 0x4#64, 0x0#64, 0x0#64⟩,
  ⟨0x40100, 0x8, 8, 0x0, 1, 0xFF3FFF0003#64, 0x0#64, 0x0#64, 0x5F20002#64⟩,
  ⟨0x41000, 0x80, 8, 0x0, 1, 0x0#64, 0x0#64, 0x0#64, 0x0#64⟩,
  ⟨0x41008, 0x80, 8, 0x0, 1, 0x0#64, 0x0#64, 0x0#64, 0x0#64⟩,
  ⟨0x41010, 0x80, 8, 0x0, 1, 0x0#64, 0x0#64, 0x0#64, 0x0#64⟩,
  ⟨0x41018, 0x80, 8, 0x0, 1, 0x0#64, 0x0#64, 0x0#64, 0x0#64⟩,
  ⟨0x41020, 0x80, 8, 0x0, 1, 0x0#64, 0x0#64, 0x0#64, 0x0#64⟩,
  ⟨0x41028, 0x80, 8, 0x0, 1, 0x0#64, 0x0#64, 0x0#64, 0x0#64⟩,
  ⟨0x41030, 0x80, 8, 0x0, 1, 0x0#64, 0x0#64, 0x0#64, 0x0#64⟩,
  ⟨0x41038, 0x80, 8, 0x0, 1, 0x0#64, 0x0#64, 0x0#64, 0x0#64⟩,
  ⟨0x41040, 0x80, 8, 0x0, 1, 0x0#64, 0x0#64, 0x0#64, 0x0#64⟩,
  ⟨0x41048, 0x80, 8, 0x0, 1, 0x0#64, 0x0#64, 0x0#64, 0x0#64⟩]

/-- The registers of block PL_. -/
def rowsPL : List RegRow := [
  ⟨0x140000, 0x100, 5, 0x0, 1, 0xFFFF07FF#64, 0x0#64, 0x0#64, 0x12180100#64⟩,
  ⟨0x140008, 0x100, 5, 0x0, 1, 0x0#64, 0x0#64, 0x0#64, 0x0#64⟩,
  ⟨0x140010, 0x100, 5, 0x0, 1, 0x0#64, 0x0#64, 0x0#64, 0x0#64⟩,
  ⟨0x140018, 0x100, 5, 0x0, 1, 0x0#64, 0x0#64, 0x0#64, 0x0#64⟩,
  ⟨0x140020, 0x100, 5, 0x0, 1, 0x0#64, 0x0#64, 0x0#64, 0x0#64⟩,
  ⟨0x140040, 0x100, 5, 0x0, 1, 0x1FFF1FFF1FFF1FFF#64, 0x0#64, 0x0#64, 0x0#64⟩,
  ⟨0x140048, 0x100, 5, 0x0, 1, 0x0#64, 0x0#64, 0x0#64, 0x0#64⟩,
  ⟨0x150000, 0x400, 5, 0x8, 128, 0xFFFFF001F1F03#64, 0x0#64, 0x0#64, 0x0#64⟩,
  ⟨0x160000, 0x400, 5, 0x8, 128, 0x0#64, 0x0#64, 0x0#64, 0x0#64⟩]

/-- The registers of block PP_. -/
def rowsPP : List RegRow := [
  ⟨0x80000, 0x0, 1, 0x0, 1, 0xFFFFFF#64, 0x0#64, 0x0#64, 0x0#64⟩,
  ⟨0x80100, 0x40, 4, 0x0, 1, 0x3FFF0007#64, 0x0#64, 0x0#64, 0x5F20000#64⟩,
  ⟨0x80108, 0x40, 4, 0x0, 1, 0x1FFFFFFFF#64, 0x0#64, 0x0#64, 0x103E803E8#64⟩,
  ⟨0x82000, 0x40, 68, 0x0, 1, 0xFFFFFFFFFFFF#64, 0x0#64, 0x0#64, 0x0#64⟩,
  ⟨0x82008, 0x40, 68, 0x0, 1, 0xFFFFFFFF3FFFFFFF#64, 0x0#64, 0x0#64, 0xF424000000000#64⟩,
  ⟨0x82010, 0x40, 68, 0x0, 1, 0xFF07FF#64, 0x800000000#64, 0x100000000#64, 0xFF0000#64⟩,
  ⟨0x82018, 0x40, 68, 0x0, 1, 0xFFFFFFFFFFFF#64, 0x0#64, 0x0#64, 0x0#64⟩,
  ⟨0x82020, 0x40, 68, 0x0, 1, 0x3FFFFFFF#64, 0x0#64, 0x0#64, 0x0#64⟩,
  ⟨0x82028, 0x40, 68, 0x0, 1, 0x0#64, 0x0#64, 0x0#64, 0x0#64⟩,
  ⟨0x80800, 0x40, 2, 0x0, 1, 0xFFFFFFFFFFFF#64, 0x0#64, 0x0#64, 0x0#64⟩,
  ⟨0x80808, 0x40, 2, 0x0, 1, 0x3FFFFFFF#64, 0x0#64, 0x0#64, 0x0#64⟩,
  ⟨0x80810, 0x40, 2, 0x0, 1, 0xFFF000000FF00#64, 0x0#64, 0x7#64, 0x100#64⟩,
  ⟨0x80818, 0x40, 2, 0x0, 1, 0x0#64, 0x0#64, 0x0#64, 0x0#64⟩,
  ⟨0x81000, 0x80, 4, 0x0, 1, 0x0#64, 0x0#64, 0x0#64, 0x0#64⟩,
  ⟨0x81008, 0x80, 4, 0x0, 1, 0x0#64, 0x0#64, 0x0#64, 0x0#64⟩,
  ⟨0x81010, 0x80, 4, 0x0, 1, 0x0#64, 0x0#64, 0x0#64, 0x0#64⟩,
  ⟨0x81018, 0x80, 4, 0x0, 1, 0x0#64, 0x0#64, 0x0#64, 0x0#64⟩,
  ⟨0x81020, 0x80, 4, 0x0, 1, 0x0#64, 0x0#64, 0x0#64, 0x0#64⟩,
  ⟨0x81028, 0x80, 4, 0x0, 1, 0x0#64, 0x0#64, 0x0#64, 0x0#64⟩,
  ⟨0x81030, 0x80, 4, 0x0, 1, 0x0#64, 0x0#64, 0x0#64, 0x0#64⟩,
  ⟨0x81038, 0x80, 4, 0x0, 1, 0x0#64, 0x0#64, 0x0#64, 0x0#64⟩,
  ⟨0x81040, 0x80, 4, 0x0, 1, 0x0#64, 0x0#64, 0x0#64, 0x0#64⟩,
  ⟨0x81048, 0x80, 4, 0x0, 1, 0x0#64, 0x0#64, 0x0#64, 0x0#64⟩,
  ⟨0x81050, 0x80, 4, 0x0, 1, 0x0#64, 0x0#64, 0x0#64, 0x0#64⟩]

/-- The registers of block CL_. -/
def rowsCL : List RegRow := [
  ⟨0x50000, 0x100, 4, 0x0, 1, 0xFFFF1F#64, 0x0#64, 0x0#64, 0x0#64⟩,
  ⟨0x50008, 0x100, 5, 0x0, 1, 0x0#64, 0x0#64, 0x0#64, 0x0#64⟩,
  ⟨0x50010, 0x100, 4, 0x0, 1, 0x0#64, 0x0#64, 0x0#64, 0x0#64⟩,
  ⟨0x50018, 0x100, 4, 0x0, 1, 0x0#64, 0x0#64, 0x0#64, 0x0#64⟩,
  ⟨0x50020, 0x100, 4, 0x0, 1, 0x0#64, 0x0#64, 0x0#64, 0x0#64⟩,
  ⟨0x50028, 0x100, 4, 0x0, 1, 0x0#64, 0x0#64, 0x0#64, 0x0#64⟩,
  ⟨0x50030, 0x100, 4, 0x0, 1, 0x0#64, 0x0#64, 0x0#64, 0x0#64⟩,
  ⟨0x50038, 0x100, 4, 0x0, 1, 0x0#64, 0x0#64, 0x0#64, 0x0#64⟩,
  ⟨0x50040, 0x100, 4, 0x0, 1, 0x0#64, 0x0#64, 0x0#64, 0x0#64⟩,
  ⟨0x51000, 0x200, 4, 0x20, 16, 0xFFFF07F7#64, 0x0#64, 0x0#64, 0x0#64⟩,
  ⟨0x51008, 0x200, 4, 0x20, 16, 0xFFFFFFFFFFFFFFFF#64, 0x0#64, 0x0#64, 0x0#64⟩,
  ⟨0x51010, 0x200, 4, 0x20, 16, 0xFFFFFFFFFFFFFFFF#64, 0x0#64, 0x0#64, 0x0#64⟩,
  ⟨0x51018, 0x200, 4, 0x20, 16, 0x0#64, 0x0#64, 0x0#64, 0x0#64⟩]

/-- The registers of block FT_. -/
def rowsFT : List RegRow := [
  ⟨0x60000, 0x100, 5, 0x0, 1, 0x3FFFFFFFFFFFFFFF#64, 0x0#64, 0x0#64, 0x100000000000#64⟩,
  ⟨0x60008, 0x100, 5, 0x0, 1, 0x7FFF0003FFF1#64, 0x0#64, 0x0#64, 0x12C00003E80#64⟩,
  ⟨0x60010, 0x100, 5, 0x0, 1, 0xFFFFFFFFFFFFFFFF#64, 0x0#64, 0x0#64, 0x3000200010000#64⟩,
  ⟨0x60018, 0x100, 5, 0x0, 1, 0x0#64, 0x80000#64, 0x0#64, 0x0#64⟩,
  ⟨0x60020, 0x100, 5, 0x0, 1, 0x0#64, 0x0#64, 0x0#64, 0x0#64⟩,
  ⟨0x60028, 0x100, 5, 0x0, 1, 0x0#64, 0x0#64, 0x0#64, 0x0#64⟩,
  ⟨0x60030, 0x100, 5, 0x0, 1, 0x0#64, 0x0#64, 0x0#64, 0x0#64⟩,
  ⟨0x60038, 0x100, 5, 0x0, 1, 0x0#64, 0x0#64, 0x0#64, 0x0#64⟩,
  ⟨0x60040, 0x100, 5, 0x0, 1, 0x0#64, 0x0#64, 0x0#64, 0x0#64⟩,
  ⟨0x60048, 0x100, 5, 0x0, 1, 0x0#64, 0x0#64, 0x0#64, 0x0#64⟩,
  ⟨0x60050, 0x100, 5, 0x0, 1, 0x0#64, 0x0#64, 0x0#64, 0x0#64⟩,
  ⟨0x61000, 0x200, 4, 0x8, 64, 0xFFFFF1F1#64, 0x0#64, 0x0#64, 0x0#64⟩,
  ⟨0x62000, 0x40, 4, 0x8, 8, 0x0#64, 0x0#64, 0x0#64, 0x0#64⟩]

/-- The registers of block TM_. -/
def rowsTM : List RegRow := [
  ⟨0x70000, 0x0, 1, 0x0, 1, 0x1F0F1FFFF1#64, 0x2000000000#64, 0x0#64, 0x40000#64⟩,
  ⟨0x70008, 0x0, 1, 0x0, 1, 0x0#64, 0x0#64, 0x0#64, 0x2C000#64⟩,
  ⟨0x70010, 0x0, 1, 0x0, 1, 0x0#64, 0x0#64, 0x0#64, 0x0#64⟩,
  ⟨0x70018, 0x0, 1, 0x0, 1, 0x0#64, 0x0#64, 0x0#64, 0x0#64⟩,
  ⟨0x70020, 0x0, 1, 0x0, 1, 0x0#64, 0x0#64, 0x0#64, 0x0#64⟩,
  ⟨0x70028, 0x0, 1, 0x0, 1, 0xFFFF#64, 0x0#64, 0x0#64, 0x101#64⟩,
  ⟨0x70030, 0x0, 1, 0x0, 1, 0x0#64, 0x0#64, 0x0#64, 0x0#64⟩,
  ⟨0x70038, 0x0, 1, 0x0, 1, 0x0#64, 0x0#64, 0x0#64, 0x0#64⟩,
  ⟨0x70040, 0x0, 1, 0x0, 1, 0x0#64, 0x0#64, 0x0#64, 0x0#64⟩,
  ⟨0x70048, 0x0, 1, 0x0, 1, 0x0#64, 0x0#64, 0x0#64, 0x0#64⟩,
  ⟨0x70400, 0x40, 13, 0x0, 1, 0xFFFFFFFFFFFFFFFF#64, 0x0#64, 0x0#64, 0x0#64⟩,
  ⟨0x70408, 0x40, 13, 0x0, 1, 0xFFFFFFFFFFFFF73F#64, 0x0#64, 0x0#64, 0x3E8000A00406014#64⟩,
  ⟨0x70410, 0x40, 13, 0x0, 1, 0x0#64, 0xFF000000#64, 0x0#64, 0x0#64⟩,
  ⟨0x70418, 0x40, 13, 0x0, 1, 0x0#64, 0x0#64, 0x0#64, 0x0#64⟩,
  ⟨0x70420, 0x40, 13, 0x0, 1, 0x0#64, 0x0#64, 0x0#64, 0x0#64⟩,
  ⟨0x70428, 0x40, 13, 0x0, 1, 0x0#64, 0x0#64, 0x0#64, 0x0#64⟩,
  ⟨0x78000, 0x20, 512, 0x0, 1, 0x0#64, 0x0#64, 0x0#64, 0x0#64⟩,
  ⟨0x78008, 0x20, 512, 0x0, 1, 0x0#64, 0x0#64, 0x0#64, 0x0#64⟩,
  ⟨0x78010, 0x20, 512, 0x0, 1, 0x0#64, 0x0#64, 0x0#64, 0x0#64⟩,
  ⟨0x78018, 0x20, 512, 0x0, 1, 0x0#64, 0x0#64, 0x0#64, 0x0#64⟩]

/-- The registers of block CK_. -/
def rowsCK : List RegRow := [
  ⟨0x90000, 0x0, 1, 0x0, 1, 0x3FF0005#64, 0xA#64, 0x0#64, 0x640000#64⟩,
  ⟨0x90008, 0x0, 1, 0x0, 1, 0x0#64, 0x0#64, 0x0#64, 0x0#64⟩,
  ⟨0x90010, 0x0, 1, 0x0, 1, 0x0#64, 0x0#64, 0x0#64, 0x0#64⟩,
  ⟨0x90018, 0x0, 1, 0x0, 1, 0xFFFFFFFFFF#64, 0x0#64, 0x0#64, 0x0#64⟩,
  ⟨0x90020, 0x0, 1, 0x0, 1, 0x0#64, 0x0#64, 0xFFFFFFFFFFFF#64, 0x0#64⟩,
  ⟨0x90028, 0x0, 1, 0x0, 1, 0x0#64, 0x0#64, 0xFFFFFFFF#64, 0x0#64⟩,
  ⟨0x90030, 0x0, 1, 0x0, 1, 0x0#64, 0x0#64, 0x0#64, 0x0#64⟩,
  ⟨0x90038, 0x0, 1, 0x0, 1, 0x0#64, 0x0#64, 0x0#64, 0x0#64⟩,
  ⟨0x90040, 0x0, 1, 0x0, 1, 0xFFF#64, 0x0#64, 0x0#64, 0x0#64⟩,
  ⟨0x90100, 0x8, 12, 0x0, 1, 0xFFFFFFFF#64, 0x0#64, 0x0#64, 0x0#64⟩]

/-- The registers of block IG_. -/
def rowsIG : List RegRow := [
  ⟨0xA0000, 0x0, 1, 0x0, 1, 0x7F#64, 0x80#64, 0x0#64, 0x0#64⟩,
  ⟨0xA0008, 0x0, 1, 0x0, 1, 0x0#64, 0x0#64, 0x0#64, 0x0#64⟩,
  ⟨0xA0100, 0x10, 64, 0x0, 1, 0xFFFFFFFFFFFF0001#64, 0x0#64, 0x0#64, 0x40001000040000#64⟩,
  ⟨0xA0108, 0x10, 64, 0x0, 1, 0x0#64, 0x0#64, 0x0#64, 0x0#64⟩]

/-- The registers of block FC_. -/
def rowsFC : List RegRow := [
  ⟨0xB0000, 0x40, 32, 0x0, 1, 0xFFFFFFFF00#64, 0x0#64, 0x3#64, 0x0#64⟩,
  ⟨0xB0008, 0x40, 32, 0x0, 1, 0x0#64, 0x2000000#64, 0x0#64, 0x10000FF#64⟩,
  ⟨0xB0010, 0x40, 32, 0x0, 1, 0x3FF01FF#64, 0x0#64, 0x0#64, 0x0#64⟩,
  ⟨0xB0018, 0x40, 32, 0x0, 1, 0x0#64, 0x0#64, 0x0#64, 0x0#64⟩,
  ⟨0xB0020, 0x40, 32, 0x0, 1, 0x0#64, 0x0#64, 0x0#64, 0x0#64⟩,
  ⟨0xB0028, 0x40, 32, 0x0, 1, 0x0#64, 0x0#64, 0x0#64, 0x0#64⟩,
  ⟨0xB1000, 0x20, 256, 0x0, 1, 0x0#64, 0x0#64, 0x0#64, 0x0#64⟩,
  ⟨0xB1008, 0x20, 256, 0x0, 1, 0x7FFF0004#64, 0x0#64, 0x3#64, 0x0#64⟩,
  ⟨0xB1010, 0x20, 256, 0x0, 1, 0x0#64, 0x0#64, 0x0#64, 0x0#64⟩,
  ⟨0xB1018, 0x20, 256, 0x0, 1, 0x0#64, 0x0#64, 0x0#64, 0x0#64⟩,
  ⟨0xB3000, 0x40, 33, 0x0, 1, 0x0#64, 0x0#64, 0xFFFFFF#64, 0x0#64⟩,
  ⟨0xB3008, 0x40, 32, 0x8, 4, 0xFFFFFF#64, 0x0#64, 0x0#64, 0x0#64⟩,
  ⟨0xB3808, 0x0, 1, 0x8, 4, 0xFFFFF00FFFFFF#64, 0x0#64, 0x0#64, 0x0#64⟩,
  ⟨0xB4000, 0x0, 1, 0x0, 1, 0x0#64, 0x0#64, 0x0#64, 0x0#64⟩,
  ⟨0xB4008, 0x0, 1, 0x0, 1, 0x0#64, 0x0#64, 0x0#64, 0x0#64⟩]

/-- The registers of block CX_. -/
def rowsCX : List RegRow := [
  ⟨0xC0000, 0x0, 1, 0x0, 1, 0xFFF7F#64, 0x80#64, 0x0#64, 0x0#64⟩,
  ⟨0xC0008, 0x0, 1, 0x0, 1, 0x0#64, 0x0#64, 0x0#64, 0x0#64⟩,
  ⟨0xC0010, 0x0, 1, 0x0, 1, 0x0#64, 0x0#64, 0x0#64, 0x0#64⟩,
  ⟨0xC0018, 0x0, 1, 0x0, 1, 0x0#64, 0x0#64, 0x0#64, 0x0#64⟩,
  ⟨0xC0020, 0x0, 1, 0x0, 1, 0x0#64, 0x0#64, 0x0#64, 0x0#64⟩]

/-- The registers of block ST_. -/
def rowsST : List RegRow := [
  ⟨0xD0000, 0x0, 1, 0x0, 1, 0x0#64, 0x0#64, 0x0#64, 0x0#64⟩,
  ⟨0xD0008, 0x0, 1, 0x0, 1, 0x0#64, 0x0#64, 0x0#64, 0x0#64⟩,
  ⟨0xD0010, 0x0, 1, 0x0, 1, 0x0#64, 0x0#64, 0x0#64, 0x0#64⟩,
  ⟨0xD0018, 0x0, 1, 0x0, 1, 0x0#64, 0x0#64, 0x0#64, 0x0#64⟩,
  ⟨0xD0020, 0x0, 1, 0x0, 1, 0x0#64, 0x0#64, 0x0#64, 0x0#64⟩,
  ⟨0xD0028, 0x0, 1, 0x0, 1, 0x0#64, 0x0#64, 0x0#64, 0x0#64⟩,
  ⟨0xD0030, 0x0, 1, 0x0, 1, 0x0#64, 0x0#64, 0x0#64, 0x0#64⟩,
  ⟨0xD0038, 0x0, 1, 0x0, 1, 0x0#64, 0x0#64, 0x0#64, 0x0#64⟩,
  ⟨0xD0040, 0x0, 1, 0x0, 1, 0x0#64, 0x0#64, 0x0#64, 0x0#64⟩,
  ⟨0xD1000, 0x10, 1024, 0x0, 1, 0x0#64, 0x0#64, 0x0#64, 0x0#64⟩,
  ⟨0xD1008, 0x10, 1024, 0x0, 1, 0x0#64, 0x0#64, 0x0#64, 0x1#64⟩]

/-- The registers of block MB_. -/
def rowsMB : List RegRow := [
  ⟨0xE0000, 0x0, 1, 0x0, 1, 0xFFF1FFF#64, 0x0#64, 0x0#64, 0x3C0000#64⟩,
  ⟨0xE0100, 0x100, 4, 0x0, 1, 0x3D#64, 0x0#64, 0x2#64, 0x0#64⟩,
  ⟨0xE0108, 0x100, 4, 0x0, 1, 0x0#64, 0xE#64, 0x0#64, 0x0#64⟩,
  ⟨0xE0110, 0x100, 4, 0x0, 1, 0xFFFF0000#64, 0x0#64, 0x0#64, 0x645A0000#64⟩,
  ⟨0xE0118, 0x100, 4, 0x8, 3, 0x0#64, 0x0#64, 0x0#64, 0x0#64⟩,
  ⟨0xE0130, 0x100, 4, 0x8, 5, 0x0#64, 0x0#64, 0x0#64, 0x0#64⟩,
  ⟨0xE0158, 0x100, 4, 0x0, 1, 0x0#64, 0x0#64, 0x0#64, 0x0#64⟩,
  ⟨0xE0160, 0x100, 4, 0x0, 1, 0x0#64, 0x0#64, 0x0#64, 0x0#64⟩,
  ⟨0xE0168, 0x100, 4, 0x0, 1, 0x0#64, 0x0#64, 0x0#64, 0x0#64⟩,
  ⟨0xE0800, 0x10, 8, 0x0, 1, 0x0#64, 0x0#64, 0x0#64, 0x0#64⟩,
  ⟨0xE0808, 0x10, 8, 0x0, 1, 0x0#64, 0x0#64, 0x0#64, 0x0#64⟩]

/-- The registers of block CG_. -/
def rowsCG : List RegRow := [
  ⟨0xF0000, 0x0, 1, 0x0, 1, 0xFFF1F01#64, 0x10000000#64, 0x0#64, 0x0#64⟩,
  ⟨0xF0008, 0x0, 1, 0x0, 1, 0x0#64, 0x0#64, 0x0#64, 0x0#64⟩,
  ⟨0xF0010, 0x0, 1, 0x0, 1, 0x0#64, 0x0#64, 0x0#64, 0x0#64⟩,
  ⟨0xF0018, 0x0, 1, 0x0, 1, 0x0#64, 0x0#64, 0x0#64, 0x0#64⟩,
  ⟨0xF0020, 0x0, 1, 0x0, 1, 0x0#64, 0x0#64, 0x0#64, 0x0#64⟩,
  ⟨0xF0028, 0x0, 1, 0x0, 1, 0x0#64, 0x0#64, 0x0#64, 0x0#64⟩,
  ⟨0xF0030, 0x0, 1, 0x0, 1, 0x0#64, 0x0#64, 0x0#64, 0x0#64⟩,
  ⟨0xF0038, 0x0, 1, 0x0, 1, 0x0#64, 0x0#64, 0x0#64, 0x0#64⟩,
  ⟨0xF0040, 0x0, 1, 0x0, 1, 0x0#64, 0x0#64, 0x0#64, 0x0#64⟩,
  ⟨0xF0100, 0x8, 4, 0x0, 1, 0xFFFFFF#64, 0x0#64, 0x0#64, 0x0#64⟩]

/-- The registers of block FX_. -/
def rowsFX : List RegRow := [
  ⟨0x180000, 0x0, 1, 0x0, 1, 0xFFFF#64, 0x0#64, 0x0#64, 0x0#64⟩,
  ⟨0x180008, 0x0, 1, 0x0, 1, 0x0#64, 0x0#64, 0x0#64, 0x1#64⟩,
  ⟨0x180010, 0x0, 1, 0x0, 1, 0x0#64, 0x0#64, 0x0#64, 0x0#64⟩,
  ⟨0x180018, 0x0, 1, 0x0, 1, 0x0#64, 0x0#64, 0x0#64, 0x0#64⟩,
  ⟨0x180020, 0x0, 1, 0x0, 1, 0x0#64, 0x0#64, 0x0#64, 0x0#64⟩,
  ⟨0x180028, 0x0, 1, 0x0, 1, 0x0#64, 0x0#64, 0x0#64, 0x0#64⟩,
  ⟨0x180030, 0x0, 1, 0x0, 1, 0x0#64, 0x0#64, 0x0#64, 0x0#64⟩,
  ⟨0x180040, 0x0, 1, 0x0, 1, 0x0#64, 0x1#64, 0x0#64, 0x0#64⟩,
  ⟨0x180048, 0x0, 1, 0x0, 1, 0x0#64, 0x0#64, 0x0#64, 0x0#64⟩,
  ⟨0x180050, 0x0, 1, 0x0, 1, 0x0#64, 0x0#64, 0x0#64, 0x0#64⟩,
  ⟨0x180100, 0x20, 4, 0x0, 1, 0x3FF0000#64, 0x4#64, 0x1#64, 0x10000#64⟩,
  ⟨0x180108, 0x20, 4, 0x0, 1, 0x3FFFFF8#64, 0x0#64, 0x0#64, 0x0#64⟩,
  ⟨0x180110, 0x20, 4, 0x0, 1, 0x0#64, 0x0#64, 0x0#64, 0x0#64⟩,
  ⟨0x180118, 0x20, 4, 0x0, 1, 0x0#64, 0x0#64, 0x0#64, 0x0#64⟩,
  ⟨0x190000, 0x20, 1024, 0x8, 4, 0x0#64, 0x0#64, 0x0#64, 0x0#64⟩,
  ⟨0x1A0000, 0x1000, 4, 0x8, 512, 0x0#64, 0x0#64, 0x0#64, 0x0#64⟩]

/-- The registers of a block by its number. -/
def blockRows : Nat → List RegRow
  | 0 => rowsDV
  | 1 => rowsFS
  | 2 => rowsSB
  | 3 => rowsHL
  | 4 => rowsQE
  | 5 => rowsIM
  | 6 => rowsNP
  | 7 => rowsPL
  | 8 => rowsPP
  | 9 => rowsCL
  | 10 => rowsFT
  | 11 => rowsTM
  | 12 => rowsCK
  | 13 => rowsIG
  | 14 => rowsFC
  | 15 => rowsCX
  | 16 => rowsST
  | 17 => rowsMB
  | 18 => rowsCG
  | 19 => rowsFX
  | _ => []

/-- The register row at an 8-byte-aligned offset; none where no chapter assigns a register (R519). -/
def regRow (off : Nat) : Option RegRow :=
  match blockOf off with
  | none => none
  | some b => (blockRows b.num).find? (fun r => r.has off)

/-- The value of a register after stage 1 (R10). `TM_PORT_B` of port 12 has overhead 0 (R304). -/
def regDefault (off : Nat) : Word :=
  match regRow off with
  | none => 0
  | some r => if off = TM_PORT_B 12 then setFld r.dflt 0 6 0 else r.dflt

end Sys2Proof.Machine
end

