-- ==== Sys2Proof/Machine/State.lean ====
section
/-! DEFINITION. The state of the block: every register, table, buffer, counter, mode and pin the spec gives it, and the
queue of commands that wait. Plain data. -/
namespace Sys2Proof.Machine

/-! ### Outcomes -/

/-- The model has no command that stops the block with a fault: every behaviour the spec calls an error of the block
is a next state (a stopped queue, a thread fault, an entry in the fault and event log, a return to stage 1). -/
inductive Fault where
  deriving DecidableEq, Repr

/-- Reasons for which the model gives a command no meaning. -/
inductive Refusal where
  /-- Raised by an arm of `exec` for a command that has no meaning yet, named as the table names it.
  Safe: nothing can be proved about what the block does then. -/
  | notModelled (mnemonic : String)
  deriving DecidableEq, Repr

/-! ### What the block drives to the outside -/

/-- What the PMBus master reads: it has no other transaction (R554). -/
inductive PmbusRead where
  | vout | iout | temperature1
  deriving DecidableEq, Repr

/-- How a configuration request is completed (R44, R78). -/
inductive CfgStatus where
  | live | retry | unsupported
  deriving DecidableEq, Repr

/-- AER conditions the block reports (R89). -/
inductive Aer where
  | internalFatal | correctedInternal | unsupportedRequest | poisonedTlp | completionTimeout
  | ecrcError | receiverError | malformedTlp | badDllp | dataLinkProtocol
  deriving DecidableEq, Repr

/-- One thing the block drives to the outside. The list of them is the model's record of what left the block. -/
inductive Out where
  /-- A memory write upstream by a function: PASID carried, Relaxed Ordering, host address, data (R79, R88). -/
  | hostWrite (fn : Fn) (pasid : Option (BitVec 20)) (ro : Bool) (addr : Nat) (data : Bytes)
  /-- A memory read upstream, with its tag (R74). -/
  | hostRead (fn : Fn) (pasid : Option (BitVec 20)) (addr : Nat) (len : Nat) (work : ReadWork) (tag : BitVec 14)
  /-- A message of the interrupt message store: a 4-byte posted write without PASID (R145). -/
  | message (fn : Fn) (addr : Nat) (data : BitVec 32)
  /-- An MSI-X vector signalled (R85). -/
  | msix (fn : Fn) (vector : Nat)
  /-- The completion of a configuration request (R44, R78). -/
  | cfgCompletion (fn : Fn) (status : CfgStatus) (data : BitVec 32)
  /-- A BAR read completed with Unsupported Request (R81, R84, R105). -/
  | readUnsupported (fn : Fn)
  /-- One completion of a BAR read, with its data (R73, R81, R83). -/
  | readCompletion (fn : Fn) (data : Bytes)
  /-- An AER report (R89). -/
  | aer (fn : Fn) (a : Aer)
  /-- PM_PME, with a wake from L1 first when the link is in L1 (R94). -/
  | pme (wakeL1 : Bool)
  /-- The link requests ASPM L1 (R91). -/
  | l1Request
  /-- A PTM Request (R102). -/
  | ptmRequest
  /-- A frame forwarded by the bypass, with its FCS as received (R40). -/
  | bypassFrame (port : PPort) (frame : Bytes) (fcsOk : Bool)
  /-- A frame sent on a network port, with a good or an inverted FCS (R23). -/
  | netFrame (port : NPort) (frame : Bytes) (fcsOk : Bool)
  /-- A frame sent on a plant port. -/
  | plantFrame (port : PPort) (frame : Bytes) (fcsOk : Bool)
  /-- A priority flow control frame: the priorities it carries and the quanta of each of the eight (R282). -/
  | pfcFrame (port : NPort) (prios : BitVec 8) (quanta : List Nat)
  /-- THERM_TRIP_N asserted (R550). -/
  | thermTrip
  /-- An edge on PPS_OUT (R322). -/
  | ppsOut (width : Nat)
  /-- A fuse link burned: 0 to 63 the thermometer, 64 to 67 the revocation bits (R61). -/
  | fuseBurn (link : Nat)
  /-- A PERST# or power action on a bay's pins (R454, R556). -/
  | bayPin (bay : Bay) (power : Bool) (perst : Bool)
  /-- An NVMe command sent to a pack: bay, command identifier, opcode, namespace, first block, blocks, data. -/
  | packCommand (bay : Bay) (cid : Nat) (opcode : Nat) (nsid : BitVec 32) (lba : Nat) (blocks : Nat) (data : Bytes)
  /-- A Get Log Page SMART / Health Information sent to the pack of a bay (R462). -/
  | lifePoll (bay : Bay)
  /-- An answer of the SMBus/MCTP endpoint; none when its address is not acknowledged (R45, R553). -/
  | mctp (body : Option Bytes)
  /-- What a JTAG instruction selects (R555): the instruction in effect and whether it is served. -/
  | jtag (i : JtagInstr) (served : Bool) (idcode : Option (BitVec 32))
  /-- A vendor-defined MCTP message passed to the housekeeping image (R553). -/
  | mctpToHk (body : Bytes)
  /-- A PMBus read of the VDD_CORE regulator: its address and the command it reads (R554). -/
  | pmbusRead (addr : BitVec 7) (reads : PmbusRead)
  deriving DecidableEq, Repr

/-! ### Start, fuses and the always-on domain (02, 18 R516, 20) -/

/-- One copy of the protection fuses (R50): the set-up bits as FS_PROTECT lays them out (R52; its arb_count bits are
not fuses), the anti-rollback links, the four key hashes. -/
structure ProtFuses where
  setup : BitVec 64
  arb : BitVec 64
  key0 : BitVec 384
  key1 : BitVec 384
  key2 : BitVec 384
  key3 : BitVec 384
  deriving DecidableEq, Repr

/-- The fuse block: the identity record (R47) and three copies of the protection fuses (R50). -/
structure Fuses where
  identity : BitVec 128
  copyA : ProtFuses
  copyB : ProtFuses
  copyC : ProtFuses
  deriving DecidableEq, Repr

/-- A device fault as the always-on latch holds it (R516). -/
structure FaultRec where
  cause : BitVec 8
  block : BitVec 5
  detail : BitVec 32
  time : BitVec 64
  deriving DecidableEq, Repr

/-- A fuse burn under way: the links still to burn, and the boot descriptor it completes (R61). -/
structure Burn where
  links : List Nat
  deriving DecidableEq, Repr

/-- The boot descriptor being served: its index and bytes (R54, R55). -/
structure BootDesc where
  index : BitVec 32
  desc : Bytes
  deriving DecidableEq, Repr

/-- Stage, start steps, bypass and always-on state. -/
structure Life where
  /-- VDD_AON is within range (R34). -/
  aonGood : Bool
  /-- Strap balls as sampled at VDD_AON good (R38). -/
  strap0 : BitVec 2
  strap1 : BitVec 2
  /-- The 25 MHz plant reference is stable (R40). -/
  refStable : Bool
  /-- The bypass has begun to forward (R40). -/
  bypassUp : Bool
  /-- PERST# is asserted (R43). -/
  perst : Bool
  /-- No PERST# release has been seen since VDD_AON good, so the next stage 1 is a power-up (R36). -/
  powerUp : Bool
  /-- 0 to 3 (R34). -/
  stage : Fin 4
  stage1Done : Bool
  /-- The stage 1 under way was entered by an FLR on PF0: array clears and DRAM scrub only (R65). -/
  flrStage : Bool
  /-- Steps 1, 2a and 2b of stage 1 are complete (R43). -/
  fusesSensed : Bool
  bistDone : Bool
  dramDone : Bool
  bistFail : Bool
  identityBad : Bool
  vppOk : Bool
  hkLoaded : Bool
  parseLoaded : BitVec 5
  /-- A go_service waits for the boot ring to hold no fetched descriptor (R63). -/
  goPending : Bool
  /-- Configuration requests are answered with RRS (R44). -/
  rrs : Bool
  resetCause : BitVec 8
  fuses : Fuses
  /-- The protection fuses as sensed, by majority (R50). -/
  sensed : ProtFuses
  /-- The identity record as sensed (R49). -/
  identity : BitVec 128
  boot : Option BootDesc
  burn : Option Burn
  /-- THERM_TRIP_N is asserted, until VDD_AON is lost (R550). -/
  thermTrip : Bool
  /-- FX_LAST_FAULT: the recorded fault, if valid, and later_faults (R516). -/
  lastFault : Option FaultRec
  laterFaults : BitVec 32
  /-- The device-fault latch (R516). -/
  faultLatch : Option FaultRec
  /-- Step 1 of stage 1 has completed since VDD_AON good, so the SMBus/MCTP endpoint answers (R45). -/
  smbusUp : Bool
  /-- The JTAG instruction in effect; IDCODE out of Test-Logic-Reset (R69, R555). -/
  jtag : JtagInstr
  deriving DecidableEq, Repr

/-! ### Host link (03) -/

/-- The configuration space of one function: the fields the device or the host sets (R76, R77, R84). -/
structure FnCfg where
  busMaster : Bool
  memSpace : Bool
  msixEnable : Bool
  msixMask : Bool
  pasidEnable : Bool
  /-- PowerState D3hot (R92). -/
  d3hot : Bool
  pmeEnable : Bool
  pmeStatus : Bool
  aspmL1 : Bool
  ptmEnable : Bool
  extendedTag : Bool
  tag10 : Bool
  tag14 : Bool
  timeoutDisable : Bool
  /-- ECRC generation and checking are enabled (R72). -/
  ecrcEnable : Bool
  ecrcCheck : Bool
  /-- ASPM L1.1 and PCI-PM L1.1 are enabled (R72, R77). -/
  aspmL11 : Bool
  pmL11 : Bool
  maxPayload : BitVec 3
  maxReadRequest : BitVec 3
  aerUncStatus : BitVec 32
  aerCorStatus : BitVec 32
  aerUncMask : BitVec 32
  aerCorMask : BitVec 32
  aerSeverity : BitVec 32
  /-- The AER status bit whose error is logged, and the header of its TLP (R89). -/
  aerFirst : Option (BitVec 5)
  aerHeader : BitVec 128
  bar0 : BitVec 64
  bar2 : BitVec 64
  bar4 : BitVec 64
  interruptLine : BitVec 8
  /-- The other writable bits of the Command register. -/
  commandOther : BitVec 16
  deriving DecidableEq, Repr

/-- A device read that waits for its completion, with its tag (R74). -/
structure TagUse where
  fn : Fn
  tag : BitVec 14
  work : ReadWork
  deriving DecidableEq, Repr

/-- A device read that waits for a tag (R74). -/
structure TagWait where
  fn : Fn
  pasid : Option (BitVec 20)
  addr : Nat
  len : Nat
  work : ReadWork
  deriving DecidableEq, Repr

/-- The host link. -/
structure Link where
  cfg : Tab FnCfg
  up : Bool
  speed : BitVec 3
  width : BitVec 5
  flit : Bool
  /-- 0 L0, 1 L1, 2 L1.1 (R106). -/
  l1 : BitVec 2
  /-- Clove ticks in which no TLP was pending (R91). -/
  idleTicks : Nat
  /-- An FLR of PF1 to PF3 is under way (R97). -/
  flr : BitVec 4
  /-- Quiesce requests that wait for Bus Master Enable (R100). -/
  quiesceWait : BitVec 4
  /-- Device-wide D3hot (R92). -/
  deviceD3 : Bool
  /-- A PTM exchange awaits its response; its t1 (R102). -/
  ptm : Option (BitVec 64)
  /-- MSI-X table words, by 0x2000 * function + offset within the table area (R77). -/
  msixTable : Tab Word
  /-- MSI-X pending bits, 16 for each function. -/
  msixPending : BitVec 64
  /-- The tick of the last vector-0 signal of PF0, and whether one is owed (FX_CTRL.holdoff, R507). -/
  logSignalled : Option Nat
  logOwed : Bool
  /-- change_seq of the status pages of PF1 to PF3 (R531). -/
  pageSeq : Tab (BitVec 32)
  /-- The reads whose completions the device awaits, and those that wait for a tag, oldest first (R74). -/
  tags : List TagUse
  tagWait : List TagWait
  /-- The margining control of each lane (R76). -/
  margin : Tab (BitVec 16)
  /-- When the next periodic PTM exchange is due, in nanoseconds of Clove ticks since stage 1 (R102). -/
  ptmDue : Nat
  deriving DecidableEq, Repr

/-! ### Queues (04) -/

/-- Where a fetched entry stands (R134): fetched; started in its engine; staged in a commit group; past its commit
point with work left; finished, its overwrite not yet written; counted complete without execution (R136). -/
inductive Phase where
  | fetched | started | staged | past | finished | skipped | written
  deriving DecidableEq, Repr

/-- An event held while the consumer record is read (R142): the source queue if it is one, and its 16 bytes with lap 0. -/
structure Event where
  source : Option Nat
  body : Bytes
  deriving DecidableEq, Repr

/-- A fetched entry of a queue. -/
structure Entry where
  idx : BitVec 32
  desc : Bytes
  /-- The instance generation when it was fetched (R157). -/
  gen : BitVec 8
  phase : Phase
  /-- The completion: failed, status, aux, and results of a 32-byte overwrite (R125). -/
  failed : Bool
  status : BitVec 16
  aux : BitVec 32
  results : Option Bytes
  /-- The commit group slot it is a member of (R472). -/
  group : Option Nat
  /-- An event that follows its overwrite (R342). -/
  after : Option Event
  /-- The frame of a NET_TX entry held for room, as read and transformed (R285, R361). -/
  built : Option Bytes
  /-- What the admission of a storage entry will meet, told at its fetch since ADMISSION has no operand (log entry 220). -/
  met : AdmErr
  deriving DecidableEq, Repr

/-- Queue states (R132). -/
inductive QState where
  | disabled | running | disabling | error | frozen | quiesced
  deriving DecidableEq, Repr

/-- A descriptor queue: the host fields of its context (R117), the device fields, and its fetched entries. -/
structure Queue where
  w0 : Word
  w1 : Word
  w2 : Word
  w3 : Word
  head : BitVec 32
  fetch : BitVec 32
  pSeen : BitVec 32
  latched : BitVec 32
  qstate : QState
  evPending : Bool
  reread : Bool
  stopStatus : BitVec 16
  /-- A record read is in flight (R128). -/
  reading : Bool
  /-- Publications of the head record; counts on across every state (R130). -/
  pubSeq : BitVec 32
  entries : List Entry
  /-- CTL entries (queue, index) that complete when the disable in progress ends (R133). -/
  disableWaiters : List (Nat × BitVec 32)
  /-- A disable by QE_CTL_SETUP is in progress (R558). -/
  ctlDisable : Bool
  /-- The head record that a stop publishes once every entry before latched is complete is owed (R131, R441). -/
  stopOwed : Bool
  /-- The descriptor that stopped the queue (R123), and whether a record read must return before the next fetch (R136). -/
  stopDesc : Bytes
  holdFetch : Bool
  /-- A NET_TX entry is held fetched for want of room on a lossless class's leaf, and nothing is fetched behind it (R285). -/
  txHeld : Bool
  deriving DecidableEq, Repr

/-- An event queue: host fields (R138), device fields, held events, a consumer record read in flight and whether an
arming hint waits for it (R146). -/
structure Evq where
  w0 : Word
  w1 : Word
  prod : BitVec 32
  consSeen : BitVec 32
  suppressed : BitVec 32
  overflow : Bool
  held : List Event
  reading : Bool
  armCheck : Bool
  /-- A hint came while a read of the consumer record was in flight, so the record is read again after it; true when an
  arming hint did (R143, R146). -/
  reread : Option Bool
  deriving DecidableEq, Repr

/-- The queue engine: descriptor queues by `2^20 * fn + fq`, event queues by `2^16 * fn + fevq`, the tick of the last
message of each interrupt store entry. -/
structure QueueEngine where
  queues : Tab Queue
  evqs : Tab Evq
  lastMessage : Tab Nat
  /-- Sweep periods: the tick at which the next sweep of an enabled instance falls due, by `1024 * fn + i` (R129). -/
  sweepDue : Tab Nat
  deriving DecidableEq, Repr

/-! ### Instances (05) -/

/-- Instance states (R150). -/
inductive IState where
  | off | on | resetting | faulted
  deriving DecidableEq, Repr

/-- What decides the outcome of a drain (R151). -/
inductive DrainCause where
  | reset | flr | fault
  deriving DecidableEq, Repr

/-- An instance. -/
structure Inst where
  state : IState
  gen : BitVec 8
  pasid : BitVec 20
  bind : BitVec 10
  logOn : Bool
  logOverflow : Bool
  logSize : BitVec 5
  logBase : Word
  logCount : BitVec 32
  epoch : BitVec 32
  /-- The cause that decides the outcome of the drain in progress. -/
  drain : Option DrainCause
  /-- INST_RESET entries (queue, index) that complete when the drain completes. -/
  resetWaiters : List (Nat × BitVec 32)
  deriving DecidableEq, Repr

/-- A tag of the dirty-page filter (R164). -/
structure DlogTag where
  inst : Nat
  page : Nat
  epoch : BitVec 32
  deriving DecidableEq, Repr

/-- The instance manager: instances by `1024 * fn + i`, and the dirty-page filter by filter entry (R164). -/
structure InstanceMgr where
  insts : Tab Inst
  filter : Tab (Option DlogTag)
  deriving DecidableEq, Repr

/-! ### Monitors (01, 18, 20) -/

/-- The fabric monitors that are not registers: the window size in force and whether a window has completed since
enable (R27, R28), the temperature readings (R549), SMBus/MCTP. -/
structure Monitors where
  /-- The window size in force, as a power of two of Clove ticks (R27). -/
  paceWindow : BitVec 4
  /-- The sensors have been read since stage 1, so tj_peak holds a reading (R549). -/
  tempSeen : Bool
  /-- The regulator address that the housekeeping image has supplied to the PMBus master; while there is none the
  master is idle (R554). -/
  pmbus : Option (BitVec 7)
  /-- Clove cycles of the current tick that the time base already counts, since CK_RATE changed within it (R320). -/
  rateCyc : Nat
  deriving DecidableEq, Repr

/-! ### Clove time base (11 R319 to R322, R349) -/

/-- The Clove time base. -/
structure Clock where
  /-- 80-bit PTP time and its 16-bit fraction of a nanosecond (R319). -/
  sec : BitVec 48
  ns : BitVec 32
  frac : BitVec 16
  /-- What is left below 2^-16 ns, in units of 2^-16 ns over 10^10, so that no rounding accumulates (R319). -/
  rem : Nat
  deriving DecidableEq, Repr

/-! ### Frames, pipelines and parse units (06, 07) -/

/-- How the parse of a frame stands (R176). -/
inductive ParseResult where
  | pending | committed | malformed (reason : BitVec 7)
  deriving DecidableEq, Repr

/-- The disposition of a frame in its chain (R230, R232). -/
inductive Disp where
  | none | drop | forward (leaf : BitVec 20) | punt (core : BitVec 5) (mbox : BitVec 5) | recirc
  /-- Forward through an inbound context that sends it to recirculation (R360). -/
  | through (leaf : BitVec 20)
  deriving DecidableEq, Repr

/-- Where a frame stands. -/
inductive Loc where
  /-- Waiting to be dealt. -/
  | waiting
  /-- In a parse unit, or in its reorder entry. -/
  | parse
  /-- At a stage of the chain. -/
  | chain (stage : BitVec 5)
  /-- Past its last stage, before the header editor. -/
  | edit
  /-- On a leaf queue, held by a flow core, held by a commit group, or in the plant pipeline. -/
  | leaf | core | group | plant
  deriving DecidableEq, Repr

/-- A meter operation that a malformed exit credits back (R182, R231): the meter and the bytes taken from C and P or E. -/
structure Debit where
  meter : Nat
  c : Nat
  p : Nat
  deriving DecidableEq, Repr

/-- The owner of a frame a host queue sent: function, instance, generation (R157). -/
structure Owner where
  fn : BitVec 2
  inst : BitVec 10
  gen : BitVec 8
  deriving DecidableEq, Repr

/-- A frame inside the device. -/
structure Frame where
  /-- Without FCS. -/
  bytes : Bytes
  fcsOk : Bool
  /-- Source, port and pass as the parse record codes them (R213). -/
  source : BitVec 4
  port : BitVec 4
  pass : BitVec 2
  /-- Source of its first pass. -/
  src0 : BitVec 4
  /-- The pipeline that serves it. -/
  pl : BitVec 3
  loc : Loc
  /-- Ingress timestamp at the message timestamp point, and the instant of the last bit (R321, R257). -/
  rxTime : Clock
  endTime : Clock
  /-- The table epoch taken at dealing (R241). -/
  epoch : BitVec 32
  record : Bytes
  mdata : Bytes
  result : ParseResult
  disp : Disp
  mirrors : List (BitVec 20)
  /-- Mirror copies asked for on all its passes, of which a frame gets two (R231). -/
  copies : Nat
  editProg : BitVec 12
  ctx : Option (BitVec 20)
  counts : List Nat
  debits : List Debit
  /-- A chain stage has rebuilt its key (R228). -/
  rebuilt : Bool
  owner : Option Owner
  /-- The NET_TX entry it comes from: function, function queue, index. -/
  tx : Option (BitVec 2 × BitVec 20 × BitVec 32)
  launch : Option Word
  /-- Its buffer cells. -/
  buf : Nat
  deriving DecidableEq, Repr

/-- A parse unit (R202). -/
structure ParseUnit where
  frame : Option Nat
  /-- Source index within its pipeline, and the entry address taken at dealing. -/
  entry : BitVec 13
  pc : BitVec 13
  w : List (BitVec 32)
  cur : BitVec 16
  c : Bool
  stack : List (BitVec 32)
  layer : BitVec 2
  hash : BitVec 32
  hashValid : Bool
  record : Bytes
  steps : BitVec 11
  /-- Runs abandoned on this frame (R216). -/
  abandons : BitVec 2
  deriving DecidableEq, Repr

/-- One source of a pipeline (R174): frames waiting to be dealt, and its reorder buffer, oldest first. -/
structure SourceQ where
  wait : List Nat
  rob : List Nat
  deriving DecidableEq, Repr

/-- A pipeline: its sources by `Source` number (0 to 7 network ports, 8 host, 9 recirculation, 10 plant hand-off,
16 to 19 plant ports), its units, the last unit dealt to, the source the dealer serves and what is left of its weight,
the frames in its chain oldest first, and in mode 2 whether the pair's next frame goes to the upper chain. -/
structure Pipe where
  srcs : Tab SourceQ
  units : Tab ParseUnit
  lastUnit : Nat
  turn : Nat
  turnLeft : Nat
  chain : List Nat
  upperNext : Bool
  merge : List Nat
  deriving DecidableEq, Repr

/-- The pipelines: 0 to 3 bulk, 4 plant. -/
structure Pipes where
  pipes : Tab Pipe
  frames : Tab Frame
  nextFrame : Nat
  /-- Control stores by `8192 * pipeline + word`; a word that no image covered is 0 (R218). -/
  cs : Tab (BitVec 128)
  /-- Control-store words whose first uncorrectable read has been posted (R216). -/
  csPosted : List Nat
  deriving DecidableEq, Repr

/-- A unit that works on no frame. -/
def ParseUnit.idle : ParseUnit :=
  { frame := none, entry := 0, pc := 0, w := [], cur := 0, c := false, stack := [], layer := 0, hash := 0,
    hashValid := false, record := [], steps := 0, abandons := 0 }

/-- A source that holds no frame. -/
def SourceQ.empty : SourceQ := { wait := [], rob := [] }

/-- A pipeline that holds no frame. -/
def Pipe.empty : Pipe :=
  { srcs := [], units := [], lastUnit := 63, turn := 0, turnLeft := 0, chain := [], upperNext := false, merge := [] }

/-- The pipelines after stage 1. -/
def Pipes.reset : Pipes := { pipes := [], frames := [], nextFrame := 0, cs := [], csPosted := [] }

/-! ### Tables, epochs and learning (08, 09, 11) -/

/-- The host-written and learned structures of a pipeline. -/
inductive TabKind where
  | action | root | program | template | direct | station | lpm | stream | node | rule
  deriving DecidableEq, Repr

/-- A pending update of an epoch-bound entry (R241): its tag once its flip is made, or the group whose commit makes it. -/
structure Shadow where
  pl : BitVec 3
  kind : TabKind
  key : Nat
  value : Bytes
  tag : Option (BitVec 32)
  group : Option Nat
  /-- The CTL entry whose own flip makes it visible (R244). -/
  writer : Option (BitVec 20 × BitVec 32)
  deriving DecidableEq, Repr

/-- An ungrouped CTL write that waits for its flips (R244): its entry, and for each pipeline named the epoch at which
it became visible. -/
structure FlipWait where
  fq : BitVec 20
  idx : BitVec 32
  pls : List (BitVec 3 × Option (BitVec 32))
  deriving DecidableEq, Repr

/-- A learn request (R257). -/
structure LearnReq where
  mac : BitVec 48
  bd : BitVec 14
  port : BitVec 4
  ts : Clock
  deriving DecidableEq, Repr

/-- The learn engine of a pipeline (R258): requests on their way to it, the hold set, the order point of the last
request applied. -/
structure Learner where
  arriving : List LearnReq
  hold : List LearnReq
  last : Option (Nat × Nat)
  deriving DecidableEq, Repr

/-- The tables of all pipelines. `ageLast` is the end of a pipeline's last age tick, in nanoseconds of Clove ticks (R262). `main` lists the main entries by `tableKey`; an unlisted entry is empty. -/
structure Tables where
  main : Tab Bytes
  shadows : List Shadow
  flips : List FlipWait
  learners : Tab Learner
  /-- Counter pairs by `2^18 * pipeline + pair`: frames, octets. -/
  pairs : Tab (Word × Word)
  ageLast : Tab Nat
  deriving DecidableEq, Repr

/-- A learn engine that holds nothing. -/
def Learner.empty : Learner := { arriving := [], hold := [], last := none }

/-- The tables after stage 1. -/
def Tables.reset : Tables := { main := [], shadows := [], flips := [], learners := [], pairs := [], ageLast := [] }

/-! ### Traffic manager (10) -/

/-- The region a buffer's cells are charged to (R277, R279). -/
inductive Region where
  | shared | headroom | guaranteed (fn : BitVec 2) (inst : BitVec 10) | spill | spillReturn
  deriving DecidableEq, Repr

/-- The cells of one frame and of its mirror copies: count, region, ingress port node and priority, users (R279). -/
structure Buf where
  cells : Nat
  region : Region
  port : BitVec 4
  prio : BitVec 3
  users : Nat
  deriving DecidableEq, Repr

/-- A token bucket (R294): values in force, tokens in 1/16 byte, tick of the last touch, values that wait for their tick. -/
structure TokenBucket where
  en : Bool
  rate : BitVec 24
  burst : BitVec 24
  tokens : Int
  last : BitVec 32
  pending : Option (Bool × BitVec 24 × BitVec 24)
  effective : BitVec 32
  deriving DecidableEq, Repr

/-- A leaf: config word as last accepted, shaper, its frames oldest first, TX_LAUNCH lateness counted for its head. -/
structure Leaf where
  config : Word
  bucket : TokenBucket
  frames : List Nat
  /-- The launch time of the head has been reached (R289); its lateness has been counted (R329). -/
  launchReady : Bool
  lateSeen : Bool
  deriving DecidableEq, Repr

/-- A group or class node. -/
structure TmNode where
  config : Word
  bucket : TokenBucket
  deriving DecidableEq, Repr

/-- A meter (R298). -/
structure Meter where
  config : Word
  cWord : Word
  pWord : Word
  c : TokenBucket
  p : TokenBucket
  fill : Bool
  deriving DecidableEq, Repr

/-- A DWRR or round-robin choice: the contender last served and the deficits (R290). -/
structure Dwrr where
  cur : Nat
  deficits : Tab Int
  deriving DecidableEq, Repr

/-- The traffic manager. -/
structure Tm where
  leaves : Tab Leaf
  groups : Tab TmNode
  classes : Tab TmNode
  portBuckets : Tab TokenBucket
  meters : Tab Meter
  bufs : Tab Buf
  nextBuf : Nat
  /-- Choices by `2^48 * level + parent`. -/
  dwrr : Tab Dwrr
  /-- Which NET_RX queue a leaf is bound to, as `2^20 * fn + fq` (R288). -/
  rxBind : Tab Nat
  /-- Ends of received pauses, by `8 * port + priority`, in nanoseconds of Clove time at their end (R283). -/
  pauseEnd : Tab Nat
  /-- Frames chosen on port 12 for a NET_RX queue, by `2^20 * fn + fq`, oldest first, until they are written (R193). -/
  delivering : Tab (List Nat)
  /-- Time of the last PFC frame sent for a priority (R282). -/
  pfcSent : Tab Nat
  deriving DecidableEq, Repr

/-- An idle bucket. -/
def TokenBucket.empty : TokenBucket :=
  { en := false, rate := 0, burst := 0, tokens := 0, last := 0, pending := none, effective := 0 }

/-- A leaf no write has accepted. -/
def Leaf.empty : Leaf := { config := 0, bucket := .empty, frames := [], launchReady := false, lateSeen := false }

/-- A group or class node no write has accepted. -/
def TmNode.empty : TmNode := { config := 0, bucket := .empty }

/-- A meter no write has accepted. -/
def Meter.empty : Meter := { config := 0, cWord := 0, pWord := 0, c := .empty, p := .empty, fill := false }

/-- A choice that has served nothing. -/
def Dwrr.empty : Dwrr := { cur := 0, deficits := [] }

/-- The traffic manager after stage 1. -/
def Tm.reset : Tm :=
  { leaves := [], groups := [], classes := [], portBuckets := [], meters := [], bufs := [], nextBuf := 0, dwrr := [],
    rxBind := [], pauseEnd := [], delivering := [], pfcSent := [] }

/-! ### Plant ports, pairs, schedules and images (11) -/

/-- Pair states (R330). -/
inductive PairMode where
  | bypass | armed | taking | service | off
  deriving DecidableEq, Repr

/-- A pair: its state and the takeover time T, in nanoseconds of Clove time (R330, R331). -/
structure PairSt where
  state : PairMode
  takeAt : Nat
  deriving DecidableEq, Repr

/-- One set of schedule parameters: base and cycle in nanoseconds, and its list (R325, R326). -/
structure SchedSet where
  base : Nat
  cycle : Nat
  list : List Word
  deriving DecidableEq, Repr

/-- A schedule block (R325): admin list, pending set with its switch time, oper set, the start of the current cycle and
of the next, the entry in effect (none before the first cycle start, or past an empty list) and when it ends. -/
structure Sched where
  admin : Tab Word
  pending : Option (SchedSet × Nat)
  oper : Option SchedSet
  start : Nat
  next : Nat
  pos : Option Nat
  posEnd : Nat
  /-- Oper sets of before a switch, newest first, each with its switch time: a frame stamped before the switch is judged
  by the set in force then (R316). -/
  past : List (Nat × Option SchedSet)
  deriving DecidableEq, Repr

/-- The 802.1CB functions of a handle (R317, R528). -/
structure CbFn where
  history : BitVec 6
  resetTicks : BitVec 16
  genNext : BitVec 16
  recHigh : BitVec 16
  recVector : BitVec 32
  /-- The vector recovery algorithm takes any sequence number next: after stage 1 and after a reset. -/
  takeAny : Bool
  /-- Tick of the last passed frame. -/
  lastPass : Nat
  passed : Word
  discarded : Word
  rogue : Word
  tagless : Word
  resets : Word
  deriving DecidableEq, Repr

/-- A plant frame whose last bit has not arrived, or that has not been released (R308): its port, its end if it has
come, whether it was released, and what waits for its end: hand-off, deposit, learning, and the sequence number it
passed and the copies made. -/
structure PlantRx where
  frame : Nat
  port : PPort
  ended : Option Bool
  released : Bool
  handoff : Option (BitVec 2)
  deposit : Option (BitVec 12)
  learns : Bool
  recovered : Option (BitVec 10 × BitVec 16)
  copies : List Nat
  deriving DecidableEq, Repr

/-- An image (R336): host word, device fields, the deposits of the cycle and of the front buffer, and the boundary at
which the front came to the front (R339, R340). -/
structure Image where
  host : Word
  front : Bool
  fresh : Bool
  flips : BitVec 32
  depositsBack : BitVec 32
  depositsFront : BitVec 32
  frontTime : Word
  /-- A flip has brought a buffer to the front (R343): `flips` wraps (R512), so it does not tell. -/
  shown : Bool
  deriving DecidableEq, Repr

/-- The plant side. -/
structure Plant where
  pairs : List PairSt
  scheds : Tab Sched
  /-- Stream filters: the first word of each entry (R316), and their counters by `8 * filter + counter`. -/
  filters : Tab Word
  filterCounts : Tab Word
  cb : Tab CbFn
  /-- Plant frames in arrival order until they are both released and ended. -/
  rx : List PlantRx
  /-- The frame that a port sends while its last bits still arrive, by port (R308). -/
  sending : Tab Nat
  images : Tab Image
  /-- Frame table entries in effect, and as last written (R338). -/
  frames : Tab (Word × Word)
  framesNew : Tab (Word × Word)
  templates : Tab Bytes
  rxMap : Tab Word
  /-- The IMG queue a channel served last (R344). -/
  chanLast : Tab Nat
  /-- Boundaries whose RX images have not flipped yet, by port, as nanoseconds of Clove time (R339). -/
  rxBoundary : Tab Nat
  /-- Launch times, in nanoseconds, of the launch frames that a port has chosen and that have not left, by port (R329). -/
  launching : Tab (List Nat)
  /-- The tick from which an image channel in SLOW may move more bytes, by channel (R344). -/
  chanFree : Tab (Nat × Nat)
  deriving DecidableEq, Repr

/-- A pair before its straps and fuses are known. -/
def PairSt.reset : PairSt := { state := .bypass, takeAt := 0 }

/-- A schedule block that has never been changed. -/
def Sched.empty : Sched :=
  { admin := [], pending := none, oper := none, start := 0, next := 0, pos := none, posEnd := 0, past := [] }

/-- CB functions after stage 1. -/
def CbFn.empty : CbFn :=
  { history := 0, resetTicks := 0, genNext := 0, recHigh := 0, recVector := 0, takeAny := true, lastPass := 0,
    passed := 0, discarded := 0, rogue := 0, tagless := 0, resets := 0 }

/-- An image no write has enabled. -/
def Image.empty : Image :=
  { host := 0, front := false, fresh := false, flips := 0, depositsBack := 0, depositsFront := 0, frontTime := 0,
    shown := false }

/-- The plant side after stage 1. -/
def Plant.reset : Plant :=
  { pairs := [.reset, .reset], scheds := [], filters := [], filterCounts := [], cb := [], rx := [], sending := [],
    images := [], frames := [], framesNew := [], templates := [], rxMap := [], chanLast := [],
    rxBoundary := [], launching := [], chanFree := [] }

/-! ### Contexts and crypto (12) -/

/-- A context the cache holds: its 256 bytes, and whether it was filled for an operation that has not run yet (R366). -/
structure Cached where
  filled : Bool
  data : Bytes
  deriving DecidableEq, Repr

/-- The context cache, by global index (R366); a context that it does not hold lies in device DRAM (R352). -/
structure Crypto where
  cache : Tab Cached
  deriving DecidableEq, Repr

/-! ### Flow cores and the housekeeping core (13, 14) -/

/-- Thread states (R372). -/
inductive TState where
  | halted | ready | running | stalled | stopped | faulted | frozen
  deriving DecidableEq, Repr

/-- A channel of a core or a mailbox of any core, core 32 being the housekeeping core. -/
inductive Chn where
  | local (core : Nat) (ch : Nat)
  | mbox (core : Nat) (m : Nat)
  deriving DecidableEq, Repr

/-- What an address reaches for a thread (R370, R421): a byte of the slices, of the cluster memories, of device DRAM, of
the housekeeping memory, or nothing. -/
inductive Place where
  | slice (key : Nat) | cluster (key : Nat) | dram (off : Nat) | hk (off : Nat) | bad
  deriving DecidableEq, Repr

/-- What a thread waits for (R394): `join` is a GJOIN of a table write that waits for a shadow slot, with its group, the
register of its status and the descriptor image it read when it began (R409, R417). -/
inductive Wait where
  | none | cluster | dram | call
  | remoteSend (k : Chn)
  | join (group rd : Nat) (desc : Bytes)
  | timer (until_ : Nat)
  | recv (c : Chn) (rd : Nat)
  | claim (c : Chn)
  deriving DecidableEq, Repr

/-- A message: header and four words (R379). -/
structure Msg where
  header : Word
  words : List Word
  deriving DecidableEq, Repr

/-- A thread (R397): registers g1 to g15 in order (g0 is hard-wired to 0), pc, its claim and the words it has put, its
wait, whether what it waits for has come and the register writes then owed, a stop request, a step under way, and
whether the next instruction runs past a breakpoint it stopped at. -/
structure Thread where
  state : TState
  regs : List Word
  pc : BitVec 20
  claim : Option Chn
  put : List Word
  wait : Wait
  done : Bool
  owed : List (Nat × Word)
  /-- What a call writes to memory when it ends; a kill discards it (R385, R409). -/
  owedMem : List (Place × Bytes)
  stopReq : Bool
  stepping : Bool
  passBp : Bool
  deriving DecidableEq, Repr

/-- A channel or mailbox: visible messages oldest first, the thread that holds the claim, threads that wait to claim it
and to receive from it in the order they began (as `8 * core + thread`), and the CORE_MSG entries that wait for a slot
(function, queue, index). -/
structure Channel where
  msgs : List Msg
  holder : Option Nat
  claimers : List Nat
  receivers : List Nat
  posts : List (BitVec 2 × BitVec 20 × BitVec 32)
  deriving DecidableEq, Repr

/-- A core: the thread that runs or ran last, the instructions of its turn so far, Clove ticks for which its closed
wait has held (R383), and the frames it holds, each with its handle (R381). -/
structure CoreSt where
  last : Nat
  turn : Nat
  quiet : Nat
  punts : List (Nat × Nat)
  deriving DecidableEq, Repr

/-- The flow cores and the housekeeping core: threads by `8 * core + thread`, local channels by `64 * core + channel`,
mailboxes by `32 * core + mailbox`, code by `32768 * core + index`, slices by `2^19 * core + 2^16 * thread + offset`,
cluster memory by `2^22 * cluster + offset`, the housekeeping memory, and the tick at which the heartbeat last advanced. -/
structure FlowCores where
  threads : Tab Thread
  cores : Tab CoreSt
  chans : Tab Channel
  mboxes : Tab Channel
  code : Tab (BitVec 32)
  slices : Memory
  cluster : Memory
  hkMem : Memory
  hkBeat : Nat
  deriving DecidableEq, Repr

/-- A thread after stage 1. Its registers hold what they held (R397): 0, by the array clears of R43. -/
def Thread.reset : Thread :=
  { state := .halted, regs := List.replicate 15 0, pc := 0, claim := none, put := [], wait := .none, done := false,
    owed := [], owedMem := [], stopReq := false, stepping := false, passBp := false }

/-- A channel that holds nothing. -/
def Channel.empty : Channel := { msgs := [], holder := none, claimers := [], receivers := [], posts := [] }

/-- A core after stage 1. -/
def CoreSt.reset : CoreSt := { last := 7, turn := 0, quiet := 0, punts := [] }

/-- The flow cores after stage 1. -/
def FlowCores.reset : FlowCores :=
  { threads := [], cores := [], chans := [], mboxes := [], code := [], slices := [], cluster := [], hkMem := [], hkBeat := 0 }

/-! ### Storage engine, media bays and packs (15, 16) -/

/-- Namespace states (R426). -/
inductive NsState where
  | off | online | degradedA | degradedB | rebuilding | absent
  deriving DecidableEq, Repr

/-- A virtual namespace (R529): body bytes 0x10 to 0x37 of the NS_CONFIG last accepted, state, extents marked failed,
and the results of NS_CONFIG. -/
structure Ns where
  conf : Bytes
  state : NsState
  failedA : Bool
  failedB : Bool
  cmpwMax : BitVec 16
  trimZeroes : Bool
  deriving DecidableEq, Repr

/-- Where an issued command stands: its first pack commands, a read repeated on the other extent, the write-back of a
repaired read (R438), the write of an ST_CMPWRITE that matched (R430). -/
inductive StStage where
  | main | retry | writeBack | cmpWrite
  deriving DecidableEq, Repr

/-- What a pack reported of an extent: status field and first failing block of the namespace. -/
structure PackFail where
  sf : BitVec 15
  lba : Word
  /-- The pack was removed or failed with the command outstanding (R445). -/
  removed : Bool
  deriving DecidableEq, Repr

/-- An admitted storage command. -/
structure StCmd where
  fq : BitVec 20
  idx : BitVec 32
  inst : BitVec 10
  gen : BitVec 8
  desc : Bytes
  fns : BitVec 16
  /-- Its range-lock entry: held, granted (R434). -/
  held : Bool
  granted : Bool
  /-- Host buffer of a read or write, its list read (R428). -/
  segs : List (Nat × Nat)
  /-- Lists and data it reads from the host are in hand. -/
  ready : Bool
  data : Bytes
  cmpData : Bytes
  issued : Bool
  stage : StStage
  /-- Extent a read goes to: true is B. -/
  onB : Bool
  /-- Extents that the command's writes were issued to. -/
  targets : List Bool
  failA : Option PackFail
  failB : Option PackFail
  /-- Blocks read so far. -/
  readData : Bytes
  /-- Discarded after it was issued (R435). -/
  discarded : Bool
  /-- The commit group slot of a member, and whether it is past its group's commit point. -/
  group : Option Nat
  committed : Bool
  deriving DecidableEq, Repr

/-- What an outstanding pack command serves: a storage command on an extent (with the byte offset of its data), a
journal record, retire or cancel entry. -/
inductive PackUse where
  | cmd (c : Nat) (onB : Bool) (off : Nat)
  | record (slot : Nat)
  | retire (slot : Nat) (seq : BitVec 64)
  | cancel (slot : Nat)
  /-- A superblock, a token ring, a replayed write: its answer changes nothing. -/
  | upkeep
  deriving DecidableEq, Repr

/-- A running rebuild (R466): namespace, target extent, next block, rate in MB/s, and the Clove tick of its start. -/
structure Rebuild where
  fns : BitVec 16
  target : Bool
  next : Nat
  rate : BitVec 16
  start : Nat
  deriving DecidableEq, Repr

/-- The error log ring of a PF2 instance (R443, R448). -/
structure ELog where
  sizeLog2 : BitVec 5
  base : Word
  nextSeq : BitVec 32
  deriving DecidableEq, Repr

/-- Bay states (R453). -/
inductive BayState where
  | empty | off | powering | training | init | ready | stopping | failed
  deriving DecidableEq, Repr

/-- A bay: presence, state, link, the identity of the pack that is powered and identified, a life poll outstanding,
and when the next is due, in nanoseconds of Clove ticks since stage 1 (R462). -/
structure BaySt where
  state : BayState
  present : Bool
  linkSpeed : BitVec 3
  linkWidth : BitVec 4
  ident : Option PackIdent
  polling : Bool
  pollDue : Nat
  deriving DecidableEq, Repr

/-- The storage engine and the bays. -/
structure Storage where
  ns : Tab Ns
  /-- Admitted commands by number, in admission order. -/
  cmds : Tab StCmd
  nextCmd : Nat
  /-- The queue the admission arbiter served last (R432). -/
  lastQueue : Nat
  /-- Outstanding pack commands by `2^32 * bay + command identifier`. -/
  packCmds : Tab PackUse
  nextCid : Nat
  elogs : Tab ELog
  bays : Tab BaySt
  rebuilds : Tab Rebuild
  deriving DecidableEq, Repr

/-- A namespace never enabled. -/
def Ns.empty : Ns := { conf := [], state := .off, failedA := false, failedB := false, cmpwMax := 0, trimZeroes := false }

/-- An error log never configured. -/
def ELog.empty : ELog := { sizeLog2 := 0, base := 0, nextSeq := 1 }

/-- A bay without a pack. -/
def BaySt.empty : BaySt :=
  { state := .empty, present := false, linkSpeed := 0, linkWidth := 0, ident := none, polling := false, pollDue := 0 }

/-- The storage engine after stage 1. -/
def Storage.reset : Storage :=
  { ns := [], cmds := [], nextCmd := 0, lastQueue := 0, packCmds := [], nextCid := 0, elogs := [], bays := [],
    rebuilds := [] }

/-! ### Commit groups and the journal (17) -/

/-- States of a group slot in use (R476). -/
inductive GState where
  | opened | closed | journal | committing | aborted
  deriving DecidableEq, Repr

/-- What a member does at the commit point (R478, R479). -/
inductive Effect where
  | none | tables | dropped
  /-- Nothing to do, with an informational status for its completion (R270). -/
  | info (status : BitVec 16)
  | frame (f : Nat) (leaf : BitVec 20)
  | message (core : BitVec 6) (mbox : BitVec 5) (header : Word) (words : List Word)
  | context (g : BitVec 20) (img : Option Bytes)
  | counter (pl : BitVec 2) (pair : BitVec 18) (frames octets : Word)
  | storage (cmd : Nat)
  deriving DecidableEq, Repr

/-- A member, in fetch order: its entry (none for a member a core joined), whether it is staged, its effect. -/
structure Member where
  entry : Option (BitVec 2 × BitVec 20 × BitVec 32)
  staged : Bool
  effect : Effect
  deriving DecidableEq, Repr

/-- A group slot in use (R473, R476). -/
structure Group where
  state : GState
  domain : Nat
  token : Word
  /-- Members expected, fetched so far, and whether one had group_last. -/
  n : Nat
  fetched : Nat
  hasLast : Bool
  reissue : Bool
  /-- The instance that opened it, as `1024 * fn + inst`. -/
  inst : Nat
  /-- The core and thread that opened it (R416). -/
  core : Option (BitVec 6 × BitVec 3)
  /-- Its GCLOSE waits: destination register and block address (R418). -/
  gclose : Option (Nat × Nat)
  members : List Member
  updates : Nat
  bytes : Nat
  /-- Flips the commit waits for, bulk and plant: pipeline, and the epoch once the flip is made (R479). -/
  flips : List (BitVec 3 × Option (BitVec 32))
  /-- The seq of its journal record (R487). -/
  seq : Option (BitVec 64)
  /-- Every effect has been applied; the slot is kept until every completion is written (R477). -/
  applied : Bool
  /-- Aborted in JOURNAL: the cancel entry is not durable yet, with the status of the storage members (R493). -/
  cancelling : Option (BitVec 16)
  deriving DecidableEq, Repr

/-- A live journal record (R487, R488): its seq, domain, token, the storage commands whose home writes are not durable,
its bytes, and whether its retire or cancel entry is written. -/
structure JRecord where
  seq : BitVec 64
  slot : Nat
  domain : Nat
  token : Word
  home : List Nat
  /-- The storage commands of its members, whose locks it keeps. -/
  cmds : List Nat
  bytes : Nat
  /-- A home write was lost: the record is never retired (R489). -/
  lost : Bool
  retired : Bool
  deriving DecidableEq, Repr

/-- Journal states (R500). -/
inductive JState where
  | closed | opening | opened | closing | lost
  deriving DecidableEq, Repr

/-- The commit unit. -/
structure Commit where
  groups : Tab Group
  /-- Token rings by domain: the last 65,536 committed tokens, newest first (R495). -/
  tokens : Tab (List Word)
  jstate : JState
  bay : BitVec 2
  nsid : BitVec 32
  plba : Word
  sizeMib : Nat
  nextSeq : BitVec 64
  records : List JRecord
  /-- Each domain's pack token ring: tokens written, and the tokens it holds, newest first (R485). -/
  packRing : Tab (Nat × List Word)
  /-- Offset in the log of the next entry, and log bytes that the head has not passed (R485, R487, R488). -/
  logTail : Nat
  logUsed : Nat
  /-- Superblock writes so far (R485). -/
  superCount : Nat
  /-- The JOURNAL_CLOSE entry that waits (R486). -/
  closing : Option (BitVec 20 × BitVec 32)
  /-- Members that wait, fetched, for a group slot or for a group of their token to end (R473, R495). -/
  waiting : List (BitVec 2 × BitVec 20 × BitVec 32)
  deriving DecidableEq, Repr

/-- The commit unit after stage 1. -/
def Commit.reset : Commit :=
  { groups := [], tokens := [], jstate := .closed, bay := 0, nsid := 0, plba := 0, sizeMib := 0, nextSeq := 0,
    records := [], packRing := [], logTail := 0, logUsed := 0, superCount := 0, closing := none, waiting := [] }

/-! ### The state -/

/-- The state of the block. -/
structure State where
  /-- The commands that wait, first in, first out. -/
  pending : List Instr
  /-- The model's own counter of free values used. -/
  freeCtr : Nat
  /-- What the block has driven to the outside, newest first: the model's own record. -/
  out : List Out
  /-- Clove ticks since stage 1 was entered (R24). -/
  ticks : Nat
  /-- The registers of setup space that hold a value of their own, by PF0 BAR0 offset; an unlisted one holds its
  after-stage-1 value. -/
  regs : Tab Word
  life : Life
  link : Link
  q : QueueEngine
  im : InstanceMgr
  mon : Monitors
  clk : Clock
  pipe : Pipes
  tab : Tables
  tm : Tm
  plant : Plant
  cx : Crypto
  fc : FlowCores
  st : Storage
  cg : Commit
  /-- The bytes of device DRAM that hold images and flow-core data, by DRAM address (R335, R370, R521). -/
  dram : Memory
  deriving DecidableEq, Repr

/-- Protection fuses that have not been sensed. -/
def ProtFuses.none : ProtFuses := ⟨0, 0, 0, 0, 0, 0⟩

/-- The protection set-up of a VYM-8420-PA (R6) as R52 lays it out: every function present with 2^10 instances, debug open, no slot
revoked, both pairs permitted, bays B0 to B3, crypto enabled. -/
def ProtFuses.profilePA : ProtFuses :=
  { setup := 0x01F300AAAA0F#64, arb := 0, key0 := Config.keyHash 0, key1 := Config.keyHash 1, key2 := Config.keyHash 2,
    key3 := Config.keyHash 3 }

/-- The protection set-up of a VYM-8420-PL (R6): as that of a -PA, with debug locked and a customer key hash in slot 3. -/
def ProtFuses.profilePL : ProtFuses :=
  { ProtFuses.profilePA with setup := 0x01F301AAAA0F#64, key3 := Config.keyHash 4 }

/-- The two fuse profiles a part ships in (R6). -/
inductive Profile where
  | pa | pl
  deriving DecidableEq, Repr

/-- The protection fuses of a profile. -/
def ProtFuses.profile : Profile → ProtFuses
  | .pa => .profilePA
  | .pl => .profilePL

/-- The fuses of a part of a profile. -/
def Fuses.ofProfile (p : Profile) : Fuses :=
  { identity := 0x050758268025A542E0000000734EECC5#128, copyA := .profile p, copyB := .profile p, copyC := .profile p }

/-- The fuses of the part that the model starts with. -/
def Fuses.initial : Fuses := .ofProfile .pa

/-- The configuration space of a function at reset. -/
def FnCfg.reset : FnCfg :=
  { busMaster := false, memSpace := false, msixEnable := false, msixMask := false, pasidEnable := false,
    d3hot := false, pmeEnable := false, pmeStatus := false, aspmL1 := false, ptmEnable := false, extendedTag := false,
    tag10 := false, tag14 := false, timeoutDisable := false, ecrcEnable := false, ecrcCheck := false, aspmL11 := false,
    pmL11 := false, aerFirst := none, aerHeader := 0, maxPayload := 0,
    maxReadRequest := 2, aerUncStatus := 0, aerCorStatus := 0, aerUncMask := 0, aerCorMask := 0x4000, aerSeverity := 0x00462030,
    bar0 := 0, bar2 := 0, bar4 := 0, interruptLine := 0, commandOther := 0 }

/-- Start state before VDD_AON is good (R34, R2): everything but the fuses is lost. -/
def Life.dark (f : Fuses) : Life :=
  { aonGood := false, strap0 := 0, strap1 := 0, refStable := false, bypassUp := false, perst := true, powerUp := true,
    stage := 0, stage1Done := false, flrStage := false, fusesSensed := false, bistDone := false, dramDone := false,
    bistFail := false, identityBad := false, vppOk := false, hkLoaded := false, parseLoaded := 0, goPending := false,
    rrs := false, resetCause := 0, fuses := f, sensed := .none, identity := 0, boot := none, burn := none,
    thermTrip := false, lastFault := none, laterFaults := 0, faultLatch := none, smbusUp := false, jtag := .idcode }

/-- The link before it is trained. -/
def Link.reset : Link :=
  { cfg := [], up := false, speed := 0, width := 0, flit := false, l1 := 0, idleTicks := 0, flr := 0, quiesceWait := 0,
    deviceD3 := false, ptm := none, msixTable := [], msixPending := 0, logSignalled := none, logOwed := false, pageSeq := [],
    tags := [], tagWait := [], margin := [], ptmDue := 0 }

/-- The block before VDD_AON is good: the state a loss of power leaves, with given fuses. -/
def State.darkWith (f : Fuses) : State :=
  { pending := [], freeCtr := 0, out := [], ticks := 0, regs := [], life := .dark f, link := .reset,
    q := { queues := [], evqs := [], lastMessage := [], sweepDue := [] },
    im := { insts := [], filter := [] },
    mon := { paceWindow := 10, tempSeen := false, pmbus := none, rateCyc := 0 },
    clk := { sec := 0, ns := 0, frac := 0, rem := 0 },
    pipe := .reset, tab := .reset, tm := .reset, plant := .reset, cx := { cache := [] }, fc := .reset,
    st := .reset, cg := .reset, dram := [] }

/-- A part of a profile before its supplies come up: nothing but the fuses holds a value that was written (R2, R34). Every
register holds its after-stage-1 value, which the spec puts in place of a reset value. -/
def State.resetOf (p : Profile) : State := .darkWith (.ofProfile p)

/-- The machine of this model at its start: a -PA part. -/
def State.reset : State := .resetOf .pa

end Sys2Proof.Machine
end

