-- ==== Sys2Proof/Machine/Ops.lean ====
section
/-! DEFINITION. Operations over registers, counters, the fault and event log, MSI-X and time that every family shares. -/
namespace Sys2Proof.Machine

/-- The outcome of a command. -/
abbrev Res := Host.Outcome State Fault Refusal

/-! ### Outputs and free values -/

/-- Nanoseconds since stage 1 was entered, counted in Clove ticks. -/
def tickNs (s : State) : Nat := s.ticks * 1024

/-- Record something the block drives to the outside. -/
def emit (o : Out) (s : State) : State := { s with out := o :: s.out }

/-- The next free value. -/
def freeNow (s : State) : Word := Config.freeValue s.freeCtr

/-- Count a free value as used. -/
def useFree (s : State) : State := { s with freeCtr := s.freeCtr + 1 }

/-! ### Registers -/

/-- The value a register holds. -/
def getReg (s : State) (off : Nat) : Word := tabGet regDefault s.regs off

/-- Set what a register holds. -/
def putReg (off : Nat) (v : Word) (s : State) : State := { s with regs := tabSet regDefault s.regs off v }

/-- A field of a register. -/
def rf (s : State) (off lo len : Nat) : Nat := fld (getReg s off) lo len

/-- A bit of a register. -/
def rb (s : State) (off i : Nat) : Bool := bit (getReg s off) i

/-- Set a field of a register. -/
def putF (off lo len v : Nat) (s : State) : State := putReg off (setFld (getReg s off) lo len v) s

/-- Set a bit of a register. -/
def putB (off i : Nat) (b : Bool) (s : State) : State := putReg off (setBit (getReg s off) i b) s

/-! ### Time (R319) -/

/-- CK_RATE.adj in units of 2^-16 ppb, held to ±1,000 ppm. -/
def rateAdj (s : State) : Int :=
  let a := signed 40 (rf s (CK_RATE) 0 40)
  let m : Int := 65536 * 1000000
  if m < a then m else if a < -m then -m else a

/-- The time base after `n` Clove cycles at a rate: 0.8 ns a cycle, scaled. -/
def clockAfter (c : Clock) (adj : Int) (n : Nat) : Clock :=
  let per : Nat := (8 * (65536 * 1000000000 + adj)).toNat
  let total := c.rem + n * per
  let fr := c.frac.toNat + total / 10000000000
  let ns := c.ns.toNat + fr / 65536
  { sec := BitVec.ofNat 48 (c.sec.toNat + ns / 1000000000), ns := BitVec.ofNat 32 (ns % 1000000000),
    frac := BitVec.ofNat 16 fr, rem := total % 10000000000 }

/-- The time base `cyc` Clove cycles after the last tick. The cycles before a change of CK_RATE have been counted at the
rate then in force (R320). -/
def clockAt (s : State) (cyc : Nat) : Clock := clockAfter s.clk (rateAdj s) (cyc - s.mon.rateCyc)

/-- The 64-bit form: seconds [31:0] at [63:32], nanoseconds at [31:0]. -/
def time64 (c : Clock) : Word := BitVec.ofNat 64 ((c.sec.toNat % 2 ^ 32) * 2 ^ 32 + c.ns.toNat)

/-- Clove time as of the last tick, in the 64-bit form. -/
def now64 (s : State) : Word := time64 s.clk

/-- Nanoseconds of Clove time as one number. -/
def clockNs (c : Clock) : Nat := c.sec.toNat * 1000000000 + c.ns.toNat

/-! ### Functions -/

/-- The configuration space of a function. -/
def cfgOf (s : State) (fn : Nat) : FnCfg := tabGet (fun _ => FnCfg.reset) s.link.cfg fn

/-- Set the configuration space of a function. -/
def putCfg (fn : Nat) (c : FnCfg) (s : State) : State :=
  { s with link := { s.link with cfg := tabSet (fun _ => FnCfg.reset) s.link.cfg fn c } }

/-- A function exists on the link (R52, R78). -/
def fnPresent (s : State) (fn : Nat) : Bool := fn == 0 || (decide (fn < 4) && bit s.life.sensed.setup fn)

/-- Log2 of the largest number of instances of a function; 11 to 15 act as 10 (R52). -/
def maxInstLog2 (s : State) (fn : Nat) : Nat := min 10 (fld s.life.sensed.setup (8 + 4 * fn) 4)

/-- Debug is locked (R52). -/
def debugLocked (s : State) : Bool := bit s.life.sensed.setup 24

/-- The context and crypto engine is enabled (R52). -/
def cryptoEnabled (s : State) : Bool := bit s.life.sensed.setup 40

/-- A bay is enabled (R52). -/
def bayEnabled (s : State) (b : Nat) : Bool := bit s.life.sensed.setup (36 + b)

/-- Bus Master Enable lets a function issue requests; D3hot stops it as a cleared enable does (R92). -/
def dmaOn (s : State) (fn : Nat) : Bool := (cfgOf s fn).busMaster && !(cfgOf s fn).d3hot

/-- The device is in stage 3. -/
def inService (s : State) : Bool := s.life.stage == 3

/-- The link carries requests: it is trained, out of stage 0 (R65). -/
def linkUp (s : State) : Bool := s.life.stage != 0 && s.link.up

/-- Writes to the BARs of a function take effect: the link is up (R65), Memory Space Enable is 1 and the function is in
D0 (R80, R84, R92). -/
def barOpen (s : State) (fn : Nat) : Bool := linkUp s && (cfgOf s fn).memSpace && !(cfgOf s fn).d3hot

/-- Writes to setup space outside the SB and FS blocks take effect (R66, R84). -/
def setupOpen (s : State) : Bool := barOpen s 0 && s.life.stage1Done

/-- A TLP crosses the link: the L1 idle count starts again, and the link is in L0 (R91). -/
def linkBusy (s : State) : State := { s with link := { s.link with idleTicks := 0, l1 := 0 } }

/-- A TLP of the host reaches the device only over a link that is up; that it is dropped there does not keep the link
idle (R91). -/
def tlpDropped (s : State) : State := if linkUp s then linkBusy s else s

/-- A write of a setup-space register that has a command of its own. -/
def setupWrite (s : State) (f : State → State) : State := if setupOpen s then linkBusy (f s) else tlpDropped s

/-! ### MSI-X (R77, R85) -/

/-- A word of the MSI-X table before it is written: every vector is masked, as the PCIe base specification has it. -/
def msixDefault (k : Nat) : Word := if k % 16 = 8 ∧ k % 0x2000 < 0x100 then 0x100000000#64 else 0

/-- Vector control mask of a vector. -/
def vectorMasked (s : State) (fn v : Nat) : Bool :=
  bit (tabGet msixDefault s.link.msixTable (0x2000 * fn + 16 * v + 8)) 32

/-- Set or clear a pending bit. -/
def putMsixPending (fn v : Nat) (b : Bool) (s : State) : State :=
  { s with link := { s.link with msixPending := setBit s.link.msixPending (16 * fn + v) b } }

/-- Signal a vector: sent when the function may send it, else held as a pending bit while MSI-X is enabled. -/
def signalMsix (fn : Fn) (v : Nat) (s : State) : State :=
  if (cfgOf s fn.val).msixEnable then
    if (cfgOf s fn.val).msixMask || vectorMasked s fn.val v || !dmaOn s fn.val then putMsixPending fn.val v true s
    else linkBusy (emit (.msix fn v) s)
  else s

/-- Send the pending vectors that a function may now send. -/
def flushMsix (fn : Fn) (s : State) : State :=
  (List.range 16).foldl (fun s v =>
    if bit s.link.msixPending (16 * fn.val + v) then signalMsix fn v (putMsixPending fn.val v false s) else s) s

/-- change_seq of a status page. -/
def pageSeq (s : State) (fn : Nat) : BitVec 32 := tabGet (fun _ => 0) s.link.pageSeq fn

/-- A field of the status page of PF1, PF2 or PF3 changes: change_seq counts it and vector 0 becomes owed (R531). -/
def pageChanged (fn : Nat) (s : State) : State :=
  if fn = 0 ∨ 3 < fn then s else
  signalMsix (Fin.ofNat 4 fn) 0
    { s with link := { s.link with pageSeq := tabSet (fun _ => 0) s.link.pageSeq fn (pageSeq s fn + 1) } }

/-- The status page changes if a field of it did. -/
def pageIf (changed : Bool) (fn : Nat) (s : State) : State := if changed then pageChanged fn s else s

/-! ### The fault and event log (R507, R509, R510) -/

/-- Log entry codes (R510). -/
def logDeviceFault : Nat := 1
def logInstanceFault : Nat := 2
def logBistFail : Nat := 3
def logCsUncorrectable : Nat := 4
def logDmaFail : Nat := 5
def logCtxPoisoned : Nat := 6
def logFcThreadFault : Nat := 7
def logClosedWait : Nat := 8
def logPaceLow : Nat := 9
def logCloveRef : Nat := 0xA
def logPairBypass : Nat := 0xB
def logJournalLost : Nat := 0xC
def logCounterSaturated : Nat := 0xD
def logArrayError : Nat := 0xE

/-- Signal vector 0 of PF0 for a posting, at most once in FX_CTRL.holdoff Clove ticks (R507, R515). -/
def signalLog (s : State) : State :=
  let hold := rf s FX_CTRL 0 16
  let due := match s.link.logSignalled with
    | none => true
    | some t => decide (t + hold ≤ s.ticks)
  if due then signalMsix 0 0 { s with link := { s.link with logSignalled := some s.ticks, logOwed := false } }
  else { s with link := { s.link with logOwed := true } }

/-- Post an entry with a given time. -/
def postLogAt (code cls block : Nat) (arg0 arg1 time : Word) (s : State) : State :=
  let seq := rf s FX_LOG_SEQ 0 32
  let slot := (seq + 2 ^ 32 - 1) % 1024
  let a : Word := BitVec.ofNat 64 (seq + (code % 2 ^ 16) * 2 ^ 32 + (cls % 8) * 2 ^ 48 + (block % 32) * 2 ^ 51)
  signalLog (putReg FX_LOG_SEQ (BitVec.ofNat 64 ((seq + 1) % 2 ^ 32))
    (putReg (FX_LOG_ENTRY slot 3) arg1 (putReg (FX_LOG_ENTRY slot 2) arg0
      (putReg (FX_LOG_ENTRY slot 1) time (putReg (FX_LOG_ENTRY slot 0) a s)))))

/-- Post an entry with the present time. -/
def postLog (code cls block : Nat) (arg0 arg1 : Word) (s : State) : State :=
  postLogAt code cls block arg0 arg1 (now64 s) s

/-! ### Counters (R511, R512) -/

/-- A statistics counter: 64 bits, wraps. -/
def addStat (off n : Nat) (s : State) : State := putReg off (getReg s off + BitVec.ofNat 64 n) s

/-- A 32-bit error/diagnostic counter in the field at bit `lo`: it stays at its largest value, and the increment that
reaches it posts COUNTER_SATURATED. -/
def addErrAt (off lo n : Nat) (s : State) : State :=
  let old := rf s off lo 32
  let new := min 0xFFFFFFFF (old + n)
  let s' := putF off lo 32 new s
  if old < 0xFFFFFFFF ∧ new = 0xFFFFFFFF then
    postLog logCounterSaturated 0 (match blockOf off with | some b => b.num | none => 0) (BitVec.ofNat 64 off) 0 s'
  else s'

/-- A 32-bit error/diagnostic counter at bits [31:0]. -/
def addErr (off n : Nat) (s : State) : State := addErrAt off 0 n s

/-- Offset of a block's BLOCK_ERR register (R520). -/
def blockErrOff (b : Block) : Nat := b.base + 2 ^ b.sizeLog2 - 0x100 + 8

/-- The block of a number. -/
def blockNum (n : Nat) : Block := (blocks.find? (fun b => b.num == n)).getD ⟨0, 0, 16⟩

/-- Count an access under R519 in the counter of the block it addresses, or of DV. -/
def countUnmapped (off : Nat) (s : State) : State :=
  addErr (blockErrOff (match blockOf off with | some b => b | none => blockNum blkDV)) 1 s

/-! ### AER (R89) -/

/-- Set AER status bits of a function. -/
def aerBits (fn : Fn) (unc cor : BitVec 32) (s : State) : State :=
  let c := cfgOf s fn.val
  putCfg fn.val { c with aerUncStatus := c.aerUncStatus ||| unc, aerCorStatus := c.aerCorStatus ||| cor } s

/-- Uncorrectable status bit and correctable status bit of a condition, at the places of the PCIe base specification. -/
def aerUncBit : Aer → BitVec 32
  | .internalFatal => 0x400000
  | .correctedInternal => 0
  | .unsupportedRequest => 0x100000
  | .poisonedTlp => 0x1000
  | .completionTimeout => 0x4000
  | .ecrcError => 0x80000
  | .receiverError => 0
  | .malformedTlp => 0x40000
  | .badDllp => 0
  | .dataLinkProtocol => 0x10

/-- The correctable status bit: Corrected Internal Error, Receiver Error, Bad DLLP, or Advisory Non-Fatal. -/
def aerCorBit : Aer → BitVec 32
  | .correctedInternal => 0x4000
  | .receiverError => 1
  | .badDllp => 0x80
  | .unsupportedRequest => 0x2000
  | .poisonedTlp => 0x2000
  | _ => 0

/-- The number of the uncorrectable status bit of a condition whose TLP header is logged (R89). -/
def aerLogBit : Aer → Option (BitVec 5)
  | .unsupportedRequest => some 20
  | .poisonedTlp => some 12
  | .ecrcError => some 19
  | .malformedTlp => some 18
  | _ => none

/-- The header of the first TLP in error is logged, until its status bit is cleared (R89). What the header holds is the
requester's and comes with the TLP: a free value. -/
def aerHeaderLog (fn : Fn) (a : Aer) (s : State) : State :=
  let c := cfgOf s fn.val
  match aerLogBit a, c.aerFirst with
  | some b, none =>
    useFree (useFree (putCfg fn.val { c with aerFirst := some b, aerHeader := freeNow s ++ freeNow (useFree s) } s))
  | _, _ => s

/-- A condition is recorded in a function: its status, and the header of its TLP. -/
def aerRecord (a : Aer) (fn : Fn) (s : State) : State := aerBits fn (aerUncBit a) (aerCorBit a) (aerHeaderLog fn a s)

/-- A function's masks hold back the message of a condition. -/
def aerMasked (s : State) (a : Aer) (fn : Fn) : Bool :=
  let c := cfgOf s fn.val
  c.aerUncMask &&& aerUncBit a != 0 || c.aerCorMask &&& aerCorBit a != 0

/-- Report a condition of a function: its status is set, and a message is sent unless it is masked. -/
def aerReport (fn : Fn) (a : Aer) (s : State) : State :=
  let s := aerRecord a fn s
  if aerMasked s a fn then s else linkBusy (emit (.aer fn a) s)

/-- Report a condition of the link itself, which belongs to no function: every function records it, and the first that
does not mask it sends the message, as the base specification has it (R89). -/
def aerLink (a : Aer) (s : State) : State :=
  let fns : List Fn := [0, 1, 2, 3].filter (fun fn : Fn => fnPresent s fn.val)
  let s := fns.foldl (fun s fn => aerRecord a fn s) s
  match fns.find? (fun fn => !aerMasked s a fn) with
  | some fn => linkBusy (emit (.aer fn a) s)
  | none => s

/-- A correctable fault: its FX_CORR counter, and the corrected internal error, masked after stage 1 (R502). -/
def correctable (off : Nat) (s : State) : State := aerReport 0 .correctedInternal (addErr off 1 s)

/-- Reads of an SRAM array (`dram` false) or of a DRAM stack that its code corrects are counted and no more (R32). -/
def eccCount (dram : Bool) (e : Ecc) (s : State) : State :=
  match e with
  | .corrected => correctable (if dram then FX_CORR_DRAM else FX_CORR_SRAM) s
  | _ => s

/-- One contained uncorrectable error: an ARRAY_ERROR entry, FX_ARRAY_ERRORS and the block's contained counter (R506). -/
def arrayError (block structure_ : Nat) (offset : Nat) (s : State) : State :=
  postLog logArrayError 0 block (BitVec.ofNat 64 structure_) (BitVec.ofNat 64 offset)
    (addErrAt (blockErrOff (blockNum block)) 32 1 (addErr FX_ARRAY_ERRORS 1 s))

/-! ### Reads of host memory (R89) -/

/-- DMA status of a read that fails, by the table of status codes (R116). -/
def dmaStatus : Read → Nat
  | .data _ => 0
  | .poison => 0x101
  | .timeout => 0x102
  | .ur => 0x103
  | .ca => 0x104

/-- What every failing read reports (R89): AER for poison and timeout, a DMA_FAIL entry for UR and CA. -/
def readFailure (fn : Fn) (addr : Nat) (r : Read) (s : State) : State :=
  match r with
  | .data _ => s
  | .poison => aerReport fn .poisonedTlp s
  | .timeout => aerReport fn .completionTimeout s
  | .ur => postLog logDmaFail 0 blkHL (BitVec.ofNat 64 (fn.val + 0x103 * 2 ^ 16)) (BitVec.ofNat 64 addr) s
  | .ca => postLog logDmaFail 0 blkHL (BitVec.ofNat 64 (fn.val + 0x104 * 2 ^ 16)) (BitVec.ofNat 64 addr) s

/-- A DMA_FAIL entry for a read that fails outside any descriptor (R55, R143): for UR and CA it is the entry of R89. -/
def dmaFailEntry (fn : Fn) (addr : Nat) (r : Read) (s : State) : State :=
  match r with
  | .data _ => s
  | .ur => s
  | .ca => s
  | .poison => postLog logDmaFail 0 blkHL (BitVec.ofNat 64 (fn.val + 0x101 * 2 ^ 16)) (BitVec.ofNat 64 addr) s
  | .timeout => postLog logDmaFail 0 blkHL (BitVec.ofNat 64 (fn.val + 0x102 * 2 ^ 16)) (BitVec.ofNat 64 addr) s

/-! ### Tags (R74) -/

/-- Bits of a tag index in the tag mode in use by a function. -/
def tagIndexBits (s : State) (fn : Nat) : Nat :=
  if s.link.flit && (cfgOf s fn).tag14 then 10 else if (cfgOf s fn).tag10 then 6 else 4

/-- The `i`-th tag a function may try: its epoch above the index. -/
def tagTry (s : State) (fn : Nat) (i : Nat) : BitVec 14 :=
  let n := 2 ^ tagIndexBits s fn
  BitVec.ofNat 14 (rf s HL_EPOCH (4 * fn) 4 * n + (Config.tagStart s.out.length + i) % n)

/-- The tags that outstanding reads of a function hold. -/
def tagsHeld (s : State) (fn : Fn) : List (BitVec 14) := (s.link.tags.filter (fun x => x.fn == fn)).map (·.tag)

/-- A tag that no outstanding read of a function holds, while fewer are outstanding than the tag mode allows. -/
def freeTag (s : State) (fn : Fn) : Option (BitVec 14) :=
  if (tagsHeld s fn).length < 2 ^ tagIndexBits s fn.val then
    ((List.range (2 ^ tagIndexBits s fn.val)).map (tagTry s fn.val)).find? (fun t => !(tagsHeld s fn).contains t)
  else none

/-- The completion of a read is a command of its own, so that the read stays outstanding. -/
def staysOut : ReadWork → Bool
  | .doorbell _ => true
  | .consumer _ => true
  | _ => false

/-- A read goes out under a tag. -/
def issueTagged (fn : Fn) (pasid : Option (BitVec 20)) (addr len : Nat) (w : ReadWork) (tag : BitVec 14) (s : State) : State :=
  let s := linkBusy (emit (.hostRead fn pasid addr len w tag) s)
  if staysOut w then { s with link := { s.link with tags := s.link.tags ++ [{ fn := fn, tag := tag, work := w }] } } else s

/-- The block issues a read, which waits for a tag while the function has none free. A read whose completion comes with
the same command goes out when a tag is free again, and its completion is then the command's. -/
def hostRead (fn : Fn) (pasid : Option (BitVec 20)) (addr len : Nat) (w : ReadWork) (s : State) : State :=
  match freeTag s fn with
  | some t => issueTagged fn pasid addr len w t s
  | none =>
    if staysOut w then
      { s with link := { s.link with tagWait := s.link.tagWait ++
          [{ fn := fn, pasid := pasid, addr := addr, len := len, work := w }] } }
    else issueTagged fn pasid addr len w (tagTry s fn.val 0) s

/-- The oldest read of a function that waits for a tag goes out. -/
def issueWaiting (fn : Fn) (s : State) : State :=
  match freeTag s fn, s.link.tagWait.find? (fun x => x.fn == fn) with
  | some t, some x =>
    issueTagged fn x.pasid x.addr x.len x.work t { s with link := { s.link with tagWait := s.link.tagWait.erase x } }
  | _, _ => s

/-- The completion of an outstanding read is accepted: its tag is free again, and a waiting read takes it. -/
def hostReadDone (fn : Fn) (w : ReadWork) (s : State) : State :=
  issueWaiting fn { s with link := { s.link with
    tags := s.link.tags.eraseP (fun x => x.fn == fn && x.work == w),
    tagWait := s.link.tagWait.filter (fun x => !(x.fn == fn && x.work == w)) } }

/-- Reads of a function that have not gone out are not made (R99). -/
def dropTagWaits (fn : Fn) (s : State) : State :=
  { s with link := { s.link with tagWait := s.link.tagWait.filter (fun x => x.fn != fn) } }

/-- The block issues a memory write: writes go out in the order issued (R87). -/
def hostWrite (fn : Fn) (pasid : Option (BitVec 20)) (ro : Bool) (addr : Nat) (data : Bytes) (s : State) : State :=
  linkBusy (emit (.hostWrite fn pasid ro addr data) s)

end Sys2Proof.Machine
end

