-- ==== Sys2Proof/Machine/Frames.lean ====
section
/-! DEFINITION. Access to frames, pipelines and parse units. -/
namespace Sys2Proof.Machine

/-- A pipeline. -/
def pipeOf (s : State) (pl : Nat) : Pipe := tabGet (fun _ => Pipe.empty) s.pipe.pipes pl

/-- Set a pipeline. -/
def putPipe (pl : Nat) (p : Pipe) (s : State) : State :=
  { s with pipe := { s.pipe with pipes := tabSet (fun _ => Pipe.empty) s.pipe.pipes pl p } }

/-- A frame that is in the device. -/
def frameOf (s : State) (f : Nat) : Option Frame := tabFind s.pipe.frames f

/-- Set a frame. -/
def putFrame (f : Nat) (x : Frame) (s : State) : State :=
  { s with pipe := { s.pipe with frames := tabInsert s.pipe.frames f x } }

/-- A frame leaves the device. -/
def dropFrameRec (f : Nat) (s : State) : State :=
  { s with pipe := { s.pipe with frames := tabErase s.pipe.frames f } }

/-- A parse unit. -/
def unitOf (s : State) (pl u : Nat) : ParseUnit := tabGet (fun _ => ParseUnit.idle) (pipeOf s pl).units u

/-- Set a parse unit. -/
def putUnit (pl u : Nat) (x : ParseUnit) (s : State) : State :=
  let p := pipeOf s pl
  putPipe pl { p with units := tabSet (fun _ => ParseUnit.idle) p.units u x } s

/-- A source of a pipeline. -/
def srcOf (s : State) (pl src : Nat) : SourceQ := tabGet (fun _ => SourceQ.empty) (pipeOf s pl).srcs src

/-- Set a source of a pipeline. -/
def putSrc (pl src : Nat) (x : SourceQ) (s : State) : State :=
  let p := pipeOf s pl
  putPipe pl { p with srcs := tabSet (fun _ => SourceQ.empty) p.srcs src x } s

/-- Pipelines 0 and 1, and 2 and 3, are pooled in mode 2 (R171). -/
def pooled (s : State) (pl : Nat) : Bool := rf s NP_MODE 0 2 == 2 && decide (pl < 4)

/-- The lower pipeline of a pooled pair, or the pipeline itself. -/
def lowerOf (s : State) (pl : Nat) : Nat := if pooled s pl then pl / 2 * 2 else pl

/-- The frame length without FCS. -/
def Frame.len (f : Frame) : Nat := f.bytes.length

end Sys2Proof.Machine
end

