-- ==== Sys2Proof/Machine/Tables.lean ====
section
/-! DEFINITION. Table entries, epochs and lookups (08, 09). -/
namespace Sys2Proof.Machine

/-! ### Entries (R240, R241) -/

/-- Number of a table kind. -/
def kindNum : TabKind → Nat
  | .action => 0 | .root => 1 | .program => 2 | .template => 3 | .direct => 4 | .station => 5 | .lpm => 6 | .stream => 7
  | .node => 8 | .rule => 9

/-- Key of a main entry. -/
def tableKey (k : TabKind) (pl key : Nat) : Nat := (kindNum k * 8 + pl) * 2 ^ 160 + key

/-- A main entry; empty when nothing was written. -/
def mainEntry (s : State) (k : TabKind) (pl key : Nat) : Bytes := tabGet (fun _ => []) s.tab.main (tableKey k pl key)

/-- Set a main entry. -/
def putMain (k : TabKind) (pl key : Nat) (v : Bytes) (s : State) : State :=
  { s with tab := { s.tab with main := tabSet (fun _ => []) s.tab.main (tableKey k pl key) v } }

/-- Epoch `t` is not later than `e`, modulo 2^32. -/
def epochLe (t e : BitVec 32) : Bool := decide ((e - t).toNat < 2 ^ 31)

/-- The pending updates of an entry that a frame of an epoch sees, in the order their slots were taken. -/
def visible (s : State) (k : TabKind) (pl key : Nat) (e : BitVec 32) : List (BitVec 32 × Bytes) :=
  s.tab.shadows.filterMap (fun x =>
    if x.kind = k ∧ x.pl.toNat = pl ∧ x.key = key then
      match x.tag with
      | some t => if epochLe t e then some (t, x.value) else none
      | none => none
    else none)

/-- The latest of the updates: the greatest tag, and of one tag the last taken. -/
def latest : List (BitVec 32 × Bytes) → Option (BitVec 32 × Bytes)
  | [] => none
  | x :: xs => match latest xs with
    | none => some x
    | some y => if epochLe x.1 y.1 then some y else some x

/-- An entry as of an epoch (R241). -/
def entryAt (s : State) (k : TabKind) (pl key : Nat) (e : BitVec 32) : Bytes :=
  match latest (visible s k pl key e) with
  | some y => y.2
  | none => mainEntry s k pl key

/-- The pipeline whose CL_EPOCH a pipeline shares: in mode 2 a pair has one pair of counters (R242). -/
def epochHome (s : State) (pl : Nat) : Nat := lowerOf s pl

/-- CL_EPOCH.current. -/
def epochCurrent (s : State) (pl : Nat) : BitVec 32 := BitVec.ofNat 32 (rf s (CL_EPOCH (epochHome s pl)) 0 32)

/-- CL_EPOCH.retired. -/
def epochRetired (s : State) (pl : Nat) : BitVec 32 := BitVec.ofNat 32 (rf s (CL_EPOCH (epochHome s pl)) 32 32)

/-- The pipelines that share an epoch with one. -/
def epochMates (s : State) (pl : Nat) : List Nat := if pooled s pl then [pl / 2 * 2, pl / 2 * 2 + 1] else [pl]

/-- Set both counters in every pipeline that shares them. -/
def putEpoch (pl : Nat) (cur ret : BitVec 32) (s : State) : State :=
  (epochMates s pl).foldl (fun s p =>
    putReg (CL_EPOCH p) (BitVec.ofNat 64 (cur.toNat + ret.toNat * 2 ^ 32)) s) s

/-- Shadow slots in use in a pipeline (R249). -/
def shadowsUsed (s : State) (pl : Nat) : Nat := (s.tab.shadows.filter (fun x => x.pl.toNat == pl)).length

/-- A frame that was dealt and has not left its last chain pass: it holds its epoch (R242). -/
def holdsEpoch (f : Frame) : Bool :=
  match f.loc with
  | .parse => true
  | .chain _ => true
  | .edit => match f.disp with | .recirc => true | .through _ => true | _ => false
  | .waiting => decide (f.pass.toNat ≠ 0)
  | _ => false

/-- A station entry (R254). -/
def staEntry (mac : BitVec 48) (bd : BitVec 14) (valid static : Bool) (port : Nat) (learned : Bool) (action stamp : Nat)
    (data : Nat) : Bytes :=
  leBytes 8 (mac.toNat + bd.toNat * 2 ^ 48 + b2n valid * 2 ^ 62 + b2n static * 2 ^ 63) ++
  leBytes 8 (port % 16 + b2n learned * 16 + action % 65536 * 65536 + stamp % 65536 * 2 ^ 32) ++ leBytes 8 data ++ leBytes 8 0

/-- The value a shadow slot leaves in the main entry: a station entry takes the stamp of the moment (R269). -/
def foldValue (s : State) (x : Shadow) : Bytes :=
  if x.kind = .station then splice x.value 12 (leBytes 2 (rf s (FT_AGE_CTRL x.pl.toNat) 48 16)) else x.value

/-- An entry that is not valid and reserves its slot for a key (R244, R269). -/
def reserved (k : TabKind) (v : Bytes) : Bytes :=
  if k = .station then
    staEntry (BitVec.ofNat 48 (lef v 0 0 48)) (BitVec.ofNat 14 (lef v 0 48 14)) false false 15 false 0 0 0
  else slice v 0 13 ++ List.replicate 19 0

/-- An update, among those that stay pending, writes a key into the slot of another update, which keeps the slot reserved
for it (R269). -/
def reservedBy (rest : List Shadow) (x : Shadow) : Option Shadow :=
  if x.kind = .station ∨ x.kind = .stream then
    rest.find? (fun y => y.kind == x.kind && y.pl == x.pl && y.key == x.key && !y.value.isEmpty)
  else none

/-- Fold a shadow slot into its main entry (R242). A deleted entry becomes empty, but for a slot that an update still
pending (`rest`) holds. -/
def foldShadow (rest : List Shadow) (x : Shadow) (s : State) : State :=
  putMain x.kind x.pl.toNat x.key
    (if x.value.isEmpty then (match reservedBy rest x with | some y => reserved x.kind y.value | none => foldValue s x)
     else foldValue s x) s

/-- Retired advances when the last frame of an older epoch has left; every slot tagged no later is folded in and freed. -/
def advanceRetired (pl : Nat) (s : State) : State :=
  let mates := epochMates s pl
  let cur := epochCurrent s pl
  if epochRetired s pl = cur then s
  else if s.pipe.frames.any (fun e => mates.contains e.2.pl.toNat && holdsEpoch e.2 && e.2.epoch != cur) then s
  else
    let ready (x : Shadow) : Bool := mates.contains x.pl.toNat &&
      (match x.tag with | some t => epochLe t cur | none => false)
    let rest := s.tab.shadows.filter (fun x => !ready x)
    let s := (s.tab.shadows.filter ready).foldl (fun s x => foldShadow rest x s) s
    putEpoch pl cur cur { s with tab := { s.tab with shadows := rest } }

/-! ### Station table (R254 to R256) -/

/-- Slots of a way: 4 for each bucket. -/
def staBuckets (pl : Nat) : Nat := if pl = 4 then 1024 else 16384

/-- Bucket of a key in a way (R255). -/
def staBucket (s : State) (pl w : Nat) (mac : BitVec 48) (bd : BitVec 14) : Nat :=
  let seed := rf s (FT_HASH_SEED pl) (16 * w) 16
  let h := crc32cRun (BitVec.ofNat 32 (seed * 65536 + seed)) (beBytes 6 mac.toNat ++ beBytes 2 bd.toNat)
  h.toNat % staBuckets pl

/-- Slot number of a way, bucket and place (R526). -/
def staSlot (pl w bucket place : Nat) : Nat := w * (4 * staBuckets pl) + 4 * bucket + place

/-- The sixteen candidate slots of a key, way by way. -/
def staSlots (s : State) (pl : Nat) (mac : BitVec 48) (bd : BitVec 14) : List Nat :=
  (List.range 4).flatMap (fun w => (List.range 4).map (fun p => staSlot pl w (staBucket s pl w mac bd) p))

/-- A station entry holds a key (R254). -/
def staIs (e : Bytes) (mac : BitVec 48) (bd : BitVec 14) : Bool :=
  lef e 0 0 48 == mac.toNat && lef e 0 48 14 == bd.toNat

/-- Valid bit of a station entry. -/
def staValid (e : Bytes) : Bool := bit (leWord e 0) 62

/-- The slot whose main entry is held by or reserved for a key. -/
def staFind (s : State) (pl : Nat) (mac : BitVec 48) (bd : BitVec 14) : Option Nat :=
  (staSlots s pl mac bd).find? (fun n => let e := mainEntry s .station pl n; !e.isEmpty && staIs e mac bd)

/-- The free slots of a bucket: neither valid nor reserved. -/
def staOpen (s : State) (pl w b : Nat) : List Nat :=
  ((List.range 4).map (fun p => staSlot pl w b p)).filter (fun n => (mainEntry s .station pl n).isEmpty)

/-- Valid entries of a bucket; a bucket without a free slot counts as full. -/
def staFill (s : State) (pl w b : Nat) : Nat :=
  if (staOpen s pl w b).isEmpty then 4 else
  ((List.range 4).filter (fun p => staValid (mainEntry s .station pl (staSlot pl w b p)))).length

/-- The way a new key goes to: the candidate bucket with the fewest valid entries, the lowest way of a tie (R255). -/
def staBestWay (s : State) (pl : Nat) (mac : BitVec 48) (bd : BitVec 14) : Nat :=
  let fill (w : Nat) := staFill s pl w (staBucket s pl w mac bd)
  [1, 2, 3].foldl (fun best w => if fill w < fill best then w else best) 0

/-- The slot a new key takes; none when its four buckets are full (R255). -/
def staFree (s : State) (pl : Nat) (mac : BitVec 48) (bd : BitVec 14) : Option Nat :=
  let w := staBestWay s pl mac bd
  (staOpen s pl w (staBucket s pl w mac bd)).head?

/-- A hit: action index and result data. -/
abbrev Hit := Option (Nat × Bytes)

/-- Station lookup as of an epoch (R227, R254): a bridge domain of more than 14 bits misses. -/
def stationLookup (s : State) (pl : Nat) (mac bd16 : Nat) (e : BitVec 32) : Hit :=
  if 16384 ≤ bd16 then none else
  let m := BitVec.ofNat 48 mac
  let b := BitVec.ofNat 14 bd16
  ((staSlots s pl m b).find? (fun n => let x := entryAt s .station pl n e; staValid x && staIs x m b)).map
    (fun n => let x := entryAt s .station pl n e; (lef x 8 16 16, slice x 16 8))

/-! ### Direct tables (R252) -/

/-- The pool index that a direct table maps an index to, if it maps it. -/
def dirIndex (s : State) (pl t i : Nat) : Option Nat :=
  let off := FT_DIR_MAP pl t
  let lg := min 20 (rf s off 4 5)
  if rb s off 0 ∧ i < 2 ^ lg then some ((rf s off 12 20 / 2 ^ lg * 2 ^ lg + i) % 1048576) else none

/-- Direct lookup (R252, R253). -/
def directLookup (s : State) (pl t i : Nat) (e : BitVec 32) : Hit :=
  match dirIndex s pl t i with
  | none => none
  | some n => let x := entryAt s .direct pl n e; if bit (leWord x 0) 0 then some (lef x 0 16 16, slice x 8 8) else none

/-! ### Longest prefix (R264 to R266) -/

/-- Address bits of a family. -/
def famBits (f : Nat) : Nat := if f = 0 then 32 else 128

/-- Key of a prefix: family 0 IPv4 or 1 IPv6, routing table, length, address as a number. -/
def lpmKey (f table plen addr : Nat) : Nat := ((f * 4096 + table) * 129 + plen) * 2 ^ 128 + addr

/-- An address with the bits at and beyond a length cleared. -/
def maskAddr (f plen addr : Nat) : Nat := addr / 2 ^ (famBits f - plen) * 2 ^ (famBits f - plen)

/-- The longest prefix of at most `n` bits that covers an address. -/
def lpmSearch (s : State) (pl f table addr : Nat) (e : BitVec 32) : Nat → Hit
  | 0 =>
    let x := entryAt s .lpm pl (lpmKey f table 0 0) e
    if x.isEmpty then none else some (le x 0 2, slice x 8 8)
  | n + 1 =>
    let x := entryAt s .lpm pl (lpmKey f table (n + 1) (maskAddr f (n + 1) addr)) e
    if x.isEmpty then lpmSearch s pl f table addr e n else some (le x 0 2, slice x 8 8)

/-- LPM lookup: the walk of R266 yields the longest matching prefix; a table number of 4,096 or more misses. -/
def lpmLookup (s : State) (pl f table addr : Nat) (e : BitVec 32) : Hit :=
  if 4096 ≤ table then none else lpmSearch s pl f table addr e (famBits f)

/-! ### Juniper trees (R234 to R237) -/

/-- Bits of the Juniper key, bit 0 the most significant of byte 0. -/
def keyBits (key : Bytes) (pos n : Nat) : Nat := be key 0 39 / 2 ^ (312 - pos - n) % 2 ^ n

/-- An address matches a prefix of a rule. -/
def prefixMatch (bits plen rule key : Nat) : Bool :=
  let p := min plen bits
  rule / 2 ^ (bits - p) == key / 2 ^ (bits - p)

/-- A rule slot matches a key (R236). -/
def ruleMatch (r key : Bytes) : Bool :=
  let fam := le r 0x2C 4 / 65536 % 4
  let bits := if fam = 1 then 32 else 128
  let kfam := be key 38 1
  let sp := be key 32 2
  let dp := be key 34 2
  (le r 0x2C 4 / 2 ^ 18 % 2 == 1) &&
  (fam == 0 || (fam == 1 && kfam == 4) || (fam == 2 && kfam == 6)) &&
  prefixMatch bits (le r 0x20 1) (le r 0 16 % 2 ^ bits) (be key 0 16 % 2 ^ bits) &&
  prefixMatch bits (le r 0x21 1) (le r 16 16 % 2 ^ bits) (be key 16 16 % 2 ^ bits) &&
  ((le r 0x22 1 ^^^ be key 36 1) &&& le r 0x23 1) == 0 &&
  decide (le r 0x24 2 ≤ sp) && decide (sp ≤ le r 0x26 2) && decide (le r 0x28 2 ≤ dp) && decide (dp ≤ le r 0x2A 2) &&
  ((le r 0x2C 1 ^^^ be key 37 1) &&& le r 0x2D 1) == 0

/-- The best matching slot of a run: the highest priority, the lowest index of a tie (R237). -/
def bestRule (s : State) (pl : Nat) (key : Bytes) : List Nat → Option (Nat × Bytes)
  | [] => none
  | n :: ns =>
    let r := mainEntry s .rule pl n
    match bestRule s pl key ns with
    | none => if ruleMatch r key then some (le r 0x30 3, r) else none
    | some b => if ruleMatch r key ∧ b.1 ≤ le r 0x30 3 then some (le r 0x30 3, r) else some b

/-- How a walk ends: a lookup result, or a fault at a node. -/
inductive Walk where
  | result (h : Hit) | fault (node : Nat)
  deriving DecidableEq, Repr

/-- The walk of R237, with as many cut levels left as `n`. -/
def juniperWalk (s : State) (pl : Nat) (key : Bytes) : Nat → Nat → Walk
  | n, node =>
    let x := mainEntry s .node pl node
    if 131072 ≤ node then .fault node else
    match lef x 0 0 2 with
    | 1 =>
      let cut := lef x 0 4 4
      let pos := lef x 0 8 9
      match n with
      | 0 => .fault node
      | n + 1 => if 312 < pos + cut then .fault node else juniperWalk s pl key n (lef x 0 32 18 + keyBits key pos cut)
    | 2 =>
      let base := lef x 0 32 18
      let count := lef x 8 0 5
      if 262144 < base + count then .fault node
      else .result ((bestRule s pl key ((List.range count).map (base + ·))).map (fun b => (le b.2 0x34 2, slice b.2 0x38 8)))
    | _ => .fault node

/-- A Juniper lookup in a tree as of an epoch: a tree whose root is not valid misses. -/
def juniperLookup (s : State) (pl tree : Nat) (key : Bytes) (e : BitVec 32) : Walk :=
  let r := entryAt s .root pl tree e
  if lef r 0 17 1 = 1 then juniperWalk s pl key 8 (lef r 0 0 17) else .result none

end Sys2Proof.Machine
end

