-- ==== Sys2Proof/Machine/Edit.lean ====
section
/-! DEFINITION. Edit programs of the header editor (06 R186, R187). -/
namespace Sys2Proof.Machine

/-- How an op ends: the frame after it, or a malformed reason: 0x0A EDIT_FAULT, 0x0B TTL_ZERO. -/
inductive EditResult where
  | ok (b : Bytes) | bad (reason : BitVec 7)
  deriving DecidableEq, Repr

/-- Bytes inserted at an offset. -/
def insertBytes (b : Bytes) (o : Nat) (x : Bytes) : Bytes := b.take o ++ x ++ b.drop o

/-- Bytes deleted from an offset. -/
def deleteBytes (b : Bytes) (o n : Nat) : Bytes := b.take o ++ b.drop (o + n)

/-- An incremental update of a checksum for a 16-bit word that changes: HC' = ~(~HC + ~m + m'). -/
def csumUpdate (hc old new : Nat) : Nat :=
  0xFFFF - onesSum (beBytes 2 (0xFFFF - hc) ++ beBytes 2 (0xFFFF - old) ++ beBytes 2 new)

/-- Length of the IPv4 header at an offset. -/
def ipv4HeaderLen (b : Bytes) (o : Nat) : Nat := 4 * (be b o 1 % 16)

/-- The IPv4 header checksum of the header at an offset, its own field taken as zero. -/
def ipv4Checksum (b : Bytes) (o : Nat) : Nat :=
  let h := slice b o (ipv4HeaderLen b o)
  inetChecksum (splice h 10 [0, 0])

/-- The pseudo-header of the IP header at an offset: addresses, protocol, length of the L4 part. -/
def pseudoHeader (b : Bytes) (o proto len : Nat) : Bytes :=
  if be b o 1 / 16 = 4 then slice b (o + 12) 8 ++ [0, BitVec.ofNat 8 proto] ++ beBytes 2 len
  else slice b (o + 8) 32 ++ beBytes 4 len ++ [0, 0, 0, BitVec.ofNat 8 proto]

/-- Protocol of an L4 header behind an IP header, read from the IP header. -/
def ipProto (b : Bytes) (o : Nat) : Nat := if be b o 1 / 16 = 4 then be b (o + 9) 1 else be b (o + 6) 1

/-- Bytes from an L4 header to the end of its IP packet. -/
def l4Length (b : Bytes) (l3 l4 : Nat) : Nat :=
  if be b l3 1 / 16 = 4 then be b (l3 + 2) 2 - (l4 - l3) else be b (l3 + 4) 2 + 40 - (l4 - l3)

/-- Offset of the checksum in an L4 header: 16 in TCP, 6 in UDP. -/
def l4CsumOff (proto : Nat) : Nat := if proto = 6 then 16 else 6

/-- The L4 checksum of the header at `l4` behind the IP header at `l3`, its own field taken as zero; a UDP result of 0
is sent as 0xFFFF. -/
def l4Checksum (b : Bytes) (l3 l4 : Nat) : Nat :=
  let proto := ipProto b l3
  let len := l4Length b l3 l4
  let body := splice (slice b l4 len) (l4CsumOff proto) [0, 0]
  let v := inetChecksum (pseudoHeader b l3 proto len ++ body)
  if proto ≠ 6 ∧ v = 0 then 0xFFFF else v

/-- Recompute the L4 checksum in place; an IPv4 UDP checksum of 0 stays 0. -/
def setL4Checksum (b : Bytes) (l3 l4 : Nat) : Bytes :=
  let proto := ipProto b l3
  let o := l4 + l4CsumOff proto
  if be b l3 1 / 16 = 4 ∧ proto ≠ 6 ∧ be b o 2 = 0 then b else splice b o (beBytes 2 (l4Checksum b l3 l4))

/-- DEC_HOP on IPv4: TTL decremented and the header checksum updated incrementally. The checksum lies two bytes past the TTL. -/
def decTtl (b : Bytes) (o : Nat) : Bytes :=
  let old := be b o 2
  let new := old - 256
  let c := csumUpdate (be b (o + 2) 2) old new
  splice (splice b o [BitVec.ofNat 8 (be b o 1 - 1)]) (o + 2) (beBytes 2 c)

/-- An op reaches within byte 511 and the frame. -/
def editIn (b : Bytes) (o n : Nat) : Bool := decide (o + n ≤ 512) && decide (o + n ≤ b.length)

/-- One op (R186). `tmpl` reads a template. R186 gives the ranges of the operands and no effect outside them. The model
chooses (log entry 193): INSERT with a length outside 1 to 64 and SET_META with one outside 1 to 32 break the rules, with
EDIT_FAULT; the number of a template of 1,024 or more wraps; SET_META past metadata byte 63 writes the bytes up to it. -/
def editOp (op : BitVec 32) (mdata : Bytes) (tmpl : Nat → Bytes) (b : Bytes) : EditResult :=
  let w := op.toNat
  let o := w / 16 % 512
  let n := w / 2 ^ 13 % 128
  let src := w / 2 ^ 20
  match w % 16 with
  | 1 => if o ≤ b.length ∧ o + n ≤ 512 ∧ 1 ≤ n ∧ n ≤ 64 then .ok (insertBytes b o (slice (tmpl (src % 1024)) 0 n)) else .bad 0x0A
  | 2 => if editIn b o n then .ok (deleteBytes b o n) else .bad 0x0A
  | 3 => if editIn b o n ∧ 1 ≤ n ∧ n ≤ 32 then .ok (splice b o (slice mdata (src % 64) n)) else .bad 0x0A
  | 4 =>
    if src % 2 = 0 then
      if !editIn b o 4 then .bad 0x0A else if be b o 1 ≤ 1 then .bad 0x0B else .ok (decTtl b o)
    else
      if !editIn b o 1 then .bad 0x0A else if be b o 1 ≤ 1 then .bad 0x0B
      else .ok (splice b o [BitVec.ofNat 8 (be b o 1 - 1)])
  | 5 => if editIn b o 20 ∧ editIn b o (ipv4HeaderLen b o) then .ok (splice b (o + 10) (beBytes 2 (ipv4Checksum b o))) else .bad 0x0A
  | 6 =>
    if src ≤ o ∧ editIn b (o - src) 20 ∧ editIn b o (l4CsumOff (ipProto b (o - src)) + 2)
      ∧ o + l4Length b (o - src) o ≤ b.length
    then .ok (setL4Checksum b (o - src) o) else .bad 0x0A
  | 7 => if editIn b o 2 then .ok (splice b o (beBytes 2 ((b.length + 65536 - src) % 65536))) else .bad 0x0A
  | _ => .bad 0x0A

/-- A program from its ops: run in order until END or the 16th; a frame grows by at most 128 bytes in all (R187). R187 does
not say when the growth is judged: the model judges it after every op (log entry 194). -/
def editRun (start : Nat) (mdata : Bytes) (tmpl : Nat → Bytes) : List (BitVec 32) → Bytes → EditResult
  | [], b => .ok b
  | op :: ops, b =>
    if op.toNat % 16 = 0 then .ok b else
    match editOp op mdata tmpl b with
    | .bad r => .bad r
    | .ok b' => if start + 128 < b'.length then .bad 0x0A else editRun start mdata tmpl ops b'

/-- The ops of a program entry. -/
def programOps (p : Bytes) : List (BitVec 32) := (List.range 16).map (fun i => BitVec.ofNat 32 (le p (4 * i) 4))

/-- A frame shorter than 60 bytes is padded with zeros to 60 (R187). -/
def padFrame (b : Bytes) : Bytes := b ++ List.replicate (60 - b.length) 0

/-- The edit of a frame: program and templates as of its epoch; program 0 is empty; the result may not exceed the
egress max_frame, where the frame goes to a port. -/
def editFrame (s : State) (f : Frame) (egressMax : Option Nat) : EditResult :=
  let pl := f.pl.toNat
  let ops := if f.editProg = 0 then [] else programOps (entryAt s .program pl f.editProg.toNat f.epoch)
  match editRun f.bytes.length f.mdata (fun t => entryAt s .template pl t f.epoch) ops f.bytes with
  | .bad r => .bad r
  | .ok b =>
    match egressMax with
    | some m => if m < (padFrame b).length + 4 then .bad 0x0A else .ok (padFrame b)
    | none => .ok (padFrame b)

end Sys2Proof.Machine
end

