-- ==== Sys2Proof/Machine/PackOps.lean ====
section
/-! DEFINITION. Namespaces, bays, pack commands and the journal's log (15 R422 to R426, 16 R449 to R456, 17 R485 to R488). -/
namespace Sys2Proof.Machine

/-! ### Bays and namespaces -/

/-- A bay. -/
def bayOf (s : State) (b : Nat) : BaySt := tabGet (fun _ => BaySt.empty) s.st.bays b

/-- Set a bay; a change of its state shows in PF2's status page (R531). -/
def putBay (b : Nat) (x : BaySt) (s : State) : State :=
  pageIf (x.state != (bayOf s b).state) 2
    { s with st := { s.st with bays := tabSet (fun _ => BaySt.empty) s.st.bays b x } }

/-- A namespace. -/
def nsOf (s : State) (fns : Nat) : Ns := tabGet (fun _ => Ns.empty) s.st.ns fns

/-- Set a namespace. -/
def putNs (fns : Nat) (x : Ns) (s : State) : State :=
  { s with st := { s.st with ns := tabSet (fun _ => Ns.empty) s.st.ns fns x } }

/-- An admitted storage command. -/
def cmdOf (s : State) (c : Nat) : Option StCmd := tabFind s.st.cmds c

/-- Set an admitted storage command. -/
def putCmd (c : Nat) (x : StCmd) (s : State) : State := { s with st := { s.st with cmds := tabInsert s.st.cmds c x } }

/-- A storage command ends: its entry in the range-lock table goes with it. -/
def dropCmd (c : Nat) (s : State) : State := { s with st := { s.st with cmds := tabErase s.st.cmds c } }

/-- Mirrored (R424). -/
def Ns.mirror (n : Ns) : Bool := bit (leWord n.conf 0) 18
/-- log2 of the block size. -/
def Ns.bshift (n : Ns) : Nat := if bit (leWord n.conf 0) 17 then 12 else 9
/-- Blocks in the namespace. -/
def Ns.size (n : Ns) : Nat := lef n.conf 8 0 48
/-- Bay of an extent. -/
def Ns.bay (n : Ns) (onB : Bool) : Nat := lef n.conf 0 (if onB then 22 else 20) 2
/-- Pack namespace of an extent. -/
def Ns.nsid (n : Ns) (onB : Bool) : BitVec 32 := BitVec.ofNat 32 (if onB then le n.conf 0x18 4 else le n.conf 4 4)
/-- First pack LBA of an extent. -/
def Ns.plba (n : Ns) (onB : Bool) : Nat := if onB then le n.conf 0x20 8 else le n.conf 0x10 8

/-- A namespace of the pack in a bay, once it is identified (R529). -/
def packNs (s : State) (b : Nat) (nsid : BitVec 32) : Option PackNs :=
  match (bayOf s b).ident with
  | none => none
  | some i => i.namespaces.find? (fun x => x.nsid == nsid)

/-- Pack blocks for each namespace block of an extent, 1 or 8 when the extent is usable (R423). -/
def ratio (s : State) (n : Ns) (onB : Bool) : Nat :=
  match packNs s (n.bay onB) (n.nsid onB) with
  | none => 0
  | some p => 2 ^ n.bshift / 2 ^ p.lbads.toNat

/-! ### Pack commands -/

/-- NVMe opcodes (R450): Flush, Write, Read, Write Zeroes, Dataset Management. -/
def nvFlush : Nat := 0
def nvWrite : Nat := 1
def nvRead : Nat := 2
def nvZeroes : Nat := 8
def nvDsm : Nat := 9

/-- Send a command to a pack; its identifier is the next number. -/
def packSend (b opcode : Nat) (nsid : BitVec 32) (lba blocks : Nat) (data : Bytes) (s : State) : State :=
  emit (.packCommand (Fin.ofNat 4 b) s.st.nextCid opcode nsid lba blocks data)
    { s with st := { s.st with nextCid := s.st.nextCid + 1 } }

/-- Send a command to a pack whose answer serves a use. -/
def packIssue (b : Nat) (use : PackUse) (opcode : Nat) (nsid : BitVec 32) (lba blocks : Nat) (data : Bytes) (s : State) : State :=
  let key := 2 ^ 32 * b + s.st.nextCid % 2 ^ 32
  let s := packSend b opcode nsid lba blocks data s
  { s with st := { s.st with packCmds := tabInsert s.st.packCmds key use } }

/-- A pack command outstanding on a bay. -/
def packUse (s : State) (b cid : Nat) : Option PackUse := tabFind s.st.packCmds (2 ^ 32 * b + cid)

/-- A pack command is answered. -/
def dropPackCmd (b cid : Nat) (s : State) : State :=
  { s with st := { s.st with packCmds := tabErase s.st.packCmds (2 ^ 32 * b + cid) } }

/-- Pack commands outstanding for a storage command. -/
def outstanding (s : State) (c : Nat) : Nat :=
  (s.st.packCmds.filter (fun e => match e.2 with | .cmd c' _ _ => c' == c | _ => false)).length

/-- Pack commands outstanding on an extent of a namespace (R426). -/
def extentLoad (s : State) (fns : Nat) (onB : Bool) : Nat :=
  (s.st.packCmds.filter (fun e => match e.2 with
    | .cmd c b _ => b == onB && (match cmdOf s c with | some x => x.fns.toNat == fns | none => false)
    | _ => false)).length

/-- Runs of at most `m` (1 when it is 0), in all `n`, from an offset. -/
def runsOf (m : Nat) : Nat → Nat → Nat → List (Nat × Nat)
  | 0, _, _ => []
  | fuel + 1, off, n =>
    if n = 0 then [] else
    let k := min n (max 1 m)
    (off, k) :: runsOf m fuel (off + k) (n - k)

/-- Most blocks of one NVMe command to a pack: MDTS in blocks of `2^sh` bytes, all of them where it states no limit (R450). -/
def mdtsBlocks (s : State) (b sh n : Nat) : Nat :=
  match (bayOf s b).ident with
  | none => n
  | some i => if i.mdts = 0 then n else i.mdts / 2 ^ sh

/-! ### The journal's log (R485 to R488) -/

/-- Offset of the log in the journal area. -/
def logStart : Nat := 0xA0002000

/-- Size of the log. -/
def logSize (s : State) : Nat := s.cg.sizeMib * 2 ^ 20 - logStart

/-- Block size of the journal's pack namespace, as a power of two. -/
def journalShift (s : State) : Nat :=
  match packNs s s.cg.bay.toNat s.cg.nsid with | none => 9 | some p => p.lbads.toNat

/-- Log bytes that an entry of a length takes: a record never straddles the log's end (R487). -/
def logNeed (s : State) (len : Nat) : Nat :=
  if s.cg.logTail + len ≤ logSize s then len else logSize s - s.cg.logTail + len

/-- The log has room for an entry. -/
def logRoom (s : State) (len : Nat) : Bool := decide (s.cg.logUsed + logNeed s len ≤ logSize s)

/-- Write bytes at an offset of the journal area, with FUA, in the commands that MDTS allows. -/
def journalWrite (off : Nat) (data : Bytes) (use : PackUse) (s : State) : State :=
  let sh := journalShift s
  let n := data.length / 2 ^ sh
  (runsOf (mdtsBlocks s s.cg.bay.toNat sh n) n 0 n).foldl (fun s r =>
    packIssue s.cg.bay.toNat use nvWrite s.cg.nsid (s.cg.plba.toNat + off / 2 ^ sh + r.1) r.2
      (slice data (r.1 * 2 ^ sh) (r.2 * 2 ^ sh)) s) s

/-- Append an entry to the log; its seq is the next. -/
def appendLog (data : Bytes) (use : PackUse) (r : JRecord) (s : State) : State :=
  let need := logNeed s data.length
  let at_ := if s.cg.logTail + data.length ≤ logSize s then s.cg.logTail else 0
  journalWrite (logStart + at_) data use
    { s with cg := { s.cg with nextSeq := s.cg.nextSeq + 1, logTail := at_ + data.length, logUsed := s.cg.logUsed + need,
                               records := s.cg.records ++ [{ r with bytes := need }] } }

/-- A 4 KiB log entry header with its CRC (R487). -/
def logHeader (kind members : Nat) (seq : Nat) (body : Bytes) (dataCrc : BitVec 32) : Bytes :=
  let h := leBytes 4 0x43475243 ++ leBytes 4 (kind + members * 256) ++ leBytes 8 seq ++ body
  let h := slice h 0 0xFF8 ++ leBytes 4 dataCrc.toNat
  h ++ leBytes 4 (crc32c h).toNat

/-- A retire or cancel entry naming seqs (R487, R488, R493). -/
def namingEntry (kind : Nat) (seq : Nat) (listed : List (BitVec 64)) : Bytes :=
  logHeader kind listed.length seq (List.replicate 16 0 ++ listed.flatMap (fun x => leBytes 8 x.toNat)) 0

/-- The record of a log entry that names others: it is passed as soon as the head reaches it. -/
def namingRecord (seq : BitVec 64) : JRecord :=
  { seq := seq, slot := 0, domain := 0, token := 0, home := [], cmds := [], bytes := 0, lost := false, retired := true }

end Sys2Proof.Machine
end

