-- ==== Sys2Proof/Machine/Shares.lean ====
section
/-! DEFINITION. The pools of a function and the equal shares of its instances (05 R148, R154). -/
namespace Sys2Proof.Machine

/-- The pools that instances divide (R154). -/
inductive Pool where
  | queues | evqs | contexts | namespaces | locks | cells | groups
  deriving DecidableEq, Repr

/-- Pool size of a function (R154). -/
def poolSize (p : Pool) (fn : Nat) : Nat :=
  match p, fn with
  | .queues, 0 => 196608
  | .queues, 1 => 524288
  | .queues, 2 => 262144
  | .queues, 3 => 65536
  | .evqs, 0 => 4096
  | .evqs, 1 => 32768
  | .evqs, 2 => 16384
  | .evqs, 3 => 12288
  | .contexts, 1 => 983040
  | .contexts, 3 => 65536
  | .namespaces, 2 => 65536
  | .locks, 2 => 16384
  | .cells, 1 => 65536
  | .cells, 3 => 16384
  | .groups, 1 => 49152
  | .groups, 3 => 16384
  | _, _ => 0

/-- Number of instances of a function, N = 2^n_log2 (R168). -/
def instCount (s : State) (fn : Nat) : Nat := 2 ^ (rf s (IM_FN_SHARE fn) 0 4)

/-- Share of one instance (R154). -/
def share (s : State) (p : Pool) (fn : Nat) : Nat := poolSize p fn / instCount s fn

/-- The instance that owns a pool index. -/
def ownerOf (s : State) (p : Pool) (fn idx : Nat) : Nat := idx / share s p fn

/-- The function of a scheduler group node (R278). -/
def groupFn (g : Nat) : Nat := if g < 49152 then 1 else 3

/-- The instance that owns a scheduler group node (R278). -/
def groupInst (s : State) (g : Nat) : Nat :=
  if g < 49152 then ownerOf s .groups 1 g else ownerOf s .groups 3 (g - 49152)

/-- First global index of a function's interrupt store entries (R116). -/
def intBase : Nat → Nat
  | 0 => 0
  | 1 => 4096
  | 2 => 36864
  | _ => 53248

end Sys2Proof.Machine
end

