-- ==== Sys2Proof/Machine/TmOps.lean ====
section
/-! DEFINITION. Packet buffer, admission, leaves and token buckets (10). -/
namespace Sys2Proof.Machine

/-! ### Cells and regions (R276 to R279) -/

/-- Cells of a frame of a length without FCS (R276). -/
def cellsFor (len : Nat) : Nat := (len + 4 + 255) / 256

/-- Cells of the buffers that meet a test. -/
def cellSum (s : State) (p : Buf → Bool) : Nat := (s.tm.bufs.map (fun e => if p e.2 then e.2.cells else 0)).sum

/-- Cells charged to shared. -/
def sharedUsed (s : State) : Nat := cellSum s (fun b => b.region == .shared)

/-- Cells of a source and priority charged to shared (R280). -/
def inCount (s : State) (port prio : Nat) : Nat :=
  cellSum s (fun b => b.region == .shared && b.port.toNat == port && b.prio.toNat == prio)

/-- Cells of a port and priority charged to headroom. -/
def hrUse (s : State) (port prio : Nat) : Nat :=
  cellSum s (fun b => b.region == .headroom && b.port.toNat == port && b.prio.toNat == prio)

/-- Cells charged to an instance's guaranteed share. -/
def guaranteedUse (s : State) (fn inst : Nat) : Nat :=
  cellSum s (fun b => b.region == .guaranteed (BitVec.ofNat 2 fn) (BitVec.ofNat 10 inst))

/-- Bytes in spill: each spilled frame with its FCS. -/
def spillBytes (s : State) : Nat :=
  (s.tm.bufs.map (fun e => if e.2.region == .spill then
    ((s.pipe.frames.find? (fun f => f.2.buf == e.1)).map (fun f => f.2.len + 4)).getD 0 else 0)).sum

/-- PFC is active for a port and priority (R281). -/
def pfcActive (s : State) (port prio : Nat) : Bool := decide (port < 8) && rb s (TM_PORT_C port) (16 + prio)

/-- hr_reserved: the headroom of every active pair (R277). -/
def hrReserved (s : State) : Nat :=
  ((List.range 8).map (fun n => rf s (TM_PORT_C n) 0 16 * popcount (BitVec.ofNat 8 (rf s (TM_PORT_C n) 16 8)))).sum

/-- Size of the spill-return region (R277). -/
def spillReturnSize (s : State) : Nat := if rb s TM_BUF_CTRL 0 || spillBytes s != 0 then 2048 else 0

/-- Cells charged to spill return: frames being brought back on die (R277). -/
def spillReturnUsed (s : State) : Nat := cellSum s (fun b => b.region == .spillReturn)

/-- Size of the shared region (R277). -/
def sharedSize (s : State) : Nat := 262144 - 81920 - hrReserved s - spillReturnSize s

/-- A buffer. -/
def bufOf (s : State) (b : Nat) : Option Buf := tabFind s.tm.bufs b

/-- Set a buffer. -/
def putBuf (b : Nat) (x : Buf) (s : State) : State := { s with tm := { s.tm with bufs := tabInsert s.tm.bufs b x } }

/-- A new buffer: its number is the counter's. -/
def newBuf (x : Buf) (s : State) : State :=
  { s with tm := { s.tm with bufs := tabInsert s.tm.bufs s.tm.nextBuf x, nextBuf := s.tm.nextBuf + 1 } }

/-- One use of a buffer ends; its cells are free when every use has (R279). -/
def releaseBuf (b : Nat) (s : State) : State :=
  match bufOf s b with
  | none => s
  | some x => if x.users ≤ 1 then { s with tm := { s.tm with bufs := tabErase s.tm.bufs b } }
              else putBuf b { x with users := x.users - 1 } s

/-- Free a frame: its record and its use of its cells. -/
def freeFrame (f : Nat) (s : State) : State :=
  match frameOf s f with
  | none => s
  | some x => dropFrameRec f (releaseBuf x.buf s)

/-! ### Ports -/

/-- max_frame of a port node, with FCS (R197, R345); the host source has no limit but its own (R280). -/
def maxFrame (s : State) (node : Nat) : Nat :=
  let v := if node < 8 then rf s (NP_PORT_CTRL node) 16 14 else if node < 12 then rf s (PP_PORT_A (node - 8)) 16 14 else 9216
  if v < 64 ∨ 9216 < v then 9216 else v

/-- m of R280: cells of the largest frame of a port, or 36 for the host source. -/
def maxCells (s : State) (node : Nat) : Nat := if node < 12 then (maxFrame s node + 255) / 256 else 36

/-- `x ≤ 2^(a-6) * free`, an alpha above 12 acting as 12 (R280, R284). -/
def alphaFits (x a free : Nat) : Bool := decide (x * 64 ≤ 2 ^ (min a 12) * free)

/-- Ingress priority of a frame (R280). -/
def ingressPrio (s : State) (node : Nat) (frame : Bytes) : Nat :=
  let t := be frame 12 2
  if t = 0x8100 ∨ t = 0x88A8 then be frame 14 2 / 8192 else rf s (TM_PORT_B node) 8 3

/-! ### Priority flow control (R282) -/

/-- Priorities of a port in XOFF. -/
def xoffBits (s : State) (port : Nat) : Nat := rf s (TM_PORT_C port) 32 8

/-- Clove time in nanoseconds. -/
def nowNs (s : State) : Nat := clockNs s.clk

/-- Send a PFC frame: quanta 0xFFFF for every priority in XOFF, and quanta 0 for a priority that returns to XON. -/
def sendPfc (port : NPort) (xon : Option Nat) (s : State) : State :=
  let off := xoffBits s port.val
  let prios := BitVec.ofNat 8 (off ||| (match xon with | some k => 2 ^ k | none => 0))
  let quanta := (List.range 8).map (fun k => if off.testBit k then 0xFFFF else 0)
  let sent := (List.range 8).foldl (fun t k =>
    if off.testBit k then tabInsert t (8 * port.val + k) (nowNs s) else t) s.tm.pfcSent
  emit (.pfcFrame port prios quanta) (addStat (TM_PORT_D port.val) 1 { s with tm := { s.tm with pfcSent := sent } })

/-- A frame of a port and priority was charged to headroom: XOFF is entered if it is not already (R282). -/
def enterXoff (port prio : Nat) (s : State) : State :=
  if h : port < 8 then
    if rb s (TM_PORT_C port) (32 + prio) then s
    else sendPfc ⟨port, h⟩ none (putB (TM_PORT_C port) (32 + prio) true s)
  else s

/-! ### Ingress admission (R280) -/

/-- What ingress admission decides. -/
inductive Admit where
  | shared | headroom | overrun | refuse
  deriving DecidableEq, Repr

/-- The test of R280 for a port node and priority. -/
def ingressTest (s : State) (node k : Nat) : Admit :=
  let m := maxCells s node
  let free := sharedSize s - sharedUsed s
  let x := inCount s node k + m
  if alphaFits x (rf s (TM_PORT_B node) 12 4) free && decide (m ≤ free) then .shared
  else if pfcActive s node k then
    if hrUse s node k + m ≤ rf s (TM_PORT_C node) 0 16 then .headroom else .overrun
  else .refuse

/-- Admit a frame at ingress: the state, and whether it took the buffer numbered by the counter before. -/
def admitIngress (node : Nat) (frame : Bytes) (s : State) : State × Bool :=
  let k := ingressPrio s node frame
  let b (r : Region) : Buf :=
    { cells := cellsFor frame.length, region := r, port := BitVec.ofNat 4 node, prio := BitVec.ofNat 3 k, users := 1 }
  match ingressTest s node k with
  | .shared => (newBuf (b .shared) s, true)
  | .headroom => (enterXoff node k (newBuf (b .headroom) s), true)
  | .overrun => (addErr TM_HR_OVERRUN 1 s, false)
  | .refuse => (addErr (TM_PORT_F node) 1 s, false)

/-! ### Nodes -/

/-- A leaf. -/
def leafOf (s : State) (l : Nat) : Leaf := tabGet (fun _ => Leaf.empty) s.tm.leaves l
/-- Set a leaf. -/
def putLeaf (l : Nat) (x : Leaf) (s : State) : State :=
  { s with tm := { s.tm with leaves := tabSet (fun _ => Leaf.empty) s.tm.leaves l x } }
/-- A group node. -/
def groupOf (s : State) (g : Nat) : TmNode := tabGet (fun _ => TmNode.empty) s.tm.groups g
/-- Set a group node. -/
def putGroup (g : Nat) (x : TmNode) (s : State) : State :=
  { s with tm := { s.tm with groups := tabSet (fun _ => TmNode.empty) s.tm.groups g x } }
/-- A class node. -/
def classOf (s : State) (c : Nat) : TmNode := tabGet (fun _ => TmNode.empty) s.tm.classes c
/-- Set a class node. -/
def putClass (c : Nat) (x : TmNode) (s : State) : State :=
  { s with tm := { s.tm with classes := tabSet (fun _ => TmNode.empty) s.tm.classes c x } }
/-- The shaper of a port node. -/
def portBucket (s : State) (p : Nat) : TokenBucket := tabGet (fun _ => TokenBucket.empty) s.tm.portBuckets p
/-- Set the shaper of a port node. -/
def putPortBucket (p : Nat) (x : TokenBucket) (s : State) : State :=
  { s with tm := { s.tm with portBuckets := tabSet (fun _ => TokenBucket.empty) s.tm.portBuckets p x } }
/-- A meter. -/
def meterOf (s : State) (m : Nat) : Meter := tabGet (fun _ => Meter.empty) s.tm.meters m
/-- Set a meter. -/
def putMeter (m : Nat) (x : Meter) (s : State) : State :=
  { s with tm := { s.tm with meters := tabSet (fun _ => Meter.empty) s.tm.meters m x } }

/-- Parent group of a leaf (R300). -/
def leafGroup (s : State) (l : Nat) : Nat := fld (leafOf s l).config 0 16
/-- Parent class of a group. -/
def groupClass (s : State) (g : Nat) : Nat := fld (groupOf s g).config 0 9
/-- Class of a leaf. -/
def leafClass (s : State) (l : Nat) : Nat := groupClass s (leafGroup s l)
/-- Parent port of a class. -/
def classPort (s : State) (c : Nat) : Nat := fld (classOf s c).config 0 4
/-- Port of a leaf. -/
def leafPort (s : State) (l : Nat) : Nat := classPort s (leafClass s l)
/-- A class is lossless. -/
def classLossless (s : State) (c : Nat) : Bool := bit (classOf s c).config 16
/-- A class may spill. -/
def classDeep (s : State) (c : Nat) : Bool := bit (classOf s c).config 20
/-- A class is a plant class. -/
def classPlant (s : State) (c : Nat) : Bool := bit (classOf s c).config 21

/-- Cells of a frame: its own count, whatever cells a copy of it uses (R276, R284). -/
def frameCells (s : State) (f : Nat) : Nat :=
  match frameOf s f with
  | none => 0
  | some x => cellsFor x.len

/-- Cells of a frame that are charged to shared. -/
def frameSharedCells (s : State) (f : Nat) : Nat :=
  match frameOf s f with
  | none => 0
  | some x => match bufOf s x.buf with | none => 0 | some b => if b.region == .shared then cellsFor x.len else 0

/-- Cells on a leaf. -/
def leafDepth (s : State) (l : Nat) : Nat := ((leafOf s l).frames.map (frameCells s)).sum

/-- Class use: cells charged to shared for frames enqueued on the class, each copy on its own (R279, R284). -/
def classUse (s : State) (c : Nat) : Nat :=
  (s.tm.leaves.map (fun e => if leafClass s e.1 == c then (e.2.frames.map (frameSharedCells s)).sum else 0)).sum

/-! ### Deficits (R290, R299) -/

/-- Key of a choice. -/
def dwrrKey (level parent : Nat) : Nat := 2 ^ 48 * level + parent

/-- A choice's state. -/
def dwrrOf (s : State) (k : Nat) : Dwrr := tabGet (fun _ => Dwrr.empty) s.tm.dwrr k

/-- Set a choice's state. -/
def putDwrr (k : Nat) (x : Dwrr) (s : State) : State :=
  { s with tm := { s.tm with dwrr := tabSet (fun _ => Dwrr.empty) s.tm.dwrr k x } }

/-- A contender's deficit. -/
def deficitOf (x : Dwrr) (c : Nat) : Int := tabGet (fun _ => (0 : Int)) x.deficits c

/-- Set a contender's deficit. -/
def setDeficit (x : Dwrr) (c : Nat) (v : Int) : Dwrr := { x with deficits := tabSet (fun _ => (0 : Int)) x.deficits c v }

/-- Some leaf that meets a test holds frames. -/
def anyFrames (s : State) (t : Nat → Bool) : Bool := s.tm.leaves.any (fun e => !e.2.frames.isEmpty && t e.1)

/-- A contender that holds no frames loses its deficit (R290). -/
def loseDeficit (k c : Nat) (backlogged : Bool) (s : State) : State :=
  if backlogged then s else putDwrr k (setDeficit (dwrrOf s k) c 0) s

/-- Key of the choice among a port's classes of one priority: each priority goes round on its own (R290). -/
def classKey (s : State) (c : Nat) : Nat := dwrrKey 0 (16 * classPort s c + fld (classOf s c).config 4 3)

/-- Key of the choice among a class's groups of one instance. -/
def groupKey (s : State) (g : Nat) : Nat :=
  dwrrKey 3 ((4 * groupClass s g + groupFn g) * 1024 + groupInst s g)

/-- The nodes of a leaf's path that hold no frames lose their deficits, however the last frame left (R290, R299). -/
def settleEmpty (l : Nat) (s : State) : State :=
  let g := leafGroup s l
  let c := groupClass s g
  loseDeficit (classKey s c) c (anyFrames s (fun l => leafClass s l == c))
    (loseDeficit (dwrrKey 1 c) (groupFn g) (anyFrames s (fun l => leafClass s l == c && groupFn (leafGroup s l) == groupFn g))
      (loseDeficit (groupKey s g) g (anyFrames s (fun l => leafGroup s l == g))
        (loseDeficit (dwrrKey 4 g) l (anyFrames s (fun k => k == l)) s)))

/-- The frames of a leaf become a list of some of them; a leaf with another head has nothing known of its launch. -/
def keepFrames (l : Nat) (fs : List Nat) (s : State) : State :=
  let x := leafOf s l
  settleEmpty l (putLeaf l (if fs.head? = x.frames.head? then { x with frames := fs }
    else { x with frames := fs, launchReady := false, lateSeen := false }) s)

/-! ### Egress admission (R284) -/

/-- What the test at enqueue decides. -/
inductive Enqueue where
  | guaranteed | keep | spill | drop
  deriving DecidableEq, Repr

/-- The test of R284, with the leaf limit before it. `ownShared` are the frame's own cells charged to shared. -/
def enqueueTest (s : State) (l cells len ownShared : Nat) : Enqueue :=
  let g := leafGroup s l
  let fn := groupFn g
  let inst := groupInst s g
  let c := leafClass s l
  let limit := fld (leafOf s l).config 32 20
  if limit ≠ 0 ∧ limit < leafDepth s l + cells then .drop
  else if guaranteedUse s fn inst + cells ≤ share s .cells fn then .guaranteed
  else if classLossless s c then .keep
  else
    let free := sharedSize s - (sharedUsed s - ownShared)
    if alphaFits (classUse s c + cells) (fld (classOf s c).config 22 4) free then .keep
    else if classDeep s c && !classPlant s c && rb s TM_BUF_CTRL 0
        && decide (spillBytes s + len + 4 ≤ min 8 (rf s TM_BUF_CTRL 24 4) * 2 ^ 30) then .spill
    else .drop

/-- Put a frame at the tail of a leaf. -/
def appendLeaf (l f : Nat) (s : State) : State :=
  let x := leafOf s l
  let s := putLeaf l { x with frames := x.frames ++ [f] } s
  match frameOf s f with
  | none => s
  | some y => putFrame f { y with loc := .leaf } s

/-- Cells in shared or headroom move to an instance's guaranteed share; cells charged elsewhere stay (R279). -/
def toGuaranteed (b fn inst : Nat) (s : State) : State :=
  match bufOf s b with
  | none => s
  | some x =>
    if x.region = .shared ∨ x.region = .headroom then
      putBuf b { x with region := .guaranteed (BitVec.ofNat 2 fn) (BitVec.ofNat 10 inst) } s
    else s

/-- A frame is written whole to the spill region, and its use of its cells on die ends: they are free unless a copy of the
frame still uses them (R279, R286). -/
def spillFrame (f : Nat) (s : State) : State :=
  match frameOf s f with
  | none => s
  | some x =>
    match bufOf s x.buf with
    | none => s
    | some b =>
      let n := s.tm.nextBuf
      putFrame f { x with buf := n } (newBuf { b with cells := cellsFor x.len, region := .spill, users := 1 } (releaseBuf x.buf s))

/-- Count cells of the frame as it now stands; cells that copies share are charged once, as many as the longest needs
(R276, R279). -/
def recount (f : Nat) (s : State) : State :=
  match frameOf s f with
  | none => s
  | some x =>
    match bufOf s x.buf with
    | none => s
    | some b =>
      let shared := (s.pipe.frames.filter (fun e => e.2.buf == x.buf)).map (fun e => cellsFor e.2.len)
      putBuf x.buf { b with cells := if b.users ≤ 1 then cellsFor x.len else shared.foldl max (cellsFor x.len) } s

/-- A frame for an egress of a pair is dropped where the bypass carried, or still carries, what came when it did: its
ingress timestamp, or its admission for a frame a host queue sent, precedes T, or no T is set (R330). -/
def bypassed (s : State) (l : Nat) (x : Frame) : Bool :=
  let p := leafPort s l
  let t := clockNs x.rxTime
  if 8 ≤ p ∧ p < 12 then
    let a := s.plant.pairs.getD ((p - 8) / 2) .reset
    match a.state with
    | .bypass => true
    | .armed | .taking | .service => decide (t < a.takeAt)
    | .off => false
  else false

/-- A frame is dropped for the bypass and counted. -/
def bypassDrop (l f : Nat) (s : State) : State := addStat (PP_BYPASS_DROPS (leafPort s l - 8)) 1 (freeFrame f s)

/-- An admitted frame goes on its leaf, or is dropped for the bypass. -/
def placeOnLeaf (l f : Nat) (s : State) : State :=
  match frameOf s f with
  | none => s
  | some x => if bypassed s l x then bypassDrop l f s else addStat (TM_CLASS_CNT_A (leafClass s l)) 1 (appendLeaf l f s)

/-- The spill write path is saturated: a free bit, since its load is timing (R286). -/
def spillSaturated (s : State) : Bool := (freeNow s).getLsbD 0

/-- Enqueue a frame on a leaf by the test of R284; false: it was refused, and it is still held by its caller. -/
def enqueueFrame (l f : Nat) (s : State) : State × Bool :=
  let s := recount f s
  match frameOf s f with
  | none => (s, false)
  | some x =>
    if bypassed s l x then (bypassDrop l f s, true) else
    let c := leafClass s l
    let g := leafGroup s l
    match enqueueTest s l (frameCells s f) x.len (frameSharedCells s f) with
    | .guaranteed => (addStat (TM_CLASS_CNT_A c) 1 (appendLeaf l f (toGuaranteed x.buf (groupFn g) (groupInst s g) s)), true)
    | .keep => (addStat (TM_CLASS_CNT_A c) 1 (appendLeaf l f s), true)
    | .spill =>
      -- R286 drops a frame that finds the spill write path saturated; when it is so is open.
      if spillSaturated s then (addStat (TM_CLASS_CNT_B c) 1 (useFree s), false)
      else (addStat (TM_CLASS_CNT_C c) 1 (appendLeaf l f (spillFrame f (useFree s))), true)
    | .drop => (addStat (TM_CLASS_CNT_B c) 1 s, false)

/-- Admit a frame member of a commit group at its staging: tested as at enqueue, held in its cells, never spilled (R285). -/
def admitMember (l f : Nat) (s : State) : State × Bool :=
  let s := recount f s
  match frameOf s f with
  | none => (s, false)
  | some x =>
    let g := leafGroup s l
    match enqueueTest s l (frameCells s f) x.len (frameSharedCells s f) with
    | .guaranteed => (toGuaranteed x.buf (groupFn g) (groupInst s g) s, true)
    | .keep => (s, true)
    | _ => (addStat (TM_CLASS_CNT_B (leafClass s l)) 1 s, false)

/-- Enqueue a frame, or free it when it is refused. -/
def enqueueOrDrop (l f : Nat) (s : State) : State :=
  let r := enqueueFrame l f s
  if r.2 then r.1 else freeFrame f r.1

/-- Enqueue a copy of a frame as it stands, sharing its cells; a copy refused is lost (R181, R232). -/
def enqueueCopy (l f : Nat) (bytes : Bytes) (s : State) : State :=
  match frameOf s f with
  | none => s
  | some x =>
    let n := s.pipe.nextFrame
    let s := match bufOf s x.buf with
      | none => s
      | some b => putBuf x.buf { b with users := b.users + 1 } s
    let s := putFrame n { x with bytes := bytes, loc := .leaf, tx := none }
      { s with pipe := { s.pipe with nextFrame := n + 1 } }
    enqueueOrDrop l n s

/-! ### Token buckets (R293 to R295) -/

/-- Refill over a number of ticks, saturating at 16 times the burst (R293, R299). -/
def refill (b : TokenBucket) (n : Nat) : TokenBucket :=
  { b with tokens := min (b.tokens + n * b.rate.toNat) (16 * b.burst.toNat) }

/-- Difference of tick indexes, modulo 2^32. -/
def tickDiff (t u : BitVec 32) : Nat := (t - u).toNat

/-- Values that waited take effect at their tick: the bucket up to that tick, then the new values (R294). -/
def applyPending (b : TokenBucket) (t : BitVec 32) : TokenBucket :=
  match b.pending with
  | none => b
  | some (en, rate, burst) =>
    if tickDiff t b.effective < 2 ^ 31 then
      let r := refill b (tickDiff b.effective b.last)
      { r with en := en, rate := rate, burst := burst, tokens := min r.tokens (16 * burst.toNat), last := b.effective,
               pending := none }
    else b

/-- A touch of a bucket at a tick (R294). -/
def touch (b : TokenBucket) (t : BitVec 32) : TokenBucket :=
  let b := applyPending b t
  { refill b (tickDiff t b.last) with last := t }

/-- The tick index T (R294). -/
def tickNow (s : State) : BitVec 32 := BitVec.ofNat 32 s.ticks

/-- A write of new values is accepted: touch, pending, and the effective tick, which a write already pending keeps (R295). -/
def acceptValues (b : TokenBucket) (t : BitVec 32) (en : Bool) (rate burst : BitVec 24) : TokenBucket :=
  let b := touch b t
  { b with pending := some (en, rate, burst), effective := if b.pending.isSome then b.effective else t + 1 }

/-- The values of a shaper word (R293). -/
def acceptShaper (b : TokenBucket) (t : BitVec 32) (w : Word) : TokenBucket :=
  acceptValues b t (bit w 0) (BitVec.ofNat 24 (fld w 8 24)) (BitVec.ofNat 24 (fld w 32 24))

/-- A shaper lets its node send: it is off, or its tokens are 0 or more (R293). -/
def shaperEligible (b : TokenBucket) (t : BitVec 32) : Bool :=
  let b := touch b t
  !b.en || decide (0 ≤ b.tokens)

/-- Debit a charged length, in bytes, whether or not the shaper is enabled (R291). -/
def debit (b : TokenBucket) (t : BitVec 32) (len : Nat) : TokenBucket :=
  let b := touch b t
  { b with tokens := max (b.tokens - 16 * len) (min b.tokens (-(16 * len : Nat))) }

/-! ### Meters (R298) -/

/-- Bring both buckets of a meter to a tick; a fill waits for its values (R300). -/
def touchMeter (m : Meter) (t : BitVec 32) : Meter :=
  let waited := m.c.pending.isSome
  let c := touch m.c t
  let p := touch m.p t
  if waited && c.pending.isNone && m.fill then
    { m with c := { c with tokens := 16 * c.burst.toNat }, p := { p with tokens := 16 * p.burst.toNat }, fill := false }
  else { m with c := c, p := p }

/-- The result colour and what is debited from C and from P or E, in bytes (R298): colours 0 green, 1 yellow, 2 red. -/
def meterResult (mode aware : Bool) (c p : Int) (b : Nat) (colour : Nat) : Nat × Nat × Nat :=
  let cLow := decide (c < 16 * b)
  let pLow := decide (p < 16 * b)
  let colour := if aware then min colour 2 else 0
  if !mode then
    if colour = 2 ∨ pLow then (2, 0, 0) else if colour = 1 ∨ cLow then (1, 0, b) else (0, b, b)
  else
    if colour = 0 ∧ !cLow then (0, b, 0) else if colour ≤ 1 ∧ !pLow then (1, 0, b) else (2, 0, 0)

/-- One operation on a meter: the state, the result colour and the debit made. -/
def useMeter (n frameLen colour : Nat) (s : State) : State × Nat × Debit :=
  let m := touchMeter (meterOf s n) (tickNow s)
  let b := ((frameLen : Int) + signed 8 (fld m.config 8 8)).toNat
  let r := meterResult (bit m.config 0) (bit m.config 1) m.c.tokens m.p.tokens b colour
  let m' := { m with c := { m.c with tokens := m.c.tokens - 16 * r.2.1 }, p := { m.p with tokens := m.p.tokens - 16 * r.2.2 } }
  (putMeter n m' s, r.1, { meter := n, c := r.2.1, p := r.2.2 })

/-- Credit a debit back, clamped at the bursts (R231). -/
def creditMeter (d : Debit) (s : State) : State :=
  let m := touchMeter (meterOf s d.meter) (tickNow s)
  putMeter d.meter { m with
    c := { m.c with tokens := min (m.c.tokens + 16 * d.c) (16 * m.c.burst.toNat) },
    p := { m.p with tokens := min (m.p.tokens + 16 * d.p) (16 * m.p.burst.toNat) } } s

end Sys2Proof.Machine
end

