-- ==== Sys2Proof/Machine/QueueOps.lean ====
section
/-! DEFINITION. Descriptor queues, event queues and instances: the gate, the dirty-page log, head records, events, the
entries' life and the abort of a commit group (04, 05, 17 R492). -/
namespace Sys2Proof.Machine

/-! ### Access -/

/-- A queue before any QUEUE_CONFIG. -/
def Queue.none : Queue :=
  { w0 := 0, w1 := 0, w2 := 0, w3 := 0, head := 0, fetch := 0, pSeen := 0, latched := 0, qstate := .disabled,
    evPending := false, reread := false, stopStatus := 0, reading := false, pubSeq := 0, entries := [],
    disableWaiters := [], ctlDisable := false, stopOwed := false, stopDesc := [], holdFetch := false,
    txHeld := false }

/-- An event queue before any EVQ_CONFIG. -/
def Evq.none : Evq :=
  { w0 := 0, w1 := 0, prod := 0, consSeen := 0, suppressed := 0, overflow := false, held := [], reading := false,
    armCheck := false, reread := Option.none }

/-- An instance that is OFF. -/
def Inst.none : Inst :=
  { state := .off, gen := 0, pasid := 0, bind := 0, logOn := false, logOverflow := false, logSize := 0, logBase := 0,
    logCount := 0, epoch := 0, drain := .none, resetWaiters := [] }

/-- Key of a descriptor queue. -/
def queueKey (fn fq : Nat) : Nat := 2 ^ 20 * fn + fq
/-- A descriptor queue. -/
def queueOf (s : State) (fn fq : Nat) : Queue := tabGet (fun _ => Queue.none) s.q.queues (queueKey fn fq)
/-- Set a descriptor queue. -/
def putQueue (fn fq : Nat) (x : Queue) (s : State) : State :=
  { s with q := { s.q with queues := tabSet (fun _ => Queue.none) s.q.queues (queueKey fn fq) x } }
/-- Key of an event queue. -/
def evqKey (fn n : Nat) : Nat := 2 ^ 16 * fn + n
/-- An event queue. -/
def evqOf (s : State) (fn n : Nat) : Evq := tabGet (fun _ => Evq.none) s.q.evqs (evqKey fn n)
/-- Set an event queue. -/
def putEvq (fn n : Nat) (x : Evq) (s : State) : State :=
  { s with q := { s.q with evqs := tabSet (fun _ => Evq.none) s.q.evqs (evqKey fn n) x } }
/-- An instance. -/
def instOf (s : State) (fn i : Nat) : Inst := tabGet (fun _ => Inst.none) s.im.insts (1024 * fn + i)
/-- Set an instance; a change of its state shows in its function's status page (R531). -/
def putInst (fn i : Nat) (x : Inst) (s : State) : State :=
  pageIf (x.state != (instOf s fn i).state) fn
    { s with im := { s.im with insts := tabSet (fun _ => Inst.none) s.im.insts (1024 * fn + i) x } }

/-- Instance that owns a queue (R115). -/
def queueInst (s : State) (fn fq : Nat) : Nat := ownerOf s .queues fn fq
/-- Local number of a queue. -/
def localQ (s : State) (fn fq : Nat) : Nat := fq % share s .queues fn
/-- Instance that owns an event queue. -/
def evqInst (s : State) (fn n : Nat) : Nat := ownerOf s .evqs fn n
/-- The function event queue a descriptor queue reports to (R117). -/
def queueEvq (s : State) (fn fq : Nat) : Nat :=
  queueInst s fn fq * share s .evqs fn + fld (queueOf s fn fq).w3 0 16

/-- Ring size of a queue (R118). -/
def ringSize (q : Queue) : Nat := if fld q.w0 8 4 = 0 then 65536 else 2 ^ fld q.w0 8 4
/-- Ring size of an event queue (R138). -/
def evqSize (e : Evq) : Nat := 2 ^ fld e.w0 4 5
/-- Host address of the entry of an index. -/
def entryAddr (q : Queue) (k : BitVec 32) : Nat := fld q.w0 12 52 * 4096 + 64 * (k.toNat % ringSize q)
/-- Lap of an index (R118). -/
def lapOf (size : Nat) (k : BitVec 32) : Nat := k.toNat / size % 4
/-- Kind of a queue. -/
def queueKind (q : Queue) : Nat := fld q.w0 5 3
/-- engine_ref. -/
def engineRef (q : Queue) : Nat := fld q.w3 32 32

/-- PASID that an instance's requests carry (R79, R153). -/
def pasidOf (s : State) (fn i : Nat) : Option (BitVec 20) :=
  if (cfgOf s fn).pasidEnable then some (instOf s fn i).pasid else Option.none

/-! ### Requests for an instance: splitting, the gate, the dirty-page log (R73, R158, R162 to R165) -/

/-- The requests that carry a run of bytes: at most `limit` bytes each, none across a 4 KiB boundary (R73). -/
def splitRun (limit : Nat) : Nat → Nat → Nat → List (Nat × Nat)
  | 0, _, _ => []
  | fuel + 1, addr, len =>
    if len = 0 then [] else
    let n := min len (min limit (4096 - addr % 4096))
    (addr, n) :: splitRun limit fuel (addr + n) (len - n)

/-- Largest write payload of a function (R73). -/
def maxWrite (s : State) (fn : Nat) : Nat := min 512 (128 * 2 ^ (cfgOf s fn).maxPayload.toNat)
/-- Largest read request of a function (R73). -/
def maxRead (s : State) (fn : Nat) : Nat := min 4096 (128 * 2 ^ (cfgOf s fn).maxReadRequest.toNat)

/-- Mark a page as written by an instance (R163 to R165). -/
def logPage (fn : Fn) (i addr : Nat) (s : State) : State :=
  let x := instOf s fn.val i
  if !x.logOn then s else
  let page := addr / 4096
  let slot := Config.filterSlot (1024 * fn.val + i) page % 65536
  let tag : DlogTag := { inst := 1024 * fn.val + i, page := page, epoch := x.epoch }
  if tabGet (fun _ => Option.none) s.im.filter slot = some tag then s else
  let s := { s with im := { s.im with filter := tabSet (fun _ => Option.none) s.im.filter slot (some tag) } }
  if x.logOverflow then s else
  let entry := leBytes 8 (page * 4096 + x.epoch.toNat % 4096)
  let s := hostWrite fn Option.none false (fld x.logBase 12 52 * 4096 + 8 * x.logCount.toNat) entry s
  putInst fn.val i { x with logCount := x.logCount + 1,
                            logOverflow := decide (x.logCount.toNat + 1 = 2 ^ x.logSize.toNat) } s

/-- The gate lets work of a generation write for an instance (R158). -/
def gateOpen (s : State) (fn i : Nat) (gen : BitVec 8) : Bool :=
  (instOf s fn i).state == .on && (instOf s fn i).gen == gen

/-- A host-memory write for an instance's work, in the requests that carry it: true when it was issued. A write of an
old generation is dropped whole and counted; a function whose Bus Master Enable is 0 issues nothing. -/
def instWrite (fn : Fn) (i : Nat) (gen : BitVec 8) (ro : Bool) (addr : Nat) (data : Bytes) (s : State) : State × Bool :=
  if !gateOpen s fn.val i gen then (addStat IM_GATE_DROPPED 1 s, false)
  else if !dmaOn s fn.val then (s, false)
  else
    let p := pasidOf s fn.val i
    ((splitRun (maxWrite s fn.val) data.length addr data.length).foldl (fun s r =>
      logPage fn i r.1 (hostWrite fn p ro r.1 (slice data (r.1 - addr) r.2) s)) s, true)

/-- The read requests of a run of bytes for an instance. -/
def instRead (fn : Fn) (i : Nat) (addr len : Nat) (w : ReadWork) (s : State) : State :=
  let p := pasidOf s fn.val i
  (splitRun (maxRead s fn.val) len addr len).foldl (fun s r => hostRead fn p r.1 r.2 w s) s

/-! ### Head records (R130, R131) -/

/-- Queue state code (R132). -/
def qstateCode : QState → Nat
  | .disabled => 0 | .running => 1 | .disabling => 2 | .error => 3 | .frozen => 4 | .quiesced => 5

/-- Publish the head record of a queue. -/
def publishHead (fn : Fn) (fq : Nat) (evLost : Bool) (s : State) : State :=
  let q := queueOf s fn.val fq
  let i := queueInst s fn.val fq
  let rec_ := leBytes 4 q.head.toNat ++
    leBytes 4 (qstateCode q.qstate + b2n evLost * 16 + q.stopStatus.toNat * 65536) ++
    leBytes 4 q.latched.toNat ++ leBytes 4 (q.pubSeq.toNat + 1)
  let r := instWrite fn i (instOf s fn.val i).gen false (fld q.w2 4 60 * 16) rec_ s
  if r.2 then putQueue fn.val fq { q with pubSeq := q.pubSeq + 1 } r.1 else r.1

/-! ### Events (R139 to R146) -/

/-- An event in the form of R139, with lap 0. -/
def eventBody (code status qnum arg0 arg1 : Nat) : Bytes :=
  leBytes 4 (code % 256 * 256 + status % 65536 * 65536) ++ leBytes 4 (qnum % 2 ^ 20) ++ leBytes 4 arg0 ++ leBytes 4 arg1

/-- An event with no source queue. -/
def blockEvent (code status qnum arg0 arg1 : Nat) : Event :=
  { source := Option.none, body := eventBody code status qnum arg0 arg1 }

/-- An event that cannot be written is discarded and counted (R138, R145). -/
def discardEvent (s : State) : State := addErr QE_EVQ_DISCARDED 1 s

/-- A message becomes owed when an entry is written in a mode that raises it (R145). -/
def oweMessage (g : Nat) (s : State) : State :=
  if rb s (QE_INT_B g) 33 || rb s (QE_INT_B g) 34 then putB (QE_INT_B g) 35 true s else s

/-- Write an event entry (R139): its lap, then E_p advances and a message may become owed. An entry whose write does
not issue is discarded. -/
def writeEvent (fn : Fn) (n : Nat) (ev : Event) (s : State) : State :=
  let e := evqOf s fn.val n
  let i := evqInst s fn.val n
  let first := match ev.body with
    | [] => []
    | b :: bs => BitVec.ofNat 8 (b.toNat / 4 * 4 + lapOf (evqSize e) e.prod) :: bs
  let r := instWrite fn i (instOf s fn.val i).gen false (fld e.w0 12 52 * 4096 + 16 * (e.prod.toNat % evqSize e)) first s
  if r.2 then oweMessage (intBase fn.val + n) (putEvq fn.val n { evqOf r.1 fn.val n with prod := e.prod + 1 } r.1)
  else discardEvent r.1

/-- Mark the source queue of an event as having one suppressed (R142). -/
def markPending (src : Option Nat) (s : State) : State :=
  match src with
  | Option.none => s
  | some k => let q := queueOf s (k / 2 ^ 20) (k % 2 ^ 20)
              putQueue (k / 2 ^ 20) (k % 2 ^ 20) { q with evPending := true } s

/-- An event that arrives during an overflow: counted, and its source marked (R142, R512). -/
def suppressEvent (fn : Fn) (n : Nat) (ev : Event) (s : State) : State :=
  let e := evqOf s fn.val n
  let s := markPending ev.source s
  if e.suppressed = 0xFFFFFFFF#32 then s
  else
    let s := putEvq fn.val n { e with suppressed := e.suppressed + 1 } s
    if e.suppressed = 0xFFFFFFFE#32 then postLog logCounterSaturated 0 blkQE (freeNow s) 0 (useFree s) else s

/-- Issue a read of the consumer record, unless one is in flight or the function may not issue it (R143). -/
def readConsumer (fn : Fn) (n : Nat) (s : State) : State :=
  let e := evqOf s fn.val n
  if e.reading || !dmaOn s fn.val then s
  else putEvq fn.val n { e with reading := true, reread := Option.none }
    (instRead fn (evqInst s fn.val n) (fld e.w1 4 60 * 16) 16 (.consumer (BitVec.ofNat 16 n)) s)

/-- The ring of an event queue is full as far as the device knows (R142). -/
def evqFull (e : Evq) : Bool := (e.prod - e.consSeen).toNat == evqSize e % 2 ^ 32

/-- Post an event to a function's event queue (R138, R140, R142). -/
def postEvent (fn : Fn) (n : Nat) (ev : Event) (s : State) : State :=
  let e := evqOf s fn.val n
  if !bit e.w0 0 then discardEvent s
  else if e.overflow then suppressEvent fn n ev s
  else if !dmaOn s fn.val then discardEvent s
  else if !e.held.isEmpty then putEvq fn.val n { e with held := e.held ++ [ev] } s
  else if evqFull e then readConsumer fn n (putEvq fn.val n { e with held := [ev] } s)
  else writeEvent fn n ev s

/-- Post an event of a descriptor queue to its event queue. -/
def postQueueEvent (fn : Fn) (fq : Nat) (code status arg0 arg1 : Nat) (s : State) : State :=
  postEvent fn (queueEvq s fn.val fq)
    { source := some (queueKey fn.val fq), body := eventBody code status (localQ s fn.val fq) arg0 arg1 } s

/-! ### Entries -/

/-- The entry of an index. -/
def entryIdx (s : State) (fn fq : Nat) (idx : BitVec 32) : Option Entry :=
  (queueOf s fn fq).entries.find? (fun e => e.idx == idx)

/-- Opcode of an entry. -/
def Entry.op (e : Entry) : Nat := lef e.desc 0 4 8

/-- group_member of an entry. -/
def groupMember (e : Entry) : Bool := bit (leWord e.desc 0) 14

/-- Change the entry of an index. -/
def mapEntry (fn fq : Nat) (idx : BitVec 32) (g : Entry → Entry) (s : State) : State :=
  let q := queueOf s fn fq
  putQueue fn fq { q with entries := q.entries.map (fun e => if e.idx == idx then g e else e) } s

/-- Set where an entry stands. -/
def setPhase (fn fq : Nat) (idx : BitVec 32) (p : Phase) (s : State) : State :=
  mapEntry fn fq idx (fun e => { e with phase := p }) s

/-- An entry needs nothing more before entries behind it may run (R124, R482): it is finished, or a staged member
whose group is not yet decided, behind which only members run. -/
def entryPassed (member : Bool) (e : Entry) : Bool :=
  match e.phase with
  | .finished => true
  | .written => true
  | .skipped => true
  | .past => true
  | .staged => member
  | _ => false

/-- The first entry in ring order that nothing before it holds back. -/
def frontEntry : List Entry → Bool → Option Entry
  | [], _ => Option.none
  | e :: es, staged =>
    match e.phase with
    | .fetched => if staged && !groupMember e then Option.none else some e
    | .staged => frontEntry es true
    | .finished | .written | .skipped | .past => frontEntry es staged
    | .started => Option.none

/-- An instance's work of a generation may run: the instance is ON and the generation is current. -/
def workCurrent (s : State) (fn fq : Nat) (gen : BitVec 8) : Bool := gateOpen s fn (queueInst s fn fq) gen

/-- The queue executes fetched entries (R132): RUNNING, or ERROR before latched. -/
def queueExecutes (q : Queue) : Bool :=
  match q.qstate with
  | .running => true
  | .error => true
  | _ => false

/-- A member waits, fetched, for a group slot or for a group of its token to end (R473, R495). -/
def memberWaits (s : State) (fn fq : Nat) (e : Entry) : Bool :=
  s.cg.waiting.contains (BitVec.ofNat 2 fn, BitVec.ofNat 20 fq, e.idx)

/-- The fetched entry of a queue that runs next, if it has an opcode: in ring order, each after those before it are done,
but on an ST_SUB queue, whose entries run beside each other (R124). -/
def entryWith (s : State) (fn fq op : Nat) : Option Entry :=
  let q := queueOf s fn fq
  if !queueExecutes q then Option.none else
  match (if queueKind q = 2 then q.entries.find? (fun e => e.phase == .fetched) else frontEntry q.entries false) with
  | Option.none => Option.none
  | some e => if e.op == op && workCurrent s fn fq e.gen && !memberWaits s fn fq e then some e else Option.none

/-- The payload reads of an entry. -/
def entryRead (fn : Fn) (fq : Nat) (e : Entry) (addr len : Nat) (s : State) : State :=
  instRead fn (queueInst s fn.val fq) addr len (.payload (BitVec.ofNat 20 fq) e.idx) s

/-! ### Flow-core threads that wait for a group (R418) -/

/-- A thread. -/
def threadOf (s : State) (c t : Nat) : Thread := tabGet (fun _ => Thread.reset) s.fc.threads (8 * c + t)

/-- Set a thread. -/
def putThreadRaw (c t : Nat) (x : Thread) (s : State) : State :=
  { s with fc := { s.fc with threads := tabSet (fun _ => Thread.reset) s.fc.threads (8 * c + t) x } }

/-- What a stalled thread waits for has come: register and memory writes are owed until it resumes. -/
def wakeThread (c t : Nat) (owed : List (Nat × Word)) (mem : List (Place × Bytes)) (s : State) : State :=
  let x := threadOf s c t
  putThreadRaw c t { x with done := true, owed := owed, owedMem := mem } s

/-- Base of a thread's slice in the slice memory. -/
def sliceBase (c t : Nat) : Nat := 2 ^ 19 * c + 2 ^ 16 * t

/-! ### Groups (R473, R492) -/

/-- A group slot. -/
def cgOf (s : State) (g : Nat) : Option Group := tabFind s.cg.groups g

/-- Set a group slot. -/
def putCg (g : Nat) (x : Group) (s : State) : State := { s with cg := { s.cg with groups := tabInsert s.cg.groups g x } }

/-- Free a group slot. -/
def freeCg (g : Nat) (s : State) : State := { s with cg := { s.cg with groups := tabErase s.cg.groups g } }

/-- Mark an entry finished with a completion. -/
def markDone (fn fq : Nat) (idx : BitVec 32) (failed : Bool) (status : Nat) (aux : BitVec 32) (results : Option Bytes)
    (s : State) : State :=
  mapEntry fn fq idx (fun e => { e with phase := .finished, failed := failed, status := BitVec.ofNat 16 status, aux := aux,
                                        results := results }) s

/-- Discard what a member has staged (R478). Table members are discarded together. -/
def unstage (m : Member) (s : State) : State :=
  match m.effect with
  | .frame f _ => freeFrame f s
  | .storage c => dropCmd c s
  | _ => s

/-- Free the shadow slots that meet a test, and the station slots they reserved unless learning has filled them. -/
def dropShadows (p : Shadow → Bool) (s : State) : State :=
  let mine := s.tab.shadows.filter p
  let s := { s with tab := { s.tab with shadows := s.tab.shadows.filter (fun x => !p x) } }
  mine.foldl (fun s x =>
    if x.kind = .station then
      let e := mainEntry s .station x.pl.toNat x.key
      if !e.isEmpty && !staValid e && !s.tab.shadows.any (fun y => y.kind == .station && y.pl == x.pl && y.key == x.key)
      then putMain .station x.pl.toNat x.key [] s else s
    else s) s

/-- Free the shadow slots a group has staged. -/
def unstageTables (g : Nat) (s : State) : State := dropShadows (fun x => x.group == some g) s

/-- A CTL write of an epoch-bound table that waits for its flip, its commit point (R244). -/
def awaitsFlip (s : State) (fn fq : Nat) (idx : BitVec 32) : Bool :=
  fn == 0 && s.tab.flips.any (fun w => w.fq.toNat == fq && w.idx == idx && w.pls.all (fun p => p.2.isNone))

/-- A write that waits for its flip is discarded: what it would have made visible goes. -/
def cancelWrite (fq : Nat) (idx : BitVec 32) (s : State) : State :=
  dropShadows (fun x => x.writer == some (BitVec.ofNat 20 fq, idx) && x.tag.isNone)
    { s with tab := { s.tab with flips := s.tab.flips.filter (fun w => !(w.fq.toNat == fq && w.idx == idx)) } }

/-- Fail the fetched members of an aborted group, but those whose queue is in `quiet` (discarded, left posted) or that
have a completion already. `storage` is the status of storage members (R491). -/
def failMembers (ms : List Member) (quiet : List Nat) (storage : Nat) (s : State) : State :=
  ms.foldl (fun s m =>
    match m.entry with
    | Option.none => s
    | some (fn, fq, idx) =>
      if quiet.contains (queueKey fn.toNat fq.toNat) then s else
      match entryIdx s fn.toNat fq.toNat idx with
      | Option.none => s
      | some e =>
        if e.phase = .staged ∨ e.phase = .started ∨ e.phase = .fetched then
          let st := match m.effect with | .storage _ => storage | _ => 0x0502
          markDone fn.toNat fq.toNat idx true st 0 Option.none s
        else s) s

/-- A core group ends: its GCLOSE returns a status, and the block receives one status a member (R418). -/
def endCoreGroup (x : Group) (rdStatus : Nat) (memberStatus : Member → Nat) (s : State) : State :=
  match x.core, x.gclose with
  | some (c, t), some (rd, addr) =>
    let sts := slice (x.members.flatMap (fun m => leBytes 2 (memberStatus m))) 0 32
    wakeThread c.toNat t.toNat [(rd, BitVec.ofNat 64 rdStatus)] [(.slice (sliceBase c.toNat t.toNat + addr), sts)] s
  | _, _ => s

/-- After an abort the slot is kept until n members of its token have been fetched; a core group's until its GCLOSE (R494). -/
def settleAborted (g : Nat) (x : Group) (s : State) : State :=
  if x.core.isSome then (if x.gclose.isSome then freeCg g s else putCg g x s)
  else if x.n ≤ x.fetched ∧ x.cancelling.isNone then freeCg g s else putCg g x s

/-- Abort a group before its commit point (R492, R493). `quiet` are queues whose members are discarded without a
completion; `storage` is the status of storage members. -/
def abortGroup (g : Nat) (quiet : List Nat) (storage : Nat) (s : State) : State :=
  match cgOf s g with
  | Option.none => s
  | some x =>
    match x.state with
    | .aborted => s
    | .committing => s
    | .journal =>
      -- the members' completions and locks wait for the cancel entry
      let seq := s.cg.nextSeq
      let s := addErr CG_ABORTS 1 (unstageTables g s)
      let s := x.members.foldl (fun s m => match m.effect with | .frame f _ => freeFrame f s | _ => s) s
      let gone (m : Member) : Bool := match m.entry with
        | some (fn, fq, _) => quiet.contains (queueKey fn.toNat fq.toNat)
        | Option.none => true
      let x := { x with state := .aborted, cancelling := some (BitVec.ofNat 16 storage),
                        members := x.members.map (fun m => if gone m then { m with entry := Option.none } else m) }
      if s.cg.jstate = .lost then
        settleAborted g { x with cancelling := Option.none }
          (failMembers x.members [] storage (x.members.foldl (fun s m => match m.effect with | .storage c => dropCmd c s | _ => s) s))
      else
        appendLog (namingEntry 3 seq.toNat [x.seq.getD 0]) (.cancel g) (namingRecord seq)
          (putCg g x { s with cg := { s.cg with records := s.cg.records.map (fun r =>
            if some r.seq == x.seq then { r with retired := true } else r) } })
    | _ =>
      let s := addErr CG_ABORTS 1 (unstageTables g s)
      let s := x.members.foldl (fun s m => unstage m s) s
      let s := failMembers x.members quiet storage s
      let s := endCoreGroup x 0x061D (fun _ => 0x0502) s
      settleAborted g { x with state := .aborted, members := if x.core.isSome then x.members.map (fun m => { m with effect := .none }) else [] } s

/-- The group that a fetched entry is a member of has failed with the entry (R492). -/
def abortOf (group : Option Nat) (s : State) : State :=
  match group with
  | Option.none => s
  | some g => abortGroup g [] 0x0502 s

/-- An entry finishes: its completion is ready to be written (R134). A member that fails takes its group with it. -/
def finish (fn fq : Nat) (idx : BitVec 32) (failed : Bool) (status : Nat) (aux : BitVec 32) (results : Option Bytes)
    (s : State) : State :=
  let group := match entryIdx s fn fq idx with | some e => e.group | Option.none => Option.none
  let s := markDone fn fq idx failed status aux results s
  if failed then abortOf group s else s

/-- Stage a member: its entry waits for its group, with what it does at the commit point (R478). -/
def stageMember (g fn fq : Nat) (idx : BitVec 32) (eff : Effect) (s : State) : State :=
  let s := setPhase fn fq idx .staged s
  match cgOf s g with
  | Option.none => s
  | some x => putCg g { x with members := x.members.map (fun m =>
      if m.entry == some (BitVec.ofNat 2 fn, BitVec.ofNat 20 fq, idx) then { m with staged := true, effect := eff } else m) } s

/-- The group of an entry is a re-issue (R496). -/
def reissued (s : State) (e : Entry) : Bool :=
  match e.group with
  | Option.none => false
  | some g => match cgOf s g with | Option.none => false | some x => x.reissue

/-! ### Stops (R123, R133, R441) -/

/-- Every entry before an index is complete. -/
def doneBefore (q : Queue) (k : BitVec 32) : Bool :=
  q.entries.all (fun e => e.phase == .written || e.phase == .skipped || decide (2 ^ 31 ≤ (e.idx - k).toNat) == false)

/-- Entries that are complete leave the front of the list and the head passes them. -/
def advanceHead : List Entry → BitVec 32 → List Entry × BitVec 32
  | [], h => ([], h)
  | e :: es, h =>
    if e.idx = h ∧ (e.phase = .written ∨ e.phase = .skipped) then advanceHead es (h + 1) else (e :: es, h)

/-- Set the head as the entries stand; true when it advanced. -/
def moveHead (fn fq : Nat) (s : State) : State × Bool :=
  let q := queueOf s fn fq
  let r := advanceHead q.entries q.head
  (putQueue fn fq { q with entries := r.1, head := r.2 } s, decide (r.2 ≠ q.head))

/-- The head once the work that a queue still holds has finished (R99, R160). -/
def finalHead (q : Queue) : BitVec 32 := (advanceHead (q.entries.map (fun e => { e with phase := .written })) q.head).2

/-- The head record that a stop owes is published once every entry before latched is complete; a freeze then writes
its event (R131, R441). -/
def settleStop (fn : Fn) (fq : Nat) (s : State) : State :=
  let q := queueOf s fn.val fq
  if q.stopOwed && doneBefore q (if q.qstate = .frozen then q.latched + 1 else q.latched) then
    let s := (moveHead fn.val fq (putQueue fn.val fq { q with stopOwed := false } s)).1
    let s := publishHead fn fq false s
    if q.qstate = .frozen then postQueueEvent fn fq 2 q.stopStatus.toNat q.latched.toNat 4 s else s
  else s

/-- Groups, not past their commit point, with a member in one of the queues. -/
def groupsOf (s : State) (qs : Nat → Bool) : List Nat :=
  (s.cg.groups.filter (fun e => e.2.members.any (fun m => match m.entry with
    | some (fn, fq, _) => qs (queueKey fn.toNat fq.toNat)
    | Option.none => false))).map (fun e => e.1)

/-- A queue stops in ERROR (R123, R133): nothing at or after latched runs, and groups with a member in it are aborted. -/
def stopQueue (fn : Fn) (fq : Nat) (latched : BitVec 32) (status : Nat) (desc : Bytes) (s : State) : State :=
  let q := queueOf s fn.val fq
  let s := putQueue fn.val fq { q with qstate := .error, latched := latched, stopStatus := BitVec.ofNat 16 status,
                                       reread := false, stopOwed := true, stopDesc := desc } s
  let s := addErr QE_STOPS 1 s
  let s := putReg QE_LAST_STOP (BitVec.ofNat 64 (fq + fn.val * 2 ^ 20 + status * 2 ^ 32)) s
  let s := (groupsOf s (fun k => k == queueKey fn.val fq)).foldl (fun s g => abortGroup g [] 0x0502 s) s
  settleStop fn fq (postQueueEvent fn fq 2 status latched.toNat 3 s)

/-! ### Reads of doorbell records (R128) -/

/-- Issue the one record read a queue may have in flight. -/
def readRecord (fn : Fn) (fq : Nat) (s : State) : State :=
  let q := queueOf s fn.val fq
  putQueue fn.val fq { q with reading := true }
    (instRead fn (queueInst s fn.val fq) (fld q.w1 4 60 * 16) 16 (.doorbell (BitVec.ofNat 20 fq)) s)

/-- A hint or sweep of a running queue (R128): read, or note that a read is owed. A queue that was enabled while its
function may issue no request owes its read until then (R86, R133). -/
def pokeQueue (fn : Fn) (fq : Nat) (s : State) : State :=
  let q := queueOf s fn.val fq
  if q.reading || !dmaOn s fn.val then putQueue fn.val fq { q with reread := true } s else readRecord fn fq s

/-! ### Completion overwrites (R125, R131) -/

/-- The bytes of an overwrite: the header with state, status and aux, the cookie, and the results if the opcode has any. -/
def overwriteBytes (e : Entry) : Bytes :=
  let w := (leWord e.desc 0).toNat
  let h := leBytes 4 (w % 2 ^ 16 / 16 * 16 + w % 4 + (if e.failed then 12 else 8) + e.status.toNat * 65536)
  h ++ leBytes 4 e.aux.toNat ++ slice e.desc 8 8 ++ (match e.results with | Option.none => [] | some r => slice r 0 16)

/-- ev_mode selects the entry for a COMPLETION event (R117, R140). -/
def wantsEvent (q : Queue) (e : Entry) : Bool :=
  let mode := fld q.w0 2 2
  bit (leWord e.desc 0) 13 || mode == 2 || (mode == 1 && e.failed)

/-- Write the overwrite of one finished entry, and the events that report it. -/
def writeCompletion (fn : Fn) (fq : Nat) (e : Entry) (s : State) : State :=
  let q := queueOf s fn.val fq
  let r := instWrite fn (queueInst s fn.val fq) e.gen false (entryAddr q e.idx) (overwriteBytes e) s
  let s := setPhase fn.val fq e.idx .written r.1
  let s := match e.after with
    | Option.none => s
    | some ev => postEvent fn (queueEvq s fn.val fq) ev s
  if wantsEvent q e then
    postQueueEvent fn fq 1 e.status.toNat e.idx.toNat (lef e.desc 8 0 32) s
  else s

/-- Entries whose overwrite may be written now: in ring order but for ST_SUB (R124). -/
def writable (kind : Nat) : List Entry → List Entry
  | [] => []
  | e :: es =>
    match e.phase with
    | .finished => e :: writable kind es
    | .written | .skipped => writable kind es
    | _ => if kind = 2 then writable kind es else []

/-- Write every overwrite that is ready, at most a number of them. -/
def writeReady (fn : Fn) (fq n : Nat) (s : State) : State :=
  let q := queueOf s fn.val fq
  ((writable (queueKind q) q.entries).take n).foldl (fun s e => writeCompletion fn fq e s) s

end Sys2Proof.Machine
end

