-- ==== Sys2Proof/Machine/CryptoOps.lean ====
section
/-! DEFINITION. Flow contexts and their transforms: ESP, MACsec, replay, lifetimes, the cache (12). -/
namespace Sys2Proof.Machine

/-! ### Contexts (R351 to R354) -/

/-- Where the context region begins in device DRAM (R352, R368). -/
def ctxBase (s : State) : Nat := rf s CX_CTRL 0 7 * 2 ^ 28

/-- A context's 256 bytes: the cached value where one is held, else those of device DRAM (R352, R366). -/
def ctxOf (s : State) (g : Nat) : Bytes :=
  match tabFind s.cx.cache g with
  | some x => slice x.data 0 256
  | none => memRead s.dram (ctxBase s + 256 * g) 256

/-- Set a context: in the cache where it is held, which is write-back, else in device DRAM. -/
def putCtx (g : Nat) (b : Bytes) (s : State) : State :=
  match tabFind s.cx.cache g with
  | some x => { s with cx := { s.cx with cache := tabInsert s.cx.cache g { x with data := slice b 0 256 } } }
  | none => { s with dram := memWrite s.dram (ctxBase s + 256 * g) (slice b 0 256) }

/-- Function of a global index (R351). -/
def ctxFn (g : Nat) : Nat := if g < 983040 then 1 else 3
/-- Function context number of a global index. -/
def ctxNum (g : Nat) : Nat := if g < 983040 then g else g - 983040
/-- Global index of a function context number. -/
def ctxGlobal (fn n : Nat) : Nat := if fn = 1 then n else 983040 + n
/-- Instance that owns a context. -/
def ctxInst (s : State) (g : Nat) : Nat := ownerOf s .contexts (ctxFn g) (ctxNum g)

/-- kind. -/
def ctxKind (c : Bytes) : Nat := lef c 0 0 2
/-- dir: true is inbound. -/
def ctxInbound (c : Bytes) : Bool := bit (leWord c 0) 2
/-- A flag of word 0. -/
def ctxBit (c : Bytes) (i : Nat) : Bool := bit (leWord c 0) i
/-- hard_hit. -/
def ctxHard (c : Bytes) : Bool := bit (leWord c 4) 10

/-- A context is live (R354). -/
def ctxLive (s : State) (g : Nat) : Bool :=
  let c := ctxOf s g
  (ctxKind c == 1 || ctxKind c == 2) && !bit (leWord c 4) 8 &&
  lef c 4 0 8 == (instOf s (ctxFn g) (ctxInst s g)).gen.toNat

/-! ### The cache (R366) -/

/-- A context leaves the cache: its value is written back to device DRAM. -/
def evictCtx (g : Nat) (s : State) : State :=
  match tabFind s.cx.cache g with
  | none => s
  | some x => { s with cx := { s.cx with cache := tabErase s.cx.cache g },
                       dram := memWrite s.dram (ctxBase s + 256 * g) (slice x.data 0 256) }

/-- The cached contexts of the set that a context belongs to, of 2,048 sets. -/
def ctxWays (s : State) (g : Nat) : List Nat :=
  (s.cx.cache.filter (fun e => Config.contextSet e.1 % 2048 == Config.contextSet g % 2048)).map (·.1)

/-- A context takes a place in the cache, from DRAM; when the 16 ways of its set are taken, one that the spec does not name
gives way. -/
def cacheInsert (g : Nat) (filled : Bool) (s : State) : State :=
  let ways := ctxWays s g
  let s := if ways.length < 16 then s
    else evictCtx (ways.getD ((freeNow s).toNat % ways.length) 0) (useFree s)
  { s with cx := { s.cx with cache := tabInsert s.cx.cache g { filled := filled, data := ctxOf s g } } }

/-- An operation on a context: served from the cache, or after a fill. -/
def touchCtx (g : Nat) (s : State) : State :=
  match tabFind s.cx.cache g with
  | some x =>
    if x.filled then { s with cx := { s.cx with cache := tabInsert s.cx.cache g { x with filled := false } } }
    else addStat CX_CACHE_HITS 1 s
  | none => cacheInsert g false (addStat CX_CACHE_MISSES 1 s)

/-! ### Counters and lifetimes of a context (R353, R365) -/

/-- Add one to a 32-bit error/diagnostic counter at an offset of a context (R512). The spec names no window for the
entry's first argument, so it is a free value. -/
def ctxCount (g off : Nat) (s : State) : State :=
  let c := ctxOf s g
  let n := le c off 4
  if n = 0xFFFFFFFF then s else
  let s := putCtx g (splice c off (leBytes 4 (n + 1))) s
  if n = 0xFFFFFFFE then postLog logCounterSaturated 0 blkCX (freeNow s) 0 (useFree s) else s

/-- The CTX_LIFETIME event (R365). -/
def lifetimeEvent (g status : Nat) (s : State) : State :=
  postEvent 0 (rf s CX_CTRL 8 12) (blockEvent 0x60 status g (le (ctxOf s g) 0xC8 4) 0) s

/-- Set a flag of the device word and write its event, on the first crossing. -/
def crossing (g flag status : Nat) (s : State) : State :=
  lifetimeEvent g status (putCtx g (splice (ctxOf s g) 4 (leBytes 4 ((setBit (leWord (ctxOf s g) 4) flag true).toNat % 2 ^ 32))) s)

/-- A limit of 0 means none. -/
def reached (n limit : Nat) : Bool := limit != 0 && decide (limit ≤ n)

/-- The limits after a transform of a number of plaintext octets (R365). No transform follows hard_hit, so no number
remaining is always a first crossing; an outbound seq of 0 after a transform has passed the last number. -/
def countTransform (g octets : Nat) (s : State) : State :=
  let c := ctxOf s g
  let o := (le c 0xC0 8 + octets) % 2 ^ 64
  let p := (le c 0xC8 8 + 1) % 2 ^ 64
  let s := putCtx g (splice (splice c 0xC0 (leBytes 8 o)) 0xC8 (leBytes 8 p)) s
  let soft := reached o (le c 0x88 8) || reached p (le c 0x98 4)
  let hard := reached o (le c 0x90 8) || reached p (le c 0x9C 4)
  let last := if ctxBit c 5 then 2 ^ 64 - 1 else 2 ^ 32 - 1
  let seq := le c 0x80 8
  let s := if soft && !bit (leWord c 4) 9 then crossing g 9 0 s else s
  let s := if hard && !ctxHard c then crossing g 10 1 s else s
  if !ctxInbound c && (decide (last ≤ seq) || seq == 0) then crossing g 10 2 s else s

/-! ### Finding headers (R359) -/

/-- Offset of the EtherType behind an Ethernet header and up to two tags. -/
def etypeOffset (b : Bytes) : Nat :=
  let tag (o : Nat) : Bool := be b o 2 == 0x8100 || be b o 2 == 0x88A8
  if !tag 12 then 12 else if !tag 16 then 16 else 20

/-- An IPv4 or IPv6 header lies whole at an offset. -/
def ipAt (b : Bytes) (o : Nat) : Bool :=
  let v := be b o 1 / 16
  (v == 4 && decide (20 ≤ ipv4HeaderLen b o) && decide (o + ipv4HeaderLen b o ≤ b.length)) ||
  (v == 6 && decide (o + 40 ≤ b.length))

/-- Offset of the IP header of a frame from a chain, if it carries one. -/
def chainIp (b : Bytes) : Option Nat :=
  let e := etypeOffset b
  if (be b e 2 == 0x0800 || be b e 2 == 0x86DD) && ipAt b (e + 2) then some (e + 2) else none

/-- Length of the IP header at an offset. -/
def ipHeaderLen (b : Bytes) (o : Nat) : Nat := if be b o 1 / 16 = 4 then ipv4HeaderLen b o else 40

/-- Length of the IP packet at an offset, as its header gives it, within the frame. -/
def ipLen (b : Bytes) (o : Nat) : Nat :=
  min (b.length - o) (if be b o 1 / 16 = 4 then be b (o + 2) 2 else 40 + be b (o + 4) 2)

/-- Set the length fields of the IP header at an offset for a packet length, and the IPv4 checksum. -/
def setIpLen (b : Bytes) (o len : Nat) : Bytes :=
  if be b o 1 / 16 = 4 then
    let b := splice b (o + 2) (beBytes 2 len)
    splice b (o + 10) (beBytes 2 (ipv4Checksum b o))
  else splice b (o + 4) (beBytes 2 (len - 40))

/-- Set the protocol or next header of the IP header at an offset. -/
def setIpProto (b : Bytes) (o proto : Nat) : Bytes :=
  splice b (if be b o 1 / 16 = 4 then o + 9 else o + 6) [BitVec.ofNat 8 proto]

/-! ### ESP (R362, R363) -/

/-- Algorithm number given to the cipher: 0 AES-GCM-128, 1 AES-GCM-256, 2 ChaCha20-Poly1305. -/
def ctxAlg (c : Bytes) : Nat := lef c 0 3 2

/-- Key bytes of a context's algorithm. -/
def ctxKey (c : Bytes) : Bytes := slice c 0x20 (if ctxAlg c = 0 then 16 else 32)

/-- Ciphertext and tag of a plaintext, of the length the cipher gives. -/
def sealWith (c nonce aad pt : Bytes) : Bytes :=
  slice (aeadSeal (ctxAlg c) (ctxKey c) nonce aad pt) 0 (pt.length + 16)

/-- Plaintext of a ciphertext with its tag, of the length the cipher gives; none when the tag is wrong. -/
def openWith (c nonce aad ct : Bytes) : Option Bytes :=
  match aeadOpen (ctxAlg c) (ctxKey c) nonce aad ct with
  | none => none
  | some pt => some (slice pt 0 (ct.length - 16))

/-- Padding of an ESP payload: bytes 1, 2, 3 up to a multiple of 4 with the two trailer bytes (R362). -/
def espPad (len : Nat) : Bytes := (List.range ((4 - (len + 2) % 4) % 4)).map (fun i => BitVec.ofNat 8 (i + 1))

/-- Associated data of ESP: SPI, and the sequence number, of 8 bytes with ESN. -/
def espAad (c : Bytes) (seq : Nat) : Bytes :=
  beBytes 4 (le c 8 4) ++ (if ctxBit c 5 then beBytes 8 seq else beBytes 4 (seq % 2 ^ 32))

/-- The ESP packet of a payload: header, IV, ciphertext with its ICV. -/
def espSeal (c : Bytes) (seq nextHeader : Nat) (data : Bytes) : Bytes :=
  let pad := espPad data.length
  let pt := data ++ pad ++ [BitVec.ofNat 8 pad.length, BitVec.ofNat 8 nextHeader]
  beBytes 4 (le c 8 4) ++ beBytes 4 (seq % 2 ^ 32) ++ beBytes 8 seq ++
    sealWith c (slice c 0x10 4 ++ beBytes 8 seq) (espAad c seq) pt

/-- Bytes that ESP takes for a payload of a length. -/
def espSize (len : Nat) : Nat := 16 + len + (4 - (len + 2) % 4) % 4 + 2 + 16

/-- Template bytes of an outbound tunnel. -/
def tmplLen (c : Bytes) : Nat := lef c 0 24 8

/-- Length of the frame that an outbound ESP transform gives. -/
def espOutLen (c b : Bytes) (o : Nat) : Nat :=
  if ctxBit c 6 then o + tmplLen c + espSize (ipLen b o)
  else o + ipHeaderLen b o + espSize (ipLen b o - ipHeaderLen b o)

/-- An outer header with its lengths, identification and checksums filled in (R362). -/
def outerHeader (c esp : Bytes) : Bytes :=
  let n := tmplLen c
  let t := slice c 0x40 n
  let v6 := ctxBit c 8
  let ipl := if v6 then 40 else 20
  let t := if v6 then t else splice t 4 (beBytes 2 (le c 0xDC 2))
  let t := setIpLen t 0 (n + esp.length)
  if n ≤ ipl then t else
    let t := splice t (ipl + 4) (beBytes 2 (8 + esp.length))
    let t := splice t (ipl + 6) [0, 0]
    if v6 then
      let v := inetChecksum (slice t 8 32 ++ beBytes 4 (8 + esp.length) ++ [0, 0, 0, 17] ++ slice t ipl 8 ++ esp)
      splice t (ipl + 6) (beBytes 2 (if v = 0 then 0xFFFF else v))
    else t

/-- Outbound ESP: the protected frame and the plaintext octets. -/
def espOut (c b : Bytes) (o seq : Nat) : Bytes × Nat :=
  let pkt := slice b o (ipLen b o)
  if ctxBit c 6 then
    let esp := espSeal c seq (if be b o 1 / 16 = 4 then 4 else 41) pkt
    let eth := splice (b.take o) (o - 2) (beBytes 2 (if ctxBit c 8 then 0x86DD else 0x0800))
    (eth ++ outerHeader c esp ++ esp, pkt.length)
  else
    let h := ipHeaderLen b o
    let data := pkt.drop h
    let esp := espSeal c seq (ipProto b o) data
    (setIpLen (setIpProto (b.take (o + h)) o 50 ++ esp) o (h + esp.length), data.length)

/-- Replay window size in packets. -/
def espWindow (c : Bytes) : Nat := 2 ^ lef c 0 16 4

/-- The whole sequence number of a received one: with ESN its upper half is inferred (RFC 4303 Appendix A). -/
def espInfer (c : Bytes) (low : Nat) : Nat :=
  if !ctxBit c 5 then low else
  let top := le c 0x80 8
  let tl := top % 2 ^ 32
  let th := top / 2 ^ 32
  let w := espWindow c
  if w - 1 ≤ tl then (if tl - (w - 1) ≤ low then th else th + 1) % 2 ^ 32 * 2 ^ 32 + low
  else (if tl + 2 ^ 32 - (w - 1) ≤ low then (th + 2 ^ 32 - 1) % 2 ^ 32 else th) * 2 ^ 32 + low

/-- A number lies left of the window, or is marked in it (R363). -/
def espReplayed (c : Bytes) (seq : Nat) : Bool :=
  let top := le c 0x80 8
  decide (seq ≤ top) && (decide (espWindow c ≤ top - seq) || (leNat (slice c 0xA0 32)).testBit (top - seq))

/-- The window and seq after a number that passed every check. -/
def espAdvance (c : Bytes) (seq : Nat) : Bytes :=
  let top := le c 0x80 8
  let map := leNat (slice c 0xA0 32)
  if top < seq then
    splice (splice c 0x80 (leBytes 8 seq)) 0xA0 (leBytes 32 ((map * 2 ^ (min 256 (seq - top)) + 1) % 2 ^ 256))
  else if top - seq < 256 then splice c 0xA0 (leBytes 32 (map ||| 2 ^ (top - seq)))
  else c

/-- How a transform ends. -/
inductive XfResult where
  | ok (b : Bytes) | notLive | format | auth | replay | tooLong
  deriving DecidableEq, Repr

/-- Offset of the ESP header behind the IP header at an offset, when the frame carries what R359 asks for. -/
def espOffset (c b : Bytes) (o : Nat) : Option Nat :=
  let e := o + ipHeaderLen b o
  if ctxBit c 7 then
    if ipProto b o = 17 ∧ be b (e + 2) 2 = 4500 ∧ be b (e + 8) 4 = le c 8 4 then some (e + 8) else none
  else if ipProto b o = 50 ∧ be b e 4 = le c 8 4 then some e else none

/-- Inbound ESP (R363): the result, and the plaintext octets. -/
def espIn (g : Nat) (c b : Bytes) (o : Nat) (s : State) : State × XfResult :=
  match espOffset c b o with
  | none => (ctxCount g 0xD8 s, .format)
  | some e =>
    let fin_ := o + ipLen b o
    let seq := espInfer c (be b (e + 4) 4)
    if ctxBit c 15 && espReplayed c seq then (ctxCount g 0xD4 s, .replay) else
    let nonce := slice c 0x10 4 ++ slice b (e + 8) 8
    match openWith c nonce (espAad c seq) (slice b (e + 16) (fin_ - (e + 16))) with
    | none => (ctxCount g 0xD0 s, .auth)
    | some pt =>
      let n := pt.length
      let p := be pt (n - 2) 1
      let nh := be pt (n - 1) 1
      let data := pt.take (n - 2 - p)
      if n < p + 2 ∨ slice pt (n - 2 - p) p ≠ (List.range p).map (fun i => BitVec.ofNat 8 (i + 1)) then
        (ctxCount g 0xD8 s, .format)
      else
        let s := countTransform g data.length (putCtx g (espAdvance c seq) s)
        if ctxBit c 6 then
          let ty := if be data 0 1 / 16 = 6 then 0x86DD else 0x0800
          (s, .ok (splice (b.take o) (o - 2) (beBytes 2 ty) ++ data))
        else
          let h := ipHeaderLen b o
          (s, .ok (setIpLen (setIpProto (b.take (o + h)) o nh ++ data) o (h + data.length)))

/-! ### MACsec (R364) -/

/-- Confidentiality offset. -/
def macOff (c : Bytes) : Nat := match lef c 0 9 2 with | 1 => 30 | 2 => 50 | _ => 0

/-- Nonce: SCI and PN, or with XPN the salt combined with the 64-bit PN. -/
def macNonce (c : Bytes) (pn : Nat) : Bytes :=
  if ctxBit c 5 then
    beBytes 12 ((BitVec.ofNat 96 (beNat (slice c 0x10 12)) ^^^ BitVec.ofNat 96 pn).toNat)
  else beBytes 8 (le c 8 8) ++ beBytes 4 (pn % 2 ^ 32)

/-- Outbound MACsec: SecTAG after the source address, ICV at the end. -/
def macOut (c b : Bytes) (pn : Nat) : Bytes :=
  let data := b.drop 12
  let sci := ctxBit c 11
  let sl := if data.length < 48 then data.length else 0
  let tag := [0x88, 0xE5, BitVec.ofNat 8 (b2n sci * 0x20 + 0x0C + lef c 0 12 2), BitVec.ofNat 8 sl] ++
    beBytes 4 (pn % 2 ^ 32) ++ (if sci then beBytes 8 (le c 8 8) else [])
  let clear := b.take 12 ++ tag ++ data.take (macOff c)
  clear ++ sealWith c (macNonce c pn) clear (data.drop (macOff c))

/-- The whole packet number of a received one: with XPN its upper half is recovered from the lowest acceptable number. -/
def macInfer (c : Bytes) (low lowest : Nat) : Nat :=
  if !ctxBit c 5 then low
  else (lowest / 2 ^ 32 + (if lowest.testBit 31 && !low.testBit 31 then 1 else 0)) % 2 ^ 32 * 2 ^ 32 + low

/-- Where the ICV of a received frame stands: behind the octets that SL counts, so that padding behind it is left out;
with SL 0 at the frame's end. -/
def macEnd (b : Bytes) (hdr : Nat) : Nat :=
  let sl := be b 15 1 % 64
  if sl = 0 then b.length else hdr + sl + 16

/-- Inbound MACsec, with the order of checks of R363. -/
def macIn (g : Nat) (c b : Bytes) (s : State) : State × XfResult :=
  if be b 12 2 ≠ 0x88E5 ∨ be b 14 1 % 4 ≠ lef c 0 12 2 then (ctxCount g 0xD8 s, .format) else
  let hdr := 20 + (if (be b 14 1).testBit 5 then 8 else 0)
  let lowest := le c 0x80 8 + 1 - le c 0x1C 4
  let pn := macInfer c (be b 16 4) lowest
  if ctxBit c 15 && decide (pn < lowest) then (ctxCount g 0xD4 s, .replay) else
  let clear := b.take (hdr + macOff c)
  match openWith c (macNonce c pn) clear (slice b (hdr + macOff c) (macEnd b hdr - (hdr + macOff c))) with
  | none => (ctxCount g 0xD0 s, .auth)
  | some pt =>
    let data := clear.drop hdr ++ pt
    let c' := if le c 0x80 8 < pn then splice c 0x80 (leBytes 8 pn) else c
    (countTransform g data.length (putCtx g c' s), .ok (b.take 12 ++ data))

/-! ### A transform (R358 to R365) -/

/-- Apply a context to a frame. `l3` is the offset of the IP header where the caller gives one (NET_TX); otherwise it is
found in the frame. `limit` is the most bytes the protected frame may have; a frame over it spends no sequence number. -/
def transform (g : Nat) (l3 : Option Nat) (limit : Option Nat) (b : Bytes) (s : State) : State × XfResult :=
  let s := touchCtx g s
  let c := ctxOf s g
  if !ctxLive s g || ctxHard c then (s, .notLive) else
  let tooLong (n : Nat) : Bool := match limit with | some m => decide (m < n) | none => false
  let seq := le c 0x80 8 + 1
  let spend (s : State) : State :=
    let c := splice c 0x80 (leBytes 8 seq)
    let c := if ctxBit c 6 && ctxKind c == 1 && !ctxBit c 8 then splice c 0xDC (leBytes 2 (le c 0xDC 2 + 1)) else c
    putCtx g c s
  if ctxKind c = 2 then
    if ctxInbound c then macIn g c b s
    else if b.length < 14 then (ctxCount g 0xD8 s, .format)
    else if tooLong (b.length + (if ctxBit c 11 then 32 else 24)) then (s, .tooLong)
    else
      let out := macOut c b seq
      (countTransform g (b.length - 12) (spend s), .ok out)
  else
    let ip := match l3 with
      | some o => if ipAt b o then some o else none
      | none => chainIp b
    match ip with
    | none => (ctxCount g 0xD8 s, .format)
    | some o =>
      if ctxInbound c then espIn g c b o s
      else if tooLong (espOutLen c b o) then (s, .tooLong)
      else
        let r := espOut c b o seq
        (countTransform g r.2 (spend s), .ok r.1)

/-- The transform of a frame from a chain, in place (R354, R359 to R361): false when the frame is to be dropped. `limit` is
the most bytes a forwarded frame may have; one that exceeds it after the transform is counted in format_drop. -/
def applyCtx (g fid : Nat) (limit : Option Nat) (s : State) : State × XfResult :=
  match frameOf s fid with
  | none => (s, .notLive)
  | some f =>
    let r := transform g none none f.bytes s
    match r.2 with
    | .ok b =>
      let tooLong := match limit with | some m => decide (m < b.length) | none => false
      if tooLong then (ctxCount g 0xD8 r.1, .format) else (putFrame fid { f with bytes := b } r.1, .ok b)
    | .notLive => (addErr CX_NO_CTX 1 r.1, .notLive)
    | x => (r.1, x)

end Sys2Proof.Machine
end

