-- ==== Sys2Proof/Machine/Chain.lean ====
section
/-! DEFINITION. The classification chain: keys, lookups and action entries (08 R222 to R232). -/
namespace Sys2Proof.Machine

/-- Stages in use (R246). -/
def chainLen (s : State) (pl : Nat) : Nat := min 16 (rf s (CL_CHAIN pl) 0 5)

/-- First stage of a source, by the record's source code (R222). -/
def firstStage (s : State) (pl : Nat) (source : Nat) : Nat :=
  match source with
  | 0 => rf s (CL_CHAIN pl) 8 4
  | 1 => rf s (CL_CHAIN pl) 12 4
  | 2 => rf s (CL_CHAIN pl) 16 4
  | _ => rf s (CL_CHAIN pl) 20 4

/-- Juniper stages of the chain before a stage (R233). -/
def juniperBefore (s : State) (pl st : Nat) : Nat :=
  ((List.range st).filter (fun i => rf s (CL_STAGE_A pl i) 0 3 == 4)).length

/-- CL_CHAIN.jt_excess: a fifth Juniper stage is in use (R233). -/
def jtExcess (s : State) (pl : Nat) : Bool := decide (4 < juniperBefore s pl (chainLen s pl))

/-- Lookup kind of a stage: 5 to 7, and a fifth Juniper stage, act as 0 (R227, R233). -/
def stageKind (s : State) (pl st : Nat) : Nat :=
  let k := rf s (CL_STAGE_A pl st) 0 3
  if 4 < k then 0 else if k = 4 ∧ 4 ≤ juniperBefore s pl st then 0 else k

/-- One slice (R226). A len of 17 to 31 lies outside the range of 0 to 16 that R226 gives, with no effect stated: it acts as
16, the model's choice (log entry 195). -/
def sliceBytes (w : Nat) (record mdata : Bytes) : Bytes :=
  let o := w / 4 % 128
  let n := min 16 (w / 512 % 32)
  match w % 4 with
  | 0 => slice (record.take 128) o n
  | 1 => slice (mdata.take 64) o n
  | _ => List.replicate n 0

/-- The key of a stage: 48 bytes from eight slices (R226). -/
def buildKey (s : State) (pl st : Nat) (record mdata : Bytes) : Bytes :=
  let w (j : Nat) : Nat := if j < 4 then rf s (CL_STAGE_B pl st) (16 * j) 16 else rf s (CL_STAGE_C pl st) (16 * (j - 4)) 16
  slice ((List.range 8).flatMap (fun j => sliceBytes (w j) record mdata)) 0 48

/-- The tree a Juniper stage walks (R233). -/
def stageTree (s : State) (pl st : Nat) (key : Bytes) : Nat :=
  if rb s (CL_STAGE_A pl st) 10 then be key 37 1 % 64 else rf s (CL_STAGE_A pl st) 4 6

/-- The lookup of a key of a kind (R227); a flow core's LOOKUP uses it too (R413). -/
def lookupKey (s : State) (pl kind table tree : Nat) (key : Bytes) (e : BitVec 32) : Walk :=
  match kind with
  | 1 => .result (directLookup s pl table (be key 0 4 % 2 ^ 20) e)
  | 2 => .result (stationLookup s pl (be key 0 6) (be key 6 2) e)
  | 3 => if be key 0 1 = 4 then .result (lpmLookup s pl 0 (be key 1 2) (be key 4 4) e)
         else if be key 0 1 = 6 then .result (lpmLookup s pl 1 (be key 1 2) (be key 4 16) e)
         else .result none
  | 4 => juniperLookup s pl tree key e
  | _ => .result none

/-- A Juniper fault is counted and recorded (R237, R249). -/
def juniperFault (pl tree node : Nat) (s : State) : State :=
  addErr (CL_JT_FAULT pl) 1 (putReg (CL_JT_LAST_FAULT pl) (BitVec.ofNat 64 (tree % 64 + node % 2 ^ 17 * 256)) s)

/-! ### Action entries (R230, R231) -/

/-- Flag bit of an action entry. -/
def actFlag (a : Bytes) (i : Nat) : Bool := bit (leWord a 0) i

/-- The disposition an entry sets: the highest-numbered of fwd, drop, punt, recirc. -/
def actDisp (a : Bytes) : Option Disp :=
  if actFlag a 3 then some .recirc
  else if actFlag a 2 then some (.punt (BitVec.ofNat 5 (lef a 8 20 5)) (BitVec.ofNat 5 (lef a 8 25 5)))
  else if actFlag a 1 then some .drop
  else if actFlag a 0 then some (.forward (BitVec.ofNat 20 (lef a 0 32 20)))
  else none

/-- set_md (R230): bytes past byte 63 are discarded. -/
def setMeta (a result mdata : Bytes) : Bytes :=
  if actFlag a 5 then
    splice mdata (lef a 8 50 6) ((if actFlag a 6 then slice result 0 8 else slice a 0x18 8).take (lef a 8 56 3 + 1))
  else mdata

/-- The meter step: state, frame with its colour, and whether a red result drops it (R231 steps 1, 2). -/
def actMeter (a : Bytes) (f : Frame) (s : State) : State × Frame × Bool :=
  if actFlag a 8 then
    let b0 := be f.mdata 0 1
    let r := useMeter (lef a 8 32 18) f.len (b0 % 4) s
    let f := { f with mdata := splice f.mdata 0 [BitVec.ofNat 8 (b0 / 4 * 4 + r.2.1)], debits := r.2.2 :: f.debits }
    (r.1, f, actFlag a 9 && r.2.1 == 2)
  else (s, f, false)

/-- The mirror step: two copies at most for a frame, whatever its passes; a further request is counted (R231 step 6). -/
def actMirror (a : Bytes) (pl : Nat) (f : Frame) (s : State) : State × Frame :=
  if actFlag a 4 then
    if f.copies < 2 then (s, { f with mirrors := f.mirrors ++ [BitVec.ofNat 20 (lef a 8 0 20)], copies := f.copies + 1 })
    else (addErr (CL_MIRROR_EXCESS pl) 1 s, f)
  else (s, f)

/-- Where the frame goes after a stage: another stage, or the end of the chain (R230). -/
def nextStage (s : State) (pl st : Nat) (a : Bytes) : Option Nat :=
  match lef a 0 16 2 with
  | 0 => if st + 1 < chainLen s pl then some (st + 1) else none
  | 1 => let n := lef a 0 18 4; if st < n ∧ n < chainLen s pl then some n else none
  | _ => none

/-- An action entry applied to a frame in the order of R231: the frame, and its next stage if it has one. A drop,
red_drop included, ends the chain. -/
def applyAction (a result : Bytes) (pl st : Nat) (f : Frame) (s : State) : State × Frame × Option Nat :=
  let m := actMeter a f s
  let s := m.1
  let f := m.2.1
  let f := { f with mdata := setMeta a result f.mdata }
  let f := if actFlag a 10 then { f with counts := lef a 16 0 18 :: f.counts } else f
  let d := if m.2.2 then some .drop else actDisp a
  let f := match d with | some d => { f with disp := d } | none => f
  let r := actMirror a pl f s
  let s := r.1
  let f := r.2
  let f := if actFlag a 7 then { f with editProg := BitVec.ofNat 12 (lef a 0 52 12) } else f
  let f := if actFlag a 11 then { f with ctx := some (BitVec.ofNat 20 (lef a 16 32 20)) } else f
  (s, f, if f.disp == .drop then none else nextStage s pl st a)

/-- Counts of a frame are applied: one frame and its octets to each pair (R231). -/
def applyCounts (f : Frame) (s : State) : State :=
  f.counts.foldl (fun s c =>
    let k := 2 ^ 18 * f.pl.toNat + c
    let v := tabGet (fun _ => (0, 0)) s.tab.pairs k
    let v' := (v.1 + 1, v.2 + BitVec.ofNat 64 f.len)
    { s with tab := { s.tab with pairs := tabSet (fun _ => (0, 0)) s.tab.pairs k v' } }) s

/-- The meter debits of a frame that leaves as malformed are credited back (R182). -/
def withdrawDebits (f : Frame) (s : State) : State := f.debits.foldl (fun s d => creditMeter d s) s

/-- Mirror copies of the frame as received (R232). -/
def mirrorCopies (fid : Nat) (f : Frame) (s : State) : State :=
  f.mirrors.foldl (fun s l => enqueueCopy l.toNat fid f.bytes s) s

/-- The learn request of a frame that leaves its last chain pass, if it makes one (R257). -/
def learnOf (s : State) (f : Frame) : Option LearnReq :=
  let c := getReg s (FT_LEARN_CTRL f.pl.toNat)
  let mb := fld c 17 9
  let want := f.pl == 4 || bit (BitVec.ofNat 64 (be f.mdata (mb / 8) 1)) (mb % 8)
  let port := if f.src0 == 3 || f.src0 == 4 then 8 + f.port.toNat else f.port.toNat
  let mac := be f.record (min 122 (fld c 4 7)) 6
  let bd := be f.mdata (min 62 (fld c 11 6)) 2
  if bit c 0 && want && f.src0 != 1 && f.port != 0xF
      && mac % 2 ^ 48 != 0 && !(mac / 2 ^ 40).testBit 0 && decide (bd < 16384) then
    some { mac := BitVec.ofNat 48 mac, bd := BitVec.ofNat 14 bd, port := BitVec.ofNat 4 port, ts := f.endTime }
  else none

/-- A learn engine: each pipeline has its own (R261). -/
def learnerOf (s : State) (pl : Nat) : Learner := tabGet (fun _ => Learner.empty) s.tab.learners pl
/-- Set a learn engine. -/
def putLearner (pl : Nat) (x : Learner) (s : State) : State :=
  { s with tab := { s.tab with learners := tabSet (fun _ => Learner.empty) s.tab.learners pl x } }

/-- A request sets out for the learn engine. -/
def requestLearn (f : Frame) (s : State) : State :=
  match learnOf s f with
  | none => s
  | some q => let l := learnerOf s f.pl.toNat; putLearner f.pl.toNat { l with arriving := l.arriving ++ [q] } s

/-- A frame leaves the list of its chain and of its pair's merge. -/
def leaveChain (pl fid : Nat) (s : State) : State :=
  let drop (q : Nat) (s : State) : State :=
    let p := pipeOf s q
    putPipe q { p with chain := p.chain.filter (· != fid), merge := p.merge.filter (· != fid) } s
  if pooled s pl then drop (pl / 2 * 2 + 1) (drop (pl / 2 * 2) s) else drop pl s

end Sys2Proof.Machine
end

