-- ==== Sys2Proof/Machine/Groups.lean ====
section
/-! DEFINITION. Members of commit groups at their fetch: domains, slots, closing, waiting (17 R472 to R475, R494 to R496). -/
namespace Sys2Proof.Machine

/-- Domain of an instance's groups: its binding (R155, R472). -/
def domainOf (s : State) (fn i : Nat) : Nat :=
  let b := (instOf s fn i).bind.toNat
  if b ≠ 0 then b else 1024 + 1024 * fn + i

/-- The token ring of a domain, newest first (R495). -/
def tokenRing (s : State) (d : Nat) : List Word := tabGet (fun _ => []) s.cg.tokens d

/-- Add a token to a domain's ring, which holds the last 65,536. -/
def addToken (d : Nat) (t : Word) (s : State) : State :=
  { s with cg := { s.cg with tokens := tabSet (fun _ => []) s.cg.tokens d ((t :: tokenRing s d).take 65536) } }

/-- Opcodes that may be members on a queue of a kind (R474). -/
def groupable (kind op : Nat) : Bool :=
  match kind with
  | 0 => [0x01, 0x02, 0xF0, 0xF1].contains op
  | 2 => [0x31, 0x33, 0xF0, 0xF1].contains op
  | 3 => [0x50, 0xF0, 0xF1].contains op
  | 4 => [0x90, 0x91, 0x92, 0xB0, 0xB3, 0xC0, 0xD0, 0xD1, 0xF0, 0xF1].contains op
  | _ => [0xF0, 0xF1].contains op

/-- Opcodes whose own chapter gives them a not-groupable status (R474): they are fetched as entries of no group and fail
with it when they run. -/
def ownNotGroupable (op : Nat) : Bool :=
  op == 0xB1 || op == 0xB2 || op == 0x93 || (decide (0xA0 ≤ op) && decide (op ≤ 0xAF)) || (decide (0x30 ≤ op) && decide (op ≤ 0x4F))

/-- The slot of the host group of a token in a domain. -/
def groupSlot (s : State) (d : Nat) (t : Word) : Option (Nat × Group) :=
  s.cg.groups.find? (fun e => e.2.domain == d && e.2.token == t && e.2.core.isNone)

/-- The lowest free slot (R473). -/
def freeSlot (s : State) : Option Nat :=
  if 65536 ≤ s.cg.groups.length then none
  else (List.range (s.cg.groups.length + 1)).find? (fun g => (cgOf s g).isNone)

/-- A group that its first member opens, or GOPEN. -/
def newGroup (s : State) (d inst : Nat) (t : Word) (n : Nat) (core : Option (BitVec 6 × BitVec 3)) : Group :=
  { state := .opened, domain := d, token := t, n := n, fetched := 0, hasLast := false,
    reissue := (tokenRing s d).contains t, inst := inst, core := core, gclose := none, members := [], updates := 0, bytes := 0,
    flips := [], seq := none, applied := false, cancelling := none }

/-- The waiting list without an entry. -/
def dropWaiting (fn fq : Nat) (idx : BitVec 32) (s : State) : State :=
  { s with cg := { s.cg with waiting := s.cg.waiting.filter (· != (BitVec.ofNat 2 fn, BitVec.ofNat 20 fq, idx)) } }

/-- A member waits, fetched, and holds back its queue. -/
def holdMember (fn fq : Nat) (e : Entry) (s : State) : State :=
  if memberWaits s fn fq e then s else
  { s with cg := { s.cg with waiting := s.cg.waiting ++ [(BitVec.ofNat 2 fn, BitVec.ofNat 20 fq, e.idx)] } }

/-- An opcode of a storage member: ST_WRITE or ST_ZERO. -/
def storageOp (op : Nat) : Bool := op == 0x31 || op == 0x33

/-- A member joins an open group, closes it as the last one, and fails by R473 or for want of a journal (R486, R491). -/
def joinSlot (g : Nat) (x : Group) (fn fq : Nat) (e : Entry) (s : State) : State :=
  let last := bit (leWord e.desc 0) 15
  let f := x.fetched + 1
  let m : Member := { entry := some (BitVec.ofNat 2 fn, BitVec.ofNat 20 fq, e.idx), staged := false, effect := .none }
  let bad := (last && x.hasLast) || (f == x.n && !last && !x.hasLast)
  let x' := { x with fetched := f, hasLast := x.hasLast || last, members := x.members ++ [m],
                     state := if f = x.n then .closed else .opened }
  let s := mapEntry fn fq e.idx (fun e => { e with group := some g }) (putCg g x' s)
  if bad then finish fn fq e.idx true 0x0504 0 none s
  else if storageOp e.op && !x.reissue && s.cg.jstate != .opened then finish fn fq e.idx true 0x0507 0 none s
  else s

/-- A fetched member meets its group (R473, R494, R495). -/
def joinGroup (fn fq : Nat) (e : Entry) (s : State) : State :=
  let t := leWord e.desc 8
  let n := fld t 60 4 + 1
  let d := domainOf s fn (queueInst s fn fq)
  let fail (st : Nat) (s : State) : State := finish fn fq e.idx true st 0 none s
  if !groupable (queueKind (queueOf s fn fq)) e.op then (if ownNotGroupable e.op then s else fail 0x0501 s)
  else if !rb s CG_CTRL 0 then fail 0x0506 s
  else if fld t 0 60 = 0 then fail 0x0505 s
  else
    match groupSlot s d t with
    | some (g, x) =>
      match x.state with
      | .opened => joinSlot g x fn fq e (dropWaiting fn fq e.idx s)
      | .aborted =>
        fail 0x0502 (settleAborted g { x with fetched := x.fetched + 1 } (dropWaiting fn fq e.idx s))
      | _ => holdMember fn fq e s
    | none =>
      match freeSlot s with
      | none => holdMember fn fq e s
      | some g =>
        let x := newGroup s d (1024 * fn + queueInst s fn fq) t n none
        let s := dropWaiting fn fq e.idx s
        let s := if x.reissue then addStat CG_REISSUES 1 s else s
        joinSlot g x fn fq e s

/-- A waiting member of a queue is tried again. -/
def joinWaiting (fn fq : Nat) (s : State) : State :=
  match (queueOf s fn fq).entries.find? (fun e => memberWaits s fn fq e) with
  | none => s
  | some e => joinGroup fn fq e s

/-- The queue holds a member that waits, and fetches nothing behind it (R473). -/
def queueHeld (s : State) (fn fq : Nat) : Bool := (queueOf s fn fq).entries.any (fun e => memberWaits s fn fq e)

/-- The entry that runs next, after a waiting member has been tried. -/
def nextEntry (fn fq op : Nat) (run : Entry → State → State) (s : State) : State :=
  let s := joinWaiting fn fq s
  match entryWith s fn fq op with
  | none => s
  | some e => run e s

end Sys2Proof.Machine
end

