-- ==== Sys2Proof/Machine/Routes.lean ====
section
/-! DEFINITION. The structures of the route engine (09 R264, R265, R267, R268, R275): the trie of each family and table, as
the engine builds it from the prefixes held. The spec leaves every stride, skip, node address and result index to the
engine: they are free values, each within its range. -/
namespace Sys2Proof.Machine

/-! ### Routes held -/

/-- The routes of a pipeline's main entries: key and value. -/
def lpmMain (s : State) (pl : Nat) : List (Nat × Bytes) :=
  (s.tab.main.filter (fun x => decide (tableKey .lpm pl 0 ≤ x.1) && decide (x.1 < tableKey .lpm (pl + 1) 0))).map
    (fun x => (x.1 - tableKey .lpm pl 0, x.2))

/-- The pending changes of a pipeline's routes, in the order they were built. -/
def lpmPending (s : State) (pl : Nat) : List (Nat × Bytes) :=
  (s.tab.shadows.filter (fun x => x.kind == .lpm && x.pl.toNat == pl)).map (fun x => (x.key, x.value))

/-- A set of routes after a change. -/
def setRoute (rs : List (Nat × Bytes)) (u : Nat × Bytes) : List (Nat × Bytes) :=
  rs.filter (fun r => r.1 != u.1) ++ (if u.2.isEmpty then [] else [u])

/-- The sets of routes that changes made one after another leave, the first set among them. -/
def routeViews (rs : List (Nat × Bytes)) : List (Nat × Bytes) → List (List (Nat × Bytes))
  | [] => [rs]
  | u :: us => rs :: routeViews (setRoute rs u) us

/-- The sets of routes that some frame may see, or that a pending change builds. -/
def lpmViews (s : State) (pl : Nat) : List (List (Nat × Bytes)) := routeViews (lpmMain s pl) (lpmPending s pl)

/-- The prefixes that hold units: those of main entries and of pending changes that add one (R268, R275). -/
def routeKeys (s : State) (pl : Nat) : List Nat :=
  ((lpmMain s pl ++ (lpmPending s pl).filter (fun u => !u.2.isEmpty)).map (·.1)).eraseDups

/-- Family and table of a route key, as the index of its root entry. -/
def routeTable (k : Nat) : Nat := k / 2 ^ 128 / 129

/-- Units of a prefix (R250). -/
def routeUnits (k : Nat) : Nat := if routeTable k < 4096 then 1 else 4

/-- Prefix units in use (R250, R275). -/
def lpmUnits (s : State) (pl : Nat) : Nat := ((routeKeys s pl).map routeUnits).sum

/-! ### Nodes -/

/-- A prefix below a node: length, address, value. -/
abbrev Below := Nat × Nat × Bytes

/-- A node (R265): its stage, root index, first address bit that no node above takes, bits skipped and taken, and the
prefixes below it, all longer than what the nodes above take. -/
structure RNode where
  stage : Nat
  root : Nat
  pos : Nat
  skip : Nat
  stride : Nat
  below : List Below
  deriving DecidableEq, Repr

/-- Bits of an address of a family, from bit `p`, the most significant first. -/
def addrBits (root addr p n : Nat) : Nat := addr / 2 ^ (famBits (root / 4096) - p - n) % 2 ^ n

/-- The most bits a node may skip: the prefixes below agree on them and none ends within them (R266). -/
def maxSkip (root pos : Nat) (below : List Below) : Nat :=
  ((List.range 33).reverse.find? (fun k => below.all (fun b => decide (pos + k < b.1) &&
    addrBits root b.2.1 pos k == addrBits root (below.headD (0, 0, [])).2.1 pos k))).getD 0

/-- The most bits a node may take: 12, and no more than the longest prefix below has. -/
def maxStride (pos : Nat) (below : List Below) : Nat :=
  max 1 (min 12 ((below.map (·.1)).foldl max 0 - pos))

/-- A prefix as the free choices see it. -/
def routeCode (b : Below) : Nat × Nat := (b.1, b.2.1 * 2 ^ 128 + leNat b.2.2)

/-- A node over prefixes: `free` takes the engine's own choices of skip and stride, else both are as large as may be. -/
def mkNode (free : Bool) (root stage pos : Nat) (below : List Below) : RNode :=
  let most := maxSkip root pos below
  let skip := if free then Config.routeSkip pos (below.map routeCode) % (most + 1) else most
  let wide := maxStride (pos + skip) below
  let stride := if free then 1 + Config.routeStride pos (below.map routeCode) % wide else wide
  { stage := stage, root := root, pos := pos, skip := skip, stride := stride, below := below }

/-- First address bit past a node. -/
def RNode.last (n : RNode) : Nat := n.pos + n.skip + n.stride

/-- The entry of a node that an address goes through. -/
def RNode.slot (n : RNode) (addr : Nat) : Nat := addrBits n.root addr (n.pos + n.skip) n.stride

/-- The prefixes that a node leaves to the node below one of its entries. -/
def RNode.under (n : RNode) (v : Nat) : List Below := n.below.filter (fun b => decide (n.last < b.1) && n.slot b.2.1 == v)

/-- The entries of a node that point to a node below. -/
def RNode.branches (n : RNode) : List Nat :=
  ((n.below.filter (fun b => decide (n.last < b.1))).map (fun b => n.slot b.2.1)).eraseDups

/-- Entries a node takes in its stage: the header and one for each value of its bits (R264). -/
def RNode.size (n : RNode) : Nat := 2 ^ n.stride + 1

/-- The nodes over prefixes in as many stages as are left, and whether these are enough. -/
def buildNodes (free : Bool) (root : Nat) : Nat → Nat → Nat → List Below → List RNode × Bool
  | 0, _, _, below => ([], below.isEmpty)
  | left + 1, stage, pos, below =>
    if below.isEmpty then ([], true) else
    let n := mkNode free root stage pos below
    let subs := n.branches.map (fun v => buildNodes free root left (stage + 1) n.last (n.under v))
    (n :: subs.flatMap (·.1), subs.all (·.2))

/-- The prefixes of one root in a set of routes, but for its /0 route. -/
def rootPrefixes (rs : List (Nat × Bytes)) (root : Nat) : List Below :=
  (rs.filter (fun r => routeTable r.1 == root && r.1 / 2 ^ 128 % 129 != 0)).map
    (fun r => (r.1 / 2 ^ 128 % 129, r.1 % 2 ^ 128, r.2))

/-- The roots that a set of routes uses. -/
def rootsOf (rs : List (Nat × Bytes)) : List Nat := (rs.map (fun r => routeTable r.1)).eraseDups

/-- The nodes of some sets of routes, a node that sets share once, and whether every trie fits in seven stages. -/
def nodesOf (free : Bool) (views : List (List (Nat × Bytes))) : List RNode × Bool :=
  let tries := views.flatMap (fun rs => (rootsOf rs).map (fun r => buildNodes free r 7 1 0 (rootPrefixes rs r)))
  ((tries.flatMap (·.1)).eraseDups, tries.all (·.2))

/-- Entries of a stage that nodes take. -/
def stageUse (ns : List RNode) (stage : Nat) : Nat := ((ns.filter (fun n => n.stage == stage)).map RNode.size).sum

/-- The entry budget of a stage (R268). -/
def stageBudget (stage : Nat) : Nat := if stage = 1 then 1048576 else 4194304

/-- Nodes stay within seven stages and their budgets. -/
def nodesFit (ns : List RNode × Bool) : Bool :=
  ns.2 && [1, 2, 3, 4, 5, 6, 7].all (fun k => decide (stageUse ns.1 k ≤ stageBudget k))

/-- Some sets of routes can be placed (R268). -/
def routesFit (views : List (List (Nat × Bytes))) : Bool := nodesFit (nodesOf false views) || nodesFit (nodesOf true views)

/-- A change of a route finds room (R268). -/
def routeFits (s : State) (pl : Nat) (u : Nat × Bytes) : Bool :=
  let views := lpmViews s pl
  routesFit (views ++ [setRoute (views.getLastD []) u])

/-- The engine's nodes for the routes of a pipeline: those that only an old or only a new path uses among them (R267). -/
def routeNodes (s : State) (pl : Nat) : List RNode :=
  let own := nodesOf true (lpmViews s pl)
  if nodesFit own then own.1 else (nodesOf false (lpmViews s pl)).1

/-- The nodes are the engine's own choices. -/
def ownChoices (s : State) (pl : Nat) : Bool := nodesFit (nodesOf true (lpmViews s pl))

/-! ### What the stores hold (R265) -/

/-- Header index of a node. -/
def nodeAddr (pl : Nat) (n : RNode) : Nat :=
  Config.routeAddr (8 * pl + n.stage) n.root (n.below.map routeCode) % (stageBudget n.stage - n.size + 1)

/-- Result index of a route: an IPv6 route has the first of four. -/
def resultIndex (pl root : Nat) (b : Below) : Nat := Config.routeResult pl root (routeCode b) % (1048576 - 3)

/-- The /0 route of a root. -/
def defaultRoute (rs : List (Nat × Bytes)) (root : Nat) : Option Below :=
  (rs.find? (fun r => routeTable r.1 == root && r.1 / 2 ^ 128 % 129 == 0)).map (fun r => (0, 0, r.2))

/-- The routes that a view of a window shows: 0 as a frame dealt now sees them, 1 the main entries (R525). -/
def routesShown (s : State) (pl view : Nat) : List (Nat × Bytes) :=
  if view = 0 then
    ((routeKeys s pl).map (fun k => (k, entryAt s .lpm pl k (epochCurrent s pl)))).filter (fun r => !r.2.isEmpty)
  else lpmMain s pl

/-- A root entry. -/
def rootWord (s : State) (pl view root : Nat) : Word :=
  let rs := routesShown s pl view
  if !(rootsOf rs).contains root then 0 else
  let below := rootPrefixes rs root
  let child := if below.isEmpty then 0xFFFFFF else nodeAddr pl (mkNode (ownChoices s pl) root 1 0 below)
  BitVec.ofNat 64 (1 + (match defaultRoute rs root with | none => 0 | some b => 2 + resultIndex pl root b * 4) + child * 2 ^ 22)

/-- A node header. -/
def headerWord (n : RNode) : Word :=
  BitVec.ofNat 64 (n.stride + (n.pos + n.skip) * 2 ^ 4 + n.skip * 2 ^ 11
    + addrBits n.root (n.below.headD (0, 0, [])).2.1 n.pos n.skip * 2 ^ 32)

/-- The longest prefix that ends in a node and covers one of its entries. -/
def bestIn (n : RNode) (v : Nat) : List Below → Option Below
  | [] => none
  | b :: bs =>
    let rest := bestIn n v bs
    let bits := b.1 - (n.pos + n.skip)
    if b.1 ≤ n.last ∧ addrBits n.root b.2.1 (n.pos + n.skip) bits = v / 2 ^ (n.stride - bits) then
      match rest with
      | some c => if b.1 ≤ c.1 then some c else some b
      | none => some b
    else rest

/-- A node entry. -/
def entryWord (free : Bool) (pl : Nat) (n : RNode) (v : Nat) : Word :=
  let res := match bestIn n v n.below with
    | none => 0
    | some b => 1 + b.1 * 2 ^ 8 + resultIndex pl n.root b * 2 ^ 16
  let under := n.under v
  BitVec.ofNat 64 (res + (if under.isEmpty then 0
    else 2 + nodeAddr pl (mkNode free n.root (n.stage + 1) n.last under) * 2 ^ 36))

/-- An entry of a stage; one that no node takes holds what its last use left, with the fields of a node entry. -/
def stageWord (s : State) (pl stage i : Nat) (left : Word) : Word :=
  match (routeNodes s pl).find? (fun n => n.stage == stage && decide (nodeAddr pl n ≤ i) && decide (i < nodeAddr pl n + n.size)) with
  | some n => if i = nodeAddr pl n then headerWord n else entryWord (ownChoices s pl) pl n (i - nodeAddr pl n - 1)
  | none => left &&& 0x0FFFFFFFFFFFFF03#64

/-- A result of 16 bytes; an index that no route uses holds what its last use left. -/
def resultWords (s : State) (pl i : Nat) (left : Word × Word) : List Word :=
  match ((lpmMain s pl ++ lpmPending s pl).filter (fun u => !u.2.isEmpty)).find?
      (fun u => resultIndex pl (routeTable u.1) (u.1 / 2 ^ 128 % 129, u.1 % 2 ^ 128, u.2) == i) with
  | some u => [BitVec.ofNat 64 (le u.2 0 2), leWord u.2 8]
  | none => [left.1 &&& 0xFFFF#64, left.2]

end Sys2Proof.Machine
end

