-- ==== Sys2Proof/Machine/Forward.lean ====
section
/-! DEFINITION. Writes of tables, epoch flips, learning and aging (08 R239 to R245, 09). -/
namespace Sys2Proof.Machine

/-! ### Pending updates and flips (R241, R242, R244) -/

/-- The newest value of an entry: the last pending update that is not staged by a group, else the main entry. -/
def newestEntry (s : State) (k : TabKind) (pl key : Nat) : Bytes :=
  match (s.tab.shadows.filter (fun x => x.kind == k && x.pl.toNat == pl && x.key == key && (x.tag.isSome || x.group.isNone))).getLast? with
  | some x => x.value
  | none => mainEntry s k pl key

/-- Pipelines of a mask. -/
def maskPls (mask : Nat) : List Nat := (List.range 5).filter (fun n => mask.testBit n)

/-- A mask is empty or names only one pipeline of a pooled pair (R245, R251). -/
def badPairMask (s : State) (mask : Nat) : Bool :=
  mask == 0 || (rf s NP_MODE 0 2 == 2 && (mask.testBit 0 != mask.testBit 1 || mask.testBit 2 != mask.testBit 3))

/-- What the checks of an epoch-bound write decide: it fails, it completes done with an informational status, or it
updates one entry in each named pipeline (pipeline, key, value). -/
inductive Plan where
  | fail (status : Nat)
  | info (status : Nat)
  | write (k : TabKind) (keys : List (Nat × Nat × Bytes))
  deriving DecidableEq, Repr

/-- Every named pipeline has a free shadow slot (R241). -/
def shadowRoom (s : State) (pls : List Nat) : Bool := pls.all (fun p => decide (shadowsUsed s p < 4096))

/-- A new station key's slot is reserved at once: an entry that is not valid (R269). -/
def reserveKey (k : TabKind) (x : Nat × Nat × Bytes) (s : State) : State :=
  if (k = .station ∨ k = .stream) ∧ (mainEntry s k x.1 x.2.1).isEmpty ∧ !x.2.2.isEmpty then
    putMain k x.1 x.2.1 (reserved k x.2.2) s
  else s

/-- Take shadow slots for one entry in each named pipeline. -/
def takeShadows (k : TabKind) (keys : List (Nat × Nat × Bytes)) (group : Option Nat) (writer : Option (BitVec 20 × BitVec 32))
    (s : State) : State :=
  let s := keys.foldl (fun s x => reserveKey k x s) s
  { s with tab := { s.tab with shadows := s.tab.shadows ++ keys.map (fun x =>
      { pl := BitVec.ofNat 3 x.1, kind := k, key := x.2.1, value := x.2.2, tag := none, group := group,
        writer := writer }) } }

/-- Updates a group holds, and its bytes of data. -/
def groupTotals (s : State) (g : Nat) : Nat × Nat := match cgOf s g with | none => (0, 0) | some x => (x.updates, x.bytes)

/-- Add to what a group holds. -/
def addTotals (g updates bytes : Nat) (s : State) : State :=
  match cgOf s g with
  | none => s
  | some x => putCg g { x with updates := x.updates + updates, bytes := x.bytes + bytes } s

/-- An epoch-bound CTL write runs: a member is staged for its group's commit, any other write waits for its own flip
(R244, R478). A write that finds no shadow slot waits. -/
def runPlan (cq : Nat) (e : Entry) (p : Plan) (s : State) : State :=
  match p with
  | .fail st => finish 0 cq e.idx true st 0 none s
  | .info st => finish 0 cq e.idx false st 0 none s
  | .write k keys =>
    match e.group with
    | some g =>
      if 64 < (groupTotals s g).1 + keys.length then finish 0 cq e.idx true 0x0503 0 none s
      else if !shadowRoom s (keys.map (fun x => x.1)) then s
      else stageMember g 0 cq e.idx .tables (addTotals g keys.length 0 (takeShadows k keys (some g) none s))
    | none =>
      if !shadowRoom s (keys.map (fun x => x.1)) then s else
      let w : FlipWait := { fq := BitVec.ofNat 20 cq, idx := e.idx, pls := keys.map (fun x => (BitVec.ofNat 3 x.1, none)) }
      let s := setPhase 0 cq e.idx .started (takeShadows k keys none (some (BitVec.ofNat 20 cq, e.idx)) s)
      { s with tab := { s.tab with flips := s.tab.flips ++ [w] } }

/-- An informational completion of a member: it is staged as one that does nothing, with its status (R270). -/
def memberInfo (e : Entry) (p : Plan) : Option (Nat × Nat) :=
  match p, e.group with
  | .info st, some g => some (g, st)
  | _, _ => none

/-- A table write of a CTL queue: a member of a re-issue is neither checked nor staged (R496). -/
def tableWrite (cq op : Nat) (plan : State → Bytes → Plan) (s : State) : State :=
  nextEntry 0 cq op (fun e s =>
    match reissued s e, e.group, memberInfo e (plan s e.desc) with
    | true, some g, _ => stageMember g 0 cq e.idx .none s
    | _, _, some (g, st) => stageMember g 0 cq e.idx (.info (BitVec.ofNat 16 st)) s
    | _, _, _ => runPlan cq e (plan s e.desc) s) s

/-- The epoch at which a write became visible in a pipeline, 0 where it is not named. -/
def epochOf (pls : List (BitVec 3 × Option (BitVec 32))) (n : Nat) : Nat :=
  match pls.find? (fun x => x.1.toNat == n) with
  | some (_, some e) => e.toNat
  | _ => 0

/-- Results of ACT_WRITE and JT_ROOT_WRITE: the epoch in each of pipelines 0 to 3, or 0 (R245). -/
def epochResults (pls : List (BitVec 3 × Option (BitVec 32))) : Bytes :=
  (List.range 4).flatMap (fun n => leBytes 4 (epochOf pls n))

/-- The opcode returns results and overwrites 32 bytes: ACT_WRITE and JT_ROOT_WRITE among the table writes (R245, R269). -/
def writeReturns (op : Nat) : Bool := op == 0xB0 || op == 0xB3

/-- A write whose flips have all been made completes. -/
def completeFlip (w : FlipWait) (s : State) : State :=
  let op := match entryIdx s 0 w.fq.toNat w.idx with | some e => lef e.desc 0 4 8 | none => 0
  finish 0 w.fq.toNat w.idx false 0 0 (if writeReturns op then some (epochResults w.pls) else none) s

/-- Ungrouped updates of pipelines that wait for their flip. -/
def flipPending (s : State) (mates : List Nat) : Bool :=
  s.tab.shadows.any (fun x => mates.contains x.pl.toNat && x.tag.isNone && x.group.isNone)

/-- A flip of a pipeline, and of the pipeline that shares its counters: current rises by one, every ungrouped update
that waits is tagged with it, and writes whose flips are all made complete (R242, R244). -/
def flip (pl : Nat) (s : State) : State :=
  let mates := epochMates s pl
  let cur := epochCurrent s pl + 1
  let s := putEpoch pl cur (epochRetired s pl) s
  let mark (p : BitVec 3 × Option (BitVec 32)) : BitVec 3 × Option (BitVec 32) :=
    if mates.contains p.1.toNat && p.2.isNone then (p.1, some cur) else p
  let s := { s with
    tab := { s.tab with
      shadows := s.tab.shadows.map (fun (x : Shadow) =>
        if mates.contains x.pl.toNat && x.tag.isNone && x.group.isNone then { x with tag := some cur } else x)
      flips := s.tab.flips.map (fun (w : FlipWait) => { w with pls := w.pls.map mark }) },
    cg := { s.cg with groups := s.cg.groups.map (fun (e : Nat × Group) => (e.1, { e.2 with flips := e.2.flips.map mark })) } }
  let done (w : FlipWait) : Bool := w.pls.all (fun p => p.2.isSome)
  let ready := s.tab.flips.filter done
  let s := { s with tab := { s.tab with flips := s.tab.flips.filter (fun w => !done w) } }
  advanceRetired pl (ready.foldl (fun s w => completeFlip w s) s)

/-! ### CTL writes of the classifier (R245) -/

/-- ACT_WRITE. -/
def actPlan (s : State) (d : Bytes) : Plan :=
  let mask := lef d 0x10 0 4
  if badPairMask s mask then .fail 0x04B1
  else .write .action ((maskPls mask).map (fun p => (p, lef d 0x10 16 16, slice d 0x18 32)))

/-- ACT_WRITE (R245). -/
def execActWrite (cq : BitVec 20) (s : State) : Res := .next (tableWrite cq.toNat 0xB0 actPlan s)

/-- JT_ROOT_WRITE. -/
def jtRootPlan (s : State) (d : Bytes) : Plan :=
  let mask := lef d 0x10 0 4
  if badPairMask s mask then .fail 0x04B1
  else .write .root ((maskPls mask).map (fun p => (p, lef d 0x10 16 6, slice d 0x18 8)))

/-- JT_ROOT_WRITE (R245). -/
def execJtRootWrite (cq : BitVec 20) (s : State) : Res := .next (tableWrite cq.toNat 0xB3 jtRootPlan s)

/-- Entries of a run written to every named pipeline, each whole. -/
def writeRun (k : TabKind) (pls : List Nat) (first size : Nat) (data : Bytes) (n : Nat) (s : State) : State :=
  pls.foldl (fun s p => (List.range n).foldl (fun s i => putMain k p (first + i) (slice data (size * i) size) s) s) s

/-- JT_NODE_WRITE and JT_RULE_WRITE: the checks of R245 in the order of its table, then the read, then every entry. -/
def juniperWrite (k : TabKind) (size limit firstBits : Nat) (cq : Nat) (e : Entry) (r : Read) (s : State) : State :=
  let mask := lef e.desc 0x10 0 4
  let n := lef e.desc 0x10 16 13
  let first := lef e.desc 0x10 32 firstBits
  let addr := (leWord e.desc 0x18).toNat
  if groupMember e then finish 0 cq e.idx true 0x04B0 0 none s
  else if badPairMask s mask then finish 0 cq e.idx true 0x04B1 0 none s
  else if n = 0 ∨ limit < first + n then finish 0 cq e.idx true 0x04B2 0 none s
  else
    let s := entryRead 0 cq e addr (size * n) s
    match r with
    | .data b => finish 0 cq e.idx false 0 0 none (writeRun k (maskPls mask) first size b n s)
    | _ => finish 0 cq e.idx true (dmaStatus r) 0 none (readFailure 0 addr r s)

/-- JT_NODE_WRITE (R245). -/
def execJtNodeWrite (cq : BitVec 20) (r : Read) (s : State) : Res :=
  .next (nextEntry 0 cq.toNat 0xB1 (fun e s => juniperWrite .node 16 131072 17 cq.toNat e r s) s)

/-- JT_RULE_WRITE (R245). -/
def execJtRuleWrite (cq : BitVec 20) (r : Read) (s : State) : Res :=
  .next (nextEntry 0 cq.toNat 0xB2 (fun e s => juniperWrite .rule 64 262144 18 cq.toNat e r s) s)

/-! ### CTL writes of the forwarding tables (R269, R270) -/

/-- DIR_WRITE. -/
def dirPlan (s : State) (d : Bytes) : Plan :=
  let mask := lef d 0x10 0 5
  let t := lef d 0x10 16 6
  let i := lef d 0x10 32 20
  if mask.testBit 4 || badPairMask s mask then .fail 0x0490
  else if (maskPls mask).any (fun p => (dirIndex s p t i).isNone) then .fail 0x0491
  else .write .direct ((maskPls mask).map (fun p => (p, (dirIndex s p t i).getD 0, slice d 0x18 16)))

/-- DIR_WRITE (R269). -/
def execDirWrite (cq : BitVec 20) (s : State) : Res := .next (tableWrite cq.toNat 0x90 dirPlan s)

/-- The slot a key has or would take in a pipeline. -/
def staPlace (s : State) (pl : Nat) (mac : BitVec 48) (bd : BitVec 14) : Option Nat :=
  match staFind s pl mac bd with
  | some n => some n
  | none => staFree s pl mac bd

/-- A key is held, by its newest entry. -/
def staHeld (s : State) (pl : Nat) (mac : BitVec 48) (bd : BitVec 14) : Bool :=
  match staFind s pl mac bd with
  | none => false
  | some n => staValid (newestEntry s .station pl n)

/-- STA_WRITE. -/
def staPlan (s : State) (d : Bytes) : Plan :=
  let mask := lef d 0x10 0 5
  let mac := BitVec.ofNat 48 (lef d 0x18 0 48)
  let bd := BitVec.ofNat 14 (lef d 0x18 48 14)
  let pls := maskPls mask
  if badPairMask s mask then .fail 0x0490
  else if bit (leWord d 0x10) 8 then
    let held := pls.filter (fun p => staHeld s p mac bd)
    if held.isEmpty then .info 0x0496
    else .write .station (held.map (fun p => (p, (staFind s p mac bd).getD 0, [])))
  else if pls.any (fun p => (staPlace s p mac bd).isNone) then .fail 0x0492
  else
    let v := staEntry mac bd true (bit (leWord d 0x20) 20) (lef d 0x20 16 4) false (lef d 0x20 0 16) 0 (leWord d 0x28).toNat
    .write .station (pls.map (fun p => (p, (staPlace s p mac bd).getD 0, v)))

/-- STA_WRITE (R269). -/
def execStaWrite (cq : BitVec 20) (s : State) : Res := .next (tableWrite cq.toNat 0x91 staPlan s)

/-- A prefix length or address out of range (R268). -/
def badPrefix (f plen addr : Nat) : Bool := decide (famBits f < plen) || addr != maskAddr f plen addr

/-- LPM_WRITE. -/
def lpmPlan (s : State) (d : Bytes) : Plan :=
  let mask := lef d 0x10 0 5
  let fam := lef d 0x10 9 2
  let f := fam - 1
  let plen := lef d 0x10 16 8
  let table := lef d 0x10 32 12
  let addr := le d 0x18 16
  let key := lpmKey f table plen addr
  let pls := maskPls mask
  let held := pls.filter (fun p => !(newestEntry s .lpm p key).isEmpty)
  if mask.testBit 4 || badPairMask s mask then .fail 0x0490
  else if fam = 0 ∨ fam = 3 then .fail 0x0495
  else if badPrefix f plen addr then .fail 0x0494
  else if bit (leWord d 0x10) 8 then
    if held.isEmpty then .info 0x0496 else .write .lpm (held.map (fun p => (p, key, [])))
  else
    let v := slice d 0x28 2 ++ List.replicate 6 0 ++ slice d 0x30 8
    if pls.any (fun p => !(routeKeys s p).contains key && decide (1048576 < lpmUnits s p + routeUnits key)) then .fail 0x0492
    else if pls.any (fun p => !routeFits s p (key, v)) then .fail 0x0493
    else .write .lpm (pls.map (fun p => (p, key, v)))

/-- LPM_WRITE (R267 to R269). -/
def execLpmWrite (cq : BitVec 20) (s : State) : Res := .next (tableWrite cq.toNat 0x92 lpmPlan s)

/-! ### Learning (R257 to R260) -/

/-- The order point of a request: its ts, then its port code. -/
def learnOrder (q : LearnReq) : Nat × Nat := (clockNs q.ts * 65536 + q.ts.frac.toNat, q.port.toNat)

/-- Order of points. -/
def pointLt (a b : Nat × Nat) : Bool := decide (a.1 < b.1) || (a.1 == b.1 && decide (a.2 < b.2))

/-- A learn event (R260), with lap 0. -/
def learnEvent (code pl old new_ : Nat) (mac : BitVec 48) (bd : BitVec 14) (ns : Nat) : Event :=
  let ts := ns % 2 ^ 32
  { source := none, body :=
    leBytes 4 (code * 256 + pl * 65536 + old * 2 ^ 20 + new_ * 2 ^ 24) ++ leBytes 4 (bd.toNat + ts % 65536 * 65536) ++
    leBytes 4 (mac.toNat % 2 ^ 32) ++ leBytes 4 (mac.toNat / 2 ^ 32 + ts / 65536 * 65536) }

/-- Post a learn event when its kind is enabled (R260, R271). -/
def postLearn (enBit : Nat) (code pl old new_ : Nat) (mac : BitVec 48) (bd : BitVec 14) (ns : Nat) (s : State) : State :=
  if rb s (FT_LEARN_CTRL pl) enBit then
    postEvent 0 (rf s (FT_LEARN_CTRL pl) 50 12) (learnEvent code pl old new_ mac bd ns) s
  else s

/-- FT_AGE_CTRL.now. -/
def ageNow (s : State) (pl : Nat) : Nat := rf s (FT_AGE_CTRL pl) 48 16

/-- Action index of a learned entry (R258). -/
def learnAction (s : State) (pl port : Nat) : Nat := (rf s (FT_LEARN_CTRL pl) 26 16 + port) % 65536

/-- A learned entry. -/
def learnedEntry (s : State) (pl : Nat) (q : LearnReq) : Bytes :=
  staEntry q.mac q.bd true false q.port.toNat true (learnAction s pl q.port.toNat) (ageNow s pl) q.port.toNat

/-- Apply a request to the main entry (R258). -/
def applyLearn (pl : Nat) (q : LearnReq) (s : State) : State :=
  let ns := clockNs q.ts
  let place (n : Nat) (s : State) : State :=
    postLearn 1 0x20 pl 15 q.port.toNat q.mac q.bd ns
      (addStat (FT_LEARNS pl) 1 (putMain .station pl n (learnedEntry s pl q) s))
  match staFind s pl q.mac q.bd with
  | none => match staFree s pl q.mac q.bd with
    | some n => place n s
    | none => addErr (FT_LEARN_FULL pl) 1 s
  | some n =>
    let e := mainEntry s .station pl n
    if !staValid e then place n s
    else if bit (leWord e 0) 63 then
      if lef e 8 0 4 = q.port.toNat then s else addErr (FT_STATIC_CONFLICT pl) 1 s
    else if lef e 8 0 4 = q.port.toNat then putMain .station pl n (splice e 12 (leBytes 2 (ageNow s pl))) s
    else
      addStat (FT_MOVES pl) 1 (putMain .station pl n (learnedEntry s pl q)
        (postLearn 2 0x21 pl (lef e 8 0 4) q.port.toNat q.mac q.bd ns s))

/-- Apply a request and note its order point. -/
def applyLearnAt (pl : Nat) (q : LearnReq) (s : State) : State :=
  let s := applyLearn pl q s
  let l := learnerOf s pl
  let last := match l.last with | none => learnOrder q | some p => if pointLt p (learnOrder q) then learnOrder q else p
  putLearner pl { l with last := some last } s

/-- LEARN_REQUEST: the next request on its way reaches the engine; late it is applied at once, and a full hold set drops it. -/
def execLearnRequest (pl : Pl) (s : State) : Res :=
  let l := learnerOf s pl.val
  match l.arriving with
  | [] => .next s
  | q :: rest =>
    let s := putLearner pl.val { l with arriving := rest } s
    let late := match l.last with | some p => pointLt (learnOrder q) p | none => false
    if late then .next (applyLearnAt pl.val q (addErr (FT_LEARN_LATE pl.val) 1 s))
    else if 1024 ≤ l.hold.length then .next (addErr (FT_LEARN_DROPPED pl.val) 1 s)
    else .next (putLearner pl.val { l with arriving := rest, hold := l.hold ++ [q] } s)

/-- The earliest of held requests. -/
def earliest : List LearnReq → Option LearnReq
  | [] => none
  | q :: qs => match earliest qs with
    | none => some q
    | some r => if pointLt (learnOrder r) (learnOrder q) then some r else some q

/-- The hold of a request has ended: Clove time has reached ts + hold ticks, 1.024 us each (R258). -/
def holdEnded (s : State) (pl : Nat) (q : LearnReq) : Bool :=
  decide (clockNs q.ts + 1024 * max 1 (rf s (FT_LEARN_CTRL pl) 42 8) ≤ clockNs s.clk)

/-- LEARN_APPLY: the first held request in order, once its hold has ended. -/
def execLearnApply (pl : Pl) (s : State) : Res :=
  let l := learnerOf s pl.val
  match earliest l.hold with
  | none => .next s
  | some q =>
    if holdEnded s pl.val q then .next (applyLearnAt pl.val q (putLearner pl.val { l with hold := l.hold.erase q } s))
    else .next s

/-! ### Aging and flush (R262, R263) -/

/-- A station entry goes, with its event; a slot with a host write pending stays reserved (R244). -/
def eraseStation (pl n : Nat) (e : Bytes) (s : State) : State :=
  let pend := s.tab.shadows.any (fun x => x.kind == .station && x.pl.toNat == pl && x.key == n)
  let v := if pend then reserved .station e else []
  postLearn 3 0x22 pl (lef e 8 0 4) 15 (BitVec.ofNat 48 (lef e 0 0 48)) (BitVec.ofNat 14 (lef e 0 48 14)) (clockNs s.clk)
    (putMain .station pl n v s)

/-- Remove a station entry by aging or flush (R262, R263). -/
def removeStation (pl n : Nat) (e : Bytes) (s : State) : State := addStat (FT_AGED pl) 1 (eraseStation pl n e s)

/-- The valid station entries of a pipeline, in slot order. -/
def stationsOf (s : State) (pl : Nat) : List (Nat × Bytes) :=
  (s.tab.main.filter (fun x => decide (tableKey .station pl 0 ≤ x.1) && decide (x.1 < tableKey .station (pl + 1) 0)
    && staValid x.2)).map (fun x => (x.1 - tableKey .station pl 0, x.2))

/-- An entry is older than age_limit (R262). -/
def aged (s : State) (pl : Nat) (e : Bytes) : Bool :=
  !bit (leWord e 0) 63 &&
  decide (max 1 (rf s (FT_AGE_CTRL pl) 32 15) ≤ (ageNow s pl + 65536 - lef e 8 32 16) % 65536)

/-- The length of an age tick in nanoseconds: tick_ms, below 10 as 10 and above 10,000 as 10,000 (R272). -/
def agePeriod (s : State) (pl : Nat) : Nat := 1000000 * max 10 (min 10000 (rf s (FT_AGE_CTRL pl) 4 14))

/-- The end of a pipeline's age tick in progress, in nanoseconds of Clove ticks since stage 1 (R262). -/
def ageDue (s : State) (pl : Nat) : Nat := tabGet (fun _ => 0) s.tab.ageLast pl + agePeriod s pl

/-- An age tick ends within the present Clove tick, or has ended. -/
def ageTickDue (s : State) (pl : Nat) : Bool := decide (ageDue s pl < 1024 * (s.ticks + 1))

/-- now advances, and while age_en is 1 the scanner removes aged entries (R262). -/
def ageTick (pl : Nat) (s : State) : State :=
  let s := putF (FT_AGE_CTRL pl) 48 16 (ageNow s pl + 1)
    { s with tab := { s.tab with ageLast := tabSet (fun _ => 0) s.tab.ageLast pl (ageDue s pl) } }
  if rb s (FT_AGE_CTRL pl) 0 then
    ((stationsOf s pl).filter (fun x => aged s pl x.2)).foldl (fun s x => removeStation pl x.1 x.2 s) s
  else s

/-- AGE_TICK: one every tick_ms milliseconds on the Clove time base; none before it is due (R262). -/
def execAgeTick (pl : Pl) (s : State) : Res := .next (if ageTickDue s pl.val then ageTick pl.val s else s)

/-- An entry matches the filter of a flush (R263). -/
def flushMatch (d : Bytes) (e : Bytes) : Bool :=
  !bit (leWord e 0) 63 && (bit (leWord e 8) 4 || bit (leWord d 0x10) 10) &&
  (!bit (leWord d 0x10) 8 || lef e 8 0 4 == lef d 0x10 16 4) && (!bit (leWord d 0x10) 9 || lef e 0 48 14 == lef d 0x10 32 14)

/-- STA_FLUSH. -/
def staFlush (cq : Nat) (e : Entry) (s : State) : State :=
  let mask := lef e.desc 0x10 0 5
  if groupMember e then finish 0 cq e.idx true 0x0497 0 none s
  else if badPairMask s mask then finish 0 cq e.idx true 0x0490 0 none s
  else
    finish 0 cq e.idx false 0 0 none ((maskPls mask).foldl (fun s p =>
      ((stationsOf s p).filter (fun x => flushMatch e.desc x.2)).foldl (fun s x => removeStation p x.1 x.2 s) s) s)

/-- STA_FLUSH (R263, R269). -/
def execStaFlush (cq : BitVec 20) (s : State) : Res :=
  .next (nextEntry 0 cq.toNat 0x93 (fun e s => staFlush cq.toNat e s) s)

/-- Valid and reserved entries of a pipeline (R273). -/
def stationUse (s : State) (pl : Nat) : Nat :=
  (s.tab.main.filter (fun x => decide (tableKey .station pl 0 ≤ x.1) && decide (x.1 < tableKey .station (pl + 1) 0))).length

/-- A write of FT_HASH_SEED: dropped while any entry is valid or reserved (R273). -/
def execHashSeedWrite (pl : Pl) (v : BitVec 64) (s : State) : Res :=
  .next (setupWrite s (fun s =>
    if stationUse s pl.val = 0 then putReg (FT_HASH_SEED pl.val) v s else putB (FT_STATION_USE pl.val) 19 true s))

/-! ### Uncorrectable table entries (R506) -/

/-- A lookup reads an uncorrectable entry: a station entry is removed and an LPM node makes the lookup miss; any other
entry makes its reader drop. The model reports the first entry that the lookup reads; the node of an LPM walk that
failed is a free value. None: the lookup reads no entry. -/
def lookupError (pl kind table tree : Nat) (key : Bytes) (e : BitVec 32) (s : State) : State × Bool :=
  match kind with
  | 1 => match dirIndex s pl table (be key 0 4 % 2 ^ 20) with
    | none => (s, false)
    | some n => (arrayError blkFT 0x0A (16 * n) s, true)
  | 2 =>
    let m := BitVec.ofNat 48 (be key 0 6)
    let b := BitVec.ofNat 14 (be key 6 2)
    match (staSlots s pl m b).find? (fun n => let x := entryAt s .station pl n e; staValid x && staIs x m b) with
    | none => (s, false)
    | some n => (arrayError blkFT 0x09 (32 * n) (eraseStation pl n (mainEntry s .station pl n) s), false)
  | 3 => (arrayError blkFT 0x0C (freeNow s).toNat (useFree s), false)
  | 4 => (arrayError blkCL 0x11 (8 * tree) s, true)
  | _ => (s, false)

end Sys2Proof.Machine
end

