-- ==== Sys2Proof/Machine/CryptoCmds.lean ====
section
/-! DEFINITION. Commands of the context engine (12 R355 to R358, R365, R366, R368). -/
namespace Sys2Proof.Machine

/-! ### CTX_WRITE and CTX_CLEAR -/

/-- A context number that a CTL opcode names (R356): its global index, or none (CX_INDEX). -/
def ctlContext (d : Bytes) : Option Nat :=
  let fn := lef d 0x10 20 2
  let n := lef d 0x10 0 20
  if (fn = 1 ∨ fn = 3) ∧ n < poolSize .contexts fn then some (ctxGlobal fn n) else none

/-- A reserved code or bit, or a field value, that CX_FIELD names (R353, R357). -/
def ctxFieldBad (b : Bytes) : Bool :=
  let kind := ctxKind b
  let esp := kind == 1
  let n := tmplLen b
  kind == 3 || lef b 0 3 2 == 3 || lef b 0 9 2 == 3 || lef b 0 20 4 != 0 || !allZero (slice b 0xE0 32) ||
  (esp && (le b 0x0C 4 != 0 || le b 0x1C 4 != 0)) ||
  (kind == 2 && lef b 0 3 2 == 2) ||
  (esp && ctxInbound b && ctxBit b 15 && !(decide (5 ≤ lef b 0 16 4) && decide (lef b 0 16 4 ≤ 8))) ||
  (esp && !ctxInbound b && ctxBit b 6 && !(if ctxBit b 8 then n == 40 || n == 48 else n == 20 || n == 28))

/-- Status of an image, 0 when it passes (R357). -/
def ctxCheck (s : State) (b : Bytes) : Nat :=
  if ctxFieldBad b then 0x04D1 else if ctxKind b ≠ 0 ∧ !cryptoEnabled s then 0x04D2 else 0

/-- A context write or clear reaches its commit point (R356, R358): host fields and seq of the image, the other device
fields zero, the generation of the owning instance; a clear sets kind, key and seq to zero. -/
def applyCtxWrite (g : Nat) (img : Option Bytes) (s : State) : State :=
  match img with
  | some b =>
    let gen := (instOf s (ctxFn g) (ctxInst s g)).gen
    putCtx g (slice b 0 4 ++ [gen, 0, 0, 0] ++ slice b 8 0x98 ++ List.replicate 0x40 0 ++ slice b 0xE0 32) s
  | none =>
    let c := ctxOf s g
    let w0 := setFld (leWord c 0) 0 2 0
    putCtx g (splice (splice (splice c 0 (leBytes 8 (setBit w0 40 false).toNat)) 0x20 (List.replicate 32 0)) 0x80
      (List.replicate 8 0)) s

/-- A checked context member or entry: a member is staged, counting as one update (R475); another applies at once. -/
def ctxCommit (cq : Nat) (e : Entry) (g : Nat) (img : Option Bytes) (s : State) : State :=
  match e.group with
  | some k =>
    if 64 < (groupTotals s k).1 + 1 then finish 0 cq e.idx true 0x0503 0 none s
    else stageMember k 0 cq e.idx (.context (BitVec.ofNat 20 g) img) (addTotals k 1 0 s)
  | none => finish 0 cq e.idx false 0 0 none (applyCtxWrite g img s)

/-- CTX_WRITE: the image is read at fetch and checked (R356). -/
def ctxWrite (cq : Nat) (e : Entry) (r : Read) (s : State) : State :=
  match ctlContext e.desc with
  | none => finish 0 cq e.idx true 0x04D0 0 none s
  | some g =>
    let addr := (leWord e.desc 0x18).toNat
    let s := entryRead 0 cq e addr 256 s
    match r with
    | .data b =>
      let b := slice b 0 256
      let st := ctxCheck s b
      if st ≠ 0 then finish 0 cq e.idx true st 0 none s else ctxCommit cq e g (some b) s
    | _ => finish 0 cq e.idx true (dmaStatus r) 0 none (readFailure 0 addr r s)

/-- A context entry runs: a member of a re-issue is staged as one that does nothing (R496). -/
def ctxEntry (cq op : Nat) (run : Entry → State → State) (s : State) : State :=
  nextEntry 0 cq op (fun e s => match reissued s e, e.group with
    | true, some k => stageMember k 0 cq e.idx .none s
    | _, _ => run e s) s

/-- CTX_WRITE (R356). -/
def execCtxWrite (cq : BitVec 20) (r : Read) (s : State) : Res :=
  .next (ctxEntry cq.toNat 0xD0 (fun e s => ctxWrite cq.toNat e r s) s)

/-- CTX_CLEAR (R356). -/
def execCtxClear (cq : BitVec 20) (s : State) : Res :=
  .next (ctxEntry cq.toNat 0xD1 (fun e s => match ctlContext e.desc with
    | none => finish 0 cq.toNat e.idx true 0x04D0 0 none s
    | some g => ctxCommit cq.toNat e g none s) s)

/-! ### Cache and region -/

/-- CONTEXT_FILL: a miss fills a context from DRAM (R366); one whose DRAM word cannot be corrected is poisoned (R365). -/
def execContextFill (g : BitVec 20) (ecc : Ecc) (s : State) : Res :=
  .next (match tabFind s.cx.cache g.toNat with
    | some _ => s
    | none =>
      let s := eccCount true ecc (cacheInsert g.toNat true (addStat CX_CACHE_MISSES 1 s))
      if ecc = .bad then
        let c := ctxOf s g.toNat
        postLog logCtxPoisoned 0 blkCX (g.setWidth 64) 0 (addErr CX_POISONED 1
          (putCtx g.toNat (splice c 0 (leBytes 8 (setBit (leWord c 0) 40 true).toNat)) s))
      else s)

/-- A context has a kind other than 0, in the cache or in device DRAM. -/
def anyContext (s : State) : Bool :=
  s.cx.cache.any (fun e => ctxKind (slice e.2.data 0 256) != 0) ||
  s.dram.any (fun e => decide (ctxBase s ≤ e.1) && decide (e.1 < ctxBase s + 2 ^ 28) && (e.1 - ctxBase s) % 256 == 0 &&
    e.2.toNat % 4 != 0 && (tabFind s.cx.cache ((e.1 - ctxBase s) / 256)).isNone)

/-- Every cached context is written back and leaves the cache. -/
def flushCtxs (s : State) : State := s.cx.cache.foldl (fun s e => evictCtx e.1 s) s

/-- CX_CTRL_WRITE (R368): evq and the clearing of refused take effect; a region_base above 119, or any write of it while a
context has a kind, is dropped and sets refused. A region that moves finds the cache written back and empty. -/
def execCxCtrlWrite (v : BitVec 64) (s : State) : Res :=
  .next (setupWrite s (fun s =>
    let old := getReg s CX_CTRL
    let bad := decide (119 < fld v 0 7) || anyContext s
    let s := if bad || fld v 0 7 == fld old 0 7 then s else flushCtxs s
    putReg CX_CTRL (BitVec.ofNat 64 ((if bad then fld old 0 7 else fld v 0 7)
      + 2 ^ 7 * b2n (bad || (bit old 7 && !bit v 7)) + 2 ^ 8 * fld v 8 12)) s))

end Sys2Proof.Machine
end

