-- ==== Sys2Proof/Machine/Reset.lean ====
section
/-! DEFINITION. Entries to stage 1 and the device fault (02 "Resets and returns", 18 R504 to R516). -/
namespace Sys2Proof.Machine

/-- The majority of the three copies of a protection fuse record (R50). -/
def protMajority (f : Fuses) : ProtFuses :=
  { setup := majority f.copyA.setup f.copyB.setup f.copyC.setup, arb := majority f.copyA.arb f.copyB.arb f.copyC.arb,
    key0 := majority f.copyA.key0 f.copyB.key0 f.copyC.key0, key1 := majority f.copyA.key1 f.copyB.key1 f.copyC.key1,
    key2 := majority f.copyA.key2 f.copyB.key2 f.copyC.key2, key3 := majority f.copyA.key3 f.copyB.key3 f.copyC.key3 }

/-- The bypass of a pair is permitted, by its hard-wired fuse link, and strapped on (R38, R39). -/
def bypassPossible (l : Life) (p : Nat) : Bool :=
  bit (protMajority l.fuses).setup (32 + p) && (if p = 0 then l.strap0 != 3 else l.strap1 != 3)

/-- What an entry to stage 1 keeps of the start state: supplies, straps, fuses, the VDD_AON domain, the pins
(R65). An image load or a burn under way is abandoned (R67). -/
def lifeStage1 (l : Life) (cause : BitVec 8) (rrs : Bool) : Life :=
  { Life.dark l.fuses with
    aonGood := true, strap0 := l.strap0, strap1 := l.strap1, refStable := l.refStable, bypassUp := l.bypassUp,
    perst := false, powerUp := false, stage := 1, rrs := rrs, resetCause := cause, vppOk := l.vppOk,
    sensed := l.sensed, identity := l.identity, thermTrip := l.thermTrip, lastFault := l.lastFault,
    laterFaults := l.laterFaults, faultLatch := l.faultLatch, smbusUp := l.smbusUp, jtag := l.jtag }

/-- The link that an entry to stage 1 leaves when configuration space stays live (R65): its training and the
configuration spaces are kept. The MSI-X tables and pending bits lie behind BAR0 and go with all setup (R66). -/
def linkLive (k : Link) : Link :=
  { Link.reset with cfg := k.cfg, up := k.up, speed := k.speed, width := k.width, flit := k.flit, margin := k.margin }

/-- The plant pairs as an entry to stage 0 or 1 leaves them: in the bypass, or off where it is not permitted or
strapped off (R331): a permitted, strapped ring stays closed (R70). -/
def pairsReset (l : Life) (s : State) : State :=
  { s with plant := { s.plant with pairs := [0, 1].map (fun p =>
      { PairSt.reset with state := if bypassPossible l p then .bypass else .off }) } }

/-- The bypass is asserted on a pair in service (R41): a frame the service path has started on an egress of the pair
is ended with an inverted FCS. -/
def cutEgress (port : PPort) (s : State) : State :=
  match tabFind s.plant.sending port.val with
  | none => s
  | some f => emit (.plantFrame port (match tabFind s.pipe.frames f with | some x => x.bytes | none => []) false)
      { s with plant := { s.plant with sending := tabErase s.plant.sending port.val } }

/-- Every egress of a pair is cut. -/
def cutPair (p : Nat) (s : State) : State :=
  if p = 0 then cutEgress 1 (cutEgress 0 s) else cutEgress 3 (cutEgress 2 s)

/-- A pair forwards through the bypass: it is not in service (R330). -/
def pairInBypass (s : State) (p : Nat) : Bool :=
  match (s.plant.pairs.getD p PairSt.reset).state with
  | .bypass => true
  | .armed => true
  | .taking => true
  | _ => false

/-- The bays as an entry to stage 0 or 1 leaves them: power off, with no shutdown notification (R454). -/
def baysReset (s : State) : Tab BaySt :=
  s.st.bays.map (fun e => (e.1, { BaySt.empty with
    present := e.2.present, state := if e.2.present then .off else .empty }))

/-- A bay has its power on. -/
def bayPowered (b : BaySt) : Bool :=
  match b.state with
  | .powering | .training | .init | .ready | .stopping => true
  | _ => false

/-- BAYn_PERST_N low, then BAYn_PWREN low, on each powered bay. -/
def dropBays (s : State) : State :=
  (List.range 4).foldl (fun s b =>
    if bayPowered (tabGet (fun _ => BaySt.empty) s.st.bays b) then
      emit (.bayPin (Fin.ofNat 4 b) false false) (emit (.bayPin (Fin.ofNat 4 b) true false) s)
    else s) s

/-- The threads at the start of stage 1: halted, with the registers they held (R397). -/
def keptThreads (ts : Tab Thread) : Tab Thread :=
  (ts.map (fun e => (e.1, { Thread.reset with regs := e.2.regs }))).filter (fun e => !decide (e.2 = Thread.reset))

/-- The block at the start of stage 1, every loaded image and all setup discarded (R66). The queue of waiting
commands, the record of outputs and the counter of free values are the model's own and go on. -/
def enterStage1 (life : Life) (link : Link) (s : State) : State :=
  let s := dropBays (cutPair 1 (cutPair 0 s))
  pairsReset life { State.darkWith life.fuses with
    pending := s.pending, freeCtr := s.freeCtr, out := s.out, life := life, link := link,
    fc := { FlowCores.reset with threads := keptThreads s.fc.threads },
    st := { Storage.reset with bays := baysReset s } }

/-- A return that repeats all of stage 1 and keeps no configuration space: PERST# release and hot reset. -/
def stage1Full (cause : BitVec 8) (s : State) : State :=
  enterStage1 (lifeStage1 s.life cause true) { Link.reset with up := false } s

/-- FLR on PF0: array clears and DRAM scrub only; fuses and BIST result kept (R65). DESIGN CHOICE: the spec does not say
what becomes of a BIST or DRAM training that an earlier entry to stage 1 has not made yet; it is taken as done, with the
result that bist_fail holds (log entry 183). -/
def stage1Flr (s : State) : State :=
  let l := lifeStage1 s.life 4 s.life.rrs
  let l := { l with flrStage := true, fusesSensed := s.life.fusesSensed, bistDone := true, dramDone := true,
                    bistFail := s.life.bistFail, identityBad := s.life.identityBad }
  let k := linkLive s.link
  enterStage1 l { k with cfg := tabErase k.cfg 0, margin := [] } s

/-- Record a device fault in the VDD_AON domain (R516). -/
def recordFault (r : FaultRec) (l : Life) : Life :=
  match l.lastFault with
  | none => { l with lastFault := some r, faultLatch := some r }
  | some _ =>
    { l with faultLatch := some r,
             laterFaults := if l.laterFaults = 0xFFFFFFFF#32 then l.laterFaults else l.laterFaults + 1 }

/-- The entry that opens the log of a stage 1 entered by a device fault (R508), from the device-fault latch. -/
def postFaultEntry (s : State) : State :=
  match s.life.faultLatch with
  | none => s
  | some r => postLogAt logDeviceFault 4 r.block.toNat (r.cause.setWidth 64) (r.detail.setWidth 64) r.time s

/-- A device fault (R505): the AER fatal message, FX_LAST_FAULT and the latch, then stage 1 with configuration space
live. Before stage 1 the monitored supplies are not up and nothing happens. -/
def deviceFault (cause : Nat) (block : Nat) (detail : Nat) (s : State) : State :=
  if s.life.stage = 0 then s else
  let r : FaultRec := { cause := BitVec.ofNat 8 cause, block := BitVec.ofNat 5 block, detail := BitVec.ofNat 32 detail,
                        time := now64 s }
  let s := aerReport 0 .internalFatal s
  let sat := s.life.lastFault.isSome && s.life.laterFaults == 0xFFFFFFFE#32
  let s := { s with life := recordFault r s.life }
  let s := postFaultEntry (enterStage1 (lifeStage1 s.life 5 s.life.rrs) (linkLive s.link) s)
  if sat then postLog logCounterSaturated 0 blkFX (BitVec.ofNat 64 FX_LAST_FAULT_C) 0 s else s

/-- Residue mismatches of a token operation: the bucket is recomputed from its stored state and the operation repeated; a
second mismatch is a device fault (R31, R506). -/
def tokenResidue (e : Residue) (s : State) : State :=
  match e with
  | .good => s
  | .once => addErr TM_RECOMPUTE 1 (correctable FX_CORR_RESIDUE s)
  | .twice => deviceFault 7 blkTM 0 (addErr TM_RECOMPUTE 1 (correctable FX_CORR_RESIDUE s))

end Sys2Proof.Machine
end

