-- ==== Sys2Proof/Machine/FlowOps.lean ====
section
/-! DEFINITION. Threads, channels, mailboxes, thread faults and the thread address space (13). -/
namespace Sys2Proof.Machine

/-! ### Threads and cores -/

/-- A core. -/
def coreOf (s : State) (c : Nat) : CoreSt := tabGet (fun _ => CoreSt.reset) s.fc.cores c
/-- Set a core. -/
def putCore (c : Nat) (x : CoreSt) (s : State) : State :=
  { s with fc := { s.fc with cores := tabSet (fun _ => CoreSt.reset) s.fc.cores c x } }

/-- The thread numbers of a core: the housekeeping core has one. -/
def threadsOf (c : Nat) : List Nat := if c = 32 then [0] else List.range 8

/-- A channel is local. -/
def Chn.isLocal : Chn → Bool
  | .local _ _ => true
  | .mbox _ _ => false

/-- A thread waits on a local channel (R383). -/
def waitsLocal (x : Thread) : Bool :=
  match x.wait with
  | .recv c _ => c.isLocal
  | .claim c => c.isLocal
  | _ => false

/-- A thread can still move its core: it runs, is ready or stopped, or waits on something other than a local channel. -/
def threadLive (x : Thread) : Bool :=
  match x.state with
  | .ready => true
  | .running => true
  | .stopped => true
  | .stalled => x.done || !waitsLocal x
  | _ => false

/-- The closed-wait condition of a core (R383). -/
def coreClosed (s : State) (c : Nat) : Bool :=
  (threadsOf c).all (fun t => !threadLive (threadOf s c t)) &&
  (threadsOf c).any (fun t => (threadOf s c t).state == .stalled)

/-- A break of the closed-wait condition starts its count again (R383). -/
def requiet (c : Nat) (s : State) : State :=
  if coreClosed s c then s else putCore c { coreOf s c with quiet := 0 } s

/-- Set a thread. -/
def putThread (c t : Nat) (x : Thread) (s : State) : State := requiet c (putThreadRaw c t x s)

/-- A register of a thread: g0 reads 0 (R397). -/
def getG (x : Thread) (n : Nat) : Word := if n = 0 then 0 else x.regs.getD (n - 1) 0

/-- Write a register; writes to g0 are discarded. -/
def setG (x : Thread) (n : Nat) (v : Word) : Thread :=
  if n = 0 then x else { x with regs := x.regs.set (n - 1) v }

/-- Several register writes. -/
def setGs (x : Thread) (l : List (Nat × Word)) : Thread := l.foldl (fun x w => setG x w.1 w.2) x

/-- pc is taken modulo 32,768, or 2^20 in the housekeeping core (R397, R421). -/
def pcMod (c : Nat) : Nat := if c = 32 then 2 ^ 20 else 32768

/-- The value of a pc result. -/
def pcAdd (c : Nat) (pc : BitVec 20) (d : Int) : BitVec 20 := BitVec.ofNat 20 (((pc.toNat : Int) + d) % (pcMod c : Int)).toNat

/-! ### Channels (R376 to R378) -/

/-- A channel or mailbox. -/
def chanOf (s : State) : Chn → Channel
  | .local c n => tabGet (fun _ => Channel.empty) s.fc.chans (64 * c + n)
  | .mbox c n => tabGet (fun _ => Channel.empty) s.fc.mboxes (32 * c + n)

/-- Set a channel or mailbox. -/
def putChan (k : Chn) (x : Channel) (s : State) : State :=
  match k with
  | .local c n => { s with fc := { s.fc with chans := tabSet (fun _ => Channel.empty) s.fc.chans (64 * c + n) x } }
  | .mbox c n => { s with fc := { s.fc with mboxes := tabSet (fun _ => Channel.empty) s.fc.mboxes (32 * c + n) x } }

/-- Slots of a channel: 2, of a mailbox 16 (R369). -/
def chanCap : Chn → Nat
  | .local _ _ => 2
  | .mbox _ _ => 16

/-- A slot is free that no claim has reserved. -/
def slotFree (k : Chn) (x : Channel) : Bool := decide (x.msgs.length + b2n x.holder.isSome < chanCap k)

/-- A mailbox is enabled (R378); the housekeeping core has 8, which need no enable (R391). -/
def mboxEnabled (s : State) (core m : Nat) : Bool :=
  if core = 32 then decide (m < 8) else rb s (FC_CORE_CTRL core) (8 + m)

/-- A message of a CORE_MSG queue whose instance has moved to another generation (R380). -/
def msgStale (s : State) (m : Msg) : Bool :=
  fld m.header 3 3 == 2 &&
  (instOf s (fld m.header 14 2) (fld m.header 16 10)).gen.toNat != fld m.header 26 8

/-- Core that owns a channel. -/
def Chn.core : Chn → Nat
  | .local c _ => c
  | .mbox c _ => c

/-- Drop stale messages from the front of a list, counting them. -/
def dropStale (core : Nat) : List Msg → State → State × List Msg
  | [], s => (s, [])
  | m :: ms, s =>
    if msgStale s m then dropStale core ms (if core < 32 then addErr (FC_STALE_MSGS core) 1 s else s)
    else (s, m :: ms)

/-- Take the oldest message that is not stale (R377, R380). -/
def takeMsg (k : Chn) (s : State) : State × Option Msg :=
  let r := dropStale k.core (chanOf s k).msgs s
  match r.2 with
  | [] => (putChan k { chanOf r.1 k with msgs := [] } r.1, none)
  | m :: ms => (putChan k { chanOf r.1 k with msgs := ms } r.1, some m)

/-- The register writes of a RECV (R406). -/
def recvWrites (rd : Nat) (m : Msg) : List (Nat × Word) :=
  let n := fld m.header 0 3
  (rd, m.header) :: (List.range 4).map (fun i => (rd + 1 + i, if i < n then m.words.getD i 0 else 0))

/-- Thread number of a core and thread. -/
def tid (c t : Nat) : Nat := 8 * c + t

/-- A waiting thread is served only while it is STALLED: a FROZEN thread is not woken (R384). -/
def servable (s : State) (n : Nat) : Bool := (threadOf s (n / 8) (n % 8)).state == .stalled

/-- Serve the oldest waiting receiver of a channel, if a message is visible. -/
def serveReceiver (k : Chn) (s : State) : State :=
  match (chanOf s k).receivers.find? (servable s) with
  | none => s
  | some n =>
    let r := takeMsg k s
    match r.2 with
    | none => r.1
    | some m =>
      let x := threadOf r.1 (n / 8) (n % 8)
      let rd := match x.wait with | .recv _ rd => rd | _ => 0
      let s := putChan k { chanOf r.1 k with receivers := (chanOf r.1 k).receivers.filter (· != n) } r.1
      putThread (n / 8) (n % 8) { x with done := true, owed := recvWrites rd m } s

/-- A CORE_MSG entry that waits for a slot is still there. -/
def postLive (s : State) (p : BitVec 2 × BitVec 20 × BitVec 32) : Bool :=
  match entryIdx s p.1.toNat p.2.1.toNat p.2.2 with
  | none => false
  | some e => e.phase == .started

/-- Grant the oldest waiting claim of a channel, if it can be granted (R376). A delivery that waits takes the slot
first (R378). -/
def serveClaimer (k : Chn) (s : State) : State :=
  let x := chanOf s k
  if x.holder.isSome || !slotFree k x || x.posts.any (postLive s) then s else
  match x.claimers.find? (servable s) with
  | none => s
  | some n =>
    let s := putChan k { x with holder := some n, claimers := x.claimers.filter (· != n) } s
    let y := threadOf s (n / 8) (n % 8)
    putThread (n / 8) (n % 8) { y with done := true, claim := some k, put := [] } s

/-- Serve a channel until nothing more can be served. -/
def serveFor : Nat → Chn → State → State
  | 0, k, s => serveClaimer k s
  | n + 1, k, s => serveFor n k (serveClaimer k (serveReceiver k s))

/-- Serve what waits on a channel. -/
def serve (k : Chn) (s : State) : State := serveFor (chanOf s k).msgs.length k s

/-- A message becomes visible. -/
def publish (k : Chn) (m : Msg) (s : State) : State :=
  let x := chanOf s k
  serve k (putChan k { x with msgs := x.msgs ++ [m] } s)

/-- A whole message delivered in one step takes a slot that no claim has reserved (R378): false when there is none. -/
def deliver (k : Chn) (m : Msg) (s : State) : State × Bool :=
  if slotFree k (chanOf s k) then (publish k m s, true) else (s, false)

/-- Release a thread's claim and discard its partial message. -/
def releaseClaim (c t : Nat) (s : State) : State :=
  let x := threadOf s c t
  match x.claim with
  | none => s
  | some k =>
    let s := putThread c t { x with claim := none, put := [] } s
    if (chanOf s k).holder = some (tid c t) then serve k (putChan k { chanOf s k with holder := none } s) else s

/-- A thread leaves the lists it waits in. -/
def leaveWait (c t : Nat) (s : State) : State :=
  let drop (k : Chn) : State :=
    let x := chanOf s k
    putChan k { x with receivers := x.receivers.filter (· != tid c t), claimers := x.claimers.filter (· != tid c t) } s
  match (threadOf s c t).wait with
  | .recv k _ => drop k
  | .claim k => drop k
  | _ => s

/-- The core groups a thread has opened are aborted when it halts, faults or is killed (R416). -/
def abortOwnGroups (c t : Nat) (s : State) : State :=
  let mine := (s.cg.groups.filter (fun e => e.2.core == some (BitVec.ofNat 6 c, BitVec.ofNat 3 t))).map (fun e => e.1)
  mine.foldl (fun s g =>
    match cgOf s g with
    | none => s
    | some x =>
      let s := putCg g { x with gclose := none } s
      match x.state with
      | .committing => putCg g { x with core := none, gclose := none } s
      | _ => freeCg g (abortGroup g [] 0x0502 s)) s

/-- A thread stops for good: its wait, its claim and its open groups go; registers and pc are kept (R385, R386). -/
def endThread (c t : Nat) (st : TState) (s : State) : State :=
  let s := releaseClaim c t (leaveWait c t s)
  let s := putThread c t { threadOf s c t with state := st, wait := .none, done := false, owed := [],
                                               owedMem := [], stopReq := false,
                                               stepping := false, passBp := false } s
  abortOwnGroups c t s

/-- A thread fault (R386, R420): FAULTED, recorded and posted. A thread fault of the housekeeping core is a device
fault, cause 3 (R392). -/
def threadFault (c t cause : Nat) (detail : Nat) (s : State) : State :=
  let pc := (threadOf s c t).pc.toNat
  if c = 32 then deviceFault 3 blkFC cause s else
  let s := endThread c t .faulted s
  let n := 8 * c + t
  let s := putReg (FC_THR_C n) (BitVec.ofNat 64 (cause + pc % 32768 * 2 ^ 8 + detail % 2 ^ 32 * 2 ^ 24)) s
  postLog logFcThreadFault 0 blkFC (BitVec.ofNat 64 (c + t * 2 ^ 8 + cause * 2 ^ 16)) (BitVec.ofNat 64 pc)
    (addErr (FC_THR_D n) 1 s)

/-! ### The thread address space (R370, R421) -/

/-- The DRAM window of a core lets an access through: inside the window, below 30 GiB (R370, R522). -/
def inWindow (s : State) (c d n : Nat) : Bool :=
  let base := rf s (FC_CORE_DRAM c) 0 9 * 2 ^ 26
  let size := min 512 (rf s (FC_CORE_DRAM c) 16 10) * 2 ^ 26
  decide (base ≤ d) && decide (d + n ≤ base + size) && decide (d + n ≤ 30 * 2 ^ 30)

/-- Where `n` bytes at an address lie for a thread. -/
def place (s : State) (c t : Nat) (a n : Nat) : Place :=
  if c = 32 then (if a + n ≤ 0x400000 then .hk a else .bad)
  else if a + n ≤ 0x10000 then .slice (sliceBase c t + a)
  else if 0x1000000 ≤ a ∧ a + n ≤ 0x1400000 then .cluster (2 ^ 22 * (c / 8) + (a - 0x1000000))
  else if 0x1000000000 ≤ a ∧ a + n ≤ 0x1800000000 ∧ inWindow s c (a - 0x1000000000) n then .dram (a - 0x1000000000)
  else .bad

/-- Read bytes of a place. -/
def placeRead (s : State) (p : Place) (n : Nat) : Bytes :=
  match p with
  | .slice k => memRead s.fc.slices k n
  | .cluster k => memRead s.fc.cluster k n
  | .dram d => memRead s.dram d n
  | .hk a => memRead s.fc.hkMem a n
  | .bad => List.replicate n 0

/-- Write bytes to a place. -/
def placeWrite (p : Place) (b : Bytes) (s : State) : State :=
  match p with
  | .slice k => { s with fc := { s.fc with slices := memWrite s.fc.slices k b } }
  | .cluster k => { s with fc := { s.fc with cluster := memWrite s.fc.cluster k b } }
  | .dram d => { s with dram := memWrite s.dram d b }
  | .hk a => { s with fc := { s.fc with hkMem := memWrite s.fc.hkMem a b } }
  | .bad => s

/-- The long stall of an access to a place, if it has one (R370, R421). -/
def placeWait : Place → Option Wait
  | .slice _ => none
  | .cluster _ => some .cluster
  | .dram _ => some .dram
  | .hk _ => some .cluster
  | .bad => none

/-! ### Punts (R381) -/

/-- Handles in use: the first cells of the frames that cores hold. -/
def handlesHeld (s : State) : List Nat := s.fc.cores.flatMap (fun e => e.2.punts.map (·.1))

/-- The handle of a frame that a core takes: its first cell (R381). Which cell it is the spec does not say; it is none
that another held frame begins at. -/
def newHandle (s : State) : Nat :=
  let used := handlesHeld s
  let at_ (i : Nat) : Nat := ((freeNow s).toNat + i) % 2 ^ 18
  at_ (((List.range (used.length + 1)).find? (fun i => !used.contains (at_ i))).getD 0)

/-- A core holds a frame under a new handle. -/
def holdFrame (c f : Nat) (s : State) : State × Nat :=
  (useFree (putCore c { coreOf s c with punts := (coreOf s c).punts ++ [(newHandle s, f)] } s), newHandle s)

/-- The frame a core holds under a handle. -/
def heldFrame (s : State) (c handle : Nat) : Option Nat :=
  ((coreOf s c).punts.find? (fun p => p.1 == handle)).map (·.2)

/-- A core no longer holds a frame. -/
def dropPunt (c f : Nat) (s : State) : State :=
  putCore c { coreOf s c with punts := (coreOf s c).punts.filter (fun p => p.2 != f) } s

/-- Free every punt a core holds. -/
def freePunts (c : Nat) (s : State) : State :=
  (coreOf s c).punts.foldl (fun s p => freeFrame p.2 (dropPunt c p.2 s)) s

/-- The cells of a punt: one more, for its metadata (R381). -/
def addMetaCell (f : Nat) (s : State) : State :=
  match frameOf s f with
  | none => s
  | some x => match bufOf s x.buf with
    | none => s
    | some b => putBuf x.buf { b with cells := b.cells + 1, region := .shared } s

/-- The metadata cell is freed. -/
def dropMetaCell (f : Nat) (s : State) : State :=
  match frameOf s f with
  | none => s
  | some x => match bufOf s x.buf with
    | none => s
    | some b => putBuf x.buf { b with cells := b.cells - 1 } s

/-- Punt a frame to a mailbox (R381): false when it is dropped there; the frame is then still its caller's. -/
def puntFrame (core mbox f : Nat) (reason : Nat) (s : State) : State × Bool :=
  match frameOf s f with
  | none => (s, false)
  | some x =>
    if !mboxEnabled s core mbox then (s, false)
    else if 1024 ≤ (coreOf s core).punts.length then (addErr FC_PUNT_DROPS 1 s, false)
    else if !slotFree (.mbox core mbox) (chanOf s (.mbox core mbox)) then (s, false)
    else
      let s := addMetaCell f (putFrame f { x with loc := .core } s)
      let r := holdFrame core f s
      let w0 := r.2 + x.len % 2 ^ 14 * 2 ^ 18 + x.source.toNat * 2 ^ 32 + x.port.toNat * 2 ^ 36 + x.pass.toNat * 2 ^ 40
      let m : Msg := { header := BitVec.ofNat 64 (3 + 3 * 8 + x.pl.toNat * 2 ^ 54 + reason * 2 ^ 57),
                       words := [BitVec.ofNat 64 w0, time64 x.rxTime, x.epoch.setWidth 64, 0] }
      deliver (.mbox core mbox) m r.1

end Sys2Proof.Machine
end

