-- ==== Sys2Proof/Machine/StorageOps.lean ====
section
/-! DEFINITION. Storage commands: range locks, extents, issue to the packs, error logs and freezes (15 R422 to R445). -/
namespace Sys2Proof.Machine

/-! ### Commands (R427 to R429) -/

/-- Opcode of a storage command. -/
def StCmd.op (c : StCmd) : Nat := lef c.desc 0 4 8
/-- First block. -/
def StCmd.slba (c : StCmd) : Nat := le c.desc 0x18 8
/-- Block count. -/
def StCmd.nblocks (c : StCmd) : Nat := le c.desc 0x20 4

/-- ST_WRITE, ST_ZERO, ST_TRIM or ST_CMPWRITE: a command that changes blocks. -/
def changesBlocks (op : Nat) : Bool := op == 0x31 || op == 0x33 || op == 0x34 || op == 0x35

/-- Bytes of a run of blocks of a namespace. -/
def nsBytes (s : State) (fns n : Nat) : Nat := n * 2 ^ (nsOf s fns).bshift

/-! ### Range locks (R434 to R436) -/

/-- Two commands cover a common block of one namespace. -/
def overlaps (a b : StCmd) : Bool :=
  a.fns == b.fns && decide (a.slba < b.slba + b.nblocks) && decide (b.slba < a.slba + a.nblocks)

/-- A command's pack answers are all in, and its data lies in the packs: a member past its commit point (R430, R481). -/
def homeDurable (s : State) (n : Nat) (c : StCmd) : Bool := c.committed && c.issued && outstanding s n == 0

/-- The lock of a command can be granted; an ST_FLUSH waits for the earlier changes of its namespace instead (R430, R434). -/
def grantable (s : State) (n : Nat) (c : StCmd) : Bool :=
  s.st.cmds.all (fun e =>
    decide (n ≤ e.1) ||
    (if c.op = 0x32 then e.2.fns != c.fns || !changesBlocks e.2.op || homeDurable s e.1 e.2
     else !e.2.held || !overlaps c e.2 || (c.op == 0x30 && e.2.op == 0x30)))

/-- Range-lock entries that an instance holds (R436), the chunk a rebuild copies apart. -/
def locksHeld (s : State) (inst : Nat) : Nat :=
  (s.st.cmds.filter (fun e => e.2.held && e.2.inst.toNat == inst)).length

/-! ### Extents (R423, R426) -/

/-- Extents that take writes, A before B. -/
def writeTargets (n : Ns) : List Bool :=
  match n.state with
  | .online => if n.mirror then [false, true] else [false]
  | .degradedA => [true]
  | .degradedB => [false]
  | .rebuilding => [false, true]
  | _ => []

/-- The rebuild of a namespace, if one runs. -/
def rebuildOf (s : State) (fns : Nat) : Option Rebuild :=
  (s.st.rebuilds.find? (fun e => e.2.fns.toNat == fns)).map (fun e => e.2)

/-- The extent with fewer commands outstanding; a tie goes to A. -/
def lighter (s : State) (fns : Nat) : Bool := decide (extentLoad s fns true < extentLoad s fns false)

/-- The extent a read goes to: true is B; none when the namespace cannot be read. -/
def readTarget (s : State) (fns : Nat) (c : StCmd) : Option Bool :=
  let n := nsOf s fns
  match n.state with
  | .online => some (n.mirror && lighter s fns)
  | .degradedA => some true
  | .degradedB => some false
  | .rebuilding =>
    match rebuildOf s fns with
    | none => none
    | some r => if c.slba + c.nblocks ≤ r.next then some (lighter s fns) else some (!r.target)
  | _ => none

/-- The pack in a bay is at its read-only threshold (R464). -/
def packReadOnly (s : State) (b : Nat) : Bool := rb s (MB_BAY_B b) 8

/-! ### Issue (R437, R450) -/

/-- Send the NVMe commands of an operation on an extent; only a transfer of data is split at MDTS. -/
def issueOn (n : Nat) (c : StCmd) (onB : Bool) (opcode : Nat) (transfer : Bool) (data : Bytes) (s : State) : State :=
  let ns := nsOf s c.fns.toNat
  let r := ratio s ns onB
  let sh := ns.bshift - (if r = 8 then 3 else 0)
  let blocks := if c.op = 0x32 then 0 else r * c.nblocks
  let m := if transfer then mdtsBlocks s (ns.bay onB) sh blocks else blocks
  let runs := if c.op = 0x32 then [(0, 0)] else runsOf m blocks 0 blocks
  runs.foldl (fun s x =>
    packIssue (ns.bay onB) (.cmd n onB (x.1 * 2 ^ sh)) opcode (ns.nsid onB) (ns.plba onB + r * c.slba + x.1) x.2
      (if data.isEmpty then [] else slice data (x.1 * 2 ^ sh) (x.2 * 2 ^ sh)) s) s

/-- NVMe opcode, whether it transfers data, and the data of a command that changes blocks or flushes. -/
def changeOp (c : StCmd) : Nat × Bool × Bytes :=
  match c.op with
  | 0x32 => (nvFlush, false, [])
  | 0x33 => (nvZeroes, false, [])
  | 0x34 => (nvDsm, false, [])
  | _ => (nvWrite, true, c.data)

/-- Send the write side of a command to every extent that takes writes. -/
def issueChange (n : Nat) (c : StCmd) (stage : StStage) (s : State) : State :=
  let ts := writeTargets (nsOf s c.fns.toNat)
  let o := changeOp c
  let s := putCmd n { c with issued := true, stage := stage, targets := ts, failA := none, failB := none } s
  ts.foldl (fun s b => issueOn n c b o.1 o.2.1 o.2.2 s) s

/-- Send the read side of a command to an extent. -/
def issueRead (n : Nat) (c : StCmd) (onB : Bool) (stage : StStage) (s : State) : State :=
  let s := putCmd n { c with issued := true, stage := stage, onB := onB, targets := [onB],
                             readData := List.replicate (nsBytes s c.fns.toNat c.nblocks) 0 } s
  issueOn n c onB nvRead true [] s

/-! ### Error logs (R443, R444) -/

/-- An error log ring. -/
def elogOf (s : State) (i : Nat) : ELog := tabGet (fun _ => ELog.empty) s.st.elogs i
/-- Set an error log ring. -/
def putElog (i : Nat) (x : ELog) (s : State) : State :=
  { s with st := { s.st with elogs := tabSet (fun _ => ELog.empty) s.st.elogs i x } }

/-- What a pack reported, for an error log entry: extent, status field, first failing block. -/
abbrev PackReport := Option (Bool × BitVec 15 × Word)

/-- Write an error log entry for a command. With logging stopped it is only counted. -/
def elogWrite (c : StCmd) (status : Nat) (froze degraded repaired : Bool) (rep : PackReport) (s : State) : State :=
  let i := c.inst.toNat
  let x := elogOf s i
  if x.sizeLog2 = 0 then addErr ST_ELOG_LOST 1 s else
  let ns := nsOf s c.fns.toNat
  let pk : Nat := match rep with
    | none => 0
    | some (b, sf, _) => ns.bay b + 4 * b2n b + 8 + 2 ^ 16 * sf.toNat
  let lba : Nat := match rep with | none => 2 ^ 64 - 1 | some (_, _, l) => l.toNat
  let body := leBytes 4 x.nextSeq.toNat ++ leBytes 4 (status + 2 ^ 16 * b2n froze + 2 ^ 17 * b2n degraded + 2 ^ 18 * b2n repaired) ++
    leBytes 4 (localQ s 2 c.fq.toNat) ++ leBytes 4 c.idx.toNat ++ leBytes 4 (c.op + 2 ^ 16 * le c.desc 0x24 2) ++ leBytes 4 pk ++
    leBytes 8 c.slba ++ leBytes 4 c.nblocks ++ leBytes 4 x.nextSeq.toNat ++ leBytes 8 lba ++ leBytes 8 (now64 s).toNat ++ slice c.desc 8 8
  let at_ := fld x.base 12 52 * 4096 + 64 * ((x.nextSeq - 1).toNat % 2 ^ x.sizeLog2.toNat)
  let r := instWrite 2 i c.gen false at_ body s
  if r.2 then putElog i { x with nextSeq := x.nextSeq + 1 } r.1 else r.1

/-! ### Freezes (R441) -/

/-- Statuses that freeze the queue (R440). -/
def freezes (status : Nat) : Bool :=
  [0x0300, 0x0301, 0x0302, 0x0303, 0x0304, 0x0305, 0x0306, 0x0308].contains status

/-- An index lies before another. -/
def idxLt (a b : BitVec 32) : Bool := decide (2 ^ 31 ≤ (a - b).toNat)

/-- A queue meets a freezing status at an entry: entries not admitted are discarded and stay posted, members at or after
latched are not executed, and open groups with a member in the queue are aborted (R441, R445, R492). -/
def freezeQueue (fq : Nat) (idx : BitVec 32) (status : Nat) (s : State) : State :=
  let q := queueOf s 2 fq
  match q.qstate with
  | .running =>
    let keep (e : Entry) : Bool :=
      e.idx == idx || !(e.phase == .fetched || (e.phase == .staged && !idxLt e.idx idx))
    let s := putQueue 2 fq { q with qstate := .frozen, latched := idx, stopStatus := BitVec.ofNat 16 status, reread := false,
                                    stopOwed := true, entries := q.entries.filter keep } s
    let s := addErr ST_FREEZES 1 (addErr QE_STOPS 1 s)
    let s := putReg QE_LAST_STOP (BitVec.ofNat 64 (fq + 2 * 2 ^ 20 + status * 2 ^ 32)) s
    let gs := (s.cg.groups.filter (fun e => e.2.members.any (fun m => match m.entry with
      | some (fn, k, _) => fn == 2 && k.toNat == fq | none => false))).map (fun e => e.1)
    gs.foldl (fun s g => abortGroup g [] 0x0502 s) s
  | .frozen =>
    if idxLt idx q.latched then
      putQueue 2 fq { q with latched := idx, stopStatus := BitVec.ofNat 16 status } s
    else s
  | _ => s

/-- A command fails: error log entry when the status freezes the queue, then its completion (R440, R441). -/
def failStorage (c : StCmd) (status : Nat) (rep : PackReport) (s : State) : State :=
  if freezes status then
    let g := match entryIdx s 2 c.fq.toNat c.idx with | some e => e.group | none => none
    let s := elogWrite c status true false false rep s
    let s := markDone 2 c.fq.toNat c.idx true status 0 none s
    abortOf g (freezeQueue c.fq.toNat c.idx status s)
  else finish 2 c.fq.toNat c.idx true status 0 none s

/-- A failed command leaves the engine with its lock. -/
def failCmd (n : Nat) (c : StCmd) (status : Nat) (rep : PackReport) (s : State) : State :=
  failStorage c status rep (dropCmd n s)

/-- Issue a command whose lock is granted and whose lists and data are in hand; a namespace that went absent meanwhile
fails it (R440). -/
def issueCmd (n : Nat) (s : State) : State :=
  match cmdOf s n with
  | none => s
  | some c =>
    if c.issued || !c.granted || !c.ready || c.discarded || (c.group.isSome && !c.committed) then s else
    match c.op with
    | 0x30 => match readTarget s c.fns.toNat c with
      | none => failCmd n c 0x0304 none s
      | some b => issueRead n c b .main s
    | 0x35 => match readTarget s c.fns.toNat c with
      | none => failCmd n c 0x0304 none s
      | some b => issueRead n c b .main s
    | _ => if (writeTargets (nsOf s c.fns.toNat)).isEmpty then failCmd n c 0x0304 none s else issueChange n c .main s

/-! ### Rebuild and degrading (R438, R445, R467) -/

/-- Post a bay event (R468). -/
def bayEvent (code status qnum arg0 arg1 : Nat) (s : State) : State :=
  postEvent 0 (rf s MB_CTRL 0 12) (blockEvent code status qnum arg0 arg1) s

/-- The rebuild of a namespace ends: its slot is free and REBUILD_DONE is posted. -/
def endRebuild (fns status : Nat) (s : State) : State :=
  match s.st.rebuilds.find? (fun e => e.2.fns.toNat == fns) with
  | none => s
  | some (k, r) =>
    let s := { s with st := { s.st with rebuilds := tabErase s.st.rebuilds k } }
    bayEvent 0x74 status fns (r.next % 2 ^ 32) k (putB (MB_REBUILD_A k) 16 false s)

/-- Set the state of a namespace. -/
def putNsState (fns : Nat) (st : NsState) (s : State) : State := putNs fns { nsOf s fns with state := st } s

/-- An extent of a mirrored namespace is marked failed (R438); in a rebuild the status says why it ends (R467). -/
def markExtent (fns : Nat) (onB : Bool) (status : Nat) (s : State) : State :=
  let n := nsOf s fns
  let n' := if onB then { n with failedB := true } else { n with failedA := true }
  let bad : NsState := if onB then .degradedB else .degradedA
  match n.state with
  | .online => putNs fns { n' with state := bad } s
  | .degradedA => if onB then putNs fns { n' with state := .absent } s else s
  | .degradedB => if onB then s else putNs fns { n' with state := .absent } s
  | .rebuilding =>
    match rebuildOf s fns with
    | none => putNs fns { n' with state := bad } s
    | some r =>
      if r.target = onB then endRebuild fns status (putNs fns { n' with state := bad } s)
      else endRebuild fns 0x0304 (putNs fns { n' with state := .absent } s)
  | _ => s

end Sys2Proof.Machine
end

