-- ==== Sys2Proof/Machine/Commit.lean ====
section
/-! DEFINITION. Commit groups past their close: commit point, flips, effects, journal, aborts (17). -/
namespace Sys2Proof.Machine

/-! ### The journal pack (R485 to R488) -/

/-- Offset in the log of its head. -/
def logHead (s : State) : Nat := if logSize s = 0 then 0 else (s.cg.logTail + logSize s - s.cg.logUsed % logSize s) % logSize s

/-- seq of the first entry that the head has not passed. -/
def headSeq (s : State) : BitVec 64 := match s.cg.records with | [] => s.cg.nextSeq | r :: _ => r.seq

/-- A superblock of 4 KiB: magic, write count, head offset, head seq, CRC-32C (R485). -/
def superblock (s : State) : Bytes :=
  let b := leBytes 4 0x47534A4C ++ leBytes 8 (s.cg.superCount + 1) ++ leBytes 8 (logHead s) ++ leBytes 8 (headSeq s).toNat
  let b := slice b 0 4092
  b ++ leBytes 4 (crc32c b).toNat

/-- Write the superblock, the copies in turn (R485). -/
def writeSuper (s : State) : State :=
  let b := superblock s
  journalWrite (0x1000 * (s.cg.superCount % 2)) b .upkeep { s with cg := { s.cg with superCount := s.cg.superCount + 1 } }

/-- Slot `j` of a pack token ring that has taken `count` tokens: the slot after the newest holds 0 (R485). -/
def ringSlot (count : Nat) (l : List Word) (j : Nat) : Word :=
  if count % 65536 = j then 0 else l.getD ((count + 65536 - 1 - j) % 65536) 0

/-- A token is written to its domain's pack token ring, in the pack block that holds it (R488). -/
def writeToken (d : Nat) (t : Word) (s : State) : State :=
  let r := tabGet (fun _ => (0, [])) s.cg.packRing d
  let ring := (r.1 + 1, (t :: r.2).take 65536)
  let s := { s with cg := { s.cg with packRing := tabSet (fun _ => (0, [])) s.cg.packRing d ring } }
  let per := 2 ^ journalShift s / 8
  let first := r.1 % 65536 / per * per
  let put (first : Nat) (s : State) : State :=
    journalWrite (0x2000 + 0x80000 * d + 8 * first) (wordsBytes ((List.range per).map (fun i => ringSlot ring.1 ring.2 (first + i)))) .upkeep s
  let s := put first s
  if ring.1 % per = 0 then put (ring.1 % 65536) s else s

/-- Drop the records at the front that are retired. -/
def passRetired : List JRecord → List JRecord × List JRecord
  | [] => ([], [])
  | r :: rs => if r.retired then let x := passRetired rs; (r :: x.1, x.2) else ([], r :: rs)

/-- The log head advances over retired records in seq order: their tokens first, then the superblock (R488). -/
def advanceLog (s : State) : State :=
  let r := passRetired s.cg.records
  if r.1.isEmpty then s else
  let s := r.1.foldl (fun s x => if x.cmds.isEmpty then s else writeToken x.domain x.token s) s
  writeSuper { s with cg := { s.cg with records := r.2, logUsed := s.cg.logUsed - (r.1.map (fun x => x.bytes)).sum } }

/-- A record is live: neither retired nor cancelled (R500). -/
def liveRecord (r : JRecord) : Bool := !r.cmds.isEmpty && !r.retired

/-- A group holds a storage member. -/
def holdsStorage (x : Group) : Bool :=
  x.cancelling.isSome || x.members.any (fun m => match m.effect with
    | .storage _ => true
    | _ => false)

/-- A member of a group that is staged or still to be staged is a storage entry. -/
def awaitsStorage (s : State) (x : Group) : Bool :=
  holdsStorage x || (!x.reissue && x.members.any (fun m => match m.entry with
    | some (fn, fq, idx) => !m.staged && (match entryIdx s fn.toNat fq.toNat idx with | some e => storageOp e.op | none => false)
    | none => false))

/-- A CLOSING journal closes once no group holds a storage member and no record is live (R486). -/
def tryClose (s : State) : State :=
  match s.cg.jstate, s.cg.closing with
  | .closing, some (cq, idx) =>
    if s.cg.groups.any (fun e => awaitsStorage s e.2) || s.cg.records.any liveRecord then s
    else
      let s := writeSuper s
      finish 0 cq.toNat idx false 0 0 none { s with cg := { s.cg with jstate := .closed, closing := none } }
  | _, _ => s

/-- JOURNAL_LOST to the log and to the event queue (R491, R498). -/
def postJournalLost (cause : Nat) (s : State) : State :=
  let bay := s.cg.bay.toNat
  let n := s.cg.nextSeq.toNat
  postEvent 0 (rf s CG_CTRL 16 12) (blockEvent 0x80 cause bay (n % 2 ^ 32) (n / 2 ^ 32))
    (postLog logJournalLost 0 blkCG (BitVec.ofNat 64 cause) (BitVec.ofNat 64 bay) s)

/-- A group that was aborted in JOURNAL ends its members: failed completions, and their locks (R493). -/
def endCancelled (g : Nat) (status : Nat) (s : State) : State :=
  match cgOf s g with
  | none => s
  | some x =>
    let s := x.members.foldl (fun s m => match m.effect with | .storage c => dropCmd c s | _ => s) s
    let s := failMembers x.members [] status s
    settleAborted g { x with members := [], cancelling := none } s

/-- The journal is lost (R491): groups with a storage member that are not past their commit point are aborted, and
records keep only the locks of home writes under way. -/
def journalLost (cause : Nat) (s : State) : State :=
  match s.cg.jstate with
  | .opened | .closing =>
    let s := postJournalLost cause { s with cg := { s.cg with jstate := .lost } }
    let gs := (s.cg.groups.filter (fun e => awaitsStorage s e.2 && e.2.state != .committing)).map (fun e => e.1)
    let s := gs.foldl (fun s g => match cgOf s g with
      | none => s
      | some x => if x.cancelling.isSome then endCancelled g 0x0508 s else abortGroup g [] 0x0508 s) s
    -- a retire entry can no longer become durable: locks go when the home writes are durable
    let s := s.cg.records.foldl (fun s r => r.cmds.foldl (fun s c =>
      if r.home.contains c then s else match cmdOf s c with | some x => if x.committed then dropCmd c s else s | none => s) s) s
    match s.cg.closing with
    | none => s
    | some (cq, idx) => finish 0 cq.toNat idx true 0x0509 0 none { s with cg := { s.cg with closing := none } }
  | _ => s

/-! ### The commit point (R479 to R481) -/

/-- Pack writes of a group's record that are not answered. -/
def recordOut (s : State) (g : Nat) : Bool :=
  s.st.packCmds.any (fun e => match e.2 with | .record k => k == g | _ => false)

/-- The commit point of a group has come (R477, R479). -/
def commitReady (s : State) (g : Nat) (x : Group) : Bool :=
  x.members.all (fun m => m.staged) &&
  (match x.state with
   | .closed => x.reissue || !holdsStorage x
   | .journal => !recordOut s g
   | _ => false)

/-- Status of a member of a group that commits: that of its own that is no failure, or of a re-issue (R481, R496). -/
def memberStatus (x : Group) (m : Member) : Nat :=
  if x.reissue then 0x0500 else match m.effect with | .info st => st.toNat | _ => 0

/-- Completion of a member at the end of its group: ACT_WRITE and JT_ROOT_WRITE return the epochs of their flips (R481, R496). -/
def completeMember (x : Group) (m : Member) (s : State) : State :=
  match m.entry with
  | none => s
  | some (fn, fq, idx) =>
    match entryIdx s fn.toNat fq.toNat idx with
    | none => s
    | some e =>
      let res := if writeReturns e.op ∧ fn = 0 then
          some (epochResults (x.flips.filter (fun p => (lef e.desc 0x10 0 4).testBit p.1.toNat && !x.reissue))) else none
      match m.effect with
      | .dropped => markDone fn.toNat fq.toNat idx true 0x0600 0 none s
      | _ => markDone fn.toNat fq.toNat idx false (memberStatus x m) 0 res s

/-- Apply the context and counter members, in fetch order. -/
def applySettings (ms : List Member) (s : State) : State :=
  let s := ms.foldl (fun s m => match m.effect with | .context g img => applyCtxWrite g.toNat img s | _ => s) s
  ms.foldl (fun s m => match m.effect with
    | .counter pl pair fr oc =>
      let k := 2 ^ 18 * pl.toNat + pair.toNat
      let v := tabGet (fun _ => (0, 0)) s.tab.pairs k
      { s with tab := { s.tab with pairs := tabSet (fun _ => (0, 0)) s.tab.pairs k (v.1 + fr, v.2 + oc) } }
    | _ => s) s

/-- Deliver the next message of a member: true when the mailbox was full, and it waits (R378). -/
def deliverMember (core mbox : Nat) (m : Msg) (s : State) : State × Bool × Bool :=
  if !mboxEnabled s core mbox then (s, false, true)
  else let r := deliver (.mbox core mbox) m s; (r.1, !r.2, false)

/-- Enqueue the frames and deliver the messages that are left, in fetch order, until a mailbox is full: the members after,
and whether everything went. -/
def sendMembers : List Member → State → State × List Member × Bool
  | [], s => (s, [], true)
  | m :: ms, s =>
    match m.effect with
    | .frame f leaf =>
      let s := placeOnLeaf leaf.toNat f s
      let r := sendMembers ms s
      (r.1, { m with effect := .none } :: r.2.1, r.2.2)
    | .message core mbox header words =>
      let d := deliverMember core.toNat mbox.toNat { header := header, words := words } s
      if d.2.1 then (d.1, m :: ms, false)
      else
        let r := sendMembers ms d.1
        (r.1, { m with effect := if d.2.2 then .dropped else .none } :: r.2.1, r.2.2)
    | _ =>
      let r := sendMembers ms s
      (r.1, m :: r.2.1, r.2.2)

/-- A home write is durable, or lost for good (R488, R489). -/
def homeDone (c : Nat) (lost : Bool) (s : State) : State :=
  let s := { s with cg := { s.cg with records := s.cg.records.map (fun (r : JRecord) =>
    if r.home.contains c then { r with home := r.home.filter (· != c), lost := r.lost || lost,
                                       cmds := if lost then r.cmds.filter (· != c) else r.cmds } else r) } }
  if lost || s.cg.jstate == .lost then dropCmd c s else s

/-- A home write that no extent keeps (R489): error log entry with froze 0, CG_HOME_FAIL, and the lock goes. -/
def homeLost (c : Nat) (status : Nat) (rep : PackReport) (s : State) : State :=
  match cmdOf s c with
  | none => s
  | some x => homeDone c true (addErr CG_HOME_FAIL 1 (elogWrite x status false false false rep s))

/-- Submit the home writes of the storage members (R489). -/
def homeWrites (ms : List Member) (s : State) : State :=
  ms.foldl (fun s m => match m.effect with
    | .storage c => match cmdOf s c with
      | none => s
      | some x =>
        let s := putCmd c { x with committed := true } s
        if (writeTargets (nsOf s x.fns.toNat)).isEmpty then homeLost c 0x0304 none s else issueCmd c s
    | _ => s) s

/-- A group whose effects are applied and whose completions are written leaves its slot (R477). -/
def freeSettled (s : State) : State :=
  let done (x : Group) : Bool := x.applied && x.members.all (fun m => match m.entry with
    | none => true
    | some (fn, fq, idx) => match entryIdx s fn.toNat fq.toNat idx with | none => true | some e => e.phase == .written)
  { s with cg := { s.cg with groups := s.cg.groups.filter (fun e => !done e.2) } }

/-- A core group has committed: GCLOSE returns OK, and one status a member (R418). -/
def endCoreCommit (x : Group) (s : State) : State :=
  endCoreGroup x 0 (memberStatus x) s

/-- Go on with a group past its commit point: the plant flip after the bulk flips, then every effect (R479). -/
def advanceGroup (g : Nat) (s : State) : State :=
  match cgOf s g with
  | none => s
  | some x =>
    if x.state != .committing || x.applied || x.flips.any (fun p => p.2.isNone) then s
    else if s.tab.shadows.any (fun y => y.group == some g) then
      let s := { s with tab := { s.tab with shadows := s.tab.shadows.map (fun (y : Shadow) =>
        if y.group == some g then { y with group := none } else y) } }
      putCg g { x with flips := x.flips ++ [(4, none)] } s
    else
      let s := applySettings x.members s
      let r := sendMembers (x.members.map (fun m => match m.effect with
        | .context _ _ => { m with effect := .none }
        | .counter _ _ _ _ => { m with effect := .none }
        | _ => m)) s
      let x := { x with members := r.2.1 }
      let s := putCg g x r.1
      if !r.2.2 then s else
      let s := homeWrites x.members s
      let s := x.members.foldl (fun s m => completeMember x m s) s
      freeSettled (endCoreCommit x (putCg g { x with applied := true } s))

/-- Go on with every group past its commit point. -/
def advanceGroups (s : State) : State := s.cg.groups.foldl (fun s e => advanceGroup e.1 s) s

/-- The bulk pipelines that a group's table members name. -/
def groupPls (s : State) (g : Nat) : List (BitVec 3) :=
  (s.tab.shadows.filter (fun y => y.group == some g && y.pl != 4)).foldl (fun l y => if l.contains y.pl then l else l ++ [y.pl]) []

/-- COMMIT_POINT (R479): the token enters the domain's ring, bulk flips are requested, and what needs no flip is applied. -/
def commitPoint (g : Nat) (s : State) : State :=
  match cgOf s g with
  | none => s
  | some x =>
    if !commitReady s g x then s else
    let s := if x.reissue then s else addToken x.domain x.token s
    let pls := groupPls s g
    let s := { s with tab := { s.tab with shadows := s.tab.shadows.map (fun (y : Shadow) =>
      if y.group == some g && y.pl != 4 then { y with group := none } else y) } }
    let s := x.members.foldl (fun s m => match m.entry with
      | none => s
      | some (fn, fq, idx) => setPhase fn.toNat fq.toNat idx .past s) s
    advanceGroup g (addStat CG_COMMITS 1 (putCg g { x with state := .committing, flips := pls.map (fun p => (p, none)) } s))

/-- Staged data of a group cannot be corrected as it commits (R506): the data of a storage member is read for its home
write, past the commit point, and is a device fault of cause 8 (R504); any other staged data is read before it, and the
group is aborted. -/
def stagedError (g : Nat) (s : State) : State :=
  match cgOf s g with
  | none => s
  | some x =>
    if !commitReady s g x then s
    else if !x.reissue && holdsStorage x then deviceFault 8 blkCG (freeNow s).toNat (useFree s)
    else abortGroup g [] 0x0502 s

/-- COMMIT_POINT (R479). Group slots and token rings are shared state: an uncorrectable word is a device fault (R506); a
re-issue adds no token. -/
def execCommitPoint (slot : BitVec 16 × CgErr) (s : State) : Res :=
  let g := slot.1.toNat
  .next (match cgOf s g with
    | none => s
    | some x =>
      if !commitReady s g x then s else
      match slot.2 with
      | .good => commitPoint g s
      | .corrected => commitPoint g (eccCount true .corrected s)
      | .bad => stagedError g s
      | .slot => deviceFault 5 blkCG (freeNow s).toNat (useFree s)
      | .ring => if x.reissue then commitPoint g s else deviceFault 6 blkCG (freeNow s).toNat (useFree s))

/-- EPOCH_FLIP: a requested flip proceeds once retired equals current (R242); groups that waited for it go on. -/
def execEpochFlip (pl : Pl) (s : State) : Res :=
  .next (if epochRetired s pl.val = epochCurrent s pl.val ∧ flipPending s (epochMates s pl.val)
    then advanceGroups (flip pl.val s) else s)

/-! ### Records and retirement (R487, R488) -/

/-- The storage commands of a group, in fetch order. -/
def groupCmds (x : Group) : List Nat := x.members.filterMap (fun m => match m.effect with | .storage c => some c | _ => none)

/-- Data of a member in its record: padded to 4 KiB; a zero has none. -/
def recordData (c : StCmd) : Bytes :=
  if c.op = 0x33 then [] else slice c.data 0 ((c.data.length + 4095) / 4096 * 4096)

/-- The member fields of a record's header. -/
def recordMembers : List StCmd → Nat → Bytes
  | [], _ => []
  | c :: cs, off =>
    let d := recordData c
    leBytes 8 (c.fns.toNat + 2 ^ 16 * b2n (c.op == 0x33)) ++ leBytes 8 c.slba ++ leBytes 4 c.nblocks ++ leBytes 4 off ++
      leBytes 8 0 ++ recordMembers cs (off + d.length / 4096)

/-- A group's journal record. -/
def groupRecord (s : State) (x : Group) : Bytes :=
  let cs := (groupCmds x).filterMap (fun c => cmdOf s c)
  let data := cs.flatMap recordData
  logHeader 1 cs.length s.cg.nextSeq.toNat
    (leBytes 8 x.token.toNat ++ leBytes 8 (x.domain + 2 ^ 32 * (data.length / 4096)) ++ recordMembers cs 0) (crc32c data) ++ data

/-- JOURNAL_SUBMIT: staged data, granted locks and log space are there (R477, R487). -/
def journalSubmit (g : Nat) (s : State) : State :=
  match cgOf s g with
  | none => s
  | some x =>
    if x.state != .closed || x.reissue || !holdsStorage x || s.cg.jstate == .closed || s.cg.jstate == .lost
      || x.members.any (fun m => !m.staged)
      || (groupCmds x).any (fun c => match cmdOf s c with | some y => !y.granted | none => true) then s
    else
      let r := groupRecord s x
      if !logRoom s r.length then s else
      let seq := s.cg.nextSeq
      appendLog r (.record g)
        { seq := seq, slot := g, domain := x.domain, token := x.token, home := groupCmds x, cmds := groupCmds x, bytes := 0,
          lost := false, retired := false } (putCg g { x with state := .journal, seq := some seq } s)

/-- JOURNAL_SUBMIT (R487). -/
def execJournalSubmit (slot : BitVec 16) (s : State) : Res := .next (journalSubmit slot.toNat s)

/-- A retire entry that names a record is on its way. -/
def retiring (s : State) (seq : BitVec 64) : Bool :=
  s.st.packCmds.any (fun e => match e.2 with | .retire _ q => q == seq | _ => false)

/-- RETIRE_APPEND: the oldest record of a slot whose home writes are all durable is named by a retire entry (R488). -/
def retireAppend (g : Nat) (s : State) : State :=
  match s.cg.records.find? (fun r => r.slot == g && liveRecord r && r.home.isEmpty && !r.lost && !retiring s r.seq) with
  | none => s
  | some r =>
    if (s.cg.jstate == .opened || s.cg.jstate == .closing) && logRoom s 4096 then
      appendLog (namingEntry 2 s.cg.nextSeq.toNat [r.seq]) (.retire g r.seq) (namingRecord s.cg.nextSeq) s
    else s

/-- RETIRE_APPEND (R488). -/
def execRetireAppend (slot : BitVec 16) (s : State) : Res := .next (retireAppend slot.toNat s)

/-- A retire entry is durable: the locks go, and the head may pass (R488). -/
def retireDurable (seq : BitVec 64) (s : State) : State :=
  let cmds := (s.cg.records.filter (fun r => r.seq == seq)).flatMap (fun r => r.cmds)
  let s := cmds.foldl (fun s c => dropCmd c s) s
  tryClose (advanceLog { s with cg := { s.cg with records := s.cg.records.map (fun (r : JRecord) =>
    if r.seq == seq then { r with retired := true } else r) } })

/-! ### Opening, closing, discarding (R486, R490, R494, R499) -/

/-- BAD_TARGET unless the CTL queue is one of PF0 instance 0. -/
def adminQueue (s : State) (cq : Nat) : Bool := queueInst s 0 cq == 0

/-- An extent of pack blocks overlaps another. -/
def runsMeet (a an b bn : Nat) : Bool := decide (a < b + bn) && decide (b < a + an)

/-- Extents of the enabled namespaces but one: bay, pack namespace, first block, blocks. -/
def enabledExtents (s : State) (but : Nat) : List (Nat × BitVec 32 × Nat × Nat) :=
  s.st.ns.flatMap (fun e =>
    if e.1 = but ∨ e.2.state = .off then [] else
    (if e.2.mirror then [false, true] else [false]).map (fun b =>
      (e.2.bay b, e.2.nsid b, e.2.plba b, max 1 (ratio s e.2 b) * e.2.size)))

/-- Checks of JOURNAL_OPEN, in their order; 0 when all pass (R486). -/
def journalCheck (s : State) (d : Bytes) (media : JournalMedia) : Nat :=
  let bay := lef d 0x10 0 2
  let nsid := BitVec.ofNat 32 (le d 0x14 4)
  let plba := le d 0x18 8
  let size := le d 0x20 4
  if !rb s CG_CTRL 0 || !(s.cg.jstate == .closed || s.cg.jstate == .lost) then 0x0509
  else if (bayOf s bay).state != .ready then 0x0312
  else match packNs s bay nsid with
    | none => 0x0312
    | some p =>
      let blocks := size * 2 ^ 20 / 2 ^ p.lbads.toNat
      if p.lbads != 9 && p.lbads != 12 then 0x0312
      else if size < 4096 ∨ 1048576 < size ∨ p.capacity.toNat < plba + blocks then 0x0314
      else if (enabledExtents s 65536).any (fun e => e.1 == bay && e.2.1 == nsid && runsMeet plba blocks e.2.2.1 e.2.2.2) then 0x0315
      else if !bit (leWord d 0x10) 8 then 0
      else match media with
        | .journal _ _ _ _ recs =>
          if recs.any (fun r => !r.named && r.members.any (fun m =>
            (nsOf s m.fns.toNat).state == .off || decide ((nsOf s m.fns.toNat).size < m.slba.toNat + m.nblocks.toNat))) then 0x050B else 0
        | _ => 0x050A

/-- Write the data, or zeroes, of one member of a replayed record to every extent that takes writes (R490). -/
def replayMember (m : MediaMember) (s : State) : State :=
  let ns := nsOf s m.fns.toNat
  (writeTargets ns).foldl (fun s b =>
    let r := ratio s ns b
    packIssue (ns.bay b) .upkeep (if m.zero then nvZeroes else nvWrite) (ns.nsid b) (ns.plba b + r * m.slba.toNat)
      (r * m.nblocks.toNat) (if m.zero then [] else m.data) s) s

/-- Retire entries for replayed records, at most 500 in each. -/
def retireAll : Nat → List (BitVec 64) → State → State
  | 0, _, s => s
  | fuel + 1, seqs, s =>
    if seqs.isEmpty then s else
    retireAll fuel (seqs.drop 500) (appendLog (namingEntry 2 s.cg.nextSeq.toNat (seqs.take 500)) .upkeep (namingRecord s.cg.nextSeq) s)

/-- The token area zeroed. -/
def zeroTokens (s : State) : State :=
  let sh := journalShift s
  packIssue s.cg.bay.toNat .upkeep nvZeroes s.cg.nsid (s.cg.plba.toNat + 0x2000 / 2 ^ sh) (0xA0000000 / 2 ^ sh) [] s

/-- Recover a journal: tokens, replay in seq order, retire entries, superblock (R490). The state, records replayed and tokens
loaded. -/
def recoverJournal (next : BitVec 64) (tail used : Nat) (tokens : List (BitVec 13 × BitVec 64)) (recs : List MediaRecord)
    (s : State) : State × Nat × Nat :=
  let all := tokens ++ recs.map (fun r => (r.domain, r.token))
  let ring := tokens.foldl (fun t x =>
      let r := tabGet (fun _ => (0, [])) t x.1.toNat
      tabSet (fun _ => (0, [])) t x.1.toNat (r.1 + 1, x.2 :: r.2)) []
  let s := { s with cg := { s.cg with nextSeq := next, logTail := tail, logUsed := used, tokens := [], packRing := ring } }
  let s := all.foldl (fun s x => addToken x.1.toNat x.2 s) s
  let live := recs.filter (fun r => !r.named)
  let s := live.foldl (fun s r => r.members.foldl (fun s m => replayMember m s) s) s
  let s := retireAll live.length (live.map (fun r => r.seq)) s
  let s := recs.foldl (fun s r => writeToken r.domain.toNat r.token s) s
  (writeSuper { s with cg := { s.cg with records := [], logUsed := 0 } }, live.length, all.length)

/-- JOURNAL_OPEN that passes its checks: the journal becomes OPEN. -/
def openJournal (cq : Nat) (e : Entry) (media : JournalMedia) (s : State) : State :=
  let d := e.desc
  let s := { s with cg := { s.cg with
    bay := BitVec.ofNat 2 (lef d 0x10 0 2), nsid := BitVec.ofNat 32 (le d 0x14 4), plba := leWord d 0x18,
    sizeMib := le d 0x20 4, records := [], superCount := 0 } }
  let r := match media, bit (leWord d 0x10) 8 with
    | .journal next tail used tokens recs, true => recoverJournal next tail used tokens recs s
    | _, _ =>
      let s := { s with cg := { s.cg with nextSeq := 1, logTail := 0, logUsed := 0, packRing := [] } }
      (zeroTokens (writeSuper (writeSuper s)), 0, 0)
  let s := { r.1 with cg := { r.1.cg with jstate := .opened } }
  finish 0 cq e.idx false 0 0 (some (leBytes 4 r.2.1 ++ leBytes 4 r.2.2 ++ leBytes 8 s.cg.nextSeq.toNat)) s

/-- JOURNAL_OPEN (R486, R490). -/
def execJournalOpen (cq : BitVec 20) (media : JournalMedia) (s : State) : Res :=
  .next (nextEntry 0 cq.toNat 0xE8 (fun e s =>
    if !adminQueue s cq.toNat then finish 0 cq.toNat e.idx true 0x0121 0 none s else
    let st := journalCheck s e.desc media
    if st ≠ 0 then finish 0 cq.toNat e.idx true st 0 none s else openJournal cq.toNat e media s) s)

/-- JOURNAL_CLOSE (R486): it completes once nothing storage holds is open. -/
def execJournalClose (cq : BitVec 20) (s : State) : Res :=
  .next (match s.cg.closing with
    | some _ => tryClose s
    | none => nextEntry 0 cq.toNat 0xE9 (fun e s =>
        if !adminQueue s cq.toNat then finish 0 cq.toNat e.idx true 0x0121 0 none s
        else if s.cg.jstate != .opened then finish 0 cq.toNat e.idx true 0x0509 0 none s
        else tryClose (setPhase 0 cq.toNat e.idx .started
          { s with cg := { s.cg with jstate := .closing, closing := some (cq, e.idx) } })) s)

/-- CG_DISCARD (R494). -/
def execCgDiscard (cq : BitVec 20) (s : State) : Res :=
  .next (nextEntry 0 cq.toNat 0xEA (fun e s =>
    if !adminQueue s cq.toNat then finish 0 cq.toNat e.idx true 0x0121 0 none s else
    match groupSlot s (lef e.desc 0x10 0 13) (leWord e.desc 0x18) with
    | none => finish 0 cq.toNat e.idx false 0x050D 0 none s
    | some (g, x) =>
      if x.state != .aborted then finish 0 cq.toNat e.idx true 0x050C 0 none s
      else finish 0 cq.toNat e.idx false 0 0 none (settleAborted g { x with fetched := max x.fetched x.n } s)) s)

/-- CG_CTRL_WRITE (R499): disabling is refused while a slot is in use or the journal is not CLOSED; a region above 26, or any
write of it while the unit is enabled, is dropped and sets refused. -/
def execCgCtrlWrite (v : BitVec 64) (s : State) : Res :=
  .next (setupWrite s (fun s =>
    let old := getReg s CG_CTRL
    let stuck := bit old 0 && !bit v 0 && (!s.cg.groups.isEmpty || s.cg.jstate != .closed)
    let badBase := decide (26 < fld v 8 5) || bit old 0
    putReg CG_CTRL (BitVec.ofNat 64 (b2n (bit v 0 || stuck) + 2 ^ 8 * (if badBase then fld old 8 5 else fld v 8 5)
      + 2 ^ 16 * fld v 16 12 + 2 ^ 28 * b2n (stuck || badBase || (bit old 28 && !bit v 28)))) s))

end Sys2Proof.Machine
end

