-- ==== Sys2Proof/Machine/Counts.lean ====
section
/-! DEFINITION. NOP, counter deltas and the stream table (04 R122, 11 R310, R311, R316, 17 R484, R501). -/
namespace Sys2Proof.Machine

/-! ### NOP and COUNT_DELTA -/

/-- An entry past its commit point that is not yet finished, of an opcode; in whichever state its queue is, it finishes
(R132, R135). -/
def pastEntry (s : State) (fn fq op : Nat) : Option Entry :=
  (queueOf s fn fq).entries.find? (fun e => e.phase == .past && e.op == op && e.group.isNone)

/-- The next entry of an opcode whose commit point is its fetch: one that is past it, or a member of a group. -/
def nextCounted (fn fq op : Nat) (run : Entry → State → State) (s : State) : State :=
  match pastEntry s fn fq op with
  | some e => run e s
  | none => nextEntry fn fq op run s

/-- A NOP completes done; as a member it is staged as one that does nothing (R122, R478). -/
def runNop (fn fq : Nat) (e : Entry) (s : State) : State :=
  match e.group with
  | some g => stageMember g fn fq e.idx .none s
  | none => finish fn fq e.idx false 0 0 none s

/-- NOP (R122). -/
def execNop (fn : Fn) (fq : BitVec 20) (s : State) : Res :=
  .next (nextCounted fn.val fq.toNat 0xF0 (fun e s => runNop fn.val fq.toNat e s) s)

/-- Add two deltas to a counter pair of a pipeline, whole (R230, R415, R484). -/
def addPair (pl pair : Nat) (frames octets : Word) (s : State) : State :=
  let k := 2 ^ 18 * pl + pair
  let v := tabGet (fun _ => (0, 0)) s.tab.pairs k
  { s with tab := { s.tab with pairs := tabSet (fun _ => (0, 0)) s.tab.pairs k (v.1 + frames, v.2 + octets) } }

/-- The global pair that a COUNT_DELTA of an instance names; none outside its share (R484, R501). -/
def countPair (s : State) (fn inst pair : Nat) : Option Nat :=
  let m := CG_CNT_MAP fn
  if fn = 0 ∧ inst = 0 then some pair else
  let part := if rb s m 18 then 2 ^ min 18 (rf s m 19 5) / instCount s fn else 0
  let p := rf s m 0 18 + inst * part + pair
  if pair < part ∧ p < 2 ^ 18 then some p else none

/-- COUNT_DELTA: a member adds at its commit point, any other at once. -/
def runCountDelta (fn fq : Nat) (e : Entry) (s : State) : State :=
  let pl := lef e.desc 0x10 0 2
  match countPair s fn (queueInst s fn fq) (lef e.desc 0x10 2 18) with
  | none => finish fn fq e.idx true 0x0113 0 none s
  | some p =>
    let fr := leWord e.desc 0x18
    let oc := leWord e.desc 0x20
    match e.group with
    | some g => stageMember g fn fq e.idx
        (if reissued s e then .none else .counter (BitVec.ofNat 2 pl) (BitVec.ofNat 18 p) fr oc) s
    | none => finish fn fq e.idx false 0 0 none (addPair pl p fr oc s)

/-- COUNT_DELTA (R484). -/
def execCountDelta (fn : Fn) (fq : BitVec 20) (s : State) : Res :=
  .next (nextCounted fn.val fq.toNat 0xF1 (fun e s => runCountDelta fn.val fq.toNat e s) s)

/-! ### The stream table -/

/-- Bucket of a stream key in a way (R310). -/
def streamBucket (w : Nat) (key : Bytes) : Nat := (crc32cRun (BitVec.ofNat 32 (w * 65536 + w)) key).toNat % 256

/-- Slot number of a way, bucket and place (R526). -/
def streamSlot (w b place : Nat) : Nat := w * 1024 + 4 * b + place

/-- The sixteen candidate slots of a key, way by way. -/
def streamSlots (key : Bytes) : List Nat :=
  (List.range 4).flatMap (fun w => (List.range 4).map (fun p => streamSlot w (streamBucket w key) p))

/-- Valid bit of a stream entry (R311). -/
def streamValid (e : Bytes) : Bool := le e 0x0D 1 % 2 == 1

/-- The slot whose main entry is held by or reserved for a key. -/
def streamFind (s : State) (key : Bytes) : Option Nat :=
  (streamSlots key).find? (fun n => let e := mainEntry s .stream 4 n; !e.isEmpty && slice e 0 13 == key)

/-- Entries of a bucket. -/
def streamFill (s : State) (key : Bytes) (w : Nat) : Nat :=
  ((List.range 4).filter (fun p => !(mainEntry s .stream 4 (streamSlot w (streamBucket w key) p)).isEmpty)).length

/-- The slot a new key takes: in its candidate bucket with the fewest entries, the lowest way of a tie (R310, R255). -/
def streamFree (s : State) (key : Bytes) : Option Nat :=
  let w := [1, 2, 3].foldl (fun best w => if streamFill s key w < streamFill s key best then w else best) 0
  (((List.range 4).map (fun p => streamSlot w (streamBucket w key) p)).find? (fun n => (mainEntry s .stream 4 n).isEmpty))

/-- The stream entry that a frame of an epoch sees. -/
def streamLookup (s : State) (key : Bytes) (e : BitVec 32) : Option (Nat × Bytes) :=
  ((streamSlots key).find? (fun n => let x := entryAt s .stream 4 n e; streamValid x && slice x 0 13 == key)).map
    (fun n => (n, entryAt s .stream 4 n e))

/-- STREAM_WRITE (R316). -/
def streamPlan (s : State) (d : Bytes) : Plan :=
  let key := slice d 0x18 13
  let port := le key 0 1
  if port < 8 ∨ 11 < port then .fail 0x04C2
  else if bit (leWord d 0x10) 0 then
    match streamFind s key with
    | none => .info 0x04C1
    | some n => if streamValid (newestEntry s .stream 4 n) then .write .stream [(4, n, [])] else .info 0x04C1
  else
    match (match streamFind s key with | some n => some n | none => streamFree s key) with
    | none => .fail 0x04C0
    | some n => .write .stream [(4, n, key ++ [1, 0, 0] ++ slice d 0x28 16)]

/-- STREAM_WRITE (R316). -/
def execStreamWrite (cq : BitVec 20) (s : State) : Res := .next (tableWrite cq.toNat 0xC0 streamPlan s)

end Sys2Proof.Machine
end

