-- ==== Sys2Proof/Machine/FlowInstr.lean ====
section
/-! DEFINITION. The flow-core instruction set but for the engine calls (14 R397 to R408, R420, R421). -/
namespace Sys2Proof.Machine

/-! ### Formats and opcodes (R399, R400) -/

/-- A field of an instruction word. -/
def iw (w lo len : Nat) : Nat := w / 2 ^ lo % 2 ^ len

/-- rd, or r of format B. -/
def iRd (w : Nat) : Nat := iw w 6 4
/-- ra. -/
def iRa (w : Nat) : Nat := iw w 10 4
/-- rb. -/
def iRb (w : Nat) : Nat := iw w 14 4
/-- imm14. -/
def iImm14 (w : Nat) : Nat := iw w 18 14
/-- imm20. -/
def iImm20 (w : Nat) : Nat := iw w 12 20

/-- Fields of an ALU word are as R401 has them. -/
def aluLegal (w : Nat) : Bool :=
  let fn := iw w 18 8
  iw w 26 6 == 0 && (decide (fn ≤ 0x0E) || (decide (0x10 ≤ fn) && decide (fn ≤ 0x12) && iRb w == 0))

/-- Fields of an ALUI word are as R402 has them. -/
def aluiLegal (w : Nat) : Bool :=
  let sub := iw w 14 4
  decide (sub ≤ 10) && (!(decide (4 ≤ sub) && decide (sub ≤ 6)) || iw w 24 8 == 0) && (sub != 10 || iw w 30 2 == 0)

/-- Fields of a CH word are as R406 has them. -/
def chLegal (w : Nat) : Bool :=
  let sub := iw w 14 3
  let via := iw w 30 1 == 1
  iw w 31 1 == 0 && decide (sub ≤ 4) &&
  (decide (2 < sub) || iRd w == 0) &&
  (sub != 1 || iw w 20 4 == 0) && (sub != 2 || iw w 21 3 == 0) &&
  !((sub == 0 || decide (2 < sub)) && via && (iw w 17 7 != 0 || iw w 24 6 != 0)) &&
  !(decide (2 < sub) && iw w 29 1 == 1)

/-- Fields of a SYS word are as R408 has them. -/
def sysLegal (w : Nat) : Bool :=
  let sub := iw w 14 4
  decide (sub ≤ 7) &&
  ((decide (2 ≤ sub) && decide (sub ≤ 4)) || iRd w == 0) && (sub == 1 || iRa w == 0) && (sub == 1 || sub == 7 || iImm14 w == 0)

/-- Fields of an XCALL word are as R409 has them; the housekeeping core may use three calls (R421). -/
def xcallLegal (hk : Bool) (w : Nat) : Bool :=
  let call := iw w 18 6
  let variant := iw w 24 8
  let flag := call == 0x08 || call == 0x09 || call == 0x10 || call == 0x29
  [0x00, 0x01, 0x08, 0x09, 0x0A, 0x0B, 0x0C, 0x10, 0x18, 0x20, 0x28, 0x29, 0x2A].contains call &&
  decide (variant ≤ b2n flag) && (call == 0x29 || call == 0x2A || iRb w == 0) &&
  (!hk || call == 0x10 || call == 0x18 || call == 0x20)

/-- The instruction a word encodes, as 256 times its major opcode plus its fn, sub, kind or call; none when the word is
illegal (R400 to R409). -/
def insnOf (hk : Bool) (w : Nat) : Option Nat :=
  let ok (b : Bool) (n : Nat) : Option Nat := if b then some n else none
  match iw w 0 6 with
  | 0x00 => ok (aluLegal w) (iw w 18 8)
  | 0x01 => ok (aluiLegal w) (0x100 + iw w 14 4)
  | 0x02 => ok (iw w 10 2 == 0) 0x200
  | 0x03 => ok (iw w 10 2 == 0) 0x300
  | 0x04 => ok (iw w 17 1 == 0 && !(iw w 14 2 == 3 && iw w 16 1 == 1)) 0x400
  | 0x05 => ok (iw w 16 2 == 0) 0x500
  | 0x06 => ok (decide (2 ≤ iw w 14 2) && iw w 16 2 != 3) (0x600 + iw w 16 2)
  | 0x08 => some 0x800
  | 0x09 => ok (iw w 10 2 == 0) 0x900
  | 0x0A => some 0xA00
  | 0x0C => ok (chLegal w) (0xC00 + iw w 14 3)
  | 0x0E => ok (sysLegal w) (0xE00 + iw w 14 4)
  | 0x10 => ok (xcallLegal hk w) (0x1000 + iw w 18 6)
  | _ => none

/-! ### Running one instruction -/

/-- The instruction word at an index of a core's code store, or of the housekeeping memory (R369, R421). -/
def fetchWord (s : State) (c : Nat) (pc : BitVec 20) : Nat :=
  if c = 32 then le (memRead s.fc.hkMem (4 * pc.toNat) 4) 0 4
  else (tabGet (fun _ => 0) s.fc.code (32768 * c + pc.toNat % 32768)).toNat

/-- An enabled breakpoint selects the thread at a pc (R387, R395). -/
def bpHit (s : State) (c t : Nat) (pc : BitVec 20) : Bool :=
  (List.range 4).any (fun k =>
    let r := getReg s (FC_DBG_BP c k)
    bit r 15 && bit r (16 + t) && (if c = 32 then fld r 32 20 else fld r 0 15) == pc.toNat)

/-- Count an instruction as executed (R393). -/
def countRetired (c : Nat) (s : State) : State := if c < 32 then addStat (FC_RETIRED c) 1 s else s

/-- An instruction completes in the turn, with the thread's registers and pc after it; a stepped thread stops again. -/
def completeTo (c t : Nat) (x : Thread) (s : State) : State :=
  let s := putThread c t { x with state := if x.stepping then .stopped else .running, stepping := false, passBp := false } s
  countRetired c (putCore c { coreOf s c with turn := (coreOf s c).turn + 1 } s)

/-- A short instruction completes: register writes, and the next pc. -/
def short (c t : Nat) (writes : List (Nat × Word)) (s : State) : State :=
  let x := threadOf s c t
  completeTo c t { setGs x writes with pc := pcAdd c x.pc 1 } s

/-- An instruction begins a long stall (R371, R373); its register writes are owed until the stall ends, and the pc stays at the
instruction until then (R398). A step under way becomes a stop at the stall's end. -/
def stall (c t : Nat) (w : Wait) (done : Bool) (owed : List (Nat × Word)) (s : State) : State :=
  let x := threadOf s c t
  putThread c t { x with state := .stalled, wait := w, done := done, owed := owed, stopReq := x.stopReq || x.stepping,
                         stepping := false, passBp := false } s

/-- A fault whose detail the spec does not state takes a free value. -/
def faultFree (c t cause : Nat) (s : State) : State := threadFault c t cause (freeNow s).toNat (useFree s)

/-- A word of a place that the code of its array corrects is counted (R32): `corrected` is one of an SRAM array,
`dramCorrected` one of device DRAM. -/
def fcCorrected (err : FcErr) (p : Place) (s : State) : State :=
  match err, p with
  | .dramCorrected, .dram _ => eccCount true .corrected s
  | .dramCorrected, _ => s
  | .corrected, _ => eccCount false .corrected s
  | _, _ => s

/-- The running thread runs the instruction at its pc if it is the one named: a breakpoint stops it first (R387), an
uncorrectable code word and an illegal word fault it (R386, R420). -/
def fcRun (op c t : Nat) (err : FcErr) (eff : Nat → Thread → State → State) (s : State) : State :=
  let x := threadOf s c t
  if !(threadsOf c).contains t || x.state != .running || decide (64 ≤ (coreOf s c).turn) then s
  else if bpHit s c t x.pc && !x.passBp && !debugLocked s then putThread c t { x with state := .stopped, stepping := false } s
  else if err = .codeEcc then faultFree c t 0x03 s
  else
    let w := fetchWord s c x.pc
    let s := fcCorrected err .bad s
    match insnOf (c == 32) w with
    | none => threadFault c t 0x10 w s
    | some k => if k = op then eff w x s else s

/-! ### Register operations (R401, R402) -/

/-- Count of leading zeros. -/
def clz64 (a : Word) : Nat := if a = 0 then 64 else 63 - Nat.log2 a.toNat

/-- One step of unsigned 32-bit division. -/
def dstep (a b : Word) : Word :=
  let t := (a.toNat * 2) % 2 ^ 64
  let hi := t / 2 ^ 32
  let lo := t % 2 ^ 32
  let d := b.toNat % 2 ^ 32
  if d ≤ hi then BitVec.ofNat 64 ((hi - d) * 2 ^ 32 + (lo / 2 * 2 + 1)) else BitVec.ofNat 64 t

/-- A truth value as a register value. -/
def flagWord (b : Bool) : Word := if b then 1 else 0

/-- Result of an ALU operation but SLTU128. -/
def aluResult (fn : Nat) (a b : Word) : Word :=
  match fn with
  | 0x00 => a + b
  | 0x01 => a - b
  | 0x02 => a &&& b
  | 0x03 => a ||| b
  | 0x04 => a ^^^ b
  | 0x05 => a <<< (b.toNat % 64)
  | 0x06 => a >>> (b.toNat % 64)
  | 0x07 => a.sshiftRight (b.toNat % 64)
  | 0x08 => flagWord (a == b)
  | 0x09 => flagWord (decide (a.toInt < b.toInt))
  | 0x0A => flagWord (decide (a.toNat < b.toNat))
  | 0x0B => a * b
  | 0x0C => BitVec.ofNat 64 (a.toNat * b.toNat / 2 ^ 64)
  | 0x0D => dstep a b
  | 0x10 => BitVec.ofNat 64 (clz64 a)
  | 0x11 => BitVec.ofNat 64 (popcount a)
  | 0x12 => BitVec.ofNat 64 (beNat (leBytes 8 a.toNat))
  | _ => 0

/-- The residue-checked ALU operations. -/
def aluResidue (fn : Nat) : Bool := fn ≤ 1 || (decide (8 ≤ fn) && decide (fn ≤ 0x0E))

/-- SLTU128: the pairs that ra and rb name, compared unsigned. -/
def sltu128 (x : Thread) (a b : Nat) : Word :=
  flagWord (decide ((getG x (a + 1)).toNat * 2 ^ 64 + (getG x a).toNat < (getG x (b + 1)).toNat * 2 ^ 64 + (getG x b).toNat))

/-- An ALU instruction. -/
def fcAlu (fn c t : Nat) (err : FcErr) (s : State) : State :=
  fcRun fn c t err (fun w x s =>
    let a := iRa w
    let b := iRb w
    if fn = 0x0E ∧ (a % 2 = 1 ∨ b % 2 = 1) then threadFault c t 0x13 w s
    else if err = .residue ∧ aluResidue fn then faultFree c t 0x01 s
    else short c t [(iRd w, if fn = 0x0E then sltu128 x a b else aluResult fn (getG x a) (getG x b))] s) s

/-- imm14 sign-extended to 64 bits. -/
def sx14 (w : Nat) : Word := (BitVec.ofNat 14 (iImm14 w)).signExtend 64
/-- imm14 zero-extended. -/
def zx14 (w : Nat) : Word := BitVec.ofNat 64 (iImm14 w)

/-- Result of an ALUI operation. -/
def aluiResult (sub w : Nat) (a : Word) : Word :=
  match sub with
  | 0 => a + sx14 w
  | 1 => a &&& zx14 w
  | 2 => a ||| zx14 w
  | 3 => a ^^^ zx14 w
  | 4 => a <<< (iImm14 w % 64)
  | 5 => a >>> (iImm14 w % 64)
  | 6 => a.sshiftRight (iImm14 w % 64)
  | 7 => flagWord (a == sx14 w)
  | 8 => flagWord (decide (a.toInt < (sx14 w).toInt))
  | 9 => flagWord (decide (a.toNat < (sx14 w).toNat))
  | _ => BitVec.ofNat 64 (a.toNat / 2 ^ (iImm14 w % 64) % 2 ^ (iImm14 w / 64 % 64 + 1))

/-- The residue-checked ALUI operations. -/
def aluiResidue (sub : Nat) : Bool := sub == 0 || (decide (7 ≤ sub) && decide (sub ≤ 9))

/-- An ALUI instruction. -/
def fcAlui (sub c t : Nat) (err : FcErr) (s : State) : State :=
  fcRun (0x100 + sub) c t err (fun w x s =>
    if err = .residue ∧ aluiResidue sub then faultFree c t 0x01 s
    else short c t [(iRd w, aluiResult sub w (getG x (iRa w)))] s) s

/-- imm20 sign-extended to 64 bits. -/
def sx20 (w : Nat) : Word := (BitVec.ofNat 20 (iImm20 w)).signExtend 64

/-! ### Memory (R403, R404) -/

/-- An access of `n` bytes: BAD_ADDR and MISALIGN, then the place (R403, R420). -/
def access (c t a n : Nat) (s : State) (go : Place → State) : State :=
  if place s c t a 1 = .bad then threadFault c t 0x11 (a % 2 ^ 32) s
  else if a % n ≠ 0 then threadFault c t 0x12 (a % 2 ^ 32) s
  else match place s c t a n with
    | .bad => threadFault c t 0x11 (a % 2 ^ 32) s
    | p => go p

/-- A corrected word of an instruction's data, where it lies in device DRAM; one of an SRAM array is counted once. -/
def dramOnly (err : FcErr) : FcErr := if err = .dramCorrected then .dramCorrected else .none

/-- An uncorrectable word under a read: MEM_ECC, or a device fault for a DRAM word (R386, R506). -/
def memError (c t : Nat) (p : Place) (s : State) : State :=
  match p with
  | .dram _ => deviceFault 6 blkFC (freeNow s).toNat (useFree s)
  | _ => faultFree c t 0x02 s

/-- An access completes: in the turn for a local slice, else as a long stall that ends when it has been performed. -/
def accessEnds (c t : Nat) (p : Place) (writes : List (Nat × Word)) (s : State) : State :=
  match placeWait p with
  | none => short c t writes s
  | some wt => stall c t wt true writes s

/-- Address of a format-M instruction. -/
def memAddr (w : Nat) (x : Thread) : Nat := (getG x (iRa w) + sx14 w).toNat

/-- LD. -/
def fcLoad (c t : Nat) (err : FcErr) (s : State) : State :=
  fcRun 0x400 c t err (fun w x s =>
    let n := 2 ^ iw w 14 2
    access c t (memAddr w x) n s (fun p =>
      if err = .memEcc then memError c t p s else
      let s := fcCorrected (dramOnly err) p s
      let v := leNat (placeRead s p n)
      accessEnds c t p [(iRd w, if iw w 16 1 = 1 then BitVec.ofNat 64 (wrapInt 64 (signed (8 * n) v)) else BitVec.ofNat 64 v)] s)) s

/-- ST. A store of less than a word of 64 bits reads the word it changes (R369). -/
def fcStore (c t : Nat) (err : FcErr) (s : State) : State :=
  fcRun 0x500 c t err (fun w x s =>
    let n := 2 ^ iw w 14 2
    access c t (memAddr w x) n s (fun p =>
      if err = .memEcc ∧ n < 8 then memError c t p s else
      let s := fcCorrected (dramOnly err) p s
      accessEnds c t p [] (placeWrite p (leBytes n (getG x (iRd w)).toNat) s))) s

/-- New value of the location of an AMO of `n` bytes, none where it is left (R404). -/
def amoNew (kind n m d next : Nat) : Option Nat :=
  match kind with
  | 0 => some d
  | 1 => some ((m + d) % 2 ^ (8 * n))
  | _ => if m = d then some next else none

/-- AMO. -/
def fcAmo (kind c t : Nat) (err : FcErr) (s : State) : State :=
  fcRun (0x600 + kind) c t err (fun w x s =>
    let n := 2 ^ iw w 14 2
    let d := iRd w
    if kind = 2 ∧ d = 15 then threadFault c t 0x13 w s else
    access c t (memAddr w x) n s (fun p =>
      if err = .memEcc then memError c t p s
      else if err = .residue ∧ kind ≠ 0 then faultFree c t 0x01 s
      else
        let s := fcCorrected (dramOnly err) p s
        let m := leNat (placeRead s p n)
        let low (v : Word) : Nat := v.toNat % 2 ^ (8 * n)
        let s := match amoNew kind n m (low (getG x d)) (low (getG x (d + 1))) with
          | none => s
          | some v => placeWrite p (leBytes n v) s
        accessEnds c t p [(d, BitVec.ofNat 64 m)] s)) s

/-! ### Branches (R400, R405) -/

/-- A branch condition on a register. -/
def bcHolds (cond : Nat) (r : Word) : Bool :=
  match cond with
  | 0 => r == 0
  | 1 => r != 0
  | 2 => r.getLsbD 63
  | _ => !r.getLsbD 63

/-- A branch or jump completes: a register write, and the pc. -/
def jumpTo (c t : Nat) (writes : List (Nat × Word)) (pc : BitVec 20) (s : State) : State :=
  completeTo c t { setGs (threadOf s c t) writes with pc := pc } s

/-- Return address of an instruction. -/
def linkOf (c : Nat) (pc : BitVec 20) : Word := (pcAdd c pc 1).setWidth 64

/-! ### Channels (R376 to R378, R406, R407, R421) -/

/-- Target of a CH instruction: ch, core, mbox, self, from the instruction or from ra. -/
def chTarget (w : Nat) (x : Thread) : Nat × Nat × Bool × Bool :=
  if iw w 30 1 = 1 then
    let a := (getG x (iRa w)).toNat
    (a % 64, a / 64 % 32, a.testBit 11, a.testBit 12)
  else (iw w 18 6, iw w 24 5, w.testBit 17, w.testBit 29)

/-- A target in the form of ra under via_reg. -/
def targetWord (k : Nat × Nat × Bool × Bool) : Nat := k.1 + 64 * k.2.1 + 2048 * b2n k.2.2.1 + 4096 * b2n k.2.2.2

/-- Mailboxes of a core. -/
def mboxCount (c : Nat) : Nat := if c = 32 then 8 else 32

/-- The channel a CLAIM names; none is BAD_CHANNEL. -/
def claimChan (c : Nat) (k : Nat × Nat × Bool × Bool) : Option Chn :=
  if k.2.2.1 then
    let core := if k.2.2.2 then c else k.2.1
    if k.1 < mboxCount core then some (.mbox core k.1) else none
  else if c = 32 then none else some (.local c k.1)

/-- The channel a RECV or POLL names: the thread's own core only. -/
def ownChan (c : Nat) (k : Nat × Nat × Bool × Bool) : Option Chn :=
  if k.2.1 ≠ 0 ∨ k.2.2.2 then none
  else if k.2.2.1 then (if k.1 < mboxCount c then some (.mbox c k.1) else none)
  else if c = 32 then none else some (.local c k.1)

/-- A claim of the housekeeping core on a flow-core mailbox reserves nothing: its SEND is a delivery (R421). -/
def hkDelivers (c : Nat) (k : Chn) : Bool := c == 32 && k.core != 32

/-- CLAIM. -/
def fcClaim (c t : Nat) (err : FcErr) (s : State) : State :=
  fcRun 0xC00 c t err (fun w x s =>
    let tg := chTarget w x
    if x.claim.isSome then threadFault c t 0x14 (targetWord tg) s else
    match claimChan c tg with
    | none => threadFault c t 0x17 (targetWord tg) s
    | some k =>
      let remote := k.core != c
      let ch := chanOf s k
      if hkDelivers c k then stall c t (.claim k) true [] (putThreadRaw c t { x with claim := some k, put := [] } s)
      else if !ch.holder.isSome && slotFree k ch && !ch.posts.any (postLive s) then
        let s := putThreadRaw c t { x with claim := some k, put := [] } (putChan k { ch with holder := some (tid c t) } s)
        if remote then stall c t (.claim k) true [] s else short c t [] s
      else stall c t (.claim k) false [] (putChan k { ch with claimers := ch.claimers ++ [tid c t] } s)) s

/-- PUT. -/
def fcPut (c t : Nat) (err : FcErr) (s : State) : State :=
  fcRun 0xC01 c t err (fun w x s =>
    if x.claim.isNone then threadFault c t 0x15 w s else
    let words := ((List.range 4).map (fun i => x.put.getD i 0)).set (iw w 18 2) (getG x (iRa w))
    short c t [] (putThreadRaw c t { x with put := words } s)) s

/-- The message a thread sends: its header is built by the device (R379, R407). -/
def threadMsg (c t : Nat) (k : Chn) (x : Thread) (count : Nat) : Msg :=
  let kind := if c = 32 then 4 else if k.core = c then 0 else 1
  let src := if c = 32 then 0 else c * 64 + t * 2048
  { header := BitVec.ofNat 64 (count + kind * 8 + src), words := (List.range count).map (fun i => x.put.getD i 0) }

/-- A delivery by the housekeeping core: dropped when the mailbox is not enabled; false when it must be retried. -/
def hkDeliver (k : Chn) (m : Msg) (s : State) : State × Bool :=
  match k with
  | .mbox core n => if mboxEnabled s core n then deliver k m s else (s, true)
  | .local _ _ => (s, true)

/-- A thread no longer holds its claim. -/
def endClaim (c t : Nat) (s : State) : State := putThreadRaw c t { threadOf s c t with claim := none, put := [] } s

/-- The message of a claim is published, or discarded at a mailbox that is not enabled, and the claim is released. -/
def sendMsg (k : Chn) (m : Msg) (s : State) : State :=
  let s := putChan k { chanOf s k with holder := none } s
  match k with
  | .mbox core n => if mboxEnabled s core n then publish k m s else serve k s
  | .local _ _ => publish k m s

/-- SEND. -/
def fcSend (c t : Nat) (err : FcErr) (s : State) : State :=
  fcRun 0xC02 c t err (fun w x s =>
    let count := iw w 18 3
    match x.claim with
    | none => threadFault c t 0x15 w s
    | some k =>
      if 4 < count then threadFault c t 0x16 count s else
      let m := threadMsg c t k x count
      if hkDelivers c k then
        let r := hkDeliver k m s
        if r.2 then stall c t (.remoteSend k) true [] (endClaim c t r.1) else stall c t (.remoteSend k) false [] r.1
      else
        let s := sendMsg k m (endClaim c t s)
        if k.core = c then short c t [] s else stall c t (.remoteSend k) true [] s) s

/-- RECV. -/
def fcRecv (c t : Nat) (err : FcErr) (s : State) : State :=
  fcRun 0xC03 c t err (fun w x s =>
    let tg := chTarget w x
    let rd := iRd w
    if rd = 0 ∨ 11 < rd then threadFault c t 0x13 w s else
    match ownChan c tg with
    | none => threadFault c t 0x17 (targetWord tg) s
    | some k =>
      let r := takeMsg k s
      match r.2 with
      | some m => serve k (short c t (recvWrites rd m) r.1)
      | none =>
        let ch := chanOf r.1 k
        serve k (stall c t (.recv k rd) false [] (putChan k { ch with receivers := ch.receivers ++ [tid c t] } r.1))) s

/-- POLL. -/
def fcPoll (c t : Nat) (err : FcErr) (s : State) : State :=
  fcRun 0xC04 c t err (fun w x s =>
    let tg := chTarget w x
    match ownChan c tg with
    | none => threadFault c t 0x17 (targetWord tg) s
    | some k => short c t [(iRd w, BitVec.ofNat 64 (chanOf s k).msgs.length)] s) s

/-! ### Thread operations (R408) -/

/-- Clove time when an instruction runs: the cycle within the tick is not fixed by the instruction stream. -/
def freeTime (s : State) : Word := time64 (clockAt s ((freeNow s).toNat % 1280))

/-- A running thread ends its turn (R373). -/
def endTurn (c t : Nat) (s : State) : State :=
  let x := threadOf s c t
  if x.state = .running then putThread c t { x with state := .ready } s else s

/-! ### The instructions -/

/-- ALU ADD (R401). -/
def execFcAdd (core : CoreHk) (t : Thr) (err : FcErr) (s : State) : Res :=
  .next (fcAlu 0x00 core.val t.val err s)
/-- ALU SUB (R401). -/
def execFcSub (core : CoreHk) (t : Thr) (err : FcErr) (s : State) : Res :=
  .next (fcAlu 0x01 core.val t.val err s)
/-- ALU AND (R401). -/
def execFcAnd (core : CoreHk) (t : Thr) (err : FcErr) (s : State) : Res :=
  .next (fcAlu 0x02 core.val t.val err s)
/-- ALU OR (R401). -/
def execFcOr (core : CoreHk) (t : Thr) (err : FcErr) (s : State) : Res :=
  .next (fcAlu 0x03 core.val t.val err s)
/-- ALU XOR (R401). -/
def execFcXor (core : CoreHk) (t : Thr) (err : FcErr) (s : State) : Res :=
  .next (fcAlu 0x04 core.val t.val err s)
/-- ALU SHL (R401). -/
def execFcShl (core : CoreHk) (t : Thr) (err : FcErr) (s : State) : Res :=
  .next (fcAlu 0x05 core.val t.val err s)
/-- ALU SHR (R401). -/
def execFcShr (core : CoreHk) (t : Thr) (err : FcErr) (s : State) : Res :=
  .next (fcAlu 0x06 core.val t.val err s)
/-- ALU SAR (R401). -/
def execFcSar (core : CoreHk) (t : Thr) (err : FcErr) (s : State) : Res :=
  .next (fcAlu 0x07 core.val t.val err s)
/-- ALU SEQ (R401). -/
def execFcSeq (core : CoreHk) (t : Thr) (err : FcErr) (s : State) : Res :=
  .next (fcAlu 0x08 core.val t.val err s)
/-- ALU SLT (R401). -/
def execFcSlt (core : CoreHk) (t : Thr) (err : FcErr) (s : State) : Res :=
  .next (fcAlu 0x09 core.val t.val err s)
/-- ALU SLTU (R401). -/
def execFcSltu (core : CoreHk) (t : Thr) (err : FcErr) (s : State) : Res :=
  .next (fcAlu 0x0A core.val t.val err s)
/-- ALU MUL (R401). -/
def execFcMul (core : CoreHk) (t : Thr) (err : FcErr) (s : State) : Res :=
  .next (fcAlu 0x0B core.val t.val err s)
/-- ALU MULHU (R401). -/
def execFcMulhu (core : CoreHk) (t : Thr) (err : FcErr) (s : State) : Res :=
  .next (fcAlu 0x0C core.val t.val err s)
/-- ALU DSTEP (R401). -/
def execFcDstep (core : CoreHk) (t : Thr) (err : FcErr) (s : State) : Res :=
  .next (fcAlu 0x0D core.val t.val err s)
/-- ALU SLTU128 (R401). -/
def execFcSltu128 (core : CoreHk) (t : Thr) (err : FcErr) (s : State) : Res :=
  .next (fcAlu 0x0E core.val t.val err s)
/-- ALU CLZ (R401). -/
def execFcClz (core : CoreHk) (t : Thr) (err : FcErr) (s : State) : Res :=
  .next (fcAlu 0x10 core.val t.val err s)
/-- ALU POPC (R401). -/
def execFcPopc (core : CoreHk) (t : Thr) (err : FcErr) (s : State) : Res :=
  .next (fcAlu 0x11 core.val t.val err s)
/-- ALU BSWAP (R401). -/
def execFcBswap (core : CoreHk) (t : Thr) (err : FcErr) (s : State) : Res :=
  .next (fcAlu 0x12 core.val t.val err s)
/-- ALUI ADDI (R402). -/
def execFcAddi (core : CoreHk) (t : Thr) (err : FcErr) (s : State) : Res :=
  .next (fcAlui 0 core.val t.val err s)
/-- ALUI ANDI (R402). -/
def execFcAndi (core : CoreHk) (t : Thr) (err : FcErr) (s : State) : Res :=
  .next (fcAlui 1 core.val t.val err s)
/-- ALUI ORI (R402). -/
def execFcOri (core : CoreHk) (t : Thr) (err : FcErr) (s : State) : Res :=
  .next (fcAlui 2 core.val t.val err s)
/-- ALUI XORI (R402). -/
def execFcXori (core : CoreHk) (t : Thr) (err : FcErr) (s : State) : Res :=
  .next (fcAlui 3 core.val t.val err s)
/-- ALUI SHLI (R402). -/
def execFcShli (core : CoreHk) (t : Thr) (err : FcErr) (s : State) : Res :=
  .next (fcAlui 4 core.val t.val err s)
/-- ALUI SHRI (R402). -/
def execFcShri (core : CoreHk) (t : Thr) (err : FcErr) (s : State) : Res :=
  .next (fcAlui 5 core.val t.val err s)
/-- ALUI SARI (R402). -/
def execFcSari (core : CoreHk) (t : Thr) (err : FcErr) (s : State) : Res :=
  .next (fcAlui 6 core.val t.val err s)
/-- ALUI SEQI (R402). -/
def execFcSeqi (core : CoreHk) (t : Thr) (err : FcErr) (s : State) : Res :=
  .next (fcAlui 7 core.val t.val err s)
/-- ALUI SLTI (R402). -/
def execFcSlti (core : CoreHk) (t : Thr) (err : FcErr) (s : State) : Res :=
  .next (fcAlui 8 core.val t.val err s)
/-- ALUI SLTUI (R402). -/
def execFcSltui (core : CoreHk) (t : Thr) (err : FcErr) (s : State) : Res :=
  .next (fcAlui 9 core.val t.val err s)
/-- ALUI EXTU (R402). -/
def execFcExtu (core : CoreHk) (t : Thr) (err : FcErr) (s : State) : Res :=
  .next (fcAlui 10 core.val t.val err s)
/-- MOVI (R400). -/
def execFcMovi (core : CoreHk) (t : Thr) (err : FcErr) (s : State) : Res :=
  .next (fcRun 0x200 core.val t.val err (fun w _ s => short core.val t.val [(iRd w, sx20 w)] s) s)
/-- LIM (R400). -/
def execFcLim (core : CoreHk) (t : Thr) (err : FcErr) (s : State) : Res :=
  .next (fcRun 0x300 core.val t.val err (fun w x s =>
    short core.val t.val [(iRd w, (getG x (iRd w) <<< 20) ||| BitVec.ofNat 64 (iImm20 w))] s) s)
/-- LD (R403). -/
def execFcLd (core : CoreHk) (t : Thr) (err : FcErr) (s : State) : Res :=
  .next (fcLoad core.val t.val err s)
/-- ST (R403). -/
def execFcSt (core : CoreHk) (t : Thr) (err : FcErr) (s : State) : Res :=
  .next (fcStore core.val t.val err s)
/-- AMO SWAP (R404). -/
def execFcSwap (core : CoreHk) (t : Thr) (err : FcErr) (s : State) : Res :=
  .next (fcAmo 0 core.val t.val err s)
/-- AMO FADD (R404). -/
def execFcFadd (core : CoreHk) (t : Thr) (err : FcErr) (s : State) : Res :=
  .next (fcAmo 1 core.val t.val err s)
/-- AMO CAS (R404). -/
def execFcCas (core : CoreHk) (t : Thr) (err : FcErr) (s : State) : Res :=
  .next (fcAmo 2 core.val t.val err s)
/-- BC (R405). -/
def execFcBc (core : CoreHk) (t : Thr) (err : FcErr) (s : State) : Res :=
  .next (fcRun 0x800 core.val t.val err (fun w x s =>
    jumpTo core.val t.val [] (pcAdd core.val x.pc (if bcHolds (iw w 10 2) (getG x (iRd w)) then signed 20 (iImm20 w) else 1)) s) s)
/-- JAL (R400). -/
def execFcJal (core : CoreHk) (t : Thr) (err : FcErr) (s : State) : Res :=
  .next (fcRun 0x900 core.val t.val err (fun w x s =>
    jumpTo core.val t.val [(iRd w, linkOf core.val x.pc)] (pcAdd core.val x.pc (signed 20 (iImm20 w))) s) s)
/-- JR (R400): the sum of ra and imm14, modulo the size of the code. -/
def execFcJr (core : CoreHk) (t : Thr) (err : FcErr) (s : State) : Res :=
  .next (fcRun 0xA00 core.val t.val err (fun w x s =>
    jumpTo core.val t.val [(iRd w, linkOf core.val x.pc)]
      (BitVec.ofNat 20 ((getG x (iRa w) + sx14 w).toNat % pcMod core.val)) s) s)
/-- CH CLAIM (R406). -/
def execFcClaim (core : CoreHk) (t : Thr) (err : FcErr) (s : State) : Res :=
  .next (fcClaim core.val t.val err s)
/-- CH PUT (R406). -/
def execFcPut (core : CoreHk) (t : Thr) (err : FcErr) (s : State) : Res :=
  .next (fcPut core.val t.val err s)
/-- CH SEND (R406). -/
def execFcSend (core : CoreHk) (t : Thr) (err : FcErr) (s : State) : Res :=
  .next (fcSend core.val t.val err s)
/-- CH RECV (R406). -/
def execFcRecv (core : CoreHk) (t : Thr) (err : FcErr) (s : State) : Res :=
  .next (fcRecv core.val t.val err s)
/-- CH POLL (R406). -/
def execFcPoll (core : CoreHk) (t : Thr) (err : FcErr) (s : State) : Res :=
  .next (fcPoll core.val t.val err s)
/-- SYS HALT (R408). -/
def execFcHalt (core : CoreHk) (t : Thr) (err : FcErr) (s : State) : Res :=
  .next (fcRun 0xE00 core.val t.val err (fun _ _ s =>
    endThread core.val t.val .halted (short core.val t.val [] s)) s)
/-- SYS WAIT (R408): n = 0 does not stall. -/
def execFcWait (core : CoreHk) (t : Thr) (err : FcErr) (s : State) : Res :=
  .next (fcRun 0xE01 core.val t.val err (fun w x s =>
    let n := (getG x (iRa w) + zx14 w).toNat
    if n = 0 then short core.val t.val [] s else stall core.val t.val (.timer (s.ticks + n)) false [] s) s)
/-- SYS TIME (R408). -/
def execFcTime (core : CoreHk) (t : Thr) (err : FcErr) (s : State) : Res :=
  .next (fcRun 0xE02 core.val t.val err (fun w _ s => short core.val t.val [(iRd w, freeTime s)] (useFree s)) s)
/-- SYS TICK (R408). -/
def execFcTick (core : CoreHk) (t : Thr) (err : FcErr) (s : State) : Res :=
  .next (fcRun 0xE03 core.val t.val err (fun w _ s =>
    short core.val t.val [(iRd w, (tickNow s).setWidth 64)] s) s)
/-- SYS TID (R408). -/
def execFcTid (core : CoreHk) (t : Thr) (err : FcErr) (s : State) : Res :=
  .next (fcRun 0xE04 core.val t.val err (fun w _ s =>
    short core.val t.val [(iRd w, BitVec.ofNat 64 (tid core.val t.val))] s) s)
/-- SYS YIELD (R408). -/
def execFcYield (core : CoreHk) (t : Thr) (err : FcErr) (s : State) : Res :=
  .next (fcRun 0xE05 core.val t.val err (fun _ _ s => endTurn core.val t.val (short core.val t.val [] s)) s)
/-- SYS BKPT (R408): it stops the thread before it executes; resumed or stepped past, it has no further effect. -/
def execFcBkpt (core : CoreHk) (t : Thr) (err : FcErr) (s : State) : Res :=
  .next (fcRun 0xE06 core.val t.val err (fun _ x s =>
    if debugLocked s then threadFault core.val t.val 0x1A 0 s
    else if x.passBp then short core.val t.val [] s
    else putThread core.val t.val { x with state := .stopped, stepping := false } s) s)
/-- SYS FAULT (R408). -/
def execFcFault (core : CoreHk) (t : Thr) (err : FcErr) (s : State) : Res :=
  .next (fcRun 0xE07 core.val t.val err (fun w _ s => threadFault core.val t.val 0x3F (iImm14 w) s) s)

end Sys2Proof.Machine
end

