-- ==== Sys2Proof/Machine/FlowCalls.lean ====
section
/-! DEFINITION. Engine calls of a flow core (14 R409 to R419). -/
namespace Sys2Proof.Machine

/-! ### The rules of every call (R409) -/

/-- A call: its block is read, BAD_BLOCK when it is misaligned or outside the slice; a block word that cannot be corrected
is MEM_ECC (R386). The body gets the instruction word, the block's address and its bytes. -/
def xcall (call : Nat) (size : Nat → Nat) (c t : Nat) (err : FcErr) (body : Nat → Nat → Bytes → State → State) (s : State) :
    State :=
  fcRun (0x1000 + call) c t err (fun w x s =>
    let a := (getG x (iRa w)).toNat
    let n := size w
    if a % 8 ≠ 0 ∨ (if c = 32 then 0x400000 else 0x10000) < a + n then threadFault c t 0x18 (a % 2 ^ 32) s
    else if err = .memEcc then faultFree c t 0x02 s
    else body w a (placeRead s (place s c t a n) n) s) s

/-- A buffer that a block names: XADDR outside the address space of R370. No bytes is no buffer. -/
def withBuf (c t : Nat) (a : Word) (n : Nat) (s : State) (go : Place → State) : State :=
  if n = 0 then go .bad else
  match place s c t a.toNat n with
  | .bad => threadFault c t 0x19 (a.toNat % 2 ^ 32) s
  | p => go p

/-- A thread is owed writes to memory. -/
def oweMem (c t : Nat) (mem : List (Place × Bytes)) (s : State) : State :=
  putThreadRaw c t { threadOf s c t with owedMem := mem } s

/-- A call completes: its results, and its status to rd, are owed until the thread resumes (R409, R385). -/
def callOwes (c t w status : Nat) (mem : List (Place × Bytes)) (s : State) : State :=
  oweMem c t mem (stall c t .call true [(iRd w, BitVec.ofNat 64 status)] s)

/-- Where results at an offset of a block go. -/
def blockPlace (s : State) (c t a off : Nat) (results : Bytes) : Place × Bytes :=
  (place s c t (a + off) results.length, results)

/-- A call completes with results at an offset of its block. -/
def callEnd (c t w a : Nat) (status off : Nat) (results : Bytes) (s : State) : State :=
  callOwes c t w status [blockPlace s c t a off results] s

/-- A call completes without results. -/
def callStatus (c t w status : Nat) (s : State) : State :=
  stall c t .call true [(iRd w, BitVec.ofNat 64 status)] s

/-! ### DMA (R411) -/

/-- Status of the checks of a DMA call, 0 when they pass. -/
def dmaCheck (s : State) (b : Bytes) : Nat :=
  let len := lef b 0x10 0 13
  let fn := lef b 0x10 13 2
  if len = 0 ∨ 4096 < len ∨ 4096 < le b 0 8 % 4096 + len then 0x0612
  else if !gateOpen s fn (lef b 0x10 16 10) (BitVec.ofNat 8 (lef b 0x10 26 8)) then 0x0610
  else if !dmaOn s fn then 0x0611 else 0

/-- Function of a DMA block. -/
def dmaFn (b : Bytes) : Fn := Fin.ofNat 4 (lef b 0x10 13 2)

/-- DMA_RD (R411). -/
def execDmaRd (core : CoreHk) (t : Thr) (r : Read) (err : FcErr) (s : State) : Res :=
  let c := core.val
  .next (xcall 0x00 (fun _ => 24) c t.val err (fun w _ b s =>
    let len := lef b 0x10 0 13
    withBuf c t.val (leWord b 8) len s (fun p =>
      let st := dmaCheck s b
      if st ≠ 0 then callStatus c t.val w st s else
      let s := instRead (dmaFn b) (lef b 0x10 16 10) (le b 0 8) len (.flowCore core t) s
      match r with
      | .data d => callOwes c t.val w 0 [(p, slice d 0 len)] s
      | _ => callStatus c t.val w (dmaStatus r) (readFailure (dmaFn b) (le b 0 8) r s))) s)

/-- DMA_WR (R411). -/
def execDmaWr (core : CoreHk) (t : Thr) (err : FcErr) (s : State) : Res :=
  let c := core.val
  .next (xcall 0x01 (fun _ => 24) c t.val err (fun w _ b s =>
    let len := lef b 0x10 0 13
    withBuf c t.val (leWord b 8) len s (fun p =>
      let st := dmaCheck s b
      if st ≠ 0 then callStatus c t.val w st s else
      let r := instWrite (dmaFn b) (lef b 0x10 16 10) (BitVec.ofNat 8 (lef b 0x10 26 8)) (lef b 0x10 34 1 == 0)
        (le b 0 8) (placeRead s p len) s
      callStatus c t.val w (if r.2 then 0 else 0x0610) r.1)) s)

/-! ### Packets (R412) -/

/-- The frame of a handle in a block, or XS_HANDLE. -/
def withFrame (c t w : Nat) (handle : Nat) (s : State) (go : Nat → Frame → State) : State :=
  match heldFrame s c handle with
  | none => callStatus c t w 0x0613 s
  | some f => match frameOf s f with
    | none => callStatus c t w 0x0613 s
    | some x => go f x

/-- A range of PKT_READ or PKT_WRITE lies in the frame, or in its metadata cell. -/
def pktRange (metaCell : Bool) (off len : Nat) (x : Frame) : Bool :=
  decide (1 ≤ len) && decide (len ≤ 4096) && decide (off + len ≤ if metaCell then 64 else x.len)

/-- PKT_READ (R412). -/
def execPktRead (core : CoreHk) (t : Thr) (err : FcErr) (s : State) : Res :=
  let c := core.val
  .next (xcall 0x08 (fun _ => 24) c t.val err (fun w _ b s =>
    let off := le b 4 2
    let len := le b 6 2
    let metaCell := iw w 24 1 == 1
    withBuf c t.val (leWord b 8) len s (fun p =>
      withFrame c t.val w (lef b 0 0 18) s (fun _ x =>
        if !pktRange metaCell off len x then callStatus c t.val w 0x0612 s
        else callOwes c t.val w 0 [(p, slice (if metaCell then x.mdata else x.bytes) off len)] s))) s)

/-- PKT_WRITE (R412). -/
def execPktWrite (core : CoreHk) (t : Thr) (err : FcErr) (s : State) : Res :=
  let c := core.val
  .next (xcall 0x09 (fun _ => 24) c t.val err (fun w _ b s =>
    let off := le b 4 2
    let len := le b 6 2
    let metaCell := iw w 24 1 == 1
    withBuf c t.val (leWord b 8) len s (fun p =>
      withFrame c t.val w (lef b 0 0 18) s (fun f x =>
        if !pktRange metaCell off len x then callStatus c t.val w 0x0612 s
        else
          let d := placeRead s p len
          let x := if metaCell then { x with mdata := splice (slice x.mdata 0 64) off d }
            else { x with bytes := splice x.bytes off d }
          callStatus c t.val w 0 (putFrame f x s)))) s)

/-- The largest frame, with FCS, of the port under a leaf (R187). -/
def egressMax (s : State) (l : Nat) : Option Nat := if leafPort s l < 12 then some (maxFrame s (leafPort s l)) else none

/-- A held frame is edited for a leaf: edit program and epoch of its pipeline (R187). -/
def editHeld (leaf prog : Nat) (x : Frame) (s : State) : EditResult :=
  editFrame s { x with editProg := BitVec.ofNat 12 prog, epoch := epochCurrent s x.pl.toNat } (egressMax s leaf)

/-- A core gives a held frame up: its handle is spent and the metadata cell freed. -/
def spendHandle (c f : Nat) (s : State) : State := dropPunt c f (dropMetaCell f s)

/-- PKT_SEND (R412). -/
def execPktSend (core : CoreHk) (t : Thr) (err : FcErr) (s : State) : Res :=
  let c := core.val
  .next (xcall 0x0A (fun _ => 24) c t.val err (fun w _ b s =>
    withFrame c t.val w (lef b 0 0 18) s (fun f x =>
      let leaf := lef b 0x10 0 20
      match editHeld leaf (lef b 0x10 20 12) x s with
      | .bad _ => callStatus c t.val w 0x0612 (freeFrame f (spendHandle c f s))
      | .ok by_ =>
        let r := enqueueFrame leaf f (putFrame f { x with bytes := by_ } (spendHandle c f s))
        if r.2 then callStatus c t.val w 0 r.1 else callStatus c t.val w 0x0614 (freeFrame f r.1))) s)

/-- PKT_FREE (R412). -/
def execPktFree (core : CoreHk) (t : Thr) (err : FcErr) (s : State) : Res :=
  let c := core.val
  .next (xcall 0x0B (fun _ => 8) c t.val err (fun w _ b s =>
    withFrame c t.val w (lef b 0 0 18) s (fun f _ => callStatus c t.val w 0 (freeFrame f (spendHandle c f s)))) s)

/-- A frame that a core builds: it came from no port (port code 15). -/
def newFrame (s : State) (bytes : Bytes) : Frame :=
  { bytes := bytes, fcsOk := true, source := 0, port := 15, pass := 0, src0 := 0, pl := 0, loc := .core, rxTime := s.clk,
    endTime := s.clk, epoch := epochCurrent s 0, record := [], mdata := List.replicate 64 0, result := .committed,
    disp := .none, mirrors := [], copies := 0, editProg := 0, ctx := none, counts := [], debits := [], rebuilt := false, owner := none, tx := none,
    launch := none, buf := s.tm.nextBuf }

/-- PKT_NEW (R412). -/
def execPktNew (core : CoreHk) (t : Thr) (err : FcErr) (s : State) : Res :=
  let c := core.val
  .next (xcall 0x0C (fun _ => 24) c t.val err (fun w a b s =>
    let len := le b 6 2
    withBuf c t.val (leWord b 8) len s (fun p =>
      if len < 14 ∨ 9212 < len then callStatus c t.val w 0x0612 s
      else
        let need := cellsFor len + 1
        if sharedSize s < sharedUsed s + need ∨ 1024 ≤ (coreOf s c).punts.length then callStatus c t.val w 0x0615 s
        else
          let f := s.pipe.nextFrame
          let x := newFrame s (placeRead s p len)
          let s := newBuf { cells := need, region := .shared, port := 15, prio := 0, users := 1 } s
          let s := putFrame f x { s with pipe := { s.pipe with nextFrame := f + 1 } }
          let h := holdFrame c f s
          callEnd c t.val w a 0 0 (leBytes 4 h.2) h.1)) s)

/-! ### Lookups (R413) -/

/-- The result bytes of a LOOKUP from 0x40. -/
def lookupBytes (h : Hit) : Bytes :=
  match h with
  | none => List.replicate 16 0
  | some (act, d) => leBytes 4 (1 + act % 65536 * 65536) ++ leBytes 4 0 ++ slice d 0 8

/-- LOOKUP (R413). -/
def execLookup (core : CoreHk) (t : Thr) (err : FcErr) (s : State) : Res :=
  let c := core.val
  .next (xcall 0x10 (fun _ => 80) c t.val err (fun w a b s =>
    let pl := lef b 0 0 3
    let kind := lef b 0 3 3
    let table := lef b 0 6 6
    if 4 < pl ∨ kind = 0 ∨ 4 < kind ∨ (pl = 4 ∧ kind ≠ 2) then callStatus c t.val w 0x0616 s else
    let cur := epochCurrent s pl
    let ret := epochRetired s pl
    let e := if iw w 24 1 = 1 then BitVec.ofNat 32 (le b 8 4) else cur
    if (cur - ret).toNat < (e - ret).toNat then callStatus c t.val w 0x061E s else
    let key := slice b 0x10 48
    let r := if err = .tableEcc then lookupError pl kind table table key e s else (s, false)
    if r.2 then callStatus c t.val w 0x0612 r.1 else
    match (if err = .tableEcc ∧ kind = 3 then .result none else lookupKey r.1 pl kind table table key e) with
    | .fault n => callStatus c t.val w 0x0617 (juniperFault pl table n r.1)
    | .result h =>
      callOwes c t.val w 0 [blockPlace r.1 c t.val a 8 (leBytes 4 e.toNat), blockPlace r.1 c t.val a 0x40 (lookupBytes h)] r.1) s)

/-! ### Cryptography (R414) -/

/-- A hash over a run: its digest. -/
def digest (op : Nat) (d : Bytes) : Bytes :=
  match op with
  | 0 => sha256 d
  | 1 => sha384 d
  | _ => sha512 d

/-- Digest bytes of a hash. -/
def digestLen (op : Nat) : Nat := if op = 0 then 32 else if op = 1 then 48 else 64

/-- Algorithm of an AEAD op: 0 AES-GCM-128, 1 AES-GCM-256, 2 ChaCha20-Poly1305. -/
def aeadAlg (op : Nat) (key256 : Bool) : Nat := if 5 ≤ op then 2 else if key256 then 1 else 0

/-- A hash. -/
def cryptHash (c t w : Nat) (b : Bytes) (op len : Nat) (s : State) : State :=
  withBuf c t (leWord b 8) (min len (2 ^ 24)) s (fun p =>
    withBuf c t (leWord b 0x10) (digestLen op) s (fun q =>
      if 2 ^ 24 < len then callStatus c t w 0x0612 s
      else callOwes c t w 0 [(q, digest op (placeRead s p len))] s))

/-- A seal or an open. -/
def cryptAead (c t w a : Nat) (b : Bytes) (op len : Nat) (s : State) : State :=
  let al := le b 0x20 2
  withBuf c t (leWord b 8) (min len 65536) s (fun p =>
    withBuf c t (leWord b 0x10) (min len 65536) s (fun q =>
      withBuf c t (leWord b 0x18) al s (fun ad =>
        if !cryptoEnabled s then callStatus c t w 0x061A s
        else if 65536 < len ∨ 4096 < al then callStatus c t w 0x0612 s
        else
          let alg := aeadAlg op (lef b 0 4 1 == 1)
          let key := slice b 0x28 (if alg = 0 then 16 else 32)
          let nonce := slice b 0x48 12
          let aad := placeRead s ad al
          let src := placeRead s p len
          if op = 3 ∨ op = 5 then
            let o := slice (aeadSeal alg key nonce aad src) 0 (len + 16)
            callOwes c t w 0 [(q, o.take len), blockPlace s c t a 0x58 (o.drop len)] s
          else
            match aeadOpen alg key nonce aad (src ++ slice b 0x58 16) with
            | none => callStatus c t w 0x0618 s
            | some pt => callOwes c t w 0 [(q, slice pt 0 len)] s)))

/-- The cells of a held frame whose length has changed, with its metadata cell. -/
def recountHeld (f : Nat) (s : State) : State := addMetaCell f (recount f (dropMetaCell f s))

/-- FRAME: a context applied to a held frame; a frame with more bytes than any port takes is over its limits. -/
def cryptFrame (c t w : Nat) (b : Bytes) (s : State) : State :=
  if !cryptoEnabled s then callStatus c t w 0x061A s else
  withFrame c t w (lef b 8 0 18) s (fun f _ =>
    let r := applyCtx (lef b 0x10 0 20) f (some 9212) s
    match r.2 with
    | .ok _ => callStatus c t w 0 (recountHeld f r.1)
    | .notLive => callStatus c t w 0x0619 r.1
    | .auth => callStatus c t w 0x0618 (freeFrame f (spendHandle c f r.1))
    | .replay => callStatus c t w 0x0618 (freeFrame f (spendHandle c f r.1))
    | _ => callStatus c t w 0x0612 (freeFrame f (spendHandle c f r.1)))

/-- CRYPT (R414). An op code above 7 completes with a status the spec does not state, a free one of the flow-core range
(R419), and does nothing else. -/
def execCrypt (core : CoreHk) (t : Thr) (err : FcErr) (s : State) : Res :=
  let c := core.val
  .next (xcall 0x18 (fun _ => 104) c t.val err (fun w a b s =>
    let op := lef b 0 0 4
    let len := le b 4 4
    if op ≤ 2 then cryptHash c t.val w b op len s
    else if op ≤ 6 then cryptAead c t.val w a b op len s
    else if op = 7 then cryptFrame c t.val w b s
    else callStatus c t.val w (0x0610 + (freeNow s).toNat % 15) (useFree s)) s)

/-! ### Counters (R415) -/

/-- COUNT (R415). -/
def execCount (core : CoreHk) (t : Thr) (err : FcErr) (s : State) : Res :=
  let c := core.val
  .next (xcall 0x20 (fun _ => 24) c t.val err (fun w _ b s =>
    callStatus c t.val w 0 (addPair (lef b 0 0 2) (lef b 0 2 18) (leWord b 8) (leWord b 0x10) s)) s)

/-! ### Commit groups of a core (R416 to R418) -/

/-- GOPEN (R416). -/
def execGopen (core : CoreHk) (t : Thr) (err : FcErr) (s : State) : Res :=
  let c := core.val
  .next (xcall 0x28 (fun _ => 24) c t.val err (fun w a b s =>
    let tok := leWord b 0
    let fn := lef b 8 0 2
    let inst := lef b 8 2 10
    if !rb s CG_CTRL 0 then callStatus c t.val w 0x0506 s
    else if fld tok 0 60 = 0 then callStatus c t.val w 0x0505 s
    else if !gateOpen s fn inst (BitVec.ofNat 8 (lef b 8 12 8)) then callStatus c t.val w 0x0610 s
    else
      match freeSlot s with
      | none => callStatus c t.val w 0x061C s
      | some g =>
        let x := newGroup s (domainOf s fn inst) (1024 * fn + inst) tok 16 (some (BitVec.ofNat 6 c, BitVec.ofNat 3 t.val))
        let s := if x.reissue then addStat CG_REISSUES 1 s else s
        callEnd c t.val w a 0 0x10 (leBytes 8 g) (putCg g x s)) s)

/-- The group of a thread under a handle (R416). -/
def ownGroup (s : State) (c t handle : Nat) : Option Group :=
  match cgOf s handle with
  | none => none
  | some x => if x.core == some (BitVec.ofNat 6 c, BitVec.ofNat 3 t) then some x else none

/-- A member joins a core group, staged (R417). -/
def coreMember (g : Nat) (x : Group) (eff : Effect) (updates bytes : Nat) (s : State) : State :=
  putCg g { x with fetched := x.fetched + 1, members := x.members ++ [{ entry := none, staged := true, effect := eff }],
                   updates := x.updates + updates, bytes := x.bytes + bytes } s

/-- A PF0 instance is ON in the domain of a group (R417). -/
def pf0Bound (s : State) (d : Nat) : Bool :=
  (List.range (instCount s 0)).any (fun i => (instOf s 0 i).state == .on && domainOf s 0 i == d)

/-- The check and update of a table member from a core; none is an opcode that may not join. -/
def corePlan (s : State) (d : Bytes) : Option Plan :=
  match lef d 0 4 8 with
  | 0x90 => some (dirPlan s d)
  | 0x91 => some (staPlan s d)
  | 0x92 => some (lpmPlan s d)
  | 0xB0 => some (actPlan s d)
  | 0xB3 => some (jtRootPlan s d)
  | 0xC0 => some (streamPlan s d)
  | _ => none

/-- A table member from a core is staged, or its own status is returned; none while it waits for a free shadow slot. -/
def stageTable (g : Nat) (x : Group) (p : Plan) (s : State) : Option (State × Nat) :=
  match p with
  | .fail st => some (s, st)
  | .info st => some (coreMember g x (.info (BitVec.ofNat 16 st)) 0 0 s, st)
  | .write k keys =>
    if 64 < x.updates + keys.length then some (s, 0x061B)
    else if !shadowRoom s (keys.map (fun y => y.1)) then none
    else some (coreMember g x .tables keys.length 0 (takeShadows k keys (some g) none s), 0)

/-- A table member from a core: the call completes, or the thread stalls until a shadow slot is free (R373, R417). -/
def joinTable (c t w g : Nat) (x : Group) (d : Bytes) (p : Plan) (s : State) : State :=
  match stageTable g x p s with
  | some r => callStatus c t w r.2 r.1
  | none => stall c t (.join g (iRd w) d) false [] s

/-- A context member from a core. -/
def joinContext (c t w g : Nat) (x : Group) (ctx : Nat) (img : Option Bytes) (s : State) : State :=
  if 64 < x.updates + 1 then callStatus c t w 0x061B s
  else callStatus c t w 0 (coreMember g x (.context (BitVec.ofNat 20 ctx) img) 1 0 s)

/-- A descriptor member (R417); `src` is the image of a CTX_WRITE. A COUNT_DELTA whose pair is out of share has no status
of its own among those a call returns (R419): it is a range outside its limits. -/
def joinDescriptor (c t w g : Nat) (x : Group) (d : Bytes) (src : Place) (s : State) : State :=
  let op := lef d 0 4 8
  let table := (corePlan s d).isSome
  let ctx := op == 0xD0 || op == 0xD1
  if !(table || ctx || op == 0xF1) || !bit (leWord d 0) 14 || ((table || ctx) && !pf0Bound s x.domain) then
    callStatus c t w 0x0616 s
  else if x.reissue then callStatus c t w 0 (coreMember g x .none 0 0 s)
  else if op = 0xF1 then
    match countPair s (x.inst / 1024) (x.inst % 1024) (lef d 0x10 2 18) with
    | none => callStatus c t w 0x0612 s
    | some p => callStatus c t w 0 (coreMember g x
        (.counter (BitVec.ofNat 2 (lef d 0x10 0 2)) (BitVec.ofNat 18 p) (leWord d 0x18) (leWord d 0x20)) 0 0 s)
  else if op = 0xD0 then
    match ctlContext d with
    | none => callStatus c t w 0x04D0 s
    | some k =>
      let b := placeRead s src 256
      let st := ctxCheck s b
      if st ≠ 0 then callStatus c t w st s else joinContext c t w g x k (some b) s
  else if op = 0xD1 then
    match ctlContext d with
    | none => callStatus c t w 0x04D0 s
    | some k => joinContext c t w g x k none s
  else
    match corePlan s d with
    | none => callStatus c t w 0x0616 s
    | some p => joinTable c t w g x d p s

/-- A frame member from a core: edited, admitted as a NET_TX member is, and held off every leaf (R417, R285). -/
def joinFrame (c t w g : Nat) (x : Group) (b : Bytes) (s : State) : State :=
  withFrame c t w (lef b 0 0 18) s (fun f y =>
    let leaf := lef b 0x10 0 20
    match editHeld leaf (lef b 0x10 20 12) y s with
    | .bad _ => callStatus c t w 0x0612 s
    | .ok by_ =>
      if 2 ^ 22 < x.bytes + by_.length then callStatus c t w 0x061B s
      else
        let r := admitMember leaf f (putFrame f { y with bytes := by_, loc := .group } (spendHandle c f s))
        if r.2 then callStatus c t w 0 (coreMember g x (.frame f (BitVec.ofNat 20 leaf)) 0 by_.length r.1)
        else callStatus c t w 0x0614 (freeFrame f r.1))

/-- GJOIN (R417). -/
def execGjoin (core : CoreHk) (t : Thr) (err : FcErr) (s : State) : Res :=
  let c := core.val
  .next (xcall 0x29 (fun w => if iw w 24 1 = 1 then 24 else 72) c t.val err (fun w _ b s =>
    let g := (getG (threadOf s c t.val) (iRb w)).toNat % 2 ^ 16
    let frame := iw w 24 1 == 1
    withBuf c t.val (leWord b 0x18) (if !frame && lef b 0 4 8 == 0xD0 then 256 else 0) s (fun src =>
      match ownGroup s c t.val g with
      | none => callStatus c t.val w 0x0613 s
      | some x =>
        if x.state = .aborted then callStatus c t.val w 0x061D s
        else if x.state != .opened then callStatus c t.val w 0x0613 s
        else if 16 ≤ x.members.length then callStatus c t.val w 0x061B s
        else if frame then joinFrame c t.val w g x b s else joinDescriptor c t.val w g x b src s)) s)

/-- A GJOIN that waits for a shadow slot is tried again; a group that was aborted meanwhile ends it (R417). -/
def retryJoin (c t : Nat) (s : State) : State :=
  let x := threadOf s c t
  match x.wait with
  | .join g rd d =>
    let wake (st : Nat) (s : State) : State :=
      putThread c t { threadOf s c t with done := true, owed := [(rd, BitVec.ofNat 64 st)] } s
    if x.done then s else
    match ownGroup s c t g, corePlan s d with
    | none, _ => wake 0x061D s
    | _, none => wake 0x0616 s
    | some y, some p =>
      if y.state != .opened then wake 0x061D s else
      match stageTable g y p s with
      | some r => wake r.2 r.1
      | none => s
  | _ => s

/-- GCLOSE (R418): the thread waits until its group commits or aborts. -/
def execGclose (core : CoreHk) (t : Thr) (err : FcErr) (s : State) : Res :=
  let c := core.val
  .next (xcall 0x2A (fun _ => 32) c t.val err (fun w a _ s =>
    let g := (getG (threadOf s c t.val) (iRb w)).toNat % 2 ^ 16
    match ownGroup s c t.val g with
    | none => callStatus c t.val w 0x0613 s
    | some x =>
      if x.state = .aborted then
        callEnd c t.val w a 0x061D 0 (slice (x.members.flatMap (fun _ => leBytes 2 0x0502)) 0 32) (freeCg g s)
      else if x.state != .opened then callStatus c t.val w 0x0613 s
      else stall c t.val .call false [] (putCg g { x with state := .closed, n := x.members.length, gclose := some (iRd w, a) } s)) s)

end Sys2Proof.Machine
end

