-- ==== Sys2Proof/Machine/FlowCtl.lean ====
section
/-! DEFINITION. Turns, stalls, thread control, debug, closed wait and CORE_MSG delivery (13 R372 to R388, R392). -/
namespace Sys2Proof.Machine

/-! ### Turns and stalls (R373, R374) -/

/-- The running thread of a core. -/
def runningThread (s : State) (c : Nat) : Option Nat := (threadsOf c).find? (fun t => (threadOf s c t).state == .running)

/-- TURN_LIMIT: after its 64th instruction of the turn a thread goes to READY (R373). -/
def execTurnLimit (core : CoreHk) (s : State) : Res :=
  let c := core.val
  .next (match runningThread s c with
    | none => s
    | some t =>
      if (coreOf s c).turn < 64 then s
      else putThread c t { threadOf s c t with state := .ready } s)

/-- THREAD_SWITCH: with no thread running, the first READY thread after the last one that ran gets the turn (R374). -/
def execThreadSwitch (core : CoreHk) (s : State) : Res :=
  let c := core.val
  let order := (List.range 8).map (fun k => ((coreOf s c).last + 1 + k) % 8)
  .next (match runningThread s c, order.find? (fun t => (threadsOf c).contains t && (threadOf s c t).state == .ready) with
    | none, some t =>
      let s := putThread c t { threadOf s c t with state := .running } s
      putCore c { coreOf s c with last := t, turn := 0 } s
    | _, _ => s)

/-- A delivery of the housekeeping core is tried again (R378). -/
def retrySend (c t : Nat) (s : State) : State :=
  let x := threadOf s c t
  match x.wait, x.done, x.claim with
  | .remoteSend _, false, some k =>
    let r := hkDeliver k (threadMsg c t k x (iw (fetchWord s c x.pc) 18 3)) s
    if r.2 then putThread c t { threadOf (endClaim c t r.1) c t with done := true } (endClaim c t r.1) else r.1
  | _, _, _ => s

/-- What a stalled thread waits for has come. -/
def stallDone (s : State) (x : Thread) : Bool :=
  x.done || (match x.wait with | .timer u => decide (u ≤ s.ticks) | _ => false)

/-- LONG_STALL_END: the register and memory writes owed are made, the instruction completes, and the thread is READY, or STOPPED
when a stop was requested (R373, R387). -/
def execLongStallEnd (core : CoreHk) (t : Thr) (s : State) : Res :=
  let c := core.val
  let s := retryJoin c t.val (retrySend c t.val s)
  let x := threadOf s c t.val
  .next (if x.state != .stalled || !stallDone s x then s
    else
      let y := { setGs x x.owed with pc := pcAdd c x.pc 1, state := if x.stopReq then .stopped else .ready,
                                     wait := .none, done := false, owed := [], owedMem := [], stopReq := false }
      countRetired c (putThread c t.val y (x.owedMem.foldl (fun s m => placeWrite m.1 m.2 s) s)))

/-! ### Kill, start, halt, thaw (R384, R385) -/

/-- KILL (R385). -/
def execKill (core : Core) (t : Thr) (s : State) : Res :=
  .next (setupWrite s (fun s =>
    if (threadOf s core.val t.val).state = .halted then s else endThread core.val t.val .halted s))

/-- START: a HALTED thread becomes READY at the core's entry, or at start_pc when pc_sel is 1 (R385). -/
def execStart (core : Core) (t : Thr) (s : State) : Res :=
  .next (setupWrite s (fun s =>
    let x := threadOf s core.val t.val
    let b := FC_THR_B (8 * core.val + t.val)
    let pc := if rb s b 2 then rf s b 16 15 else rf s (FC_CORE_STATUS core.val) 32 15
    if x.state != .halted then s
    else putThread core.val t.val { x with state := .ready, pc := BitVec.ofNat 20 pc } s))

/-- Every thread of a core is killed. -/
def killAll (c : Nat) (s : State) : State :=
  (threadsOf c).foldl (fun s t => if (threadOf s c t).state = .halted then s else endThread c t .halted s) s

/-- CORE_HALT: every thread is killed and messages of local channels are discarded (R385). -/
def execCoreHalt (core : Core) (s : State) : Res :=
  .next (setupWrite s (fun s =>
    (List.range 64).foldl (fun s n => putChan (.local core.val n) { chanOf s (.local core.val n) with msgs := [] } s)
      (killAll core.val s)))

/-- The channel a thread waits on. -/
def waitChan (x : Thread) : Option Chn :=
  match x.wait with
  | .recv k _ => some k
  | .claim k => some k
  | _ => none

/-- THAW: frozen threads go back to their waits, and are served (R384). -/
def execThaw (core : Core) (s : State) : Res :=
  .next (setupWrite s (fun s =>
    let c := core.val
    let ts := (threadsOf c).filter (fun t => (threadOf s c t).state == .frozen)
    let s := ts.foldl (fun s t => putThread c t { threadOf s c t with state := .stalled } s) s
    ts.foldl (fun s t => match waitChan (threadOf s c t) with | some k => serve k s | none => s) s))

/-! ### Debug (R387) -/

/-- A debug write: the debug registers ignore writes while debug is locked. -/
def debugWrite (c t : Nat) (s : State) (f : Thread → State → State) : State :=
  setupWrite s (fun s => if debugLocked s || !(threadsOf c).contains t then s else f (threadOf s c t) s)

/-- STOP (R387). -/
def execStop (core : CoreHk) (t : Thr) (s : State) : Res :=
  .next (debugWrite core.val t.val s (fun x s =>
    match x.state with
    | .running => putThread core.val t.val { x with state := .stopped } s
    | .ready => putThread core.val t.val { x with state := .stopped } s
    | .stalled => putThread core.val t.val { x with stopReq := true } s
    | _ => s))

/-- RESUME: a STOPPED thread is READY, and runs past the breakpoint it may have stopped at. -/
def execResume (core : CoreHk) (t : Thr) (s : State) : Res :=
  .next (debugWrite core.val t.val s (fun x s =>
    if x.state = .stopped then putThread core.val t.val { x with state := .ready, passBp := true } s else s))

/-- STEP: a STOPPED thread runs one instruction within its next turn. -/
def execDebugStep (core : CoreHk) (t : Thr) (s : State) : Res :=
  .next (debugWrite core.val t.val s (fun x s =>
    if x.state = .stopped then putThread core.val t.val { x with state := .ready, passBp := true, stepping := true } s else s))

/-! ### Closed wait and heartbeat (R383, R392) -/

/-- CLOSED_WAIT: the condition has held for 12,500 Clove cycles, of which at least nine whole ticks. -/
def execClosedWait (core : Core) (s : State) : Res :=
  let c := core.val
  .next (if !coreClosed s c || decide ((coreOf s c).quiet < 9) then s
    else
      let ts := (threadsOf c).filter (fun t => (threadOf s c t).state == .stalled && waitsLocal (threadOf s c t))
      let s := ts.foldl (fun s t => putThreadRaw c t { threadOf s c t with state := .frozen } s) s
      let s := putCore c { coreOf s c with quiet := 0 } (putB (FC_CORE_STATUS c) 25 true s)
      postLog logClosedWait 0 blkFC (BitVec.ofNat 64 c) (BitVec.ofNat 64 ((ts.map (fun t => 2 ^ t)).sum))
        (addErr (FC_CLOSED_WAITS c) 1 s))

/-- HK_HEARTBEAT: no advance for 100 ms, 97,657 ticks, in stage 2 or 3 (R392). -/
def execHkHeartbeat (s : State) : Res :=
  .next (if s.life.stage.val < 2 || !s.life.hkLoaded || decide (s.ticks < s.fc.hkBeat + 97657) then s
    else deviceFault 4 blkFC 0 s)

/-! ### CORE_MSG (R378, R382) -/

/-- Core and mailbox of a CORE_MSG queue. -/
def msgTarget (q : Queue) : Nat × Nat :=
  let r := engineRef q
  (if r.testBit 10 then 32 else r / 32 % 32, r % 32)

/-- Header of a kind-2 delivery (R379). -/
def msgHeader (s : State) (fn fq : Nat) (e : Entry) (count : Nat) : Word :=
  BitVec.ofNat 64 (count + 2 * 8 + fn * 2 ^ 14 + queueInst s fn fq * 2 ^ 16 + e.gen.toNat * 2 ^ 26 + localQ s fn fq * 2 ^ 34)

/-- The words of a MSG_POST. -/
def msgWords (d : Bytes) (count : Nat) : List Word := (List.range count).map (fun i => leWord d (0x10 + 8 * i))

/-- Deliver an entry's message: completed, failed at a mailbox that is not enabled, or false when no slot is free. -/
def postMessage (fn fq : Nat) (e : Entry) (s : State) : State × Bool :=
  let tg := msgTarget (queueOf s fn fq)
  let count := lef e.desc 0x30 0 3
  if !mboxEnabled s tg.1 tg.2 then (finish fn fq e.idx true 0x0600 0 none s, true)
  else
    let r := deliver (.mbox tg.1 tg.2) { header := msgHeader s fn fq e count, words := msgWords e.desc count } s
    if r.2 then (finish fn fq e.idx false 0 0 none r.1, true) else (r.1, false)

/-- MSG_POST (R382). -/
def execMsgPost (fn : Fn) (fq : BitVec 20) (s : State) : Res :=
  let f := fn.val
  let n := fq.toNat
  .next (nextEntry f n 0x50 (fun e s =>
    let count := lef e.desc 0x30 0 3
    let tg := msgTarget (queueOf s f n)
    match e.group with
    | some g =>
      if 4 < count then finish f n e.idx true 0x0601 0 none s
      else if !mboxEnabled s tg.1 tg.2 then finish f n e.idx true 0x0600 0 none s
      else stageMember g f n e.idx (.message (BitVec.ofNat 6 tg.1) (BitVec.ofNat 5 tg.2) (msgHeader s f n e count)
        (msgWords e.desc count)) s
    | none =>
      if 4 < count then finish f n e.idx true 0x0601 0 none s
      else
        let r := postMessage f n e s
        if r.2 then r.1
        else
          let k := Chn.mbox tg.1 tg.2
          let x := chanOf r.1 k
          setPhase f n e.idx .started (putChan k { x with posts := x.posts ++ [(BitVec.ofNat 2 f, fq, e.idx)] } r.1)) s)

/-- MAILBOX_DELIVERY: the oldest CORE_MSG entry that waits takes a slot that is free again (R378); a commit group that
waits on the mailbox goes on. -/
def execMailboxDelivery (core : CoreHk) (mbox : Fin 32) (s : State) : Res :=
  let k := Chn.mbox core.val mbox.val
  let live := (chanOf s k).posts.filter (postLive s)
  let s := putChan k { chanOf s k with posts := live } s
  .next (match live with
    | [] => serve k (advanceGroups s)
    | p :: ps => match entryIdx s p.1.toNat p.2.1.toNat p.2.2 with
      | none => s
      | some e =>
        let r := postMessage p.1.toNat p.2.1.toNat e s
        if r.2 then
          let x := chanOf r.1 k
          serve k (putChan k { x with posts := ps } r.1)
        else r.1)

end Sys2Proof.Machine
end

