-- ==== Sys2Proof/Machine/QueueLife.lean ====
section
/-! DEFINITION. Disables, quiesces and stops of queues (03 R96 to R101, 04 R132 to R136, 17 R492, R494). -/
namespace Sys2Proof.Machine

/-! ### Discards (R134, R135) -/

/-- A disable discards the entry: it is not past its commit point. Of the entries that have started, CTL ones have had
their setting applied or accepted, but for a write that waits for its flip, and IMG transfers have started, so those
finish. -/
def discards (s : State) (fn fq : Nat) (e : Entry) : Bool :=
  match e.phase with
  | .fetched => true
  | .staged => true
  | .started => decide (queueKind (queueOf s fn fq) ≤ 3) || awaitsFlip s fn fq e.idx
  | _ => false

/-- A storage command whose entry is discarded: dropped, unless its packs have it, when its lock is held until they answer. -/
def discardCmd (fq : Nat) (idx : BitVec 32) (s : State) : State :=
  match s.st.cmds.find? (fun e => e.2.fq.toNat == fq && e.2.idx == idx && !e.2.discarded && !e.2.committed) with
  | none => s
  | some (n, c) => if c.issued then putCmd n { c with discarded := true } s else dropCmd n s

/-- A discarded fetch counts toward the members that an aborted group has seen (R494): it was counted when it was
fetched, unless it waits. -/
def discardWaiting (fn fq : Nat) (e : Entry) (s : State) : State :=
  if memberWaits s fn fq e then
    let s := dropWaiting fn fq e.idx s
    match groupSlot s (domainOf s fn (queueInst s fn fq)) (leWord e.desc 8) with
    | some (g, x) =>
      (match x.state with | .aborted => settleAborted g { x with fetched := x.fetched + 1 } s | _ => s)
    | none => s
  else s

/-- Discard the entries of a queue that meet a test, with the open groups that have a member in it. -/
def discardEntries (fn fq : Nat) (p : Entry → Bool) (s : State) : State :=
  let gone := (queueOf s fn fq).entries.filter p
  let s := (groupsOf s (fun k => k == queueKey fn fq)).foldl (fun s g => abortGroup g [queueKey fn fq] 0x0502 s) s
  let s := gone.foldl (fun s e =>
    discardWaiting fn fq e (if fn = 2 then discardCmd fq e.idx s else if fn = 0 then cancelWrite fq e.idx s else s)) s
  let q := queueOf s fn fq
  putQueue fn fq { q with entries := q.entries.filter (fun e => !gone.any (fun g => g.idx == e.idx)), txHeld := q.txHeld && gone.isEmpty } s

/-- Discard every entry not past its commit point (R135). -/
def discardWork (fn fq : Nat) (s : State) : State :=
  discardEntries fn fq (discards s fn fq) s

/-- Nothing past its commit point is left to finish. -/
def workDone (q : Queue) : Bool := q.entries.all (fun e => !(e.phase == .started || e.phase == .past))

/-- Keys of the queues of a function that a state holds. -/
def queuesOf (s : State) (fn : Nat) : List Nat :=
  (s.q.queues.filter (fun e => e.1 / 2 ^ 20 == fn)).map (fun e => e.1 % 2 ^ 20)

/-! ### Disable -/

/-- A freeze that has not been reported is reported before the queue leaves FROZEN (R140). -/
def reportFreeze (fn : Fn) (fq : Nat) (s : State) : State :=
  let q := queueOf s fn.val fq
  if q.qstate = .frozen ∧ q.stopOwed then postQueueEvent fn fq 2 q.stopStatus.toNat q.latched.toNat 4 s else s

/-- A disable begins (R133, R135). -/
def beginDisable (fn : Fn) (fq : Nat) (s : State) : State :=
  let s := discardWork fn.val fq (reportFreeze fn fq s)
  let q := queueOf s fn.val fq
  putQueue fn.val fq { q with qstate := .disabling, stopOwed := false, reread := false, holdFetch := false } s

/-- QE_CTL_GO at the end of a request (R558). -/
def ctlDone (status head : Nat) (s : State) : State :=
  putReg QE_CTL_GO (BitVec.ofNat 64 (8 + status * 2 ^ 16 + head * 2 ^ 32)) s

/-- The CTL entries that a disable completes, with the head in aux (R133, R137). -/
def endDisableWaiters (fn fq : Nat) (h : BitVec 32) (s : State) : State :=
  let q := queueOf s fn fq
  let s := putQueue fn fq { q with disableWaiters := [], ctlDisable := false } s
  let s := q.disableWaiters.foldl (fun s w => finish 0 w.1 w.2 false 0 h Option.none s) s
  if q.ctlDisable then ctlDone 0 h.toNat s else s

/-- A quiesce of a function is under way (R107). -/
def quiescing (s : State) (fn : Nat) : Bool := rb s HL_FN_QUIESCE (8 + fn)

/-- The quiesce of a function ends once no queue of it is left to disable (R100). -/
def settleQuiesce (fn : Fn) (s : State) : State :=
  if quiescing s fn.val && dmaOn s fn.val &&
      (queuesOf s fn.val).all (fun fq => let q := queueOf s fn.val fq; q.qstate != .disabling && q.qstate != .quiesced) then
    let s := putB HL_FN_QUIESCE (12 + fn.val) true (putB HL_FN_QUIESCE (8 + fn.val) false s)
    let s := pageChanged fn.val (pageChanged fn.val s)
    signalMsix fn (if fn.val = 0 then 2 else 1) s
  else s

/-- The end of a disable (R135, R140): overwrites written, the exact head published, the queue DISABLED. A queue that was
quiesced ends its disable without an event, since it does not come through DISABLING (R133). -/
def endDisable (fn : Fn) (fq : Nat) (s : State) : State :=
  let q := queueOf s fn.val fq
  let event := q.qstate == .disabling
  let s := (moveHead fn.val fq (writeReady fn fq q.entries.length s)).1
  let q := queueOf s fn.val fq
  let s := publishHead fn fq false (putQueue fn.val fq { q with qstate := .disabled, entries := [] } s)
  let h := (queueOf s fn.val fq).head.toNat
  let s := if event then postQueueEvent fn fq 2 0 h 0 s else s
  settleQuiesce fn (endDisableWaiters fn.val fq (queueOf s fn.val fq).head s)

/-- The disable of a queue that is DISABLING, or QUIESCED in a function being quiesced, may end. A drain of its instance
ends it itself (R160). -/
def disableReady (s : State) (fn : Fn) (fq : Nat) : Bool :=
  let q := queueOf s fn.val fq
  workDone q && dmaOn s fn.val && (instOf s fn.val (queueInst s fn.val fq)).drain.isNone &&
    (match q.qstate with | .disabling => true | .quiesced => quiescing s fn.val | _ => false)

/-- DISABLE_DONE (R135). -/
def execDisableDone (fn : Fn) (fq : BitVec 20) (s : State) : Res :=
  .next (if disableReady s fn fq.toNat then endDisable fn fq.toNat s else s)

/-! ### Quiesced queues (R96, R99) -/

/-- A queue enters QUIESCED (R99): work not past its commit point is discarded, the completions of the rest are held,
reads in flight will be discarded, and the head is recorded as it stands once that rest has finished. A QUEUE_DISABLE that waits goes on waiting, until the quiesce that ends the state. -/
def quiesceQueue (fn : Fn) (fq : Nat) (s : State) : State :=
  match (queueOf s fn.val fq).qstate with
  | .disabled => s
  | .quiesced => s
  | _ =>
    let s := discardWork fn.val fq (reportFreeze fn fq s)
    let q := queueOf s fn.val fq
    putQueue fn.val fq { q with qstate := .quiesced, stopOwed := false, reread := false, reading := false,
                                holdFetch := false, head := finalHead q } s

/-- The ring of an event queue is declared full: every held event is suppressed (R142). -/
def declareFull (fn : Fn) (n : Nat) (s : State) : State :=
  let e := evqOf s fn.val n
  let s := addErr QE_EVQ_OVERFLOWS 1 (putEvq fn.val n { e with overflow := true, held := [] } s)
  e.held.foldl (fun s ev => suppressEvent fn n ev s) s

/-- A read of a consumer record has its completion discarded: it counts as one that shows no space (R143). -/
def loseConsumerRead (fn : Fn) (n : Nat) (s : State) : State :=
  let e := evqOf s fn.val n
  if !e.reading then s
  else
    let s := putEvq fn.val n { e with reading := false, armCheck := false, reread := none } s
    if !e.overflow && !e.held.isEmpty then declareFull fn n s else s

/-- Event queues of a function that a state holds. -/
def evqsOf (s : State) (fn : Nat) : List Nat := (s.q.evqs.filter (fun e => e.1 / 2 ^ 16 == fn)).map (fun e => e.1 % 2 ^ 16)

/-- Every queue of a function is quiesced: Bus Master Enable cleared, or D3hot entered (R92, R99). Its reads of consumer
records end as reads that show no space (R143). -/
def quiesceFn (fn : Fn) (s : State) : State :=
  let s := (queuesOf s fn.val).foldl (fun s fq => quiesceQueue fn fq s) s
  (evqsOf s fn.val).foldl (fun s n => loseConsumerRead fn n s) s

/-- A quiesce request begins, or goes on once Bus Master Enable is 1 (R100). -/
def startQuiesce (fn : Fn) (s : State) : State :=
  let s := (queuesOf s fn.val).foldl (fun s fq =>
    match (queueOf s fn.val fq).qstate with
    | .running => beginDisable fn fq s
    | .error => beginDisable fn fq s
    | .frozen => beginDisable fn fq s
    | .quiesced => if workDone (queueOf s fn.val fq) then endDisable fn fq s else s
    | _ => s) s
  settleQuiesce fn s

/-- HL_FN_QUIESCE written (R100, R107). -/
def quiesce (v : Word) (s : State) : State :=
  [0, 1, 2, 3].foldl (fun s (n : Nat) =>
    let fn : Fn := Fin.ofNat 4 n
    if bit v n && fnPresent s n && !quiescing s n then
      let s := pageChanged n (putB HL_FN_QUIESCE (8 + n) true s)
      if dmaOn s n then startQuiesce fn s else s
    else s) s

end Sys2Proof.Machine
end

