-- ==== Sys2Proof/Machine/Fetch.lean ====
section
/-! DEFINITION. The checks of a fetched descriptor: opcodes, reserved bits, shares (04 R122, R123). -/
namespace Sys2Proof.Machine

/-! ### Reserved bits

For each opcode, the bits of the body words at 0x10, 0x18, ... 0x38 that hold a field; every other bit of the body is
reserved where the opcode's chapter says so. -/

/-- The word with ones in a list of fields, each a first bit and a length. -/
def maskOf (l : List (Nat × Nat)) : Word := l.foldl (fun w f => w ||| mask f.1 f.2) 0

/-- Every bit of a word. -/
def all64 : Word := BitVec.allOnes 64

/-- A shaper word (R293). -/
def shaperMask : Word := maskOf [(0, 1), (8, 24), (32, 24)]

/-- NET_TX bodies (R189, R190). -/
def maskTx (op : Nat) : List Word :=
  if op = 0x03 then [all64, mask 0 18, all64, all64, all64, all64]
  else [all64, mask 0 48, all64, all64, maskOf [(0, 3), (8, 16), (32, 32)], if op = 0x02 then all64 else 0]

/-- ST_SUB bodies (R428). -/
def maskSt (op : Nat) (d : Bytes) : List Word :=
  let flush := op == 0x32
  let data := op == 0x30 || op == 0x31
  let sgl := data && bit (leWord d 0x20) 48
  [if data || op == 0x35 then all64 else 0, if flush then 0 else all64,
   (if flush then 0 else mask 0 32) ||| mask 32 16 ||| (if data then mask 48 1 else 0),
   if op == 0x35 then all64 else 0, if sgl then mask 0 9 else 0, 0]

/-- IMG bodies (R340). -/
def maskImg (op : Nat) (d : Bytes) : List Word :=
  [all64, mask 0 15 ||| (if op = 0x60 ∧ bit (leWord d 0x18) 14 then mask 32 16 else 0), 0, 0, 0, 0]

/-- Queue and instance management bodies (R137, R167). -/
def maskAdmin (op : Nat) (d : Bytes) : List Word :=
  match op with
  | 0x80 => [mask 0 22, mask 2 62, mask 4 60, mask 4 60, maskOf [(0, 16), (32, 32)], 0]
  | 0x82 => [mask 0 22, 0, 0, 0, 0, 0]
  | 0x84 =>
    if bit (leWord d 0x18) 0 then [mask 0 18, maskOf [(0, 1), (4, 5), (12, 52)], mask 4 60, mask 0 32, 0, 0]
    else [all64, all64, all64, all64, all64, all64]
  | 0xE3 => [mask 0 12, maskOf [(0, 5), (12, 52)], 0, 0, 0, 0]
  | 0x81 => [mask 0 22, mask 0 32, 0, 0, 0, 0]
  | 0x83 => [mask 0 22, mask 0 32, 0, 0, 0, 0]
  | _ => [mask 0 12, 0, 0, 0, 0, 0]

/-- Forwarding and classifier bodies (R245, R269). -/
def maskTables (op : Nat) : List Word :=
  match op with
  | 0x90 => [maskOf [(0, 5), (16, 6), (32, 20)], maskOf [(0, 1), (16, 16)], all64, 0, 0, 0]
  | 0x91 => [maskOf [(0, 5), (8, 1)], mask 0 62, mask 0 21, all64, 0, 0]
  | 0x92 => [maskOf [(0, 5), (8, 3), (16, 8), (32, 12)], all64, all64, mask 0 16, all64, 0]
  | 0x93 => [maskOf [(0, 5), (8, 3), (16, 4), (32, 14)], 0, 0, 0, 0, 0]
  | 0xB0 => [maskOf [(0, 4), (16, 16)], maskOf [(0, 12), (16, 6), (32, 32)], maskOf [(0, 30), (32, 27)],
             maskOf [(0, 18), (32, 20)], all64, 0]
  | 0xB1 => [maskOf [(0, 4), (16, 13), (32, 17)], all64, 0, 0, 0, 0]
  | 0xB2 => [maskOf [(0, 4), (16, 13), (32, 18)], all64, 0, 0, 0, 0]
  | _ => [maskOf [(0, 4), (16, 6)], mask 0 18, 0, 0, 0, 0]

/-- Traffic-manager bodies (R300). -/
def maskTm (op : Nat) : List Word :=
  match op with
  | 0xA0 => [mask 0 21, maskOf [(0, 17), (24, 8), (32, 20)], shaperMask, 0, 0, 0]
  | 0xA1 => [mask 0 16, maskOf [(0, 9), (16, 1), (24, 8)], shaperMask, 0, 0, 0]
  | 0xA2 => [mask 0 9, mask 0 29, shaperMask, 0, 0, 0]
  | _ => [mask 0 19, maskOf [(0, 2), (8, 8)], maskOf [(0, 24), (32, 24)], maskOf [(0, 24), (32, 24)], 0, 0]

/-- Stream, storage, context and journal bodies (R316, R424, R443, R465, R356, R486, R494). -/
def maskSetup (op : Nat) (d : Bytes) : List Word :=
  match op with
  | 0xC0 => [mask 0 1, all64, mask 0 40, mask 0 30 ||| mask 32 32, maskOf [(0, 21), (32, 14)], 0]
  | 0xC8 => [maskOf [(0, 19), (20, 2), (32, 32)] ||| (if bit (leWord d 0x10) 18 then mask 22 2 else 0),
             mask 0 48, all64, mask 0 32, all64, 0]
  | 0xC9 => [mask 0 10, maskOf [(0, 5), (12, 52)], 0, 0, 0, 0]
  | 0xCA => if bit (leWord d 0x10) 16 then [mask 0 17, 0, 0, 0, 0, 0]
            else [maskOf [(0, 18), (20, 2), (32, 32)], all64, mask 0 16, 0, 0, 0]
  | 0xD0 => [mask 0 22, all64, 0, 0, 0, 0]
  | 0xD1 => [mask 0 22, 0, 0, 0, 0, 0]
  | 0xE8 => [maskOf [(0, 2), (8, 1), (32, 32)], all64, mask 0 32, 0, 0, 0]
  | 0xE9 => [0, 0, 0, 0, 0, 0]
  | _ => [mask 0 13, all64, 0, 0, 0, 0]

/-- The body bits that hold a field of an opcode; none where its chapter declares no body bit reserved (NOP, RX_BUF). -/
def bodyMask (op : Nat) (d : Bytes) : Option (List Word) :=
  if op = 0xF0 ∨ op = 0x20 then none
  else if op = 0xF1 then some [mask 0 20, all64, all64, 0, 0, 0]
  else if op ≤ 0x03 then some (maskTx op)
  else if op ≤ 0x35 then some (maskSt op d)
  else if op = 0x50 then some [all64, all64, all64, all64, mask 0 3, 0]
  else if op ≤ 0x61 then some (maskImg op d)
  else if op ≤ 0x84 ∨ (0xE0 ≤ op ∧ op ≤ 0xE3) then some (maskAdmin op d)
  else if op ≤ 0x93 ∨ (0xB0 ≤ op ∧ op ≤ 0xB3) then some (maskTables op)
  else if op ≤ 0xA3 then some (maskTm op)
  else some (maskSetup op d)

/-- A word is zero but in the bits of a mask. -/
def within (w m : Word) : Bool := w &&& ~~~ m == 0

/-- The opcode is one of ST_SUB, whose aux word is reserved (R427). -/
def storageOpcode (op : Nat) : Bool := decide (0x30 ≤ op) && decide (op ≤ 0x35)

/-- A reserved bit of the header or the body is 1 (R121, R123, R427). -/
def reservedSet (kind : Nat) (d : Bytes) : Bool :=
  let h := leWord d 0
  (kind != 2 && bit h 12) || (storageOpcode (lef d 0 4 8) && le d 4 4 != 0) ||
  (match bodyMask (lef d 0 4 8) d with
   | none => false
   | some ms => (List.range 6).any (fun i => !within (leWord d (0x10 + 8 * i)) (ms.getD i 0)))

/-! ### Opcodes and shares (R122, R123) -/

/-- The opcodes that each queue kind serves, beside NOP and COUNT_DELTA. -/
def kindOps : Nat → List Nat
  | 0 => [0x01, 0x02, 0x03]
  | 1 => [0x20]
  | 2 => [0x30, 0x31, 0x32, 0x33, 0x34, 0x35]
  | 3 => [0x50]
  | 4 => [0x80, 0x81, 0x82, 0x83, 0x84, 0x90, 0x91, 0x92, 0x93, 0xA0, 0xA1, 0xA2, 0xA3, 0xB0, 0xB1, 0xB2, 0xB3, 0xC0,
          0xC8, 0xC9, 0xCA, 0xD0, 0xD1, 0xE0, 0xE1, 0xE2, 0xE3, 0xE8, 0xE9, 0xEA]
  | 5 => [0x60, 0x61]
  | _ => []

/-- The opcode is valid on a queue of the kind. -/
def opValid (kind op : Nat) : Bool := op == 0xF0 || op == 0xF1 || (kindOps kind).contains op

/-- A context, namespace or counter pair named lies outside the instance's share (R422, R484, R351). -/
def outOfShare (s : State) (fn fq : Nat) (d : Bytes) : Bool :=
  let op := lef d 0 4 8
  if op = 0x01 ∨ op = 0x02 then bit (leWord d 0x30) 2 && decide (share s .contexts fn ≤ le d 0x34 4)
  else if 0x30 ≤ op ∧ op ≤ 0x35 then decide (share s .namespaces 2 ≤ le d 0x24 2)
  else if op = 0xF1 then (countPair s fn (queueInst s fn fq) (lef d 0x10 2 18)).isNone
  else false

/-- What the checks of R123 find, in order: a stop status, an entry that is complete already (R136), or one to run. -/
inductive Checked where
  | stop (status : Nat) | complete | run
  deriving DecidableEq, Repr

/-- The checks of a fetched entry. -/
def checkEntry (s : State) (fn fq : Nat) (q : Queue) (idx : BitVec 32) (d : Bytes) : Checked :=
  let w := leWord d 0
  let st := fld w 2 2
  if fld w 0 2 ≠ lapOf (ringSize q) idx ∨ st = 0 then .stop 0x110
  else if st ≠ 1 then .complete
  else if !opValid (queueKind q) (fld w 4 8) then .stop 0x111
  else if reservedSet (queueKind q) d then .stop 0x112
  else if outOfShare s fn fq d then .stop 0x113
  else .run

/-! ### Fetching (R123, R124, R136) -/

/-- The next index to fetch: entries that are held already (after a freeze) are passed over. -/
def nextFetch (q : Queue) : Nat → BitVec 32 → BitVec 32
  | 0, k => k
  | fuel + 1, k => if k ≠ q.pSeen ∧ q.entries.any (fun e => e.idx == k) then nextFetch q fuel (k + 1) else k

/-- Put an entry in its place in ring order, by distance from the head. -/
def insertEntry (head : BitVec 32) (e : Entry) : List Entry → List Entry
  | [] => [e]
  | x :: xs => if (e.idx - head).toNat < (x.idx - head).toNat then e :: x :: xs else x :: insertEntry head e xs

/-- A fetched entry. -/
def newEntry (idx : BitVec 32) (d : Bytes) (gen : BitVec 8) (p : Phase) : Entry :=
  { idx := idx, desc := d, gen := gen, phase := p, failed := false, status := 0, aux := BitVec.ofNat 32 (le d 4 4),
    results := none, group := none, after := none, built := none, met := .good }

/-- Add an entry to a queue and set where fetching goes on. -/
def addEntry (fn fq : Nat) (e : Entry) (s : State) : State :=
  let q := queueOf s fn fq
  putQueue fn fq { q with entries := insertEntry q.head e q.entries, fetch := e.idx + 1 } s

/-- Opcodes whose commit point is their fetch: NOP and COUNT_DELTA (R134). -/
def commitsAtFetch (op : Nat) : Bool := op == 0xF0 || op == 0xF1

/-- The queue engine may fetch for a queue. -/
def mayFetch (s : State) (fn fq : Nat) : Bool :=
  let q := queueOf s fn fq
  q.qstate == .running && !q.holdFetch && !q.txHeld && dmaOn s fn && (instOf s fn (queueInst s fn fq)).state == .on &&
    !queueHeld s fn fq

/-- A descriptor comes from the host: it is checked, and the entry stops its queue, is passed over as complete, or waits
to run, a member meeting its group. -/
def takeDescriptor (fn : Fn) (fq : Nat) (k : BitVec 32) (d : Bytes) (s : State) : State :=
  let q := queueOf s fn.val fq
  let gen := (instOf s fn.val (queueInst s fn.val fq)).gen
  match checkEntry s fn.val fq q k d with
  | .stop st => stopQueue fn fq k st d s
  | .complete => addEntry fn.val fq (newEntry k d gen .skipped) s
  | .run =>
    let e := newEntry k d gen (if commitsAtFetch (lef d 0 4 8) && !bit (leWord d 0) 14 then .past else .fetched)
    let s := addEntry fn.val fq e s
    if groupMember e then joinGroup fn.val fq e s else s

/-- One descriptor is fetched (R123). -/
def fetchDescriptor (fn : Fn) (fq : Nat) (r : Read) (s : State) : State :=
  let s := joinWaiting fn.val fq s
  if !mayFetch s fn.val fq then s else
  let q := queueOf s fn.val fq
  let k := nextFetch q q.entries.length q.fetch
  let s := putQueue fn.val fq { q with fetch := k } s
  if k = q.pSeen then s else
  let s := instRead fn (queueInst s fn.val fq) (entryAddr q k) 64 (.descriptor (BitVec.ofNat 20 fq)) s
  match r with
  | .data b => takeDescriptor fn fq k (slice b 0 64) s
  | bad => stopQueue fn fq k (dmaStatus bad) [] (readFailure fn (entryAddr q k) bad s)

end Sys2Proof.Machine
end

