-- ==== Sys2Proof/Machine/QueueCmds.lean ====
section
/-! DEFINITION. The queue engine's commands: hints, record reads, fetches, completions, events, interrupt messages and
queue management (04). -/
namespace Sys2Proof.Machine

/-! ### Hints, record reads and sweeps (R128, R129) -/

/-- The instance engine state in which hints and fetches act. -/
def instOn (s : State) (fn i : Nat) : Bool := (instOf s fn i).state == .on

/-- A hint is dropped and counted (R128, R147). -/
def dropHint (s : State) : State := addStat QE_HINT_DROPPED 1 s

/-- A descriptor queue hint with an advisory index that is accepted. -/
def queueHint (fn : Fn) (fq adv : Nat) (s : State) : State :=
  let q := queueOf s fn.val fq
  if q.reading || adv != q.pSeen.toNat then pokeQueue fn fq s else s

/-- An event queue hint that is accepted (R143, R146). -/
def evqHint (fn : Fn) (n : Nat) (arm : Bool) (s : State) : State :=
  let e := evqOf s fn.val n
  if arm then
    let s := putB (QE_INT_B (intBase fn.val + n)) 34 true s
    if e.reading then putEvq fn.val n { e with reread := some true } s
    else readConsumer fn n (putEvq fn.val n { e with armCheck := true } s)
  else if !e.overflow then s
  else if e.reading then putEvq fn.val n { e with reread := some (e.reread.getD false) } s
  else readConsumer fn n s

/-- A chunk written to a hint page (R83, R128). -/
def hint (fn : Fn) (i : Nat) (chunk : Word) (bytes : Nat) (full : Bool) (s : State) : State :=
  let qn := fld chunk 0 20
  let ev := bit chunk 31
  let ok := fun s => addStat QE_HINT_ACCEPTED 1 s
  if bytes ≠ 8 ∨ full ∨ !instOn s fn.val i ∨ fld chunk 20 10 ≠ 0 ∨ (bit chunk 30 && !ev) then dropHint s
  else if ev then
    let n := i * share s .evqs fn.val + qn
    if share s .evqs fn.val ≤ qn ∨ !bit (evqOf s fn.val n).w0 0 then dropHint s
    else evqHint fn n (bit chunk 30) (ok s)
  else
    let fq := i * share s .queues fn.val + qn
    if share s .queues fn.val ≤ qn ∨ (queueOf s fn.val fq).qstate ≠ .running then dropHint s
    else queueHint fn fq (fld chunk 32 32) (ok s)

/-- HINT (R128). -/
def execHint (fn : Fn) (page : BitVec 10) (chunk : BitVec 64) (bytes : Nat) (intakeFull : Bool) (s : State) : Res :=
  .next (if barOpen s fn.val && fnPresent s fn.val then hint fn page.toNat chunk bytes intakeFull (linkBusy s) else tlpDropped s)

/-- A record read that is owed is issued once it may be (R128, R133). -/
def issueOwed (fn : Fn) (fq : Nat) (s : State) : State :=
  let q := queueOf s fn.val fq
  if q.reread && !q.reading && q.qstate == .running && instOn s fn.val (queueInst s fn.val fq) && dmaOn s fn.val then
    readRecord fn fq (putQueue fn.val fq { q with reread := false } s)
  else s

/-- P of a record is malformed: beyond the ring, or behind the fetch index (R119). -/
def badProd (q : Queue) (p : BitVec 32) : Bool :=
  decide (ringSize q < (p - q.head).toNat) || decide ((p - q.head).toNat < (q.fetch - q.head).toNat)

/-- A doorbell record stops its queue at the fetch index; a resume reads the record again first (R119, R136). -/
def stopRecord (fn : Fn) (fq status : Nat) (s : State) : State :=
  let q := queueOf s fn.val fq
  stopQueue fn fq q.fetch status [] (putQueue fn.val fq { q with holdFetch := true } s)

/-- A doorbell record comes back (R90, R119, R126, R128). -/
def recordReturn (fn : Fn) (fq : Nat) (r : Read) (s : State) : State :=
  let s := hostReadDone fn (.doorbell (BitVec.ofNat 20 fq)) s
  let q := queueOf s fn.val fq
  if !q.reading then s else
  let s := putQueue fn.val fq { q with reading := false } s
  let q := queueOf s fn.val fq
  if q.qstate ≠ .running ∨ !instOn s fn.val (queueInst s fn.val fq) then s else
  match r with
  | .data b =>
    let p := BitVec.ofNat 32 (le b 0 4)
    if badProd q p then stopRecord fn fq 0x114 s
    else issueOwed fn fq (putQueue fn.val fq { q with pSeen := p, holdFetch := false } s)
  | bad => stopRecord fn fq (dmaStatus bad) (readFailure fn (fld q.w1 4 60 * 16) bad s)

/-- DOORBELL_RECORD_RETURN (R128). -/
def execDoorbellRecordReturn (fn : Fn) (fq : BitVec 20) (r : Read) (s : State) : Res :=
  .next (recordReturn fn fq.toNat r s)

/-- Sweep period of an instance, in nanoseconds (R147). -/
def sweepPeriod (s : State) (k : Nat) : Nat := max 10 (min 100000 (rf s (QE_SWEEP k) 2 17)) * 1000

/-- When the next sweep of an instance is due. -/
def sweepDue (s : State) (k : Nat) : Nat := tabGet (fun _ => 0) s.q.sweepDue k

/-- Set when the next sweep of an instance is due. -/
def putSweepDue (k t : Nat) (s : State) : State :=
  { s with q := { s.q with sweepDue := tabSet (fun _ => 0) s.q.sweepDue k t } }

/-- SWEEP (R129): the records of the sweep-enabled running queues of the instance are read, in queue order. -/
def execSweep (fn : Fn) (inst : BitVec 10) (s : State) : Res :=
  let k := 1024 * fn.val + inst.toNat
  if !rb s (QE_SWEEP k) 0 ∨ tickNs s < sweepDue s k then .next s
  else
    let qs := (queuesOf s fn.val).filter (fun fq =>
      let q := queueOf s fn.val fq
      queueInst s fn.val fq == inst.toNat && bit q.w0 4 && q.qstate == .running)
    let s := if instOn s fn.val inst.toNat then qs.foldl (fun s fq => pokeQueue fn fq s) s else s
    .next (putSweepDue k (sweepDue s k + sweepPeriod s k) s)

/-! ### Instance faults that a fetch may meet (R503, R506) -/

/-- What detects an uncorrectable word of state that an instance owns: the drain that follows is the caller's. -/
def postInstanceFault (fn : Fn) (i structure_ : Nat) (arg1 : Word) (s : State) : State :=
  postLog logInstanceFault 3 blkIM (BitVec.ofNat 64 (fn.val + i * 4 + structure_ * 2 ^ 16)) arg1 (addErr FX_INST_FAULTS 1 s)

/-! ### Completions (R131) -/

/-- The queue writes completions (R132). -/
def writesCompletions (q : Queue) : Bool :=
  match q.qstate with
  | .running | .disabling | .error | .frozen => true
  | _ => false

/-- COMPLETION_BATCH (R131): at most 64 overwrites, then the head record if the head advanced. Of an instance that is not
ON, the gate drops the overwrites, and the head stays for inspection (R158 to R160). -/
def execCompletionBatch (fn : Fn) (fq : BitVec 20) (s : State) : Res :=
  let f := fq.toNat
  if !writesCompletions (queueOf s fn.val f) ∨ !dmaOn s fn.val then .next s
  else if !instOn s fn.val (queueInst s fn.val f) then .next (freeSettled (writeReady fn f 64 s))
  else
    let r := moveHead fn.val f (writeReady fn f 64 s)
    let s := if r.2 then publishHead fn f false r.1 else r.1
    .next (freeSettled (settleStop fn f s))

/-! ### Event queues (R138, R142, R143, R146) -/

/-- Source queues of an event queue that had an event suppressed publish their heads with ev_lost (R143). -/
def endPending (fn : Fn) (n : Nat) (s : State) : State :=
  ((queuesOf s fn.val).filter (fun fq => (queueOf s fn.val fq).evPending && queueEvq s fn.val fq == n)).foldl (fun s fq =>
    let s := publishHead fn fq true s
    putQueue fn.val fq { queueOf s fn.val fq with evPending := false } s) s

/-- Held events are written while there is room; those left wait for another read (R142). -/
def writeHeld (fn : Fn) (n : Nat) : List Event → State → State
  | [], s => putEvq fn.val n { evqOf s fn.val n with held := [] } s
  | ev :: rest, s =>
    if evqFull (evqOf s fn.val n) then readConsumer fn n (putEvq fn.val n { evqOf s fn.val n with held := ev :: rest } s)
    else writeHeld fn n rest (writeEvent fn n ev s)

/-- An overflow ends (R143). -/
def endOverflow (fn : Fn) (n : Nat) (s : State) : State :=
  let e := evqOf s fn.val n
  let s := writeEvent fn n (blockEvent 3 0 0 e.suppressed.toNat 0) s
  let s := putEvq fn.val n { evqOf s fn.val n with suppressed := 0, overflow := false } s
  endPending fn n s

/-- What a read of the consumer record leads to. -/
def consumerSeen (fn : Fn) (n : Nat) (s : State) : State :=
  let e := evqOf s fn.val n
  if e.overflow then (if evqFull e then s else endOverflow fn n s)
  else if e.held.isEmpty then s
  else if evqFull e then declareFull fn n s
  else writeHeld fn n e.held (putEvq fn.val n { e with held := [] } s)

/-- A hint that came while a read was in flight has the record read once more (R143, R146). -/
def rereadConsumer (fn : Fn) (n : Nat) (again : Option Bool) (s : State) : State :=
  match again with
  | none => s
  | some arm => readConsumer fn n (putEvq fn.val n { evqOf s fn.val n with armCheck := arm } s)

/-- A consumer record comes back (R143, R146): a failed read counts as one that shows no space. -/
def consumerReturn (fn : Fn) (n : Nat) (r : Read) (s : State) : State :=
  let e := evqOf s fn.val n
  rereadConsumer fn n e.reread (match r with
    | .data b =>
      let c := BitVec.ofNat 32 (le b 0 4)
      let s := putEvq fn.val n { e with reading := false, armCheck := false, reread := none, consSeen := c } s
      consumerSeen fn n (if e.armCheck && e.prod != c then putB (QE_INT_B (intBase fn.val + n)) 35 true s else s)
    | bad =>
      let addr := fld e.w1 4 60 * 16
      let s := dmaFailEntry fn addr bad (readFailure fn addr bad s)
      let s := putEvq fn.val n { e with reading := false, armCheck := false, reread := none } s
      if !e.overflow && !e.held.isEmpty then declareFull fn n s else s)

/-- OVERFLOW_REREAD (R143). -/
def execOverflowReread (fn : Fn) (fevq : BitVec 16) (s : State) : Res :=
  let e := evqOf s fn.val fevq.toNat
  .next (if bit e.w0 0 && e.overflow then readConsumer fn fevq.toNat s else s)

/-! ### Interrupt messages (R86, R145) -/

/-- Function of an interrupt store entry (R116). -/
def intFn (g : Nat) : Fn := if g < 4096 then 0 else if g < 36864 then 1 else if g < 53248 then 2 else 3

/-- An owed message may be sent. -/
def messageReady (s : State) (g : Nat) : Bool :=
  let b := getReg s (QE_INT_B g)
  let c := cfgOf s (intFn g).val
  bit b 35 && !bit b 32 && dmaOn s (intFn g).val && c.msixEnable && !c.msixMask &&
    (match tabFind s.q.lastMessage g with | none => true | some t => decide (t + fld b 48 16 ≤ s.ticks))

/-- An owed message is sent: armed and pending clear (R144, R145). -/
def sendMessage (k : Nat) (s : State) : State :=
  if messageReady s k then
    let b := getReg s (QE_INT_B k)
    let s := linkBusy (emit (.message (intFn k) (fld (getReg s (QE_INT_A k)) 2 62 * 4) (BitVec.ofNat 32 (fld b 0 32))) s)
    let s := putReg (QE_INT_B k) (setBit (setBit b 34 false) 35 false) s
    { s with q := { s.q with lastMessage := tabInsert s.q.lastMessage k s.ticks } }
  else s

/-! ### Queue management (R137, R558) -/

/-- engine_ref of a queue of a kind names what its engine serves (R288, R382). -/
def badRef (s : State) (fn fq kind ref : Nat) : Bool :=
  let leaf := ref % 2 ^ 20
  let g := leafGroup s leaf
  let owned := groupFn g == fn && groupInst s g == queueInst s fn fq
  match kind with
  | 0 => !owned || leafPort s leaf == 12
  | 1 => !owned || leafPort s leaf != 12 ||
      (match tabFind s.tm.rxBind leaf with | none => false | some k => k != queueKey fn fq)
  | 3 => decide (2048 ≤ ref) || (ref.testBit 10 && (fn != 0 || decide (ref % 32 < 4) || decide (7 < ref % 32)))
  | _ => false

/-- Kinds allowed in each function (R114). -/
def kindAllowed (fn kind : Nat) : Bool :=
  match fn with
  | 0 => kind == 3 || kind == 4
  | 1 => kind == 0 || kind == 1 || kind == 3
  | 2 => kind == 2
  | _ => kind == 0 || kind == 1 || kind == 3 || kind == 5

/-- A queue context passes the checks of QUEUE_CONFIG (R114, R117). -/
def contextGood (s : State) (fn fq : Nat) (c0 c3 : Word) : Bool :=
  kindAllowed fn (fld c0 5 3) && fld c0 2 2 != 3 &&
    !(decide (1 ≤ fld c0 8 4) && decide (fld c0 8 4 ≤ 3)) &&
    decide (fld c3 0 16 < share s .evqs fn) && !badRef s fn fq (fld c0 5 3) (fld c3 32 32)

/-- A target names a queue that exists (R78, R137). -/
def targetGood (s : State) (fn fq : Nat) : Bool := fnPresent s fn && decide (fq < poolSize .queues fn)

/-- Write the host fields of a context (R133); a NET_RX queue is bound to its leaf (R288). -/
def writeContext (fn fq : Nat) (c0 c1 c2 c3 : Word) (s : State) : State :=
  let s := putQueue fn fq { queueOf s fn fq with w0 := c0, w1 := c1, w2 := c2, w3 := c3 } s
  let free := s.tm.rxBind.filter (fun e => e.2 != queueKey fn fq)
  let bind := if fld c0 5 3 = 1 then tabInsert free (fld c3 32 20) (queueKey fn fq) else free
  { s with tm := { s.tm with rxBind := bind } }

/-- Status of QUEUE_CONFIG. -/
def configStatus (s : State) (fn fq : Nat) (c0 c3 : Word) : Nat :=
  if !targetGood s fn fq || !contextGood s fn fq c0 c3 then 0x121
  else if (queueOf s fn fq).qstate ≠ .disabled then 0x120 else 0

/-- The target of a queue management opcode: function and function queue number. -/
def targetOf (d : Bytes) : Nat × Nat := (lef d 0x10 20 2, lef d 0x10 0 20)

/-- A CTL opcode that only the queues of PF0 instance 0 accept. -/
def adminRun (op : Nat) (cq : Nat) (run : Entry → State → State) (s : State) : State :=
  nextEntry 0 cq op (fun e s =>
    if adminQueue s cq then run e s else finish 0 cq e.idx true 0x121 0 none s) s

/-- Complete a CTL entry with a status. R125 gives aux a result only where an opcode defines one; for the others the model
writes 0 in aux, and not the word as fetched (log entry 188). -/
def ctlFinish (cq : Nat) (e : Entry) (st : Nat) (s : State) : State := finish 0 cq e.idx (st != 0) st 0 none s

/-- QUEUE_CONFIG (R137). -/
def execQueueConfig (cq : BitVec 20) (s : State) : Res :=
  .next (adminRun 0x80 cq.toNat (fun e s =>
    let t := targetOf e.desc
    let c := fun j => leWord e.desc (0x18 + 8 * j)
    let st := configStatus s t.1 t.2 (c 0) (c 3)
    ctlFinish cq.toNat e st (if st = 0 then writeContext t.1 t.2 (c 0) (c 1) (c 2) (c 3) s else s)) s)

/-- A DISABLED queue is enabled at a start index (R133). -/
def enableQueue (fn : Fn) (fq start : Nat) (s : State) : State :=
  let k := BitVec.ofNat 32 start
  let q := queueOf s fn.val fq
  let s := putQueue fn.val fq { q with head := k, fetch := k, pSeen := k, reread := true, qstate := .running,
                                       entries := [], holdFetch := false } s
  issueOwed fn fq s

/-- The instance of a queue is RESETTING or FAULTED (R160). -/
def instBarred (s : State) (fn fq : Nat) : Bool :=
  match (instOf s fn (queueInst s fn fq)).state with
  | .resetting => true
  | .faulted => true
  | _ => false

/-- QUEUE_ENABLE (R133, R160). -/
def execQueueEnable (cq : BitVec 20) (s : State) : Res :=
  .next (adminRun 0x81 cq.toNat (fun e s =>
    let t := targetOf e.desc
    let st := if !targetGood s t.1 t.2 then 0x121 else if instBarred s t.1 t.2 then 0x481
      else if (queueOf s t.1 t.2).qstate ≠ .disabled then 0x120 else 0
    ctlFinish cq.toNat e st (if st = 0 then enableQueue (Fin.ofNat 4 t.1) t.2 (le e.desc 0x18 4) s else s)) s)

/-- QUEUE_DISABLE of a queue that is not DISABLED or QUIESCED: an entry waits for its end (R133, R137). -/
def disableWait (cq : Nat) (e : Entry) (fn : Fn) (fq : Nat) (s : State) : State :=
  let s := setPhase 0 cq e.idx .started s
  let s := if (queueOf s fn.val fq).qstate = .disabling then s else beginDisable fn fq s
  let q := queueOf s fn.val fq
  putQueue fn.val fq { q with disableWaiters := q.disableWaiters ++ [(cq, e.idx)] } s

/-- QUEUE_DISABLE (R133, R135, R137). -/
def execQueueDisable (cq : BitVec 20) (s : State) : Res :=
  .next (adminRun 0x82 cq.toNat (fun e s =>
    let t := targetOf e.desc
    let q := queueOf s t.1 t.2
    if !targetGood s t.1 t.2 ∨ (t.1 = 0 ∧ t.2 = cq.toNat) then ctlFinish cq.toNat e 0x121 s
    else match q.qstate with
    | .disabled => finish 0 cq.toNat e.idx false 0 q.head none s
    | .quiesced => ctlFinish cq.toNat e 0x120 s
    | _ => disableWait cq.toNat e (Fin.ofNat 4 t.1) t.2 s) s)

/-- The stopping entry was never read, or the doorbell was bad: a resume past it is not allowed (R136). -/
def noSkip (q : Queue) : Bool :=
  let st := q.stopStatus.toNat
  st == 0x114 || (decide (0x101 ≤ st) && decide (st ≤ 0x104))

/-- A stopped queue runs again (R136). -/
def resumeQueue (fn : Fn) (fq : Nat) (r : BitVec 32) (s : State) : State :=
  let q := queueOf s fn.val fq
  match q.qstate with
  | .error =>
    if r = q.latched then
      let again := q.holdFetch
      issueOwed fn fq (putQueue fn.val fq { q with qstate := .running, fetch := q.latched, stopOwed := false,
                                                   holdFetch := again, reread := again } s)
    else
      let gen := (instOf s fn.val (queueInst s fn.val fq)).gen
      let e := { newEntry q.latched q.stopDesc gen .finished with failed := true, status := q.stopStatus }
      addEntry fn.val fq e (putQueue fn.val fq { q with qstate := .running, stopOwed := false } s)
  | .frozen =>
    let s := reportFreeze fn fq s
    let q := queueOf s fn.val fq
    putQueue fn.val fq { q with qstate := .running, fetch := q.latched + 1, stopOwed := false } s
  | _ => s

/-- QUEUE_RESUME (R136, R160, R442). -/
def execQueueResume (cq : BitVec 20) (s : State) : Res :=
  .next (adminRun 0x83 cq.toNat (fun e s =>
    let t := targetOf e.desc
    let q := queueOf s t.1 t.2
    let r := BitVec.ofNat 32 (le e.desc 0x18 4)
    let st := if !targetGood s t.1 t.2 then 0x121 else if instBarred s t.1 t.2 then 0x481
      else if q.qstate ≠ .error ∧ q.qstate ≠ .frozen then 0x120
      else if r ≠ q.latched ∧ r ≠ q.latched + 1 then 0x122
      else if q.qstate = .error ∧ r ≠ q.latched ∧ noSkip q then 0x122 else 0
    ctlFinish cq.toNat e st (if st = 0 then resumeQueue (Fin.ofNat 4 t.1) t.2 r s else s)) s)

/-- An event queue is stopped (R138). -/
def stopEvq (fn : Fn) (n : Nat) (s : State) : State :=
  let e := evqOf s fn.val n
  let s := addErr QE_EVQ_DISCARDED e.held.length s
  let s := endPending fn n s
  putEvq fn.val n { e with w0 := setBit e.w0 0 false, held := [], overflow := false, suppressed := 0, reading := false,
                           armCheck := false, reread := none } s

/-- EVQ_CONFIG (R138). -/
def execEvqConfig (cq : BitVec 20) (s : State) : Res :=
  .next (adminRun 0x84 cq.toNat (fun e s =>
    let fn := lef e.desc 0x10 16 2
    let n := lef e.desc 0x10 0 16
    let c0 := leWord e.desc 0x18
    let x := evqOf s fn n
    let start := BitVec.ofNat 32 (le e.desc 0x28 4)
    if !fnPresent s fn ∨ poolSize .evqs fn ≤ n then ctlFinish cq.toNat e 0x121 s
    else if !bit c0 0 then
      ctlFinish cq.toNat e 0 (if bit x.w0 0 then stopEvq (Fin.ofNat 4 fn) n s else s)
    else if fld c0 4 5 < 4 ∨ 16 < fld c0 4 5 then ctlFinish cq.toNat e 0x121 s
    else if bit x.w0 0 then ctlFinish cq.toNat e 0x120 s
    else ctlFinish cq.toNat e 0 (putEvq fn n { Evq.none with
      w0 := c0, w1 := leWord e.desc 0x20, prod := start, consSeen := start } s)) s)

/-- A queue that QE_CTL_SETUP names exists and belongs to PF0 instance 0 (R558). -/
def ctlTarget (s : State) : Nat := rf s QE_CTL_TARGET 0 20

/-- QE_CTL_GO.enable (R558). The status list of R558 has no code for a reserved context bit that is 1: the model stores
such bits as they stand and completes OK (log entry 189). -/
def execQeCtlEnable (s : State) : Res :=
  .next (setupWrite s (fun s =>
    if rb s QE_CTL_GO 2 then s else
    let fq := ctlTarget s
    let c := fun j => getReg s (QE_CTL_CTX j)
    let st := if !inService s || decide (share s .queues 0 ≤ fq) then 0x121 else configStatus s 0 fq (c 0) (c 3)
    if st = 0 then
      ctlDone 0 (rf s QE_CTL_GO 32 32) (enableQueue 0 fq (rf s QE_CTL_TARGET 32 32) (writeContext 0 fq (c 0) (c 1) (c 2) (c 3) s))
    else ctlDone st (rf s QE_CTL_GO 32 32) s))

/-- QE_CTL_GO.disable (R558). -/
def execQeCtlDisable (s : State) : Res :=
  .next (setupWrite s (fun s =>
    if rb s QE_CTL_GO 2 then s else
    let fq := ctlTarget s
    let q := queueOf s 0 fq
    if !inService s || decide (share s .queues 0 ≤ fq) then ctlDone 0x121 (rf s QE_CTL_GO 32 32) s
    else match q.qstate with
    | .disabled => ctlDone 0 q.head.toNat s
    | .quiesced => ctlDone 0x120 (rf s QE_CTL_GO 32 32) s
    | _ =>
      let s := if q.qstate = .disabling then s else beginDisable 0 fq s
      putB QE_CTL_GO 2 true (putQueue 0 fq { queueOf s 0 fq with ctlDisable := true } s)))

end Sys2Proof.Machine
end

