-- ==== Sys2Proof/Machine/Storage.lean ====
section
/-! DEFINITION. Commands of the storage engine: admission, execution, pack answers, namespaces, error logs (15). -/
namespace Sys2Proof.Machine

/-! ### Admission (R432, R433, R436, R440) -/

/-- fns that a storage descriptor of an instance names (R422). -/
def stNs (s : State) (inst : Nat) (d : Bytes) : Nat := inst * share s .namespaces 2 + le d 0x24 2

/-- An entry is a storage command. -/
def isStorage (e : Entry) : Bool := decide (0x30 ≤ e.op) && decide (e.op ≤ 0x35)

/-- An entry is complete. -/
def entryComplete (e : Entry) : Bool := e.phase == .finished || e.phase == .written || e.phase == .skipped

/-- ordered (R433). -/
def orderedEntry (e : Entry) : Bool := bit (leWord e.desc 0) 12

/-- The entry that a queue would have admitted next: the first that is fetched and not admitted, if the order rules let it. -/
def admitNext (s : State) (fq : Nat) : Option Entry :=
  let q := queueOf s 2 fq
  if queueKind q ≠ 2 ∨ !queueExecutes q then none else
  match q.entries.find? (fun e => e.phase == .fetched) with
  | none => none
  | some e =>
    let before := q.entries.takeWhile (fun x => x.idx != e.idx)
    if !isStorage e || memberWaits s 2 fq e || !workCurrent s 2 fq e.gen then none
    else if orderedEntry e && !before.all entryComplete then none
    else if before.any (fun x => orderedEntry x && isStorage x && !entryComplete x) then none
    else if share s .locks 2 ≤ locksHeld s (queueInst s 2 fq) then none
    else some e

/-- The queue that the arbiter takes next: round robin from the queue after the one served last. -/
def arbiterPick (s : State) : Option (Nat × Entry) :=
  let qs := (s.q.queues.filter (fun e => e.1 / 2 ^ 20 == 2)).map (fun e => e.1 % 2 ^ 20)
  let order := qs.filter (fun k => decide (s.st.lastQueue < k)) ++ qs.filter (fun k => decide (k ≤ s.st.lastQueue))
  order.findSome? (fun k => (admitNext s k).map (fun e => (k, e)))

/-- The pack of a single namespace is at its read-only threshold, or every extent's pack of a mirror is not asked (R440). -/
def nsWorn (s : State) (n : Ns) : Bool := !n.mirror && packReadOnly s (n.bay false)

/-- A length limit of R429 is broken. -/
def badLength (n : Ns) (op count : Nat) : Bool :=
  match op with
  | 0x32 => false
  | 0x33 | 0x34 => count == 0 || decide (65536 < count)
  | 0x35 => count == 0 || decide (2 ^ 20 < count * 2 ^ n.bshift) || decide (n.cmpwMax.toNat < count)
  | _ => count == 0 || decide (2 ^ 20 < count * 2 ^ n.bshift)

/-- Status of the checks at admission, 0 when they pass (R440). -/
def admitCheck (s : State) (fns : Nat) (e : Entry) : Nat :=
  let n := nsOf s fns
  let op := e.op
  let count := le e.desc 0x20 4
  if groupMember e && !storageOp op then 0x0308
  else if n.state = .off then 0x0302
  else if n.state = .absent then 0x0304
  else if badLength n op count then 0x0301
  else if op ≠ 0x32 ∧ n.size < le e.desc 0x18 8 + count then 0x0300
  else if changesBlocks op && nsWorn s n then 0x0305
  else 0

/-- A storage command as it is admitted. -/
def newCmd (s : State) (fq fns : Nat) (e : Entry) : StCmd :=
  { fq := BitVec.ofNat 20 fq, idx := e.idx, inst := BitVec.ofNat 10 (queueInst s 2 fq), gen := e.gen, desc := e.desc,
    fns := BitVec.ofNat 16 fns, held := e.op != 0x32, granted := false, segs := [], ready := false, data := [], cmpData := [],
    issued := false, stage := .main, onB := false, targets := [], failA := none, failB := none, readData := [],
    discarded := false, group := e.group, committed := false }

/-- Admit an entry: a member of a re-issue is neither checked nor staged (R496). -/
def admitEntry (fq : Nat) (e : Entry) (s : State) : State :=
  let s := { s with st := { s.st with lastQueue := fq } }
  match reissued s e, e.group with
  | true, some g => stageMember g 2 fq e.idx .none s
  | _, _ =>
    let fns := stNs s (queueInst s 2 fq) e.desc
    let c := newCmd s fq fns e
    let st := admitCheck s fns e
    if st ≠ 0 then failStorage c st none s else
    let n := s.st.nextCmd
    let ok := grantable s n c
    let s := putCmd n { c with granted := ok } { s with st := { s.st with nextCmd := n + 1 } }
    let s := if c.held && !ok then addStat ST_LOCK_WAITS 1 s else s
    setPhase 2 fq e.idx .started s

/-- The arbiter admits a command (R432). -/
def admission (s : State) : State :=
  match arbiterPick s with
  | none => s
  | some (fq, e) => admitEntry fq e s

/-! ### Lists and data (R428, R430) -/

/-- The admitted command of an entry. -/
def cmdFor (s : State) (fq : Nat) (idx : BitVec 32) : Option (Nat × StCmd) :=
  s.st.cmds.find? (fun e => e.2.fq.toNat == fq && e.2.idx == idx)

/-- A segment list: addresses and lengths. -/
def sglEntries (b : Bytes) (n : Nat) : List (Nat × Nat) :=
  (List.range n).map (fun i => (le b (16 * i) 8, le b (16 * i + 8) 4))

/-- The host buffer of a command: its segments, or why they are not to be had. -/
def readSegs (fq : Nat) (e : Entry) (len : Nat) (sgl : Read) (s : State) : State × List (Nat × Nat) × Nat :=
  let addr := le e.desc 0x10 8
  if !bit (leWord e.desc 0x24) 16 then (s, [(addr, len)], 0) else
  let n := lef e.desc 0x30 0 9
  if n = 0 ∨ 256 < n then (s, [], 0x0301) else
  let s := entryRead 2 fq e addr (16 * n) s
  match sgl with
  | .data b =>
    let l := sglEntries b n
    if l.all (fun x => x.2 != 0) && (l.map (fun x => x.2)).sum == len then (s, l, 0) else (s, [], 0x0301)
  | _ => (readFailure 2 addr sgl s, [], dmaStatus sgl)

/-- The reads of a buffer. -/
def readBuffer (fq : Nat) (e : Entry) (segs : List (Nat × Nat)) (s : State) : State :=
  segs.foldl (fun s x => entryRead 2 fq e x.1 x.2 s) s

/-- Bytes that open groups hold staged, of the 1 GiB pool (R475). -/
def poolUsed (s : State) : Nat :=
  (s.st.cmds.map (fun e => if e.2.group.isSome && !e.2.committed && e.2.ready then e.2.data.length else 0)).sum

/-- A command's lists and data are in hand: a member is staged, any other is issued if its lock is granted. -/
def cmdReady (n : Nat) (c : StCmd) (s : State) : State :=
  let s := putCmd n { c with ready := true } s
  match c.group with
  | some g =>
    if 2 ^ 22 < (groupTotals s g).2 + c.data.length then finish 2 c.fq.toNat c.idx true 0x0503 0 none (dropCmd n s)
    else stageMember g 2 c.fq.toNat c.idx (.storage n) (addTotals g 0 c.data.length s)
  | none => issueCmd n s

/-- A storage command of an opcode runs once it is admitted: the body reads what it needs from the host. -/
def stRun (op : Nat) (fq : Nat) (idx : BitVec 32) (s : State) (body : Nat → StCmd → Entry → State → State) : State :=
  match cmdFor s fq idx, entryIdx s 2 fq idx with
  | some (n, c), some e => if c.op != op || c.ready || c.discarded then s else body n c e s
  | _, _ => s

/-- Read the host data of a buffer, then go on with it. -/
def withData (fq n : Nat) (c : StCmd) (e : Entry) (segs : List (Nat × Nat)) (len : Nat) (r : Read) (s : State)
    (go : Bytes → State → State) : State :=
  let s := readBuffer fq e segs s
  match r with
  | .data b => go (slice b 0 len) s
  | _ => failCmd n c (dmaStatus r) none (readFailure 2 ((segs.map (fun x => x.1)).headD 0) r s)

/-- ST_READ (R430). -/
def execStRead (fq : BitVec 20) (idx : BitVec 32) (sgl : Read) (s : State) : Res :=
  .next (stRun 0x30 fq.toNat idx s (fun n c e s =>
    let r := readSegs fq.toNat e (nsBytes s c.fns.toNat c.nblocks) sgl s
    if r.2.2 ≠ 0 then failCmd n c r.2.2 none r.1 else cmdReady n { c with segs := r.2.1 } r.1))

/-- ST_WRITE (R430). A member waits while the staging pool has no room (R475). -/
def execStWrite (fq : BitVec 20) (idx : BitVec 32) (sgl r : Read) (s : State) : Res :=
  .next (stRun 0x31 fq.toNat idx s (fun n c e s =>
    let len := nsBytes s c.fns.toNat c.nblocks
    if c.group.isSome ∧ 2 ^ 30 < poolUsed s + len then s else
    let x := readSegs fq.toNat e len sgl s
    if x.2.2 ≠ 0 then failCmd n c x.2.2 none x.1
    else withData fq.toNat n c e x.2.1 len r x.1 (fun b s => cmdReady n { c with segs := x.2.1, data := b } s)))

/-- ST_FLUSH (R430). -/
def execStFlush (fq : BitVec 20) (idx : BitVec 32) (s : State) : Res :=
  .next (stRun 0x32 fq.toNat idx s (fun n c _ s => cmdReady n c s))

/-- ST_ZERO (R430). -/
def execStZero (fq : BitVec 20) (idx : BitVec 32) (s : State) : Res :=
  .next (stRun 0x33 fq.toNat idx s (fun n c _ s => cmdReady n c s))

/-- ST_TRIM (R430). -/
def execStTrim (fq : BitVec 20) (idx : BitVec 32) (s : State) : Res :=
  .next (stRun 0x34 fq.toNat idx s (fun n c _ s => cmdReady n c s))

/-- ST_CMPWRITE (R430): compare data from cmp_addr, write data from addr. -/
def execStCmpwrite (fq : BitVec 20) (idx : BitVec 32) (cmp r : Read) (s : State) : Res :=
  .next (stRun 0x35 fq.toNat idx s (fun n c e s =>
    let len := nsBytes s c.fns.toNat c.nblocks
    withData fq.toNat n c e [(le e.desc 0x28 8, len)] len cmp s (fun cb s =>
      withData fq.toNat n c e [(le e.desc 0x10 8, len)] len r s (fun b s =>
        cmdReady n { c with cmpData := cb, data := b } s))))

/-- LOCK_GRANT: no earlier entry that conflicts is held, and the command is issued (R434). A word of the range-lock table
that cannot be corrected is a device fault (R506). -/
def execLockGrant (cmd : Nat × Ecc) (s : State) : Res :=
  .next (match cmdOf s cmd.1 with
    | none => s
    | some c =>
      if c.granted || !grantable s cmd.1 c then s
      else if cmd.2 = .bad then deviceFault 5 blkST (freeNow s).toNat (useFree s)
      else issueCmd cmd.1 (putCmd cmd.1 { c with granted := true } (eccCount false cmd.2 s)))

/-! ### Pack answers (R437, R438) -/

/-- Status that a failure on the last extent gives a command (R438, R440, R445). -/
def failStatus (mirror : Bool) (f : PackFail) : Nat :=
  if f.removed then 0x0304 else if mirror || f.sf.toNat / 256 % 8 == 2 then 0x0303 else 0x0306

/-- The report of a failure for an error log entry. -/
def reportOf (onB : Bool) (f : PackFail) : PackReport := if f.removed then none else some (onB, f.sf, f.lba)

/-- What an extent reported of a command. -/
def failOf (c : StCmd) (onB : Bool) : Option PackFail := if onB then c.failB else c.failA

/-- Set what an extent reported. -/
def setFail (c : StCmd) (onB : Bool) (f : PackFail) : StCmd :=
  match failOf c onB with
  | some _ => c
  | none => if onB then { c with failB := some f } else { c with failA := some f }

/-- A command completes done; its lock goes. -/
def stDone (n : Nat) (c : StCmd) (s : State) : State :=
  let s := addStat ST_CMDS 1 s
  let s := if c.op = 0x31 ∨ c.op = 0x35 then addStat ST_WR_BYTES c.data.length s else s
  if c.committed then homeDone n false s
  else finish 2 c.fq.toNat c.idx false 0 0 none (dropCmd n s)

/-- The other extent of a mirror can serve a read of a command (R426, R438). -/
def otherReadable (s : State) (c : StCmd) (onB : Bool) : Bool :=
  let n := nsOf s c.fns.toNat
  n.mirror && (match n.state with
    | .online => true
    | .degradedA => !onB
    | .degradedB => onB
    | .rebuilding => (match rebuildOf s c.fns.toNat with
        | none => false
        | some r => r.target == onB || decide (c.slba + c.nblocks ≤ r.next))
    | _ => false)

/-- The bytes of a read, cut over the segments of its buffer. -/
def scatter : List (Nat × Nat) → Bytes → List (Nat × Bytes)
  | [], _ => []
  | (a, n) :: xs, b => (a, b.take n) :: scatter xs (b.drop n)

/-- The blocks of a command have been read: ST_READ writes them to the host and completes, ST_CMPWRITE compares (R430). -/
def readDone (n : Nat) (c : StCmd) (s : State) : State :=
  if c.op = 0x35 then
    if c.readData = c.cmpData then issueChange n c .cmpWrite s
    else finish 2 c.fq.toNat c.idx true 0x0307 0 none (dropCmd n (addErr ST_CMP_MISMATCH 1 s))
  else
    let s := (scatter c.segs c.readData).foldl (fun s x => (instWrite 2 c.inst.toNat c.gen true x.1 x.2 s).1) s
    finish 2 c.fq.toNat c.idx false 0 0 none (dropCmd n (addStat ST_RD_BYTES c.readData.length (addStat ST_CMDS 1 s)))

/-- A read failed on an extent and the other has served it: the failed blocks are written back, unless the extent takes
no writes any more, which counts as a failed write-back. -/
def repairRead (n : Nat) (c : StCmd) (bad : Bool) (f : PackFail) (s : State) : State :=
  if (writeTargets (nsOf s c.fns.toNat)).contains bad then
    issueOn n c bad nvWrite true c.readData (putCmd n { c with stage := .writeBack, targets := [bad] } s)
  else readDone n c (elogWrite c 0 false true false (reportOf bad f) s)

/-- Every pack answer of a read is in. -/
def settleRead (n : Nat) (c : StCmd) (s : State) : State :=
  let mirror := (nsOf s c.fns.toNat).mirror
  match c.stage, failOf c c.onB with
  | .main, none => readDone n c s
  | .main, some f =>
    if otherReadable s c c.onB then issueRead n c (!c.onB) .retry s
    else failCmd n c (failStatus mirror f) (reportOf c.onB f) s
  | .retry, none =>
    match failOf c (!c.onB) with
    | some f => repairRead n c (!c.onB) f s
    | none => readDone n c s
  | .retry, some f => failCmd n c (failStatus mirror f) (reportOf c.onB f) s
  | .writeBack, _ =>
    -- the extent that was written back is the one that failed the read
    match failOf c (!c.onB) with
    | none => readDone n c s
    | some f =>
      if c.targets.isEmpty then
        readDone n c (elogWrite c 0 false true false (reportOf (!c.onB) f) (markExtent c.fns.toNat (!c.onB) 0x0303 s))
      else readDone n c (elogWrite c 0 false false true (reportOf (!c.onB) f) (addErr ST_REPAIRS 1 s))
  | .cmpWrite, _ => s

/-- Every pack answer of a write side is in (R438). -/
def settleChange (n : Nat) (c : StCmd) (s : State) : State :=
  let bad := c.targets.filterMap (fun b => (failOf c b).map (fun f => (b, f)))
  match bad.getLast? with
  | none => stDone n c s
  | some (b, f) =>
    if bad.length < c.targets.length then
      stDone n c (bad.foldl (fun s x =>
        elogWrite c 0 false true false (reportOf x.1 x.2) (markExtent c.fns.toNat x.1 0x0303 s)) s)
    else
      let st := failStatus (nsOf s c.fns.toNat).mirror f
      if c.committed then homeLost n st (reportOf b f) s else failCmd n c st (reportOf b f) s

/-- The last pack answer of a command is in. -/
def settleCmd (n : Nat) (s : State) : State :=
  match cmdOf s n with
  | none => s
  | some c =>
    if outstanding s n ≠ 0 then s
    else if c.discarded then
      -- its read data meets the gate (R159, R161)
      dropCmd n (if c.op = 0x30 && !gateOpen s 2 c.inst.toNat c.gen then addStat IM_GATE_DROPPED 1 s else s)
    else if c.op = 0x30 ∨ (c.op = 0x35 ∧ c.stage ≠ .cmpWrite) then settleRead n c s
    else settleChange n c s

/-- A pack answers, or fails to answer, an NVMe command of a storage command. A write-back that fails empties `targets`. -/
def cmdAnswer (n : Nat) (onB : Bool) (off : Nat) (fail : Option PackFail) (data : Bytes) (s : State) : State :=
  match cmdOf s n with
  | none => s
  | some c =>
    let c := match fail, c.stage with
      | some _, .writeBack => { c with targets := [] }
      | some f, _ => setFail c onB f
      | none, .writeBack => c
      | none, _ => if c.op = 0x30 ∨ c.op = 0x35 then { c with readData := splice c.readData off data } else c
    settleCmd n (putCmd n c s)

/-- The first failing block of the namespace, from the pack's. -/
def failBlock (s : State) (n : Nat) (onB : Bool) (lba : Option (BitVec 64)) : Word :=
  match lba, cmdOf s n with
  | some l, some c =>
    let ns := nsOf s c.fns.toNat
    BitVec.ofNat 64 ((l.toNat - ns.plba onB) / max 1 (ratio s ns onB))
  | _, _ => BitVec.allOnes 64

/-- Other writes of a log entry are still outstanding. -/
def stillOut (s : State) (u : PackUse) : Bool := s.st.packCmds.any (fun e => e.2 == u)

/-- A write of a retire or cancel entry is answered. -/
def journalAnswer (u : PackUse) (ok : Bool) (s : State) : State :=
  if !ok then journalLost 3 s
  else if stillOut s u then s
  else
    match u with
    | .retire _ seq => retireDurable seq s
    | .cancel g => match cgOf s g with
      | some x => tryClose (endCancelled g (match x.cancelling with | some st => st.toNat | none => 0x0502) s)
      | none => s
    | _ => s

/-- PACK_COMPLETION (R437, R438). -/
def execPackCompletion (bay : Bay) (cid : Nat) (sf : BitVec 15) (data : Bytes) (failLba : Option (BitVec 64)) (s : State) : Res :=
  .next (match packUse s bay.val cid with
    | none => s
    | some u =>
      let s := dropPackCmd bay.val cid s
      match u with
      | .cmd n onB off =>
        cmdAnswer n onB off (if sf = 0 then none else some { sf := sf, lba := failBlock s n onB failLba, removed := false }) data s
      | .upkeep => s
      | u => journalAnswer u (sf == 0) s)

/-! ### Namespaces (R424, R425) -/

/-- A pack is powered and identified: from READY until its power goes (R453). -/
def bayIdentified (b : BaySt) : Bool := b.ident.isSome && (b.state == .ready || b.state == .stopping)

/-- Checks 3 to 7 of R425 for an extent of a namespace, but for the mirror check; 0 when they pass. -/
def extentCheck (s : State) (fns bshift size bay : Nat) (nsid : BitVec 32) (plba : Nat) : Nat :=
  if !bayEnabled s bay || !bayIdentified (bayOf s bay) then 0x0312
  else match packNs s bay nsid with
    | none => 0x0312
    | some p =>
      let r := 2 ^ bshift / 2 ^ p.lbads.toNat
      if r ≠ 1 ∧ r ≠ 8 then 0x0313
      else if p.capacity.toNat < plba + r * size then 0x0314
      else if (enabledExtents s fns).any (fun e => e.1 == bay && e.2.1 == nsid && runsMeet plba (r * size) e.2.2.1 e.2.2.2) then 0x0315
      else if s.cg.jstate != .closed && s.cg.bay.toNat == bay && s.cg.nsid == nsid
        && runsMeet plba (r * size) s.cg.plba.toNat (s.cg.sizeMib * 2 ^ 20 / 2 ^ p.lbads.toNat) then 0x0315
      else 0

/-- The first status in the order of the checks of R425, from those of the extents. -/
def firstStatus (l : List Nat) : Nat := (l.filter (· ≠ 0)).foldl (fun m x => if m = 0 ∨ x < m then x else m) 0

/-- A namespace has admitted commands or range locks, or a rebuild runs on it (R425, R466). -/
def nsBusy (s : State) (fns : Nat) : Bool :=
  s.st.cmds.any (fun e => e.2.fns.toNat == fns) || (nsOf s fns).state == .rebuilding

/-- Checks of NS_CONFIG in their order, 0 when they pass. -/
def nsCheck (s : State) (d : Bytes) : Nat :=
  let fns := lef d 0x10 0 16
  let n : Ns := { Ns.empty with conf := slice d 0x10 40 }
  if !fnPresent s 2 then 0x0310
  else if !bit (leWord d 0x10) 16 then (if nsBusy s fns then 0x0311 else 0)
  else if (nsOf s fns).state != .off then 0x0311
  else
    let st := firstStatus ((if n.mirror then [false, true] else [false]).map (fun b =>
      extentCheck s fns n.bshift n.size (n.bay b) (n.nsid b) (n.plba b)))
    if st ≠ 0 then st else if n.mirror && n.bay false == n.bay true then 0x0316 else 0

/-- The largest ST_CMPWRITE of a namespace and whether trimmed blocks read as zeros (R424). -/
def nsResults (s : State) (n : Ns) : Nat × Bool :=
  let ext := if n.mirror then [false, true] else [false]
  let most (b : Bool) : Nat := match packNs s (n.bay b) (n.nsid b), (bayOf s (n.bay b)).ident with
    | some p, some i => min 65536 ((i.awupf.toNat + 1) * 2 ^ p.lbads.toNat) / 2 ^ n.bshift
    | _, _ => 0
  let zero (b : Bool) : Bool := match packNs s (n.bay b) (n.nsid b) with | some p => p.deallocZero | none => false
  (ext.foldl (fun m b => min m (most b)) 65535, ext.all zero)

/-- NS_CONFIG (R424, R425). -/
def nsConfig (cq : Nat) (e : Entry) (s : State) : State :=
  let d := e.desc
  let fns := lef d 0x10 0 16
  let st := nsCheck s d
  if !adminQueue s cq then finish 0 cq e.idx true 0x0121 0 none s
  else if st ≠ 0 then finish 0 cq e.idx true st 0 none s
  else
    let n : Ns := { Ns.empty with conf := slice d 0x10 40 }
    if bit (leWord d 0x10) 16 then
      let r := nsResults s n
      let n := { n with state := .online, cmpwMax := BitVec.ofNat 16 r.1, trimZeroes := r.2 }
      finish 0 cq e.idx false 0 (BitVec.ofNat 32 (r.1 + 65536 * b2n r.2)) none (putNs fns n s)
    else finish 0 cq e.idx false 0 0 none (putNs fns n s)

/-- NS_CONFIG (R424). -/
def execNsConfig (cq : BitVec 20) (s : State) : Res :=
  .next (nextEntry 0 cq.toNat 0xC8 (fun e s => nsConfig cq.toNat e s) s)

/-- ST_ELOG_CONFIG (R443). -/
def elogConfig (cq : Nat) (e : Entry) (s : State) : State :=
  let i := lef e.desc 0x10 0 10
  let lg := lef e.desc 0x18 0 5
  if !adminQueue s cq || instCount s 2 ≤ i || (lg ≠ 0 && (lg < 4 || 16 < lg)) then finish 0 cq e.idx true 0x0121 0 none s
  else finish 0 cq e.idx false 0 0 none
    (putElog i { sizeLog2 := BitVec.ofNat 5 lg, base := leWord e.desc 0x18, nextSeq := 1 } s)

/-- ST_ELOG_CONFIG (R443). -/
def execStElogConfig (cq : BitVec 20) (s : State) : Res :=
  .next (nextEntry 0 cq.toNat 0xC9 (fun e s => elogConfig cq.toNat e s) s)

end Sys2Proof.Machine
end

