-- ==== Sys2Proof/Machine/InstCmds.lean ====
section
/-! DEFINITION. Instances: states, drains, faults, shares, registers and the dirty-page log (05). -/
namespace Sys2Proof.Machine

/-! ### What a drain discards (R159) -/

/-- Take frames off a leaf. -/
def filterLeaf (l : Nat) (p : Nat → Bool) (s : State) : State :=
  let x := leafOf s l
  let keep := x.frames.filter p
  if keep = x.frames then s else keepFrames l keep s

/-- A unit works on the frame. -/
def unitHolds (f : Nat) (u : ParseUnit) : Bool := u.frame == some f

/-- Remove a frame from every place it may stand in. -/
def purgeFrame (f : Nat) (s : State) : State :=
  let no : List Nat → List Nat := List.filter (fun x => x != f)
  let src (e : Nat × SourceQ) : Nat × SourceQ := (e.1, { e.2 with wait := no e.2.wait, rob := no e.2.rob })
  let pipe (e : Nat × Pipe) : Nat × Pipe := (e.1, { e.2 with
    srcs := e.2.srcs.map src, units := e.2.units.filter (fun u => !unitHolds f u.2), chain := no e.2.chain, merge := no e.2.merge })
  let s := { s with pipe := { s.pipe with pipes := s.pipe.pipes.map pipe } }
  let s := { s with fc := { s.fc with cores := s.fc.cores.map (fun (e : Nat × CoreSt) => (e.1, { e.2 with punts := e.2.punts.filter (fun p => p.2 != f) })) } }
  let s := { s with tm := { s.tm with delivering := s.tm.delivering.map (fun (e : Nat × List Nat) => (e.1, no e.2)) } }
  let s := (s.tm.leaves.filter (fun (e : Nat × Leaf) => e.2.frames.contains f)).foldl (fun s e => filterLeaf e.1 (fun x => x != f) s) s
  freeFrame f s

/-- A NET_TX frame of a drained instance goes; one on a leaf is one the traffic manager discards (R159, R291). -/
def purgeOwn (f : Nat) (s : State) : State :=
  let onLeaf : Bool := match frameOf s f with | some x => x.loc == .leaf | none => false
  purgeFrame f (if onLeaf then addStat TM_GEN_DISCARD 1 s else s)

/-- Frames of the instance's NET_TX queues. -/
def ownFrames (s : State) (fn i : Nat) : List Nat :=
  (s.pipe.frames.filter (fun e => match e.2.owner with
    | some o => o.fn.toNat == fn && o.inst.toNat == i
    | none => false)).map (fun e => e.1)

/-- Frames bound for the instance's NET_RX rings. -/
def boundFrames (s : State) (fn i : Nat) : List Nat :=
  let mine (k : Nat) : Bool := k / 2 ^ 20 == fn && queueInst s fn (k % 2 ^ 20) == i
  (s.tm.rxBind.filter (fun e => mine e.2)).flatMap (fun e => (leafOf s e.1).frames) ++
    (s.tm.delivering.filter (fun e => mine e.1)).flatMap (fun e => e.2)

/-- Queues of an instance. -/
def instQueues (s : State) (fn i : Nat) : List Nat := (queuesOf s fn).filter (fun fq => queueInst s fn fq == i)

/-- Event queues of an instance that a state holds. -/
def instEvqs (s : State) (fn i : Nat) : List Nat :=
  ((s.q.evqs.filter (fun e => e.1 / 2 ^ 16 == fn)).map (fun e => e.1 % 2 ^ 16)).filter (fun n => evqInst s fn n == i)

/-- A drain discards the entry: as a disable does, and IMG transfers too (R159). -/
def drainDiscards (s : State) (fn fq : Nat) (e : Entry) : Bool :=
  discards s fn fq e || (queueKind (queueOf s fn fq) == 5 && e.phase == .started)

/-- The drain reaches one queue. A QUEUE_DISABLE that it catches completes with the head it would have published (R160). -/
def drainQueue (fn fq : Nat) (s : State) : State :=
  let s := discardEntries fn fq (drainDiscards s fn fq) s
  let q := queueOf s fn fq
  let s := putQueue fn fq { q with reading := false, reread := false, stopOwed := false } s
  if q.qstate = .disabling then endDisableWaiters fn fq (finalHead q) s else s

/-- Messages owed for the event queues of an instance are discarded (R159). -/
def dropMessages (fn i : Nat) (s : State) : State :=
  (instEvqs s fn i).foldl (fun s n => putB (QE_INT_B (intBase fn + n)) 35 false s) s

/-- Open groups of a domain (R156). -/
def domainGroups (s : State) (d : Nat) : List Nat :=
  (s.cg.groups.filter (fun e => e.2.domain == d)).map (fun e => e.1)

/-- Aborted records of a domain are freed (R476), but a core's, which its GCLOSE ends (R492). -/
def freeAborted (d : Nat) (s : State) : State :=
  (domainGroups s d).foldl (fun s g =>
    match cgOf s g with
    | some x => if x.state = .aborted ∧ x.cancelling.isNone ∧ x.core.isNone then freeCg g s else s
    | none => s) s

/-- The cause that decides a drain after one more has joined: the last, but a fault holds against all but a reset (R151). -/
def joinCause (old : Option DrainCause) (c : DrainCause) : DrainCause :=
  match old, c with
  | some .fault, .flr => .fault
  | _, c => c

/-- A drain of the instance is in progress, or begins (R151, R159): the generation is incremented, the groups of its
binding are aborted, and its work is discarded. -/
def drain (fn i : Nat) (c : DrainCause) (st : IState) (s : State) : State :=
  let x := instOf s fn i
  if x.drain.isSome then putInst fn i { x with state := st, drain := some (joinCause x.drain c) } s
  else
    let d := domainOf s fn i
    let quiet := (instQueues s fn i).map (queueKey fn)
    let s := (domainGroups s d).foldl (fun s g => abortGroup g quiet 0x0502 s) s
    let s := freeAborted d s
    let s := putInst fn i { instOf s fn i with state := st, gen := x.gen + 1, drain := some c } s
    let s := dropMessages fn i ((instQueues s fn i).foldl (fun s fq => drainQueue fn fq s) s)
    let s := (ownFrames s fn i).foldl (fun s f => purgeOwn f s) s
    let s := (boundFrames s fn i).foldl (fun s f => purgeFrame f s) s
    (List.range 4).foldl (fun s p => advanceRetired p s) s

/-! ### The end of a drain (R159 to R161) -/

/-- An event queue of a drained or disabled instance is disabled; its held events are discarded, its interrupt store
entry is masked (R151, R160). -/
def closeEvq (fn n : Nat) (s : State) : State :=
  let e := evqOf s fn n
  let s := addErr QE_EVQ_DISCARDED e.held.length s
  putEvq fn n { e with w0 := setBit e.w0 0 false, held := [], overflow := false, suppressed := 0, reading := false,
                       armCheck := false, reread := none } s

/-- Change the interrupt store entries of an instance's event queues. -/
def mapInts (fn i : Nat) (g : Word → Word) (s : State) : State :=
  (List.range (share s .evqs fn)).foldl (fun s j =>
    let o := QE_INT_B (intBase fn + i * share s .evqs fn + j)
    putReg o (g (getReg s o)) s) s

/-- The event queues of an instance are disabled, and its interrupt store entries changed. -/
def closeEvents (fn i : Nat) (g : Word → Word) (s : State) : State :=
  mapInts fn i g ((instEvqs s fn i).foldl (fun s n => closeEvq fn n s) s)

/-- Mask 1, with what is armed or owed kept (R144, R151). -/
def maskInt (w : Word) : Word := setBit w 32 true

/-- Mask 1, armed and pending 0 (R160). -/
def clearInt (w : Word) : Word := setFld (maskInt w) 34 2 0

/-- The device fields of a queue's context after an INST_RESET (R160). The count of publications goes on (R130). -/
def zeroDevice (q : Queue) : Queue :=
  { Queue.none with w0 := q.w0, w1 := q.w1, w2 := q.w2, w3 := q.w3, pubSeq := q.pubSeq }

/-- A queue at the end of a drain, by the cause that decides it (R160): nothing of an older generation is held (R159),
and a fault keeps the context as it stands. -/
def drainedQueue (c : DrainCause) (q : Queue) : Queue :=
  match c with
  | .reset => zeroDevice q
  | .flr => if q.qstate = .disabled then q else { q with qstate := .quiesced, entries := [], holdFetch := false }
  | .fault => { q with entries := [] }

/-- No work of an older generation is left that a drain waits for. -/
def drained (s : State) (fn i : Nat) : Bool := (instQueues s fn i).all (fun fq => workDone (queueOf s fn fq))

/-- State after a drain: a reset ends in ON; FAULTED is left by a reset only. -/
def drainedState (c : DrainCause) (old : IState) : IState :=
  match c, old with
  | .reset, _ => .on
  | .fault, _ => .faulted
  | .flr, .faulted => .faulted
  | .flr, _ => .on

/-- The end of a drain. Token rings are kept (R497). -/
def endDrain (fn : Fn) (i : Nat) (c : DrainCause) (s : State) : State :=
  let x := instOf s fn.val i
  let s := (instQueues s fn.val i).foldl (fun s fq =>
    let s := endDisableWaiters fn.val fq (finalHead (queueOf s fn.val fq)) s
    putQueue fn.val fq (drainedQueue c (queueOf s fn.val fq)) s) s
  let s := closeEvents fn.val i clearInt s
  let s := putInst fn.val i { instOf s fn.val i with state := drainedState c x.state, drain := none, resetWaiters := [] } s
  let s := x.resetWaiters.foldl (fun s w => finish 0 w.1 w.2 false 0 0 none s) s
  settleQuiesce fn s

/-- DRAIN_COMPLETE (R159). -/
def execDrainComplete (fn : Fn) (inst : BitVec 10) (s : State) : Res :=
  let i := inst.toNat
  match (instOf s fn.val i).drain with
  | none => .next s
  | some c => .next (if drained s fn.val i then endDrain fn i c s else s)

/-! ### Faults (R151, R503) -/

/-- An instance-local fault: posted and counted in every state; it begins or joins a drain where the instance has work. -/
def instanceFault (fn : Fn) (i structure_ : Nat) (arg1 : Word) (s : State) : State :=
  let s := postInstanceFault fn i structure_ arg1 s
  let x := instOf s fn.val i
  match x.state with
  | .off => s
  | .on => drain fn.val i .fault .faulted s
  | .resetting => drain fn.val i .fault .resetting s
  | .faulted => if x.drain.isSome then drain fn.val i .fault .faulted s else s

/-- An uncorrectable word of state that one instance owns, in device DRAM or in an SRAM array: the instance is faulted,
or the device where PF0 instance 0 owns it (R503, R506, R557). -/
def ownerFault (fn : Fn) (i structure_ off : Nat) (dram : Bool) (block : Nat) (s : State) : State :=
  if fn = 0 ∧ i = 0 then deviceFault (if dram then 6 else 5) block off s
  else instanceFault fn i structure_ (BitVec.ofNat 64 off) s

/-- Offset of one of the `n` words of an entry: which one failed is free. -/
def freeWord (s : State) (n : Nat) : Nat := 8 * ((freeNow s).toNat % n)

/-- ADMISSION (R432); an uncorrectable namespace entry, or error log setting where the admission fails with an entry, is a
fault of the instance that owns it (R503, R506). What it meets was told at the entry's fetch (log entry 220). -/
def execAdmission (s : State) : Res :=
  .next (match arbiterPick s with
    | none => s
    | some (fq, e) => match e.met with
    | .good => admission s
    | .corrected => admission (eccCount false .corrected s)
    | .bad =>
      ownerFault 2 (queueInst s 2 fq) 0x38 (64 * stNs s (queueInst s 2 fq) e.desc + freeWord s 8) false blkST (useFree s)
    | .elog =>
      if !reissued s e && freezes (admitCheck s (stNs s (queueInst s 2 fq) e.desc) e) then
        ownerFault 2 (queueInst s 2 fq) 0xFF (ST_ELOG_A (queueInst s 2 fq) + freeWord s 2) false blkST (useFree s)
      else admission s)

/-- The entry that a fetch has added to a queue of `n` entries will meet this at its admission. -/
def markMet (fn f n : Nat) (e : AdmErr) (s : State) : State :=
  let q := queueOf s fn f
  if q.entries.length ≤ n then s else
  putQueue fn f { q with entries := q.entries.map (fun x => if x.idx + 1 = q.fetch then { x with met := e } else x) } s

/-- DESCRIPTOR_FETCH (R123); an uncorrectable word of the queue's context is its owner's fault (R506). -/
def execDescriptorFetch (fn : Fn) (fq : BitVec 20) (r : Read) (ecc : FetchErr) (s : State) : Res :=
  let f := fq.toNat
  .next (match ecc with
    | .bad =>
      if !mayFetch s fn.val f then s
      else ownerFault fn (queueInst s fn.val f) 0x01 (64 * f + freeWord s 8) true blkQE (useFree s)
    | .admission e => markMet fn.val f (queueOf s fn.val f).entries.length e (fetchDescriptor fn f r s)
    | .corrected => fetchDescriptor fn f r (if mayFetch s fn.val f then eccCount true .corrected s else s)
    | .good => fetchDescriptor fn f r s)

/-- CONSUMER_RECORD_RETURN (R143, R146); an uncorrectable word of the event queue's context is its owner's fault (R506). -/
def execConsumerRecordReturn (fn : Fn) (fevq : BitVec 16) (r : Read × Ecc) (s : State) : Res :=
  let n := fevq.toNat
  let s := hostReadDone fn (.consumer fevq) s
  .next (if !(evqOf s fn.val n).reading ∨ !bit (evqOf s fn.val n).w0 0 then s else
    match r.2 with
    | .bad => ownerFault fn (evqInst s fn.val n) 0x02 (32 * n + freeWord s 4) true blkQE (useFree s)
    | e => consumerReturn fn n r.1 (eccCount true e s))

/-- INTERRUPT_MESSAGE (R145); an uncorrectable interrupt store entry is the fault of its event queue's owner (R506). -/
def execInterruptMessage (g : BitVec 16 × Ecc) (s : State) : Res :=
  let k := g.1.toNat
  let fn := intFn k
  .next (if !messageReady s k then s else
    match g.2 with
    | .bad => ownerFault fn (evqInst s fn.val (k - intBase fn.val)) 0xFF (QE_INT_A k + freeWord s 2) false blkQE (useFree s)
    | e => sendMessage k (eccCount false e s))

/-! ### CTL opcodes (R152, R166, R167) -/

/-- Target of an instance opcode: function and instance. -/
def instTarget (d : Bytes) : Nat × Nat := (lef d 0x10 10 2, lef d 0x10 0 10)

/-- Another instance of the function that is not OFF carries a bind_id. -/
def bindTaken (s : State) (fn i : Nat) : Bool :=
  let b := (instOf s fn i).bind
  b != 0 && s.im.insts.any (fun e => e.1 / 1024 == fn && e.1 % 1024 != i && e.2.bind == b && e.2.state != .off)

/-- The target is PF0 instance 0, which these opcodes never change (R557). -/
def mgmtTarget (t : Nat × Nat) : Bool := t.1 == 0 && t.2 == 0

/-- INST_ENABLE (R151, R152). -/
def execInstEnable (cq : BitVec 20) (s : State) : Res :=
  .next (adminRun 0xE0 cq.toNat (fun e s =>
    let t := instTarget e.desc
    let x := instOf s t.1 t.2
    let st := if mgmtTarget t then 0x121
      else if instCount s t.1 ≤ t.2 ∨ !fnPresent s t.1 ∨ (t.2 ≠ 0 ∧ !(cfgOf s t.1).pasidEnable) then 0x480
      else if x.state ≠ .off then 0x481
      else if bindTaken s t.1 t.2 then 0x483 else 0
    let s := if st = 0 then
        let s := putInst t.1 t.2 { x with state := .on } s
        (instQueues s t.1 t.2).foldl (fun s fq => issueOwed (Fin.ofNat 4 t.1) fq s) s
      else s
    ctlFinish cq.toNat e st s) s)

/-- INST_DISABLE (R151, R152); logging stops (R166). -/
def execInstDisable (cq : BitVec 20) (s : State) : Res :=
  .next (adminRun 0xE1 cq.toNat (fun e s =>
    let t := instTarget e.desc
    let x := instOf s t.1 t.2
    let st := if mgmtTarget t then 0x121 else if x.state ≠ .on then 0x481
      else if (instQueues s t.1 t.2).any (fun fq => (queueOf s t.1 fq).qstate != .disabled) then 0x482 else 0
    ctlFinish cq.toNat e st
      (if st = 0 then putInst t.1 t.2 { x with state := .off, logOn := false } (closeEvents t.1 t.2 maskInt s) else s)) s)

/-- INST_RESET begins or joins a drain (R151). -/
def resetInst (cq : Nat) (e : Entry) (fn i : Nat) (s : State) : State :=
  let s := setPhase 0 cq e.idx .started s
  let s := drain fn i .reset .resetting s
  let x := instOf s fn i
  putInst fn i { x with resetWaiters := x.resetWaiters ++ [(cq, e.idx)] } s

/-- INST_RESET (R151, R152): it completes when the drain completes. -/
def execInstReset (cq : BitVec 20) (s : State) : Res :=
  .next (adminRun 0xE2 cq.toNat (fun e s =>
    let t := instTarget e.desc
    if mgmtTarget t then ctlFinish cq.toNat e 0x121 s
    else if (instOf s t.1 t.2).state = .off then ctlFinish cq.toNat e 0x481 s
    else resetInst cq.toNat e t.1 t.2 s) s)

/-- DLOG_EPOCH (R166, R167). The number of the current epoch goes on by one with every DLOG_EPOCH that is accepted, with
size_log2 0 or while logging is off too: R166 does not say for those (log entry 190). -/
def execDlogEpoch (cq : BitVec 20) (s : State) : Res :=
  .next (adminRun 0xE3 cq.toNat (fun e s =>
    let t := instTarget e.desc
    let sz := lef e.desc 0x18 0 5
    let x := instOf s t.1 t.2
    if instCount s t.1 ≤ t.2 ∨ !fnPresent s t.1 ∨ (sz ≠ 0 ∧ (sz < 9 ∨ 24 < sz)) then ctlFinish cq.toNat e 0x121 s
    else
      let res := leBytes 4 x.epoch.toNat ++ leBytes 4 x.logCount.toNat ++ leBytes 8 (b2n x.logOverflow)
      let y := { x with epoch := x.epoch + 1, logCount := 0, logOverflow := false, logOn := sz != 0,
                        logSize := BitVec.ofNat 5 sz, logBase := leWord e.desc 0x18 }
      finish 0 cq.toNat e.idx false 0 0 (some res) (putInst t.1 t.2 y s)) s)

/-! ### Registers (R148, R149, R153) -/

/-- The instance count of a function may change (R149). -/
def shareFree (s : State) (fn : Nat) : Bool :=
  s.im.insts.all (fun e => e.1 / 1024 != fn || e.2.state == .off || e.1 == 0) &&
    (fn != 0 || (instQueues s 0 0).all (fun fq => (queueOf s 0 fq).qstate == .disabled))

/-- The instances that a new count leaves outside the function are cleared (R148). -/
def clearOutside (fn n : Nat) (s : State) : State :=
  let out (k : Nat) : Bool := k / 1024 == fn && decide (n ≤ k % 1024)
  { s with im := { insts := s.im.insts.filter (fun e => !out e.1),
                   filter := s.im.filter.filter (fun e => match e.2 with | some t => !out t.inst | none => true) } }

/-- A write of IM_FN_SHARE (R149, R168). -/
def fnShareWrite (fn : Nat) (v : Word) (s : State) : State :=
  let off := IM_FN_SHARE fn
  let s := if bit v 4 then putB off 4 false s else s
  let n := fld v 0 4
  if n = rf s off 0 4 then s
  else if decide (n ≤ maxInstLog2 s fn) && shareFree s fn then
    pageChanged fn (clearOutside fn (2 ^ n) (putF off 0 4 n s))
  else putB off 4 true s

/-- FN_SHARE_WRITE (R149). -/
def execFnShareWrite (fn : Fn) (v : BitVec 64) (s : State) : Res :=
  .next (setupWrite s (fnShareWrite fn.val v))

/-- INST_REGISTER_WRITE (R148, R153): word B has no field to write. -/
def execInstRegisterWrite (fn : Fn) (inst : BitVec 10) (wordB : Bool) (v : BitVec 64) (s : State) : Res :=
  .next (setupWrite s (fun s =>
    let i := inst.toNat
    let x := instOf s fn.val i
    if instCount s fn.val ≤ i then addErr IM_REFUSED 1 s
    else if wordB then s
    else if x.state ≠ .off then addErr IM_REFUSED 1 s
    else putInst fn.val i { x with pasid := BitVec.ofNat 20 (fld v 16 20), bind := BitVec.ofNat 10 (fld v 36 10) } s))

end Sys2Proof.Machine
end

