-- ==== Sys2Proof/Machine/Parse.lean ====
section
/-! DEFINITION. Parse unit microcode (07): the microword, its check bits, one definition for each operation. -/
namespace Sys2Proof.Machine

/-! ### Check bits (R205) -/

/-- The 8-bit values of weight 3 in rising order. -/
def hsiaoColumns : List Nat := (List.range 256).filter (fun v => popcount (BitVec.ofNat 8 v) == 3)

/-- The check bits of 56 data bits: the XOR of the columns of the ones. -/
def hsiao56 (d : Nat) : Nat :=
  ((hsiaoColumns.zip (List.range 56)).filter (fun e => d.testBit e.2)).foldl (fun a e => a ^^^ e.1) 0

/-- A control-store word of a payload of 112 bits (R204, R218). -/
def csWord (payload : Nat) : BitVec 128 :=
  let p := payload % 2 ^ 112
  BitVec.ofNat 128 (p + hsiao56 (p % 2 ^ 56) * 2 ^ 112 + hsiao56 (p / 2 ^ 56) * 2 ^ 120)

/-- A half as a read takes it (R205): its 56 data bits, with the one wrong bit that the syndrome names corrected, and
whether a bit was wrong; none when the half is uncorrectable. -/
def hsiaoRead (d c : Nat) : Option (Nat × Bool) :=
  let syndrome := c ^^^ hsiao56 d
  if syndrome = 0 then some (d, false)
  else if popcount (BitVec.ofNat 8 syndrome) = 1 then some (d, true)
  else (hsiaoColumns.findIdx? (· == syndrome)).map (fun i => (d ^^^ 2 ^ i, true))

/-- A control-store word as a read takes it: its payload, corrected, and whether a bit was wrong; none when a half is
uncorrectable. -/
def csDecode (w : BitVec 128) : Option (Nat × Bool) :=
  match hsiaoRead (w.toNat % 2 ^ 56) (w.toNat / 2 ^ 112 % 2 ^ 8), hsiaoRead (w.toNat / 2 ^ 56 % 2 ^ 56) (w.toNat / 2 ^ 120) with
  | some lo, some hi => some (lo.1 + hi.1 * 2 ^ 56, lo.2 || hi.2)
  | _, _ => none

/-- A control-store word as a window shows it: the payload as corrected, with the stored check bits; as it stands when it
is uncorrectable (R219). -/
def csShown (w : BitVec 128) : BitVec 128 :=
  match csDecode w with
  | some p => BitVec.ofNat 128 (p.1 + w.toNat / 2 ^ 112 * 2 ^ 112)
  | none => w

/-! ### The microword (R204) -/

/-- The fields of a microword. -/
structure MicroWord where
  op : Nat
  dst : Nat
  sa : Nat
  sb : Nat
  xbase : Nat
  xoff : Nat
  xbit : Nat
  xlen : Nat
  imm : BitVec 32
  nac : Nat
  target : Nat
  dw : Nat
  stk : Nat
  dclass : Nat
  commit : Bool
  deriving DecidableEq, Repr

/-- A field of a 128-bit word. -/
def wfld (w : BitVec 128) (lo len : Nat) : Nat := (w.toNat / 2 ^ lo) % 2 ^ len

/-- Read the fields of a word. -/
def microWord (w : BitVec 128) : MicroWord :=
  { op := wfld w 0 6, dst := wfld w 6 4, sa := wfld w 10 4, sb := wfld w 14 4, xbase := wfld w 18 2, xoff := wfld w 20 9,
    xbit := wfld w 29 3, xlen := wfld w 32 6, imm := BitVec.ofNat 32 (wfld w 38 32), nac := wfld w 70 3,
    target := wfld w 73 13, dw := wfld w 86 4, stk := wfld w 90 2, dclass := wfld w 92 2, commit := w.getLsbD 94 }

/-- The operation codes of R206. -/
def opListed (op : Nat) : Bool := decide (op ≤ 0x0E) || (decide (0x10 ≤ op) && decide (op ≤ 0x17))

/-- Bytes an EMIT writes (R206). -/
def emitBytes (imm : BitVec 32) : Nat := match imm.toNat / 64 % 4 with | 0 => 1 | 1 => 2 | _ => 4

/-- An illegal word (R208). -/
def illegalWord (m : MicroWord) : Bool :=
  !opListed m.op || (decide (2 ≤ m.dst) && decide (m.dst ≤ 7)) || decide (33 ≤ m.xlen) ||
  ((m.sa == 6 || m.sb == 6) && m.xlen != 0) || m.nac == 7 || decide (9 ≤ m.dw) || m.stk == 3 ||
  (m.op == 0x13 && (m.imm.toNat / 64 % 4 == 3 || decide (48 < m.imm.toNat % 64 + emitBytes m.imm)))

/-- Words of a pipeline's store (R210). -/
def storeSize (pl : Nat) : Nat := if pl = 4 then 1024 else 8192

/-- Control-store word at an address. -/
def csRead (s : State) (pl a : Nat) : BitVec 128 := tabGet (fun _ => 0) s.pipe.cs (8192 * pl + a % storeSize pl)

/-! ### The unit -/

/-- Record staging at the start of a run: offset fields, payload_off among them, at 0xFFFF but for l2_off of layer 0
(R209, R213). -/
def recordStart (f : Frame) : Bytes :=
  [0, 0, BitVec.ofNat 8 (f.source.toNat + 16 * f.port.toNat), BitVec.ofNat 8 f.pass.toNat] ++ List.replicate 10 0 ++
  [0xFF, 0xFF] ++ List.replicate 32 0 ++ [0, 0] ++ List.replicate 22 0xFF ++ List.replicate 56 0

/-- The state at the start of every run (R202). -/
def unitStart (fid : Nat) (f : Frame) (entry : BitVec 13) (abandons : BitVec 2) : ParseUnit :=
  { frame := some fid, entry := entry, pc := entry, w := List.replicate 8 0, cur := 0, c := false, stack := [], layer := 0,
    hash := 0xFFFFFFFF, hashValid := false, record := recordStart f, steps := 0, abandons := abandons }

/-- PL_CTRL.step_limit in force (R179, R199). -/
def stepLimit (s : State) (pl : Nat) : Nat := max 1 (min 1024 (rf s (PL_CTRL pl) 0 11))

/-- Offset slot of a layer: 0 l2_off, 1 l3_off, 2 l4_off (R213). -/
def offSlot (layer slot : Nat) : Nat := 0x30 + 6 * layer + 2 * slot

/-- What an extract gives: a value, or the malformed reason (R209). -/
inductive Extract where
  | value (v : BitVec 32) | bad (reason : BitVec 7)
  deriving DecidableEq, Repr

/-- The extract of a word (R209). -/
def extract (m : MicroWord) (u : ParseUnit) (frame : Bytes) : Extract :=
  if m.xlen = 0 then .value 0 else
  let slot := match m.xbase with
    | 2 => be u.record (offSlot u.layer.toNat 1) 2
    | 3 => be u.record (offSlot u.layer.toNat 2) 2
    | _ => 0
  let a := match m.xbase with
    | 0 => m.xoff
    | 1 => (u.cur.toNat + m.xoff) % 65536
    | _ => if slot = 0xFFFF then 65535 + m.xoff else (slot + m.xoff) % 65536
  let e := a + (m.xbit + m.xlen - 1) / 8
  if frame.length ≤ e then .bad 4
  else if 512 ≤ e then .bad 3
  else
    let n := e - a + 1
    .value (BitVec.ofNat 32 (be frame a n / 2 ^ (8 * n - m.xbit - m.xlen) % 2 ^ m.xlen))

/-- A source operand (R203). -/
def source (code : Nat) (m : MicroWord) (x : BitVec 32) (u : ParseUnit) (f : Frame) : BitVec 32 :=
  match code with
  | 0 => 0
  | 1 => x
  | 2 => m.imm
  | 3 => u.cur.setWidth 32
  | 4 => BitVec.ofNat 32 (min f.len 512)
  | 5 => BitVec.ofNat 32 (f.source.toNat + 16 * f.port.toNat + 256 * f.pass.toNat)
  | 6 => BitVec.ofNat 32 (be f.mdata (4 * (m.xoff % 16)) 4)
  | 7 => u.stack.headD 0
  | n => u.w.getD (n - 8) 0

/-- What an operation does: the unit after it, with the value for dst where it has one, or a malformed reason. -/
inductive OpResult where
  | ok (u : ParseUnit) (dst : Option (BitVec 32))
  | bad (reason : BitVec 7)
  deriving DecidableEq, Repr

/-- Set a 16-bit field of the record. -/
def rec16 (r : Bytes) (o v : Nat) : Bytes := splice r o (beBytes 2 v)

/-- MARK (R206). -/
def opMark (imm : BitVec 32) (a : BitVec 32) (u : ParseUnit) : ParseUnit :=
  let slot := imm.toNat % 4
  let v := a.toNat % 65536
  if slot = 3 then { u with record := rec16 u.record 0x0E v } else
  let r := rec16 u.record (offSlot u.layer.toNat slot) v
  if slot = 1 then
    let k := 0x48 + u.layer.toNat
    { u with record := splice r k [BitVec.ofNat 8 (be r k 1 % 16 + 16 * (imm.toNat / 16 % 4))] }
  else { u with record := r }

/-- TAG (R206). -/
def opTag (imm : BitVec 32) (a : BitVec 32) (u : ParseUnit) : OpResult :=
  let b3 := be u.record 3 1
  let n := b3 / 4 % 16
  if 8 ≤ n then .bad 5 else
  let kinds := be u.record 0x0C 2
  let r := splice u.record (0x10 + 4 * n) (beBytes 4 a.toNat)
  let r := rec16 r 0x0C (kinds + (imm.toNat % 4) * 4 ^ n)
  let r := splice r 3 [BitVec.ofNat 8 (b3 + 4)]
  .ok { u with record := r, cur := u.cur + 4 } none

/-- TUNNEL (R206). -/
def opTunnel (imm : BitVec 32) (u : ParseUnit) : OpResult :=
  if u.layer = 3 then .bad 6 else
  let n := u.layer.toNat + 1
  let r := splice u.record 3 [BitVec.ofNat 8 (be u.record 3 1 + 64)]
  let r := splice r (0x48 + n) [BitVec.ofNat 8 (imm.toNat % 16)]
  let r := splice r (0x30 + 6 * n) (List.replicate 6 0xFF)
  .ok { u with record := r, layer := BitVec.ofNat 2 n } none

/-- CSUM: the checksum flags of the record, hash_valid kept (R206, R213). -/
def opCsum (imm : BitVec 32) (u : ParseUnit) : ParseUnit :=
  let old := be u.record 6 2
  let i := imm.toNat
  { u with record := rec16 u.record 6 (old % 2 + 2 * (i % 2) + 4 * (i / 2 % 2) + 8 * (i / 4 % 2) + 16 * (i / 16 % 4)) }

/-- HASH (R206). -/
def opHash (a b : BitVec 32) (u : ParseUnit) : ParseUnit :=
  { u with hash := crc32cRun u.hash (beBytes 4 a.toNat ++ beBytes 4 b.toNat), hashValid := true,
           record := rec16 u.record 6 (be u.record 6 2 / 2 * 2 + 1) }

/-- EMIT: A into the field area, big-endian (R206). -/
def opEmit (imm a : BitVec 32) (u : ParseUnit) : ParseUnit :=
  let n := emitBytes imm
  { u with record := splice u.record (0x50 + imm.toNat % 64) (beBytes n (a.toNat % 2 ^ (8 * n))) }

/-- SETF: the flags, with a mask of those cleared first (R206). -/
def opSetf (imm : BitVec 32) (u : ParseUnit) : ParseUnit :=
  let old := BitVec.ofNat 16 (be u.record 4 2)
  let new := (old &&& ~~~ BitVec.ofNat 16 (imm.toNat / 65536)) ||| BitVec.ofNat 16 imm.toNat
  { u with record := rec16 u.record 4 new.toNat }

/-- The operations of R206 on operands A and B. -/
def operate (op : Nat) (imm a b : BitVec 32) (u : ParseUnit) : OpResult :=
  match op with
  | 0x01 => .ok u (some a)
  | 0x02 => .ok u (some (a + b))
  | 0x03 => .ok u (some (a - b))
  | 0x04 => .ok u (some (a &&& b))
  | 0x05 => .ok u (some (a ||| b))
  | 0x06 => .ok u (some (a ^^^ b))
  | 0x07 => .ok u (some (a <<< (b.toNat % 32)))
  | 0x08 => .ok u (some (a >>> (b.toNat % 32)))
  | 0x09 => .ok { u with c := a == b } none
  | 0x0A => .ok { u with c := decide (a.toNat < b.toNat) } none
  | 0x0B => .ok { u with c := a &&& b != 0 } none
  | 0x0C => .ok { u with c := decide (imm.toNat % 65536 ≤ a.toNat) && decide (a.toNat ≤ imm.toNat / 65536) } none
  | 0x0D => .ok { u with cur := u.cur + a.setWidth 16 } none
  | 0x0E => .ok { u with cur := a.setWidth 16 } none
  | 0x10 => .ok (opMark imm a u) none
  | 0x11 => opTag imm a u
  | 0x12 => opTunnel imm u
  | 0x13 => .ok (opEmit imm a u) none
  | 0x14 => .ok (opSetf imm u) none
  | 0x15 => .ok (opCsum imm u) none
  | 0x16 => .ok (opHash a b u) none
  | 0x17 => .bad (BitVec.ofNat 7 (0x40 + imm.toNat % 64))
  | _ => .ok u none

/-- The write to dst (R204). -/
def writeDst (dst : Nat) (v : Option (BitVec 32)) (u : ParseUnit) : ParseUnit :=
  match v with
  | none => u
  | some x => if dst = 1 then { u with cur := x.setWidth 16 }
              else if 8 ≤ dst then { u with w := u.w.set (dst - 8) x } else u

/-- The micro-stack operation; none when it is malformed with STACK (R211). -/
def stackOp (stk : Nat) (a : BitVec 32) (st : List (BitVec 32)) : Option (List (BitVec 32)) :=
  match stk with
  | 1 => if 4 ≤ st.length then none else some (a :: st)
  | 2 => match st with | [] => none | _ :: t => some t
  | _ => some st

/-- The next address (R210): pc and stack, or none when it is malformed with STACK. -/
def nextPc (m : MicroWord) (a : BitVec 32) (u : ParseUnit) (size : Nat) : Option (ParseUnit) :=
  let addr (n : Nat) : BitVec 13 := BitVec.ofNat 13 (n % size)
  let seq := u.pc.toNat + 1
  match m.nac with
  | 1 => some { u with pc := addr m.target }
  | 2 => some { u with pc := addr (if u.c then m.target else seq) }
  | 3 => some { u with pc := addr (if u.c then seq else m.target) }
  | 4 => if 4 ≤ u.stack.length then none
         else some { u with pc := addr m.target, stack := BitVec.ofNat 32 (seq % size) :: u.stack }
  | 5 => match u.stack with | [] => none | t :: r => some { u with pc := addr (t.toNat % 8192), stack := r }
  | 6 => some { u with pc := addr (m.target + a.toNat % 2 ^ m.dw) }
  | _ => some { u with pc := addr seq }

/-- How a word ends: the run goes on, the record is emitted, or the frame is malformed. -/
inductive WordEnd where
  | run (u : ParseUnit) | emitted (u : ParseUnit) | bad (reason : BitVec 7)
  deriving DecidableEq, Repr

/-- The rest of a word once its operation has acted (R207): micro-stack, step count, commit, next address. -/
def finishWord (m : MicroWord) (a : BitVec 32) (u : ParseUnit) (size : Nat) : WordEnd :=
  match stackOp m.stk a u.stack with
  | none => .bad 7
  | some st =>
    let u := { u with stack := st, steps := u.steps + 1 }
    if m.commit then .emitted u else
    match nextPc m a u size with
    | none => .bad 7
    | some u => .run u

/-- A legal word in the order of R207. -/
def runWord (m : MicroWord) (u : ParseUnit) (f : Frame) (size : Nat) : WordEnd :=
  match extract m u f.bytes with
  | .bad r => .bad r
  | .value x =>
    let a := source m.sa m x u f
    let b := source m.sb m x u f
    match operate m.op m.imm a b u with
    | .bad r => .bad r
    | .ok u v => finishWord m a (writeDst m.dst v u) size

/-- An illegal word runs as a NOP with nac 0 and keeps its commit bit (R208). -/
def runIllegal (m : MicroWord) (u : ParseUnit) (size : Nat) : WordEnd :=
  let u := { u with steps := u.steps + 1 }
  if m.commit then .emitted u else .run { u with pc := BitVec.ofNat 13 ((u.pc.toNat + 1) % size) }

/-- The hash field of the record at commit (R213). -/
def recordHash (u : ParseUnit) : Nat := if u.hashValid then (u.hash ^^^ 0xFFFFFFFF#32).toNat else 0

/-- Emission: the record goes to the reorder entry, and the bus takes the hash (R214, R215). -/
def emitRecord (u : ParseUnit) (f : Frame) : Frame :=
  let h := beBytes 4 (recordHash u)
  { f with record := splice u.record 8 h, result := .committed,
           mdata := if u.hashValid then splice f.mdata 12 h else f.mdata }

/-- The unit's frame becomes malformed and the unit is idle. -/
def unitMalformed (pl unit fid : Nat) (f : Frame) (reason : BitVec 7) (s : State) : State :=
  putUnit pl unit ParseUnit.idle (putFrame fid { f with result := .malformed reason } s)

/-- A run is abandoned: restarted after the first and the second, malformed at the third (R216). -/
def abandonRun (pl unit fid : Nat) (f : Frame) (u : ParseUnit) (reason : BitVec 7) (s : State) : State :=
  let s := addErr (PL_RESTARTS pl) 1 s
  if 2 ≤ u.abandons.toNat then unitMalformed pl unit fid f reason s
  else putUnit pl unit (unitStart fid f u.entry (u.abandons + 1)) s

/-- An uncorrectable control-store read: its address, and one entry for each word in a stage 1 (R216). -/
def csError (pl a : Nat) (s : State) : State :=
  let s := putF (PL_UC_STATUS pl) 48 13 a s
  if s.pipe.csPosted.contains (8192 * pl + a) then s else
  postLog logCsUncorrectable 0 blkPL (BitVec.ofNat 64 pl) (BitVec.ofNat 64 a)
    (addErrAt (blockErrOff (blockNum blkPL)) 32 1 (addErr FX_ARRAY_ERRORS 1
      { s with pipe := { s.pipe with csPosted := (8192 * pl + a) :: s.pipe.csPosted } }))

/-- The word at a unit's pc is executed under the command of an operation: it is of that operation, or it is an illegal
word, which executes as a NOP. -/
def wordIs (op : Nat) (m : MicroWord) : Bool := m.op == op || (op == 0 && illegalWord m)

/-- What the end of a word does to its unit and frame. -/
def endWord (pl unit fid : Nat) (f : Frame) (w : WordEnd) (s : State) : State :=
  match w with
  | .run u => putUnit pl unit u s
  | .emitted u => putUnit pl unit ParseUnit.idle (putFrame fid (emitRecord u f) s)
  | .bad r => unitMalformed pl unit fid f r s

/-- A word that was read acts on its unit: it ends the run on an error of R31 or R32, else it takes effect. -/
def wordActs (op pl unit fid : Nat) (f : Frame) (u : ParseUnit) (m : MicroWord) (err : ParseErr) (s : State) : State :=
  if !wordIs op m then s else
  match err with
  | .residue => abandonRun pl unit fid f u 1 (correctable FX_CORR_RESIDUE s)
  | .overrun => abandonRun pl unit fid f u 1 s
  | .headerBuffer => abandonRun pl unit fid f u 1 s
  | _ =>
    let s := if err = .corrected then correctable FX_CORR_SRAM s else s
    let ill := illegalWord m
    let s := if ill then putF (PL_UC_STATUS pl) 32 13 u.pc.toNat (addErr (PL_UC_STATUS pl) 1 s) else s
    endWord pl unit fid f (if ill then runIllegal m u (storeSize pl) else runWord m u f (storeSize pl)) s

/-- One microword of a unit under the command of an operation: the control-store read, with correction, comes first
(R205, R207). -/
def parseWord (op pl unit : Nat) (err : ParseErr) (s : State) : State :=
  let u := unitOf s pl unit
  match u.frame with
  | none => s
  | some fid =>
    match frameOf s fid with
    | none => s
    | some f =>
      if stepLimit s pl ≤ u.steps.toNat then s else
      match if err = .controlStore then none else csDecode (csRead s pl u.pc.toNat) with
      | none => abandonRun pl unit fid f u 0x0C (csError pl u.pc.toNat s)
      | some (p, fixed) =>
        wordActs op pl unit fid f u (microWord (BitVec.ofNat 128 p)) err (if fixed then correctable FX_CORR_SRAM s else s)

/-- NOP (R206). -/
def execParseNop (pl : Pl) (unit : Fin 32) (err : ParseErr) (s : State) : Res := .next (parseWord 0x00 pl.val unit.val err s)
/-- MOV. -/
def execParseMov (pl : Pl) (unit : Fin 32) (err : ParseErr) (s : State) : Res := .next (parseWord 0x01 pl.val unit.val err s)
/-- ADD. -/
def execParseAdd (pl : Pl) (unit : Fin 32) (err : ParseErr) (s : State) : Res := .next (parseWord 0x02 pl.val unit.val err s)
/-- SUB. -/
def execParseSub (pl : Pl) (unit : Fin 32) (err : ParseErr) (s : State) : Res := .next (parseWord 0x03 pl.val unit.val err s)
/-- AND. -/
def execParseAnd (pl : Pl) (unit : Fin 32) (err : ParseErr) (s : State) : Res := .next (parseWord 0x04 pl.val unit.val err s)
/-- OR. -/
def execParseOr (pl : Pl) (unit : Fin 32) (err : ParseErr) (s : State) : Res := .next (parseWord 0x05 pl.val unit.val err s)
/-- XOR. -/
def execParseXor (pl : Pl) (unit : Fin 32) (err : ParseErr) (s : State) : Res := .next (parseWord 0x06 pl.val unit.val err s)
/-- SHL. -/
def execParseShl (pl : Pl) (unit : Fin 32) (err : ParseErr) (s : State) : Res := .next (parseWord 0x07 pl.val unit.val err s)
/-- SHR. -/
def execParseShr (pl : Pl) (unit : Fin 32) (err : ParseErr) (s : State) : Res := .next (parseWord 0x08 pl.val unit.val err s)
/-- CMPEQ. -/
def execParseCmpeq (pl : Pl) (unit : Fin 32) (err : ParseErr) (s : State) : Res := .next (parseWord 0x09 pl.val unit.val err s)
/-- CMPLT. -/
def execParseCmplt (pl : Pl) (unit : Fin 32) (err : ParseErr) (s : State) : Res := .next (parseWord 0x0A pl.val unit.val err s)
/-- TEST. -/
def execParseTest (pl : Pl) (unit : Fin 32) (err : ParseErr) (s : State) : Res := .next (parseWord 0x0B pl.val unit.val err s)
/-- RANGE. -/
def execParseRange (pl : Pl) (unit : Fin 32) (err : ParseErr) (s : State) : Res := .next (parseWord 0x0C pl.val unit.val err s)
/-- ADVANCE. -/
def execParseAdvance (pl : Pl) (unit : Fin 32) (err : ParseErr) (s : State) : Res := .next (parseWord 0x0D pl.val unit.val err s)
/-- SETCUR. -/
def execParseSetcur (pl : Pl) (unit : Fin 32) (err : ParseErr) (s : State) : Res := .next (parseWord 0x0E pl.val unit.val err s)
/-- MARK. -/
def execParseMark (pl : Pl) (unit : Fin 32) (err : ParseErr) (s : State) : Res := .next (parseWord 0x10 pl.val unit.val err s)
/-- TAG. -/
def execParseTag (pl : Pl) (unit : Fin 32) (err : ParseErr) (s : State) : Res := .next (parseWord 0x11 pl.val unit.val err s)
/-- TUNNEL. -/
def execParseTunnel (pl : Pl) (unit : Fin 32) (err : ParseErr) (s : State) : Res := .next (parseWord 0x12 pl.val unit.val err s)
/-- EMIT. -/
def execParseEmit (pl : Pl) (unit : Fin 32) (err : ParseErr) (s : State) : Res := .next (parseWord 0x13 pl.val unit.val err s)
/-- SETF. -/
def execParseSetf (pl : Pl) (unit : Fin 32) (err : ParseErr) (s : State) : Res := .next (parseWord 0x14 pl.val unit.val err s)
/-- CSUM. -/
def execParseCsum (pl : Pl) (unit : Fin 32) (err : ParseErr) (s : State) : Res := .next (parseWord 0x15 pl.val unit.val err s)
/-- HASH. -/
def execParseHash (pl : Pl) (unit : Fin 32) (err : ParseErr) (s : State) : Res := .next (parseWord 0x16 pl.val unit.val err s)
/-- MALF. -/
def execParseMalf (pl : Pl) (unit : Fin 32) (err : ParseErr) (s : State) : Res := .next (parseWord 0x17 pl.val unit.val err s)

/-- A run that has executed step_limit words without committing is malformed with STEP_LIMIT, without restart (R212). -/
def execStepLimit (pl : Pl) (unit : Fin 32) (s : State) : Res :=
  let u := unitOf s pl.val unit.val
  match u.frame with
  | none => .next s
  | some fid =>
    match frameOf s fid with
    | none => .next s
    | some f => .next (if stepLimit s pl.val ≤ u.steps.toNat then unitMalformed pl.val unit.val fid f 2 s else s)

end Sys2Proof.Machine
end

