-- ==== Sys2Proof/Machine/Start.lean ====
section
/-! DEFINITION. Staged start, bypass, fuses sensing and configuration requests (02, 03 R75 to R78, 20). -/
namespace Sys2Proof.Machine

/-! ### VDD_AON, the bypass and the plant reference -/

/-- VDD_AON becomes good: stage 0, and the straps are sampled once (R34, R38). -/
def execVddAonGood (pb01 pb23 : BitVec 2) (s : State) : Res :=
  if s.life.aonGood then .next s else
  let l := { Life.dark s.life.fuses with
    aonGood := true, strap0 := pb01, strap1 := pb23, refStable := s.life.refStable, vppOk := s.life.vppOk }
  .next (pairsReset l { s with life := l })

/-- The 25 MHz plant reference becomes stable (R40). -/
def execPlantReferenceStable (s : State) : Res := .next { s with life := { s.life with refStable := true } }

/-- The 25 MHz plant reference is lost: the bypass does not forward (R543). -/
def execPlantReferenceLoss (s : State) : Res :=
  .next { s with life := { s.life with refStable := false, bypassUp := false } }

/-- The bypass begins to forward, once VDD_AON is good and the plant reference is stable (R40). -/
def execBypassStart (s : State) : Res :=
  .next (if s.life.aonGood && s.life.refStable then { s with life := { s.life with bypassUp := true } } else s)

/-- The other port of a pair. -/
def pairPeer (p : PPort) : PPort := match p with | 0 => 1 | 1 => 0 | 2 => 3 | 3 => 2

/-- JTAG instructions that drive the balls from the boundary register (R555). -/
def jtagDrives : JtagInstr → Bool
  | .extest => true
  | .extestPulse => true
  | .extestTrain => true
  | .clamp => true
  | .highz => true
  | _ => false

/-- The bypass forwards on the pair of a port (R40, R555). -/
def bypassForwards (s : State) (p : PPort) : Bool :=
  s.life.bypassUp && !jtagDrives s.life.jtag && bypassPossible s.life (p.val / 2) && pairInBypass s (p.val / 2)

/-- A frame through the bypass: forwarded as received to the other port of the pair, whatever its FCS; it is never
filtered, learned, tagged, timestamped or counted (R40). -/
def execBypassFrame (port : PPort) (frame : Bytes) (fcsOk : Bool) (s : State) : Res :=
  .next (if bypassForwards s port then emit (.bypassFrame (pairPeer port) frame fcsOk) s else s)

/-- VDD_AON is lost: nothing but the fuses is kept (R65, R2). -/
def execVddAonLoss (s : State) : Res :=
  .next { State.darkWith s.life.fuses with
    pending := s.pending, freeCtr := s.freeCtr, out := s.out, st := { Storage.reset with bays := baysReset s },
    life := { Life.dark s.life.fuses with vppOk := s.life.vppOk } }

/-! ### Stages 0 and 1 -/

/-- PERST# asserted: stage 0 while asserted, the bypass asserted on every pair, the link down (R65), JTAG in
Test-Logic-Reset (R69). -/
def execPerstAssert (s : State) : Res :=
  if !s.life.aonGood then .next s else
  let l := { lifeStage1 s.life s.life.resetCause false with
    stage := 0, perst := true, powerUp := s.life.powerUp, jtag := .idcode }
  .next (enterStage1 l Link.reset s)

/-- PERST# released with all supplies good: stage 1 begins, cause power-up or PERST# (R36, R43). -/
def execPerstRelease (s : State) : Res :=
  if s.life.aonGood && s.life.perst then .next (stage1Full (if s.life.powerUp then 1 else 2) s) else .next s

/-- Number of bits on which three copies disagree. -/
def disagree {n : Nat} (a b c : BitVec n) : Nat := popcount ((a ^^^ b) ||| (a ^^^ c))

/-- Bits of the protection fuses on which the copies disagree (R50). -/
def fuseDisagree (f : Fuses) : Nat :=
  disagree f.copyA.setup f.copyB.setup f.copyC.setup + disagree f.copyA.arb f.copyB.arb f.copyC.arb +
  disagree f.copyA.key0 f.copyB.key0 f.copyC.key0 + disagree f.copyA.key1 f.copyB.key1 f.copyC.key1 +
  disagree f.copyA.key2 f.copyB.key2 f.copyC.key2 + disagree f.copyA.key3 f.copyB.key3 f.copyC.key3

/-- The CRC-32C of an identity record is right (R47). -/
def identityGood (id : BitVec 128) : Bool :=
  crc32c (beBytes 12 (id.toNat / 2 ^ 32)) == BitVec.ofNat 32 id.toNat

/-- Step 1 of stage 1: fuses sensed, identity CRC and majority checked; the SMBus endpoint answers from now on
(R43, R45, R49, R50). -/
def execFuseSenseDone (s : State) : Res :=
  if s.life.stage = 1 ∧ !s.life.fusesSensed then
    let f := s.life.fuses
    let s := { s with life := { s.life with fusesSensed := true, smbusUp := true, sensed := protMajority f,
                                            identity := f.identity, identityBad := !identityGood f.identity } }
    let n := fuseDisagree f
    .next (if n = 0 then s else aerReport 0 .correctedInternal (addErr FS_SENSE_DISAGREE n s))
  else .next s

/-- Step 2a: BIST of every on-die array, then the arrays cleared (R43, R46). -/
def execBistDone (fail : Option BistFail) (s : State) : Res :=
  if s.life.stage = 1 ∧ !s.life.bistDone then
    let s := { s with life := { s.life with bistDone := true } }
    match fail with
    | none => .next s
    | some f => .next (postLog logBistFail 0 blkDV (f.array.setWidth 64) f.addr
        { s with life := { s.life with bistFail := true } })
  else .next s

/-- Step 2b: both DRAM stacks trained and written with zero data (R43). The number and address a failing stack is
logged under are free values: the spec names none. -/
def execDramTrainDone (failed : Bool) (s : State) : Res :=
  if s.life.stage = 1 ∧ !s.life.dramDone then
    let s := { s with life := { s.life with dramDone := true } }
    if failed then
      .next (postLog logBistFail 0 blkDV (freeNow s) (freeNow (useFree s))
        (useFree (useFree { s with life := { s.life with bistFail := true } })))
    else .next s
  else .next s

/-- Step 3: configuration space and setup space are up and stage1_done is set (R43). -/
def execStage1Done (s : State) : Res :=
  if s.life.stage = 1 ∧ s.life.fusesSensed ∧ s.life.bistDone ∧ s.life.dramDone then
    .next { s with life := { s.life with stage1Done := true, flrStage := false } }
  else .next s

/-- 60 ms after PERST# release, or after the link left Hot Reset: configuration responses are live (R44). -/
def execRrsPeriodEnd (s : State) : Res := .next { s with life := { s.life with rrs := false } }

/-! ### Configuration space (R75 to R78) -/

/-- Device serial number (R48). -/
def deviceSerial (s : State) : Word := BitVec.ofNat 64 ((s.life.identity.toNat / 2 ^ 61) % 2 ^ 63 * 2)

/-- Device ID of a function (R75). -/
def deviceId (fn : Nat) : Nat := 0x8420 + fn

/-- Class code of a function (R75). -/
def classCode : Nat → Nat
  | 0 => 0x088000
  | 1 => 0x020000
  | 2 => 0x018000
  | _ => 0x028000

/-- Next function in the ARI chain: the next present function above, or 0 (R77). -/
def nextFunction (s : State) (fn : Nat) : Nat := ((List.range 4).find? (fun m => decide (fn < m) && fnPresent s m)).getD 0

/-- Low dword of a 64-bit BAR of 2^lg bytes: address bits above the size, prefetchable bit, 64-bit type. -/
def barLo (v : Word) (lg : Nat) (pre : Bool) : Nat :=
  (v.toNat / 2 ^ lg * 2 ^ lg) % 2 ^ 32 + (if pre then 0xC else 4)

/-- High dword of a 64-bit BAR of 2^lg bytes. -/
def barHi (v : Word) (lg : Nat) : Nat := (v.toNat / 2 ^ lg * 2 ^ lg) / 2 ^ 32

/-- Command register. -/
def cfgCommand (c : FnCfg) : Nat :=
  (c.commandOther.toNat &&& 0x0540) + 2 * b2n c.memSpace + 4 * b2n c.busMaster

/-- The margining control of a lane. -/
def marginControl (s : State) (lane : Nat) : BitVec 16 := tabGet (fun _ => 0) s.link.margin lane

/-- Control and status of a lane's margining (R76): the control last written, and the status that the base specification
gives for it. -/
def marginDword (s : State) (lane : Nat) : Nat :=
  (marginControl s lane).toNat + (Config.marginStatus lane (marginControl s lane)).toNat * 0x10000

/-- One dword of configuration space: header, capabilities at the offsets of R76 with the fields of R77, at the places
the PCIe base specification gives them; every other dword reads 0. -/
def cfgDword (s : State) (fn off : Nat) : Nat :=
  let c := cfgOf s fn
  let pf0 := fn == 0
  match off with
  | 0x000 => 0x1E7C + deviceId fn * 0x10000
  | 0x004 => cfgCommand c + 0x00100000
  | 0x008 => classCode fn * 0x100
  | 0x00C => if pf0 then 0x00800000 else 0
  | 0x010 => barLo c.bar0 (if pf0 then 26 else 16) false
  | 0x014 => barHi c.bar0 (if pf0 then 26 else 16)
  | 0x018 => barLo c.bar2 (12 + maxInstLog2 s fn) true
  | 0x01C => barHi c.bar2 (12 + maxInstLog2 s fn)
  | 0x020 => if fn = 3 then barLo c.bar4 30 true else 0
  | 0x024 => if fn = 3 then barHi c.bar4 30 else 0
  | 0x02C => 0x1E7C + deviceId fn * 0x10000
  | 0x034 => 0x40
  | 0x03C => c.interruptLine.toNat
  | 0x040 => 0x01 + 0x5000 + 0x30000 + (if pf0 then 0x40000000 else 0)
  | 0x044 => (if c.d3hot then 3 else 0) + 8 + 0x100 * b2n c.pmeEnable + 0x8000 * b2n c.pmeStatus
  | 0x050 => 0x11 + 0x7000 + 0xF0000 + 0x40000000 * b2n c.msixMask + 0x80000000 * b2n c.msixEnable
  | 0x054 => if pf0 then 0x03FE0000 else 0
  | 0x058 => if pf0 then 0x03FE1000 else 0x1000
  | 0x070 => 0x10 + 0x20000 + 0x80000000
  | 0x074 => 2 + 0x20 + 0x8000 + 0x10000000
  | 0x078 => 0x20 * c.maxPayload.toNat + 0x100 * b2n c.extendedTag + 0x1000 * c.maxReadRequest.toNat
  | 0x07C => 6 + 0x100 + 0x800 + 0x10000 + 0x40000
  | 0x080 => 2 * b2n c.aspmL1 + s.link.speed.toNat * 0x10000 + s.link.width.toNat * 0x100000
  | 0x094 => 0xF + 0x10 + 0x10000 + 0x20000
  | 0x098 => 0x10 * b2n c.timeoutDisable + 0x1000 * b2n c.tag10
  | 0x100 => 1 + 0x20000 + 0x14800000
  | 0x104 => c.aerUncStatus.toNat
  | 0x108 => c.aerUncMask.toNat
  | 0x10C => c.aerSeverity.toNat
  | 0x110 => c.aerCorStatus.toNat
  | 0x114 => c.aerCorMask.toNat
  | 0x118 => (match c.aerFirst with | some b => b.toNat | none => 0) + 0xA0 + 0x40 * b2n c.ecrcEnable +
      0x100 * b2n c.ecrcCheck
  | 0x11C => c.aerHeader.toNat / 2 ^ 96
  | 0x120 => c.aerHeader.toNat / 2 ^ 64 % 2 ^ 32
  | 0x124 => c.aerHeader.toNat / 2 ^ 32 % 2 ^ 32
  | 0x128 => c.aerHeader.toNat % 2 ^ 32
  | 0x148 => 3 + 0x10000 + 0x15800000
  | 0x14C => (deviceSerial s).toNat % 2 ^ 32
  | 0x150 => (deviceSerial s).toNat / 2 ^ 32
  | 0x158 => 0xE + 0x10000 + 0x16800000
  | 0x15C => nextFunction s fn * 0x100
  | 0x168 => 0x1B + 0x10000 + 0x17000000
  | 0x16C => 0x1400 + 0x10000 * b2n c.pasidEnable
  | 0x170 => 0x1F + 0x10000 + 0x18000000
  | 0x174 => 1
  | 0x178 => b2n c.ptmEnable
  | 0x180 => 0x1E + 0x10000 + (if pf0 then 0x19000000 else 0)
  | 0x184 => 2 + 8 + 0x10
  | 0x188 => 2 * b2n c.pmL11 + 8 * b2n c.aspmL11
  | 0x190 => if pf0 then 0x19 + 0x10000 + 0x1C000000 else 0
  | 0x1C0 => if pf0 then 0x25 + 0x10000 + 0x1D000000 else 0
  | 0x1C4 => if pf0 then 1 else 0
  | 0x1D0 => if pf0 then 0x26 + 0x10000 + 0x20000000 else 0
  | 0x200 => if pf0 then 0x2A + 0x10000 + 0x23000000 else 0
  | 0x230 => if pf0 then 0x31 + 0x10000 + 0x26000000 else 0
  | 0x260 => if pf0 then 0x27 + 0x10000 else 0
  | 0x264 => if pf0 then 0x10000 else 0
  | _ => if pf0 && decide (0x268 ≤ off) && decide (off < 0x2A8) then marginDword s ((off - 0x268) / 4) else 0

/-- A configuration request: Unsupported Request for an absent function (R78), RRS in the period of R44 and while an
FLR of the function is under way (R97), else live. While the link is not trained nothing answers (R65). -/
def execConfigurationRequest (fn : Fn) (off : BitVec 12) (s : State) : Res :=
  if !linkUp s then .next s
  else if s.life.rrs || s.link.flr.getLsbD fn.val then .next (linkBusy (emit (.cfgCompletion fn .retry 0) s))
  else if !fnPresent s fn.val then .next (linkBusy (emit (.cfgCompletion fn .unsupported 0) s))
  else .next (linkBusy (emit (.cfgCompletion fn .live (BitVec.ofNat 32 (cfgDword s fn.val (off.toNat / 4 * 4)))) s))

/-- The configuration fields a write without behaviour of its own sets (R84). -/
def setCfgField (c : FnCfg) (f : CfgField) (v : BitVec 32) : FnCfg :=
  let b := v.getLsbD 0
  match f with
  | .memSpaceEnable => { c with memSpace := b }
  | .msixEnable => { c with msixEnable := b }
  | .msixFunctionMask => { c with msixMask := b }
  | .ptmEnable => { c with ptmEnable := b }
  | .aspmL1Enable => { c with aspmL1 := b }
  | .pmeEnable => { c with pmeEnable := b }
  | .pmeStatusClear => { c with pmeStatus := c.pmeStatus && !b }
  | .maxPayload => { c with maxPayload := v.setWidth 3 }
  | .maxReadRequest => { c with maxReadRequest := v.setWidth 3 }
  | .extendedTag => { c with extendedTag := b }
  | .tag10 => { c with tag10 := b }
  | .tag14 => { c with tag14 := b }
  | .completionTimeoutDisable => { c with timeoutDisable := b }
  | .aerUncorrectableStatus => { c with aerUncStatus := c.aerUncStatus &&& ~~~ v,
                                        aerFirst := c.aerFirst.filter (fun b => !v.getLsbD b.toNat) }
  | .aerCorrectableStatus => { c with aerCorStatus := c.aerCorStatus &&& ~~~ v }
  | .aerUncorrectableMask => { c with aerUncMask := v }
  | .aerCorrectableMask => { c with aerCorMask := v }
  | .aerSeverity => { c with aerSeverity := v }
  | .ecrcEnable => { c with ecrcEnable := b, ecrcCheck := v.getLsbD 1 }
  | .bar0Lo => { c with bar0 := BitVec.ofNat 64 (c.bar0.toNat / 2 ^ 32 * 2 ^ 32 + v.toNat) }
  | .bar0Hi => { c with bar0 := BitVec.ofNat 64 (c.bar0.toNat % 2 ^ 32 + v.toNat * 2 ^ 32) }
  | .bar2Lo => { c with bar2 := BitVec.ofNat 64 (c.bar2.toNat / 2 ^ 32 * 2 ^ 32 + v.toNat) }
  | .bar2Hi => { c with bar2 := BitVec.ofNat 64 (c.bar2.toNat % 2 ^ 32 + v.toNat * 2 ^ 32) }
  | .bar4Lo => { c with bar4 := BitVec.ofNat 64 (c.bar4.toNat / 2 ^ 32 * 2 ^ 32 + v.toNat) }
  | .bar4Hi => { c with bar4 := BitVec.ofNat 64 (c.bar4.toNat % 2 ^ 32 + v.toNat * 2 ^ 32) }
  | .interruptLine => { c with interruptLine := v.setWidth 8 }
  | .commandOther => { c with commandOther := v.setWidth 16 }
  | .aspmL11Enable => { c with aspmL11 := b }
  | .pmL11Enable => { c with pmL11 := b }
  | .laneMargin _ => c

/-- The function answers configuration writes. -/
def cfgReachable (s : State) (fn : Fn) : Bool :=
  linkUp s && !s.life.rrs && !s.link.flr.getLsbD fn.val && fnPresent s fn.val

/-- A margining control written to a lane (R76). -/
def putMargin (fn : Fn) (field : CfgField) (v : BitVec 32) (s : State) : State :=
  match field with
  | .laneMargin l =>
    if fn = 0 then { s with link := { s.link with margin := tabSet (fun _ => 0) s.link.margin l.val (v.setWidth 16) } } else s
  | _ => s

/-- A configuration write (R84); held messages go out when it lets them (R86). -/
def execConfigWrite (fn : Fn) (field : CfgField) (v : BitVec 32) (s : State) : Res :=
  if cfgReachable s fn then
    .next (flushMsix fn (linkBusy (putMargin fn field v (putCfg fn.val (setCfgField (cfgOf s fn.val) field v) s))))
  else .next (tlpDropped s)

/-! ### Stages 2 and 3 -/

/-- The stage shows in every status page (R531). -/
def pagesStage (s : State) : State := pageChanged 3 (pageChanged 2 (pageChanged 1 s))

/-- boot_enable written 1 in stage 1 (R37). -/
def execBootEnable (s : State) : Res :=
  if s.life.stage = 1 ∧ barOpen s 0 then
    if s.life.stage1Done && !s.life.bistFail then
      .next (linkBusy (pagesStage { s with life := { s.life with stage := 2 } }))
    else .next (linkBusy (putB SB_STATUS 13 true s))
  else .next (tlpDropped s)

/-- go_service written 1 in stage 2: it waits until the boot ring holds no fetched descriptor (R63). -/
def execGoService (s : State) : Res :=
  if s.life.stage = 2 ∧ barOpen s 0 then .next (linkBusy { s with life := { s.life with goPending := true } })
  else .next (tlpDropped s)

/-! ### Resets -/

/-- Hot reset: all of stage 1 (R65). -/
def execHotReset (s : State) : Res := .next (if s.life.stage = 0 then s else stage1Full 3 s)

/-- DL_Down not caused by PERST# acts as a hot reset (R95). -/
def execDlDown (s : State) : Res := .next (if s.life.stage = 0 then s else stage1Full 3 s)

/-- FLR on PF0 (R65). -/
def execFlrPf0 (s : State) : Res :=
  .next (if s.life.stage = 0 || s.life.rrs then s else stage1Flr s)

/-! ### Supplies, temperature, management -/

/-- VPP_FUSE enters or leaves its burn window (R36, R541). -/
def execVppFuseChange (inWindow : Bool) (s : State) : Res := .next { s with life := { s.life with vppOk := inWindow } }

/-- Junction above +130 °C for 10 µs: device fault, cause 1, with the sensor as detail (R33, R504, R516). -/
def execTemp (sensor : BitVec 4) (s : State) : Res := .next (deviceFault 1 blkDV sensor.toNat s)

/-- VDD_CORE below 0.705 V for 1 µs: device fault, cause 2 (R33, R504). -/
def execVcore (s : State) : Res := .next (deviceFault 2 blkDV 0 s)

/-- THERM_TRIP_N falls at +140 °C and stays until VDD_AON is lost (R550). -/
def execThermTrip (s : State) : Res :=
  .next (if s.life.aonGood then emit .thermTrip { s with life := { s.life with thermTrip := true } } else s)

/-- The housekeeping image runs: it is loaded and its thread has not stopped. -/
def hkRuns (s : State) : Bool := s.life.hkLoaded

/-- An MCTP message (R553): not acknowledged before fuse sensing; control and PLDM are answered in hardware;
vendor-defined messages go to the housekeeping image, or are refused while none runs. -/
def execMctpMessage (kind : MctpKind) (body : Bytes) (s : State) : Res :=
  if !s.life.smbusUp then .next (emit (.mctp none) s) else
  match kind with
  | .control => .next (emit (.mctp (some (Config.mctpAnswer 0 body (getReg s DV_TEMP) (hkRuns s)))) s)
  | .pldm => .next (emit (.mctp (some (Config.mctpAnswer 1 body (getReg s DV_TEMP) (hkRuns s)))) s)
  | .vendor => if hkRuns s then .next (emit (.mctpToHk body) s) else .next (emit (.mctp (some [])) s)
  | .other => .next (emit (.mctp (some [])) s)

/-- The JTAG IDCODE (R555). -/
def jtagIdcode : BitVec 32 := 0x08420A2F#32

/-- A JTAG instruction: boundary scan from stage 1 on; debug only while debug_locked, once it is sensed, is 0
(R69, R555). -/
def execJtagInstruction (i : JtagInstr) (s : State) : Res :=
  let served := decide (s.life.stage ≠ 0) &&
    (match i with | .debug => s.life.fusesSensed && !debugLocked s | _ => true)
  let id := match i with | .idcode => some jtagIdcode | _ => none
  if served then .next (emit (.jtag i true id) { s with life := { s.life with jtag := i } })
  else .next (emit (.jtag i false none) s)

/-! ### Monitors (01, 20) -/

/-- Index of the hottest of the die's sensors: the lowest number of those that read highest (R549). -/
def hottest : List (BitVec 8) → Nat → Nat × Int → Nat × Int
  | [], _, best => best
  | x :: xs, i, best => hottest xs (i + 1) (if best.2 < signed 8 x.toNat then (i, signed 8 x.toNat) else best)

/-- The sensors are read (R549). -/
def execTempSensorRead (die : List (BitVec 8)) (stack0 stack1 : BitVec 8) (s : State) : Res :=
  if s.life.stage = 0 then .next s else
  match die with
  | [] => .next s
  | x :: xs =>
    let h := hottest (xs.take 15) 1 (0, signed 8 x.toNat)
    let peak := if s.mon.tempSeen then max (signed 8 (rf s DV_TEMP 16 8)) h.2 else h.2
    let hot (b : BitVec 8) : Nat := if 95 < signed 8 b.toNat then 1 else 0
    .next (putReg DV_TEMP (BitVec.ofNat 64 (wrapInt 8 h.2 + h.1 * 2 ^ 8 + wrapInt 8 peak * 2 ^ 16
        + stack0.toNat * 2 ^ 24 + stack1.toNat * 2 ^ 32 + hot stack0 * 2 ^ 40 + hot stack1 * 2 ^ 41))
      { s with mon := { s.mon with tempSeen := true } })

/-- index_n of a window of `2^w` ticks (R25). -/
def paceIndex (completions w : Nat) : Nat := completions * 256 / (10 * 2 ^ w)

/-- Write the monitors' registers of a window (R30). -/
def putPaceMons (w : Nat) : List (BitVec 32) → Nat → State → State
  | [], _, s => s
  | c :: cs, n, s =>
    putPaceMons w cs (n + 1)
      (putReg (DV_PACE_MON n) (BitVec.ofNat 64 (paceIndex c.toNat w % 2 ^ 16 + c.toNat * 2 ^ 16)) s)

/-- The alarm at the end of a window (R29). -/
def paceAlarm (cur : Nat) (s : State) : State :=
  let thr := rf s DV_PACE_ALARM 0 16
  if rb s DV_PACE_ALARM 16 ∧ cur < thr ∧ !rb s DV_PACE_ALARM 17 then
    postLog logPaceLow 0 blkDV (BitVec.ofNat 64 cur) (BitVec.ofNat 64 thr) (putB DV_PACE_ALARM 17 true s)
  else s

/-- A pace window ends: eight rings' completions give the indexes, and the smallest is current (R25, R28). -/
def paceWindow (comps : List (BitVec 32)) (s : State) : State :=
  let cs := (comps ++ List.replicate 8 0).take 8
  let w := s.mon.paceWindow.toNat
  let cur := (cs.map (fun c => paceIndex c.toNat w % 2 ^ 16)).foldl min 0xFFFF
  let s := putPaceMons w cs 0 s
  let s := putReg DV_PACE_INDEX (BitVec.ofNat 64 (cur + min cur (rf s DV_PACE_INDEX 16 16) * 2 ^ 16
      + max cur (rf s DV_PACE_INDEX 32 16) * 2 ^ 32 + ((rf s DV_PACE_INDEX 48 8 + 1) % 256) * 2 ^ 48)) s
  paceAlarm cur { s with mon := { s.mon with paceWindow := BitVec.ofNat 4 (rf s DV_PACE_CTRL 4 4) } }

/-- A pace window ends while the monitor runs (R27). -/
def execPaceWindow (comps : List (BitVec 32)) (s : State) : Res :=
  .next (if rb s DV_PACE_CTRL 0 ∧ s.life.stage ≠ 0 then paceWindow comps s else s)

/-- clear_extremes (R27). -/
def execClearExtremes (s : State) : Res :=
  .next (setupWrite s (fun s => putF DV_PACE_INDEX 16 32 0x0000FFFF s))

/-- A write of DV_PACE_CTRL's fields: from the write that enables the monitor, current reads 0 until its first window
has completed, and that window has the size then set (R27, R28). -/
def paceEnabled (wasOn : Bool) (s : State) : State :=
  if !wasOn && rb s DV_PACE_CTRL 0 then
    putF DV_PACE_INDEX 0 16 0 { s with mon := { s.mon with paceWindow := BitVec.ofNat 4 (rf s DV_PACE_CTRL 4 4) } }
  else s

end Sys2Proof.Machine
end

