-- ==== Sys2Proof/Machine/Boot.lean ====
section
/-! DEFINITION. The boot ring, image loads, fuse burns and the entry to service (02 R53 to R63, 13 R389, R390). -/
namespace Sys2Proof.Machine

/-! ### The boot ring (R53 to R55) -/

/-- Boot ring size; values outside 4 to 8 act as 4. -/
def bootSize (s : State) : Nat :=
  let n := rf s SB_BOOT_RING 0 4
  if 4 ≤ n ∧ n ≤ 8 then 2 ^ n else 16

/-- Head of the boot ring. -/
def bootHead (s : State) : BitVec 32 := BitVec.ofNat 32 (rf s SB_BOOT_HEAD 0 32)

/-- Host address of a boot descriptor. -/
def bootAddr (s : State) (k : BitVec 32) : Nat := rf s SB_BOOT_RING 12 52 * 4096 + 64 * (k.toNat % bootSize s)

/-- The head passes a descriptor. -/
def bootPass (s : State) : State := putReg SB_BOOT_HEAD (BitVec.ofNat 64 (bootHead s + 1).toNat) s

/-- A boot descriptor completes: its first 16 bytes are overwritten, the head passes it, vector 1 is signalled (R55, R85). -/
def bootComplete (k : BitVec 32) (d : Bytes) (status : Nat) (s : State) : State :=
  let w := le d 0 4
  let entry := leBytes 4 (w % 2 ^ 16 / 16 * 16 + w % 4 + (if status = 0 then 8 else 12) + status * 2 ^ 16) ++ slice d 4 12
  let s := hostWrite 0 none false (bootAddr s k) entry s
  signalMsix 0 1 (bootPass { s with life := { s.life with boot := none, burn := none } })

/-- A boot descriptor breaks a rule of R55. -/
def badBootDesc (s : State) (k : BitVec 32) (d : Bytes) : Bool :=
  let w := leWord d 0
  fld w 0 2 != lapOf (bootSize s) k || fld w 2 2 == 0 || !(fld w 4 8 == 1 || fld w 4 8 == 2) || fld w 12 4 != 0 ||
    fld w 32 32 != 0 || le d 0x10 8 % 64 != 0 || !allZero (slice d 0x1C 0x24)

/-- A boot descriptor has been read. -/
def bootTake (k : BitVec 32) (d : Bytes) (s : State) : State :=
  let w := leWord d 0
  if fld w 0 2 = lapOf (bootSize s) k ∧ 2 ≤ fld w 2 2 then bootPass s
  else if badBootDesc s k d then bootComplete k d 1 s
  else { s with life := { s.life with boot := some { index := k, desc := d } } }

/-- The boot sequencer may fetch: stage 2 or 3, nothing in service, no entry to service pending, Bus Master Enable 1 (R54, R63). -/
def bootReady (s : State) : Bool :=
  (s.life.stage == 2 || s.life.stage == 3) && s.life.boot.isNone && !s.life.goPending && dmaOn s 0 &&
    rf s SB_BOOT_PROD 0 32 != (bootHead s).toNat

/-- BOOT_DESCRIPTOR_FETCH (R55). The boot sequencer is shared state: an uncorrectable word is a device fault (R506). -/
def execBootDescriptorFetch (d : Read × Ecc) (s : State) : Res :=
  if !bootReady s then .next s
  else if d.2 = .bad then .next (deviceFault 5 blkSB (freeNow s).toNat (useFree s)) else
  let s := eccCount false d.2 s
  let k := bootHead s
  let a := bootAddr s k
  let s := hostRead 0 none a 64 .bootDescriptor s
  match d.1 with
  | .data b => .next (bootTake k (slice b 0 64) s)
  | bad => .next (signalMsix 0 1 (bootPass (dmaFailEntry 0 a bad (readFailure 0 a bad s))))

/-! ### Image checks (R56 to R59) -/

/-- Anti-rollback counter: one more than the highest burned link (R52). -/
def arbCount (arb : BitVec 64) : Nat :=
  match ((List.range 64).reverse).find? (fun n => arb.getLsbD n) with | some n => n + 1 | none => 0

/-- Key slot revoked. -/
def revoked (s : State) (slot : Nat) : Bool := bit s.life.sensed.setup (28 + slot)

/-- Hash of a key slot. -/
def keyHash (s : State) (slot : Nat) : BitVec 384 :=
  match slot with
  | 0 => s.life.sensed.key0
  | 1 => s.life.sensed.key1
  | 2 => s.life.sensed.key2
  | _ => s.life.sensed.key3

/-- Header fields. -/
def imgKind (h : Bytes) : Nat := le h 6 1
def imgSlot (h : Bytes) : Nat := le h 7 1
def imgPayloadLen (h : Bytes) : Nat := le h 0xC 4
def imgVersion (h : Bytes) : Nat := le h 0x10 1
def imgTarget (h : Bytes) : Nat := le h 0x14 4
def imgOffset (h : Bytes) : Nat := le h 0x18 4
def imageEntry (h : Bytes) : Nat := le h 0x1C 4

/-- Check 2 fails. -/
def badHeader (h : Bytes) (len : Nat) : Bool :=
  le h 0 4 != 0x56584E42 || le h 4 2 != 1 || le h 8 4 != 512 || !allZero (slice h 0x11 3) || !allZero (slice h 0x30 0x50) ||
    !allZero (slice h 0x110 0x90) || decide (3 < imgSlot h) || decide (64 < imgVersion h) ||
    len != 512 + imgPayloadLen h || decide (2 ^ 24 < imgPayloadLen h) || imgKind h == 0 || decide (4 < imgKind h)

/-- Check 3: status ORDER, STAGE or OK (R58). An image kind that the opcode does not serve fails with ORDER in any stage. -/
def orderCheck (s : State) (fuse : Bool) (kind : Nat) : Nat :=
  if fuse != (kind == 4) then 4
  else match kind with
  | 1 => if s.life.stage = 3 then 5 else if s.life.hkLoaded then 4 else 0
  | 2 => if s.life.stage = 3 then 5 else if !s.life.hkLoaded then 4 else 0
  | 3 => if s.life.parseLoaded ≠ 0x1F#5 then 4 else 0
  | _ => if s.life.stage ≠ 2 then 5 else 0

/-- Every thread of a core is HALTED. -/
def allHalted (s : State) (c : Nat) : Bool := (threadsOf c).all (fun t => (threadOf s c t).state == .halted)

/-- Cores selected by a target. -/
def targetCores (h : Bytes) : List Nat := (List.range 32).filter (fun c => (imgTarget h).testBit c)

/-- A section of a core program: kind, thread, offset, data (R389). -/
structure Section where
  kind : Nat
  thread : Nat
  offset : Nat
  data : Bytes
  deriving DecidableEq, Repr

/-- The sections of a payload; false when one runs past its end or has a bad header (R389, R390). -/
def sections : Nat → Bytes → List Section × Bool
  | 0, _ => ([], true)
  | fuel + 1, p =>
    if p.isEmpty then ([], true) else
    let n := le p 8 4
    let x : Section := { kind := le p 0 1, thread := le p 1 1, offset := le p 4 4, data := slice p 16 n }
    let good := decide (1 ≤ x.kind) && decide (x.kind ≤ 3) && le p 2 2 == 0 && le p 0xC 4 == 0 &&
      (if x.kind = 2 then decide (x.thread < 8) || x.thread == 0xFF else x.thread == 0) && decide (16 + n ≤ p.length)
    if !good then ([x], false) else
    let r := sections fuel (p.drop (16 + (n + 15) / 16 * 16))
    (x :: r.1, r.2)

/-- The size conditions of a section (R390). -/
def sectionFits (loadOffset : Nat) (x : Section) : Bool :=
  match x.kind with
  | 1 => x.data.length % 4 == 0 && decide (loadOffset + x.offset + x.data.length / 4 ≤ 32768)
  | 2 => decide (x.offset + x.data.length ≤ 65536)
  | _ => decide (x.offset + x.data.length ≤ 2 ^ 22)

/-- The clusters that hold a selected core. -/
def targetClusters (h : Bytes) : List Nat := (List.range 4).filter (fun k => (targetCores h).any (fun c => c / 8 == k))

/-- Target conditions of check 4 (R59, R390). -/
def badTarget (s : State) (h p : Bytes) : Bool :=
  match imgKind h with
  | 1 => imgTarget h != 0 || imgOffset h != 0
  | 2 => imgTarget h == 0 || decide (32 ≤ imgTarget h) || imageEntry h != 0
  | 3 => imgTarget h == 0 || (targetCores h).any (fun c => !allHalted s c) || decide (32768 ≤ imageEntry h) ||
      ((sections p.length p).1.any (fun x => x.kind == 3) &&
        (targetClusters h).any (fun k => (List.range 8).any (fun j => !allHalted s (8 * k + j))))
  | _ => imgTarget h != 0 || imgOffset h != 0 || imageEntry h != 0

/-- Size conditions of check 4 (R59, R390). -/
def badSize (h p : Bytes) : Bool :=
  let n := imgPayloadLen h
  match imgKind h with
  | 1 => decide (2 ^ 21 < n)
  | 2 => n % 16 != 0 || decide ((if (imgTarget h).testBit 4 then 1024 else 8192) < imgOffset h + n / 16)
  | 3 => let r := sections p.length p
         !r.2 || !r.1.all (sectionFits (imgOffset h))
  | _ => n != 16

/-- Check 5 (R57, R61). -/
def badBind (s : State) (fuse : Bool) (h : Bytes) : Bool :=
  let b := leWord h 0x20
  if b = 0 then fuse else b != deviceSerial s || s.life.identityBad

/-- Checks 2 to 10 of an image whose bytes have come (R57). -/
def imageStatus (s : State) (fuse : Bool) (b : Bytes) : Nat :=
  let h := slice b 0 512
  let p := b.drop 512
  let pk := slice h 0x80 96
  if badHeader h b.length then 3
  else if orderCheck s fuse (imgKind h) ≠ 0 then orderCheck s fuse (imgKind h)
  else if badTarget s h p then 6
  else if badSize h p then 7
  else if badBind s fuse h then 8
  else if revoked s (imgSlot h) then 9
  else if BitVec.ofNat 384 (leNat (sha384 pk)) ≠ keyHash s (imgSlot h) then 0xA
  else if !ecdsaVerify pk (sha384 (slice h 0 0x1A0)) (slice h 0x1A0 96) then 0xB
  else if sha384 p ≠ slice h 0xE0 48 then 0xC
  else if imgVersion h < arbCount s.life.sensed.arb then 0xD
  else 0

/-! ### Image targets (R57, R389 to R391) -/

/-- Write consecutive words of a table of instruction words. -/
def writeCode (k : Nat) (b : Bytes) (n : Nat) (t : Tab (BitVec 32)) : Tab (BitVec 32) :=
  (List.range n).foldl (fun t i => tabSet (fun _ => 0) t (k + i) (BitVec.ofNat 32 (le b (4 * i) 4))) t

/-- A housekeeping image: loaded at address 0 of its memory, and started at entry (R60, R391). DESIGN CHOICE: the spec
does not give the unit of the entry field; it is taken as the index of an instruction, modulo 2^20 (log entry 185). -/
def loadHk (h p : Bytes) (s : State) : State :=
  let s := { s with fc := { s.fc with hkMem := memWrite s.fc.hkMem 0 p, hkBeat := s.ticks } }
  let s := { s with life := { s.life with hkLoaded := true } }
  putThread 32 0 { threadOf s 32 0 with state := .ready, pc := BitVec.ofNat 20 (imageEntry h) } s

/-- Parse microcode: the covered words of each selected pipeline, with check bits (R58, R204, R219). -/
def loadParse (h p : Bytes) (s : State) : State :=
  let n := p.length / 16
  let off := imgOffset h
  let pls := maskPls (imgTarget h)
  let put (pl : Nat) (t : Tab (BitVec 128)) : Tab (BitVec 128) :=
    (List.range n).foldl (fun t i => tabSet (fun _ => 0) t (8192 * pl + off + i) (csWord (le p (16 * i) 16))) t
  let s := { s with pipe := { s.pipe with cs := pls.foldl (fun t pl => put pl t) s.pipe.cs } }
  { s with life := { s.life with parseLoaded := s.life.parseLoaded ||| BitVec.ofNat 5 (imgTarget h) } }

/-- One section written to a core. -/
def loadSection (off c : Nat) (x : Section) (s : State) : State :=
  match x.kind with
  | 1 => { s with fc := { s.fc with code := writeCode (32768 * c + off + x.offset) x.data (x.data.length / 4) s.fc.code } }
  | 2 =>
    let ts := if x.thread = 0xFF then List.range 8 else [x.thread]
    { s with fc := { s.fc with slices := ts.foldl (fun m t => memWrite m (sliceBase c t + x.offset) x.data) s.fc.slices } }
  | _ => s

/-- A core program (R389, R390): sections in order, entry and loaded set, held punts freed. -/
def loadCore (h p : Bytes) (s : State) : State :=
  let secs := (sections p.length p).1
  let s := secs.foldl (fun s x =>
    if x.kind = 3 then
      (targetClusters h).foldl (fun s k =>
        { s with fc := { s.fc with cluster := memWrite s.fc.cluster (2 ^ 22 * k + x.offset) x.data } }) s
    else (targetCores h).foldl (fun s c => loadSection (imgOffset h) c x s) s) s
  (targetCores h).foldl (fun s c => freePunts c (putB (FC_CORE_STATUS c) 26 true (putF (FC_CORE_STATUS c) 32 15 (imageEntry h) s))) s

/-- An accepted image takes effect. -/
def loadImage (b : Bytes) (s : State) : State :=
  let h := slice b 0 512
  let p := b.drop 512
  match imgKind h with
  | 1 => loadHk h p s
  | 2 => loadParse h p s
  | _ => loadCore h p s

/-- The descriptor in service, if it has an opcode and nothing holds its image read back. -/
def bootServing (s : State) (op : Nat) : Option BootDesc :=
  match s.life.boot with
  | none => none
  | some x => if lef x.desc 0 4 8 == op && s.life.burn.isNone && dmaOn s 0 then some x else none

/-- The reads that copy an image to staging (R54, R57). -/
def readImage (addr len : Nat) (s : State) : State :=
  (splitRun (maxRead s 0) len addr len).foldl (fun s r => hostRead 0 none r.1 r.2 .bootImage s) s

/-- The image of a descriptor: the status of its checks, or its bytes. -/
def takeImage (x : BootDesc) (fuse : Bool) (img : Read) (s : State) : State × Nat × Bytes :=
  let len := le x.desc 0x18 4
  let addr := le x.desc 0x10 8
  if len < 512 ∨ 512 + 2 ^ 24 < len then (s, 3, [])
  else
    let s := readImage addr len s
    match img with
    | .data b => let b := slice b 0 len
                 (s, imageStatus s fuse b, b)
    | bad => (readFailure 0 addr bad s, 2, [])

/-- BOOT_LOAD (R57, R58). -/
def execBootLoad (img : Read) (s : State) : Res :=
  match bootServing s 1 with
  | none => .next s
  | some x =>
    let r := takeImage x false img s
    .next (bootComplete x.index x.desc r.2.1 (if r.2.1 = 0 then loadImage r.2.2 r.1 else r.1))

/-! ### Fuses (R61, R62) -/

/-- The further conditions of a fuse authorisation, after check 10 (R61). -/
def fuseStatus (s : State) (p : Bytes) : Nat :=
  let m := le p 1 1
  if !s.life.vppOk then 0xE
  else if 64 < le p 0 1 ∨ 16 ≤ m ∨ !allZero (slice p 2 14) then 0x11
  else if (List.range 4).all (fun k => revoked s k || m.testBit k) then 0xF
  else 0

/-- The links that an authorisation burns, in order: 0 to 63 the thermometer, 64 + s revocation of slot s (R61). -/
def fuseLinks (s : State) (p : Bytes) : List Nat :=
  let a := arbCount s.life.sensed.arb
  (List.range (le p 0 1)).filter (fun n => decide (a ≤ n)) ++
    ((List.range 4).filter (fun k => (le p 1 1).testBit k && !revoked s k)).map (fun k => 64 + k)

/-- BOOT_FUSE (R61). -/
def execBootFuse (img : Read) (s : State) : Res :=
  match bootServing s 2 with
  | none => .next s
  | some x =>
    let r := takeImage x true img s
    let p := slice r.2.2 512 16
    let st := if r.2.1 ≠ 0 then r.2.1 else fuseStatus r.1 p
    let links := fuseLinks r.1 p
    if st ≠ 0 ∨ links = [] then .next (bootComplete x.index x.desc st r.1)
    else .next { r.1 with life := { r.1.life with burn := some { links := links } } }

/-- One link burned in a copy. -/
def burnCopy (link : Nat) (p : ProtFuses) : ProtFuses :=
  if link < 64 then { p with arb := setBit p.arb link true } else { p with setup := setBit p.setup (28 + (link - 64)) true }

/-- One link burned in all three copies (R50). -/
def burnLink (link : Nat) (f : Fuses) : Fuses :=
  { f with copyA := burnCopy link f.copyA, copyB := burnCopy link f.copyB, copyC := burnCopy link f.copyC }

/-- The fuses as they stand apply from the end of a BOOT_FUSE on (R62). -/
def senseProt (s : State) : State := { s with life := { s.life with sensed := protMajority s.life.fuses } }

/-- The end of a burn: its descriptor completes, or is served again when Bus Master Enable is 0 (R54). -/
def endBurn (status : Nat) (s : State) : State :=
  let s := senseProt s
  match s.life.boot with
  | none => { s with life := { s.life with burn := none } }
  | some x =>
    if dmaOn s 0 then bootComplete x.index x.desc status s
    else { s with life := { s.life with boot := none, burn := none } }

/-- FUSE_LINK_BURN (R61): a link whose verify fails reads as not burned. -/
def execFuseLinkBurn (verified : Bool) (s : State) : Res :=
  match s.life.burn with
  | none => .next s
  | some b =>
    match b.links with
    | [] => .next (endBurn 0 s)
    | l :: rest =>
      if !verified then .next (endBurn 0x10 s)
      else
        let s := emit (.fuseBurn l) { s with life := { s.life with fuses := burnLink l s.life.fuses } }
        if rest.isEmpty then .next (endBurn 0 s)
        else .next { s with life := { s.life with burn := some { links := rest } } }

/-! ### Service (R63, R557) -/

/-- STAGE3_ENTRY (R63). -/
def execStage3Entry (s : State) : Res :=
  if s.life.stage = 2 ∧ s.life.goPending ∧ s.life.boot.isNone then
    let s := { s with life := { s.life with goPending := false } }
    if s.life.hkLoaded && s.life.parseLoaded == 0x1F#5 then
      .next (putInst 0 0 { instOf s 0 0 with state := .on } (pagesStage { s with life := { s.life with stage := 3 } }))
    else .next (putB SB_STATUS 12 true s)
  else .next s

end Sys2Proof.Machine
end

