-- ==== Sys2Proof/Machine/Net.lean ====
section
/-! DEFINITION. Network ports and the bulk pipelines: receipt, dealing, reorder, malformed frames, the chain and the header
editor (06, 08). -/
namespace Sys2Proof.Machine

/-! ### Ports (R171, R172, R197) -/

/-- The lane mode forms the port (R171). -/
def portExists (s : State) (n : Nat) : Bool := n % 2 ^ rf s NP_MODE 0 2 == 0

/-- Rate of a network port, in Gb/s. -/
def portRate (s : State) : Nat := 100 * 2 ^ rf s NP_MODE 0 2

/-- A network port is up. -/
def netUp (s : State) (n : Nat) : Bool := rb s (NP_PORT_CTRL n) 40

/-- A port that the mode forms is enabled in stage 3 (R64, R197), and not in electrical idle: in device-wide D3hot only the
ports of magic_ports are up (R92). -/
def netEnabled (s : State) (n : Nat) : Bool :=
  inService s && portExists s n && rb s (NP_PORT_CTRL n) 0 && (!s.link.deviceD3 || rb s HL_PME_CTRL n)

/-- A write of NP_MODE (R172, R196). -/
def npModeWrite (v : Word) (s : State) : State :=
  let s := if bit v 2 then putB NP_MODE 2 false s else s
  let m := fld v 0 2
  if m = 3 ∨ (List.range 8).any (fun n => rb s (NP_PORT_CTRL n) 0) then putB NP_MODE 2 true s
  else putF NP_MODE 0 2 m s

/-- NP_MODE_WRITE (R172). -/
def execNpModeWrite (v : BitVec 64) (s : State) : Res := .next (setupWrite s (npModeWrite v))

/-! ### PFC headroom (R281) -/

/-- H of the priorities of a network port. -/
def headroomOf (s : State) (n : Nat) : Nat :=
  let ns := 10 * min 2000 (rf s (TM_PORT_B n) 32 16) + 600 + rf s (TM_PORT_B n) 48 16
  (portRate s * ns + 671) / 672 + 2 * maxCells s n

/-- hr_max in force (R302). -/
def hrMax (s : State) : Nat := min 65536 (rf s TM_BUF_CTRL 4 17)

/-- PFC becomes inactive for every priority of a port: XOFF states end (R282). -/
def releasePfc (n : Nat) (s : State) : State :=
  putF (TM_PORT_C n) 32 8 0 (putF (TM_PORT_C n) 16 8 0 (putF (TM_PORT_C n) 0 16 0 s))

/-- Reserve headroom for one priority, or refuse it. -/
def reservePrio (n h k : Nat) (s : State) : State :=
  if !rb s (NP_PORT_CTRL n) (32 + k) then s
  else if hrReserved s + h ≤ hrMax s then putB (TM_PORT_C n) (16 + k) true (putF (TM_PORT_C n) 0 16 h s)
  else putB (TM_PORT_C n) (24 + k) true s

/-- The device computes H and reserves it for each priority in rising order. A priority that stays active keeps its XOFF
state. -/
def reservePfc (n : Nat) (s : State) : State :=
  let off := rf s (TM_PORT_C n) 32 8
  let h := headroomOf s n
  let s := releasePfc n s
  let s := if netUp s n then (List.range 8).foldl (fun s k => reservePrio n h k s) s else s
  putF (TM_PORT_C n) 32 8 (off &&& rf s (TM_PORT_C n) 16 8) s

/-- NETWORK_LINK_UP (R197, R281). -/
def execNetworkLinkUp (port : NPort) (s : State) : Res :=
  let n := port.val
  .next (if netEnabled s n && !netUp s n then pageChanged 1 (reservePfc n (putB (NP_PORT_CTRL n) 40 true s)) else s)

/-- A network link goes down (R281, R282). -/
def netDown (n : Nat) (s : State) : State :=
  if netUp s n then pageChanged 1 (releasePfc n (putB (NP_PORT_CTRL n) 40 false s)) else s

/-- NETWORK_LINK_DOWN (R282, R289). -/
def execNetworkLinkDown (port : NPort) (s : State) : Res := .next (netDown port.val s)

/-! ### Receipt (R174, R198, R280, R321) -/

/-- A time shifted by a number of units of 2^-16 ns. -/
def clockShift (c : Clock) (d : Int) : Clock :=
  let t : Int := ((c.sec.toNat * 1000000000 + c.ns.toNat) * 65536 + c.frac.toNat : Nat)
  let m : Int := 2 ^ 48 * 1000000000 * 65536
  let u := ((t + d) % m).toNat
  { sec := BitVec.ofNat 48 (u / 65536 / 1000000000), ns := BitVec.ofNat 32 (u / 65536 % 1000000000),
    frac := BitVec.ofNat 16 u, rem := c.rem }

/-- Receive correction of a port code, in ns (R349). -/
def rxCorr (s : State) (code : Nat) : Int := signed 16 (rf s (CK_PORT_CORR code) 0 16)

/-- Transmit correction of a port code, in ns. -/
def txCorr (s : State) (code : Nat) : Int := signed 16 (rf s (CK_PORT_CORR code) 16 16)

/-- A frame received whole or in arrival: from a source and port, into the buffer taken last. -/
def rxFrame (s : State) (bytes : Bytes) (fcsOk : Bool) (source port pl : Nat) (rx fin_ : Clock) (buf : Nat) : Frame :=
  { bytes := bytes, fcsOk := fcsOk, source := BitVec.ofNat 4 source, port := BitVec.ofNat 4 port, pass := 0,
    src0 := BitVec.ofNat 4 source, pl := BitVec.ofNat 3 pl, loc := .waiting, rxTime := rx, endTime := fin_,
    epoch := epochCurrent s pl, record := [], mdata := List.replicate 64 0, result := .pending, disp := .none, mirrors := [],
    copies := 0, editProg := 0, ctx := none, counts := [], debits := [], rebuilt := false, owner := none, tx := none, launch := none,
    buf := buf }

/-- A new frame takes the next number. -/
def addFrame (x : Frame) (s : State) : State × Nat :=
  let f := s.pipe.nextFrame
  (putFrame f x { s with pipe := { s.pipe with nextFrame := f + 1 } }, f)

/-- A frame waits at a source to be dealt. -/
def queueFrame (pl src f : Nat) (s : State) : State :=
  let q := srcOf s pl src
  putSrc pl src { q with wait := q.wait ++ [f] } s

/-- NETWORK_FRAME_RECEIVE: counted, held to max_frame, admitted, and left for dealing. `cyc` is the instant of the
message timestamp point (R321), `fec` the codewords that were corrected and those that were not (R198). -/
def netReceive (n : Nat) (bytes : Bytes) (fcsOk overflow : Bool) (fec : Nat × Nat) (cyc : Nat) (s : State) : State :=
  if !netUp s n then s else
  let s := addErr (NP_FEC_UNCORRECTED n) fec.2 (addStat (NP_FEC_CORRECTED n) fec.1 s)
  if overflow then addErr (NP_RX_OVERFLOW n) 1 s
  else
    let octets := bytes.length + 4
    let s := addStat (NP_RX_OCTETS n) octets (addStat (NP_RX_FRAMES n) 1 s)
    if maxFrame s n < octets then addErr (NP_RX_TOO_LONG n) 1 s
    else
      let buf := s.tm.nextBuf
      let r := admitIngress n bytes s
      if !r.2 then r.1 else
      let t := clockAt s cyc
      let x := rxFrame s bytes fcsOk 0 n (n / 2) (clockShift t (-(65536 * rxCorr s n)))
        (clockShift t ((octets * 8 * 65536 / portRate s : Nat))) buf
      let a := addFrame x r.1
      queueFrame (n / 2) n a.2 a.1

/-- NETWORK_FRAME_RECEIVE (R174, R280). -/
def execNetworkFrameReceive (port : NPort) (frame : Bytes) (fcsOk : Bool × BitVec 16 × BitVec 16) (overflow : Bool) (cyc : Cyc)
    (s : State) : Res :=
  .next (netReceive port.val frame fcsOk.1 overflow (fcsOk.2.1.toNat, fcsOk.2.2.toNat) cyc.val s)

/-! ### Dealing (R173 to R177) -/

/-- Sources of a pipeline in the dealer's order: network ports, host, recirculation, plant hand-off. -/
def pipeSources (s : State) (pl : Nat) : List Nat :=
  [2 * pl, 2 * pl + 1].filter (fun n => portExists s n || !(srcOf s pl n).wait.isEmpty) ++ [8, 9, 10]

/-- Dealer weight of a source (R199). -/
def dealWeight (s : State) (pl src : Nat) : Nat :=
  max 1 (rf s (PL_CTRL pl) (if src < 8 then 16 else if src = 8 then 20 else if src = 9 then 24 else 28) 4)

/-- A source takes part: it has a frame, and its reorder buffer a free entry. -/
def dealReady (s : State) (pl src : Nat) : Bool :=
  let q := srcOf s pl src
  !q.wait.isEmpty && decide (q.rob.length < 64)

/-- The source the weighted round robin takes, and what is left of its weight. -/
def dealChoice (s : State) (pl : Nat) : Option (Nat × Nat) :=
  let p := pipeOf s pl
  if 0 < p.turnLeft ∧ dealReady s pl p.turn then some (p.turn, p.turnLeft - 1)
  else
    let l := pipeSources s pl
    let after := l.filter (fun x => decide (p.turn < x)) ++ l.filter (fun x => decide (x ≤ p.turn))
    (after.find? (fun x => dealReady s pl x)).map (fun x => (x, dealWeight s pl x - 1))

/-- Units that serve a source: 64 of a pooled pair for its network port, else the pipeline's own 32. -/
def unitCount (s : State) (pl src : Nat) : Nat := if pooled s pl && decide (src < 8) then 64 else 32

/-- The pipeline and number of unit `u` of those that serve a pipeline. -/
def unitPlace (pl u : Nat) : Nat × Nat := (pl + u / 32, u % 32)

/-- The next idle unit after the last one dealt to, in unit order. -/
def idleUnit (s : State) (pl src : Nat) : Option Nat :=
  let l := List.range (unitCount s pl src)
  let last := (pipeOf s pl).lastUnit
  (l.filter (fun u => decide (last < u)) ++ l.filter (fun u => decide (u ≤ last))).find? (fun u =>
    (unitOf s (unitPlace pl u).1 (unitPlace pl u).2).frame.isNone)

/-- Entry address of a source (R220). -/
def entryAddress (s : State) (pl src : Nat) : Nat :=
  if pl = 4 then rf s (PL_ENTRY 4) 0 10
  else rf s (PL_ENTRY pl) (if src < 8 then 0 else if src = 8 then 16 else if src = 9 then 32 else 48) 13

/-- A frame is dealt to a unit: reorder entry, epoch of its first dealing, start of the run (R175, R184). -/
def dealFrame (pl src f u : Nat) (s : State) : State :=
  match frameOf s f with
  | none => s
  | some x =>
    let q := srcOf s pl src
    let x := { x with loc := .parse, result := .pending, epoch := if x.pass = 0 then epochCurrent s pl else x.epoch }
    let s := putFrame f x (putSrc pl src { wait := q.wait.drop 1, rob := q.rob ++ [f] } s)
    let w := unitPlace pl u
    let s := putUnit w.1 w.2 (unitStart f x (BitVec.ofNat 13 (entryAddress s w.1 src)) 0) s
    addStat (PL_DEALS pl) 1 s

/-- One dealing of a bulk pipeline. -/
def deal (pl : Nat) (s : State) : State :=
  match dealChoice s pl with
  | none => s
  | some (src, left) =>
    match (srcOf s pl src).wait.head?, idleUnit s pl src with
    | some f, some u =>
      let p := pipeOf s pl
      dealFrame pl src f u (putPipe pl { p with turn := src, turnLeft := left, lastUnit := u } s)
    | _, _ => s

/-- DEAL (R175). -/
def execDeal (pl : BulkPl) (s : State) : Res := .next (deal pl.val s)

/-! ### Malformed frames (R180 to R182) -/

/-- A malformed frame leaves: its debits are credited back, its counts never applied, and its action taken. -/
def malformedAction (pl f reason : Nat) (s : State) : State :=
  match frameOf s f with
  | none => s
  | some x =>
    let a := PL_MALF_ACTION pl reason
    let s := addErr (PL_MALF_COUNT pl reason) 1 (withdrawDebits x (leaveChain pl f s))
    let s := putFrame f { x with counts := [], debits := [], loc := .group } s
    let s := match rf s a 0 2 with
      | 1 => let r := puntFrame (rf s a 8 5) (rf s a 16 5) f reason s
             if r.2 then r.1 else freeFrame f r.1
      | 2 => enqueueOrDrop (rf s a 32 20) f s
      | _ => freeFrame f s
    advanceRetired pl s

/-! ### Release (R176) -/

/-- A frame goes into a chain at the first stage of its source; with none in use it ends there without a disposition. -/
def enterAt (s : State) (pl : Nat) (x : Frame) : Option Nat :=
  let st := firstStage s pl x.source.toNat
  if st < chainLen s pl then some st else none

/-- The pipeline whose chain a released frame takes: in a pooled pair its network frames alternate (R173). -/
def chainOf (s : State) (pl src : Nat) : Nat :=
  if pooled s pl && decide (src < 8) && (pipeOf s pl).upperNext then pl + 1 else pl

/-- A frame joins a chain, and the merge of its pair. R173 splits the reordered stream and does not say whether a frame that
its release drops, or that the parse made malformed, counts in the alternation: in the model only frames that enter a
chain do (log entry 191). -/
def joinChain (pl dest src f : Nat) (s : State) : State :=
  let s := if pooled s pl && decide (src < 8) then
      let p := pipeOf s pl
      putPipe pl { p with upperNext := !p.upperNext, merge := p.merge ++ [f] } s
    else s
  let p := pipeOf s dest
  putPipe dest { p with chain := p.chain ++ [f] } s

/-! ### The end of a chain (R232) -/

/-- The frame leaves its last chain pass and asks for a learn (R242, R257). -/
def lastPass (pl f : Nat) (x : Frame) (s : State) : State := advanceRetired pl (requestLearn x (putFrame f x s))

/-- A dropped frame leaves: its counts stand. -/
def dropAtEnd (pl f : Nat) (x : Frame) (s : State) : State :=
  advanceRetired pl (freeFrame f (leaveChain pl f (applyCounts x (requestLearn x s))))

/-- The context of a frame is inbound with recirc_after (R360). -/
def ctxReturns (s : State) (x : Frame) : Bool :=
  match x.ctx with
  | none => false
  | some g => ctxInbound (ctxOf s g.toNat) && ctxBit (ctxOf s g.toNat) 14

/-- The end of the chain: mirror copies, then the disposition. -/
def chainEnd (pl f : Nat) (x : Frame) (s : State) : State :=
  let s := mirrorCopies f x (putFrame f x s)
  match x.disp with
  | .none => dropAtEnd pl f x (addErr (CL_NO_DISP pl) 1 s)
  | .drop => dropAtEnd pl f x (addStat (CL_DROPS pl) 1 s)
  | .recirc => if x.pass = 2 then malformedAction pl f 9 s else putFrame f { x with loc := .edit } s
  | .forward l =>
    if ctxReturns s x then putFrame f { x with loc := .edit, disp := .through l } s
    else lastPass pl f { x with loc := .edit } s
  | .through l => putFrame f { x with loc := .edit, disp := .through l } s
  | .punt _ _ => lastPass pl f { x with loc := .edit } s

/-- A released frame that is whole and well-formed goes to its chain. -/
def enterChain (pl src f : Nat) (x : Frame) (s : State) : State :=
  let dest := chainOf s pl src
  let s := joinChain pl dest src f s
  let x := { x with pl := BitVec.ofNat 3 dest, record := splice x.record 0 (beBytes 2 x.len) }
  match enterAt s dest x with
  | some st => putFrame f { x with loc := .chain (BitVec.ofNat 5 st) } s
  | none => chainEnd dest f { x with disp := .none } s

/-- REORDER_RELEASE: the oldest entry of a source, once its parse is done. In mode 2 a pooled network frame that the parse
made malformed takes the action and the count of the lower pipeline, whose reorder buffer held it: R181 says "for each
pipeline" and not which of the two (log entry 192). -/
def reorderRelease (pl src : Nat) (s : State) : State :=
  let q := srcOf s pl src
  match q.rob with
  | [] => s
  | f :: rest =>
    match frameOf s f with
    | none => putSrc pl src { q with rob := rest } s
    | some x =>
      if x.result = .pending then s else
      let s := putSrc pl src { q with rob := rest } s
      if !x.fcsOk then advanceRetired pl (freeFrame f (if src < 8 then addErr (NP_RX_FCS_ERR src) 1 s else s))
      else match x.result with
      | .malformed r => malformedAction pl f r.toNat s
      | _ => enterChain pl src f x s

/-- Number of a source. -/
def sourceNum : Source → Nat
  | .net p => p.val
  | .host => 8
  | .recirc => 9
  | .handoff => 10

/-- REORDER_RELEASE (R176). The reorder buffers are shared state: an uncorrectable word is a device fault (R506). -/
def execReorderRelease (pl : BulkPl) (src : Source × Ecc) (s : State) : Res :=
  .next (if (srcOf s pl.val (sourceNum src.1)).rob.isEmpty then s else
    match src.2 with
    | .bad => deviceFault 5 blkPL 0 s
    | e => reorderRelease pl.val (sourceNum src.1) (eccCount false e s))

/-! ### A chain stage (R226 to R231) -/

/-- How a stage's lookup ends for its frame: a result, or the disposition drop. -/
inductive Looked where
  | result (h : Hit) | drop
  deriving DecidableEq, Repr

/-- The lookup of a stage (R227, R237, R506). -/
def stageLookup (pl st : Nat) (bad : Bool) (x : Frame) (s : State) : State × Looked :=
  let key := buildKey s pl st x.record x.mdata
  let kind := stageKind s pl st
  let table := rf s (CL_STAGE_A pl st) 4 6
  let tree := stageTree s pl st key
  let r := if bad then lookupError pl kind table tree key x.epoch s else (s, false)
  if r.2 then (r.1, .drop) else
  match (if bad ∧ kind = 3 then .result none else lookupKey r.1 pl kind table tree key x.epoch) with
  | .fault n => (juniperFault pl tree n r.1, .drop)
  | .result h => (r.1, .result h)

/-- The action entry of a lookup result (R229). -/
def stageAction (s : State) (pl st : Nat) (h : Hit) (x : Frame) : Bytes × Bytes :=
  match h with
  | some (a, d) => (entryAt s .action pl a x.epoch, d)
  | none => (entryAt s .action pl (rf s (CL_STAGE_A pl st) 16 16) x.epoch, List.replicate 8 0)

/-- What the token operation of a stage meets, if its action entry meters (R31, R506): a residue mismatch that the
recompute settles, or an uncorrectable word of the meter, whose buckets are filled again. -/
def meterError (a : Bytes) (err : ClassErr) (s : State) : State :=
  match actFlag a 8, err with
  | true, .tokensOnce => tokenResidue .once s
  | true, .tokens =>
    let n := lef a 8 32 18
    let m := touchMeter (meterOf s n) (tickNow s)
    arrayError blkTM 0x1B (40 * n) (putMeter n { m with
      c := { m.c with tokens := 16 * m.c.burst.toNat }, p := { m.p with tokens := 16 * m.p.burst.toNat } } s)
  | _, _ => s

/-- A stage with its key built: the lookup, the action entry, and where the frame goes. A second mismatch of the token
operation is a device fault. -/
def stageRun (pl st f : Nat) (err : ClassErr) (x : Frame) (s : State) : State :=
  let r := stageLookup pl st (err == .arrayError) x s
  match r.2 with
  | .drop => chainEnd pl f { x with disp := .drop } r.1
  | .result h =>
    let a := stageAction r.1 pl st h x
    if actFlag a.1 8 ∧ err = .tokensTwice then tokenResidue .twice r.1 else
    let y := applyAction a.1 a.2 pl st x (meterError a.1 err r.1)
    match y.2.2 with
    | some n => putFrame f { y.2.1 with loc := .chain (BitVec.ofNat 5 n) } y.1
    | none => chainEnd pl f y.2.1 y.1

/-- A mismatch of key arithmetic (R31, R228): the first of a frame is rebuilt and counted. -/
def keyMismatch (pl f : Nat) (x : Frame) (s : State) : State × Frame :=
  let x := { x with rebuilt := true }
  (putFrame f x (addErr (CL_KEY_CHECK pl) 1 (correctable FX_CORR_RESIDUE s)), x)

/-- The second mismatch of a frame makes it malformed with KEY_CHECK. -/
def keyMalformed (pl f : Nat) (x : Frame) (s : State) : State :=
  malformedAction pl f 8 (mirrorCopies f x (correctable FX_CORR_RESIDUE s))

/-- CLASSIFY_STAGE. -/
def classifyStage (pl f : Nat) (err : ClassErr) (s : State) : State :=
  match frameOf s f with
  | none => s
  | some x =>
    match x.loc with
    | .chain st =>
      if x.pl.toNat ≠ pl then s else
      match err with
      | .residueOnce =>
        if x.rebuilt then keyMalformed pl f x s
        else let r := keyMismatch pl f x s; stageRun pl st.toNat f .none r.2 r.1
      | .residueTwice =>
        if x.rebuilt then keyMalformed pl f x s
        else let r := keyMismatch pl f x s; keyMalformed pl f r.2 r.1
      | .corrected => stageRun pl st.toNat f .none x (eccCount true .corrected s)
      | e => stageRun pl st.toNat f e x s
    | _ => s

/-- CLASSIFY_STAGE (R231). -/
def execClassifyStage (pl : BulkPl) (frame : Nat) (err : ClassErr) (s : State) : Res := .next (classifyStage pl.val frame err s)

/-! ### The header editor and what follows (R183, R186, R232, R360) -/

/-- A frame returns to the recirculation source of its pipeline (R183, R184). -/
def recirculate (pl f : Nat) (x : Frame) (s : State) : State :=
  let x := { x with source := 2, pass := x.pass + 1, loc := .waiting, result := .pending, disp := .none, mirrors := [],
                    editProg := 0, ctx := none, counts := [], debits := [] }
  queueFrame pl 9 f (recount f (putFrame f x (addStat (PL_RECIRCS pl) 1 (leaveChain pl f s))))

/-- An edited frame goes to its leaf, through its context if it has one. `x0` is the frame before its edit, whose counts
are applied as it leaves the editor (R231). A frame that its context would send round a third time is malformed as it
came, unedited (R181, R360). -/
def forwardEdited (pl f leaf : Nat) (x0 x : Frame) (s : State) : State :=
  let out := fun s => applyCounts x0 (leaveChain pl f s)
  let x := { x with counts := [], debits := [] }
  match x.ctx with
  | none => enqueueOrDrop leaf f (putFrame f x (out s))
  | some g =>
    let back := ctxReturns s x
    -- a frame whose context could have sent it round again has left its last pass once it does not
    let last := fun s => if x.disp = .through (BitVec.ofNat 20 leaf) then requestLearn x0 s else s
    if back && x.pass == 2 then
      let r := applyCtx g.toNat f none (putFrame f x s)
      match r.2 with
      | .ok _ => malformedAction pl f 9 (putFrame f x0 r.1)
      | _ => freeFrame f (out (last r.1))
    else
      let limit := if back then none else (egressMax s leaf).map (fun m => m - 4)
      let r := applyCtx g.toNat f limit (putFrame f x (out s))
      match r.2 with
      | .ok _ =>
        if back then (match frameOf r.1 f with | some y => recirculate pl f y r.1 | none => r.1)
        else enqueueOrDrop leaf f (last r.1)
      | _ => freeFrame f (last r.1)

/-- The frame is the next to leave its chain, and its pair's merge. -/
def nextOut (s : State) (pl f : Nat) : Bool :=
  let p := pipeOf s pl
  let m := (pipeOf s (lowerOf s pl)).merge
  p.chain.head? == some f && (!m.contains f || m.head? == some f)

/-- The largest frame, with FCS, of the port a frame leaves by, where it leaves by one. -/
def editLimit (s : State) (x : Frame) : Option Nat :=
  match x.disp with | .forward l => egressMax s l.toNat | _ => none

/-- HEADER_EDIT. -/
def headerEdit (pl f : Nat) (s : State) : State :=
  match frameOf s f with
  | none => s
  | some x =>
    if x.loc ≠ .edit ∨ x.pl.toNat ≠ pl ∨ nextOut s pl f = false then s else
    match editFrame s x (editLimit s x) with
    | .bad r => malformedAction pl f r.toNat s
    | .ok b =>
      let y := { x with bytes := b }
      advanceRetired pl (match x.disp with
      | .forward l => forwardEdited pl f l.toNat x y s
      | .through l => forwardEdited pl f l.toNat x y s
      | .recirc => recirculate pl f y (applyCounts x s)
      | .punt c m =>
        let s := recount f (putFrame f { y with counts := [], debits := [] } (applyCounts x (leaveChain pl f s)))
        let r := puntFrame c.toNat m.toNat f 0 s
        if r.2 then r.1 else freeFrame f r.1
      | _ => s)

/-- An edit program that cannot be read drops its frame and is reported (R506). -/
def editUnread (pl f : Nat) (s : State) : State :=
  match frameOf s f with
  | none => s
  | some x =>
    if x.loc ≠ .edit ∨ x.pl.toNat ≠ pl ∨ nextOut s pl f = false ∨ x.editProg = 0 then s else
    let s := match x.disp with | .through _ => requestLearn x s | _ => s
    let s := arrayError blkPL 0x14 (64 * x.editProg.toNat) (addStat (CL_DROPS pl) 1 s)
    advanceRetired pl (freeFrame f (applyCounts x (leaveChain pl f s)))

/-- HEADER_EDIT (R186, R232). -/
def execHeaderEdit (pl : BulkPl) (frame : Nat × Ecc) (s : State) : Res :=
  .next (match frame.2, frameOf s frame.1 with
    | _, none => s
    | .bad, some x => if x.editProg = 0 then headerEdit pl.val frame.1 s else editUnread pl.val frame.1 s
    | e, some _ => headerEdit pl.val frame.1 (eccCount true e s))

end Sys2Proof.Machine
end

