-- ==== Sys2Proof/Machine/PlantOps.lean ====
section
/-! DEFINITION. Plant-side operations that several commands share: time, gate schedules, pair states, the plant dealer,
images in device memory (11). -/
namespace Sys2Proof.Machine

/-! ### Time -/

/-- An event at a time, in nanoseconds of Clove time, comes before the next Clove tick. -/
def timeReached (s : State) (t : Nat) : Bool := decide (t ≤ clockNs (clockAt s 1279))

/-- A time in nanoseconds as a time of the time base. -/
def clockOfNs (n : Nat) : Clock :=
  { sec := BitVec.ofNat 48 (n / 1000000000), ns := BitVec.ofNat 32 (n % 1000000000), frac := 0, rem := 0 }

/-- Octet time of a plant port, in tenths of a nanosecond (R332): 8 ns at SGMII, 3.2 ns at 2500BASE-X, 0.8 ns at
10GBASE-R. -/
def octetTime (s : State) (port : Nat) : Nat :=
  match rf s (PP_PORT_A port) 1 2 with | 1 => 32 | 2 => 8 | _ => 80

/-! ### Gate schedules (R324 to R328) -/

/-- A schedule block. -/
def schedOf (s : State) (n : Nat) : Sched := tabGet (fun _ => Sched.empty) s.plant.scheds n
/-- Set a schedule block. -/
def putSched (n : Nat) (x : Sched) (s : State) : State :=
  { s with plant := { s.plant with scheds := tabSet (fun _ => Sched.empty) s.plant.scheds n x } }

/-- Interval of a list entry, in nanoseconds (R325). -/
def entryNs (w : Word) : Nat := fld w 32 32

/-- The intervals of one cycle (R325): states and length; entries with interval 0 are skipped, the last one holds until
the cycle ends, the list is cut at the cycle's end. -/
def intervals : Nat → List Word → List (Nat × Nat)
  | _, [] => []
  | left, w :: ws =>
    if left = 0 then []
    else if entryNs w = 0 then intervals left ws
    else if ws.all (fun x => entryNs x == 0) then [(fld w 0 8, left)]
    else (fld w 0 8, min left (entryNs w)) :: intervals (left - min left (entryNs w)) ws

/-- The intervals of the oper schedule; none when none runs. -/
def operIntervals (x : Sched) : List (Nat × Nat) :=
  match x.oper with
  | none => []
  | some o => intervals o.cycle o.list

/-- States of a block that no oper entry sets (R325, R346). -/
def defaultStates (s : State) (n : Nat) : Nat := rf s (PP_SCHED_C n) 16 8

/-- The states in effect. -/
def gateStates (s : State) (n : Nat) : Nat :=
  let x := schedOf s n
  match x.pos with
  | none => defaultStates s n
  | some p => ((operIntervals x)[p]?).elim (defaultStates s n) (fun e => e.1)

/-- Time into its cycle at which a schedule stands at a time; before its base the cycles run backward. -/
def cycleOffset (o : SchedSet) (t : Nat) : Nat :=
  if o.base ≤ t then (t - o.base) % o.cycle else (o.cycle - (o.base - t) % o.cycle) % o.cycle

/-- The interval that holds an offset: its index and the offset of its end. -/
def findInterval : List (Nat × Nat) → Nat → Nat → Nat → Option (Nat × Nat)
  | [], _, _, _ => none
  | e :: es, i, start, off => if off < start + e.2 then some (i, start + e.2) else findInterval es (i + 1) (start + e.2) off

/-- A schedule placed afresh at a time from its base and cycle (R328). -/
def placeSched (x : Sched) (t : Nat) : Sched :=
  match x.oper with
  | none => x
  | some o =>
    let off := cycleOffset o t
    let x := { x with start := t - off, next := t + (o.cycle - off) }
    match findInterval (operIntervals x) 0 0 off with
    | none => { x with pos := none, posEnd := x.next }
    | some (i, e) => { x with pos := some i, posEnd := t + (e - off) }

/-- The oper set in force at a time: that before the first switch after it (R316, R326). -/
def setAt (x : Sched) (t : Nat) : Option SchedSet :=
  match (x.past.filter (fun e => decide (t < e.1))).getLast? with
  | none => x.oper
  | some e => e.2

/-- The states of a schedule at a time, by the set in force then. -/
def statesAt (s : State) (n t : Nat) : Nat :=
  let x := { schedOf s n with oper := setAt (schedOf s n) t }
  match x.oper with
  | none => defaultStates s n
  | some o =>
    match findInterval (operIntervals x) 0 0 (cycleOffset o t) with
    | none => defaultStates s n
    | some (i, _) => ((operIntervals x)[i]?).elim (defaultStates s n) (fun e => e.1)

/-- How long gate `g` stays open over a run of intervals. -/
def openRun (g : Nat) : List (Nat × Nat) → Nat
  | [] => 0
  | e :: es => if e.1.testBit g then e.2 + openRun g es else 0

/-- Gate `g` is open in every interval. -/
def alwaysOpen (g : Nat) (l : List (Nat × Nat)) : Bool := l.all (fun e => e.1.testBit g)

/-- Time for which gate `g` of a port is open from a time on: none when it never closes. -/
def openFor (s : State) (n g t : Nat) : Option Nat :=
  let x := schedOf s n
  let l := operIntervals x
  match x.oper with
  | none => if (defaultStates s n).testBit g then none else some 0
  | some o =>
    if l.isEmpty then (if (defaultStates s n).testBit g then none else some 0)
    else if alwaysOpen g l then none
    else
      let off := cycleOffset o t
      match findInterval l 0 0 off with
      | none => some 0
      | some (i, e) =>
        match l[i]? with
        | none => some 0
        | some w => if w.1.testBit g then some (e - off + openRun g (l.drop (i + 1) ++ l)) else some 0

/-- The longest time for which gate `g` is open in the cycle; none when it never closes, or no schedule runs (R327). -/
def longestOpen (s : State) (n g : Nat) : Option Nat :=
  let l := operIntervals (schedOf s n)
  if l.isEmpty || alwaysOpen g l then none
  else some (((List.range l.length).map (fun i => openRun g (l.drop i ++ l))).foldl max 0)

/-! ### Pairs (R330 to R334) -/

/-- A pair. -/
def pairOf (s : State) (p : Nat) : PairSt := s.plant.pairs.getD p .reset

/-- Set a pair; a change of its state shows in the status page of PF3 (R531). -/
def putPair (p : Nat) (x : PairSt) (s : State) : State :=
  pageIf (x.state != (pairOf s p).state) 3 { s with plant := { s.plant with pairs := s.plant.pairs.set p x } }

/-- Record a result of R331, R332. -/
def pairResult (p r : Nat) (s : State) : State := putF (PP_PAIR_C p) 24 8 r s

/-- A pair event in the PF0 event queue of the pair (R333). -/
def pairEvent (code p result : Nat) (c : Clock) (s : State) : State :=
  postEvent 0 (rf s (PP_PAIR_C p) 40 12) (blockEvent code result p c.ns.toNat (c.sec.toNat % 2 ^ 32)) s

/-- A frame leaves the egress it is sent on, and its cells are free. -/
def endSending (port : Nat) (s : State) : State :=
  match tabFind s.plant.sending port with
  | none => s
  | some f => freeFrame f { s with plant := { s.plant with sending := tabErase s.plant.sending port } }

/-- A frame came in at an ingress port: no host, image engine or core has built it. -/
def cameIn (s : State) (f : Nat) : Bool :=
  match frameOf s f with
  | none => false
  | some x => x.port != 15 && x.launch.isNone

/-- Frames that wait on the leaves of a pair's ports and came in at an ingress are freed (R41). -/
def freeArrived (p : Nat) (s : State) : State :=
  (s.tm.leaves.filter (fun e => leafPort s e.1 / 2 == 4 + p)).foldl (fun s e =>
    let gone := (leafOf s e.1).frames.filter (cameIn s)
    if gone.isEmpty then s
    else gone.foldl (fun s f => freeFrame f s) (keepFrames e.1 ((leafOf s e.1).frames.filter (fun f => !cameIn s f)) s)) s

/-- The bypass is asserted on a pair in TAKING or SERVICE (R41, R331): what its egresses send is cut, and frames that came
in before and wait go by neither path. -/
def bypassPair (p result : Nat) (c : Clock) (s : State) : State :=
  match (pairOf s p).state with
  | .taking | .service =>
    let fs := [2 * p, 2 * p + 1].filterMap (fun q => tabFind s.plant.sending q)
    let s := freeArrived p (fs.foldl (fun s f => freeFrame f s) (cutPair p s))
    let s := { s with plant := { s.plant with launching := tabErase (tabErase s.plant.launching (2 * p)) (2 * p + 1) } }
    pairEvent 0x41 p result c (pairResult p result (putPair p { state := .bypass, takeAt := 0 } s))
  | _ => s

/-- An ARMED pair goes back to BYPASS (R331). -/
def unarm (p result : Nat) (s : State) : State :=
  match (pairOf s p).state with
  | .armed => pairResult p result (putPair p { state := .bypass, takeAt := 0 } s)
  | _ => s

/-- The rate a pair's strap selects (R38, R42), as PP_PORTn.rate codes it. -/
def strapRate (s : State) (p : Nat) : Nat := (if p = 0 then s.life.strap0 else s.life.strap1).toNat

/-- Rate of a port; 3 acts as 0 (R345). -/
def portRateCode (s : State) (q : Nat) : Nat := rf s (PP_PORT_A q) 1 2 % 3

/-- The drain D and 0.2 µs, in tenths of a nanosecond (R332). -/
def drainTime (s : State) (p : Nat) : Nat :=
  (1520 + max (maxFrame s (8 + 2 * p)) (maxFrame s (9 + 2 * p))) * octetTime s (2 * p) + 2000

/-- The oper entry in effect at T closes every gate and stays in effect long enough (R332 check 0x06). -/
def gapAt (s : State) (n t need : Nat) : Bool :=
  let x := schedOf s n
  match x.oper with
  | none => false
  | some o =>
    let off := cycleOffset o t
    match findInterval (operIntervals x) 0 0 off with
    | none => false
    | some (i, e) => (match (operIntervals x)[i]? with | some w => w.1 == 0 | none => false) && decide (need ≤ (e - off) * 10)

/-- Both schedules of a pair run alike, with no change pending before a time (check 0x05). -/
def schedulesAgree (s : State) (p t need : Nat) : Bool :=
  let a := schedOf s (2 * p)
  let b := schedOf s (2 * p + 1)
  let clear (x : Sched) : Bool := match x.pending with | none => true | some (_, at_) => decide (t * 10 + need ≤ at_ * 10)
  (match a.oper, b.oper with
   | some x, some y => x.base == y.base && x.cycle == y.cycle
   | _, _ => false) && clear a && clear b

/-- An image. -/
def imageOf (s : State) (i : Nat) : Image := tabGet (fun _ => Image.empty) s.plant.images i
/-- Set an image. -/
def putImage (i : Nat) (x : Image) (s : State) : State :=
  { s with plant := { s.plant with images := tabSet (fun _ => Image.empty) s.plant.images i x } }

/-- Enabled image of a direction (R336): false TX, true RX. -/
def imageLive (x : Image) (rx : Bool) : Bool := bit x.host 0 && bit x.host 1 == rx
/-- Plant port whose cycle starts are the image's boundaries. -/
def imagePort (x : Image) : Nat := fld x.host 2 2
/-- Length of an image in bytes. -/
def imageLen (x : Image) : Nat := 64 * max 1 (min 1024 (fld x.host 16 11))

/-- An enabled TX image that the watchdog of a pair watches. -/
def watched (p : Nat) (x : Image) : Bool := imageLive x false && bit x.host 4 && imagePort x / 2 == p

/-- The checks of R332 that are made at arming and again at T: 0, or the result of the first that fails. -/
def pairChecks (s : State) (p t : Nat) : Nat :=
  let q := 2 * p
  let need := drainTime s p
  if portRateCode s q ≠ strapRate s p ∨ portRateCode s (q + 1) ≠ strapRate s p then 0x01
  else if !bypassPossible s.life p then 0x02
  else if !inService s then 0x03
  else if !([q, q + 1] : List Nat).all (fun n => rb s (PP_PORT_A n) 0 && rb s (PP_PORT_A n) 32) then 0x04
  else if !schedulesAgree s p t need then 0x05
  else if !gapAt s q t need || !gapAt s (q + 1) t need then 0x06
  else if !s.plant.images.any (fun e => watched p e.2) then 0x0E
  else 0

/-- An ARMED pair whose checks no longer pass goes back to BYPASS (R331). -/
def recheckArmed (s : State) : State :=
  [0, 1].foldl (fun s p =>
    if (pairOf s p).state = .armed then
      let r := pairChecks s p (pairOf s p).takeAt
      if r = 0 then s else unarm p r s
    else s) s

/-! ### The plant dealer (R307, R308) -/

/-- Source number of a plant port. -/
def plantSrc (port : Nat) : Nat := 16 + port

/-- A plant port takes part: it has a frame, and its reorder buffer one of its 8 entries free. -/
def plantReady (s : State) (port : Nat) : Bool :=
  let q := srcOf s 4 (plantSrc port)
  !q.wait.isEmpty && decide (q.rob.length < 8)

/-- The next idle one of the 8 units after the last one dealt to. -/
def plantUnit (s : State) : Option Nat :=
  ((List.range 8).map (fun i => ((pipeOf s 4).lastUnit + 1 + i) % 8)).find? (fun u => (unitOf s 4 u).frame.isNone)

/-- Deal every plant frame that can be dealt, the ports in turn. -/
def plantDeal : Nat → State → State
  | 0, s => s
  | fuel + 1, s =>
    let p := pipeOf s 4
    let order := (List.range 4).map (fun i => (p.turn + 1 + i) % 4)
    match order.find? (fun n => plantReady s n), plantUnit s with
    | some n, some u =>
      match (srcOf s 4 (plantSrc n)).wait.head? with
      | some f => plantDeal fuel (dealFrame 4 (plantSrc n) f u (putPipe 4 { p with turn := n, lastUnit := u } s))
      | none => s
    | _, _ => s

/-! ### Images in device memory (R335, R339) -/

/-- DRAM address of byte `off` of buffer `b` of an image. -/
def imageAddr (s : State) (i : Nat) (b : Bool) (off : Nat) : Nat :=
  rf s IG_CTRL 1 6 * 2 ^ 29 + (2 * i + b2n b) * 65536 + off

/-- Read bytes of the front buffer of an image. -/
def readFront (s : State) (i off n : Nat) : Bytes := memRead s.dram (imageAddr s i (imageOf s i).front off) n

/-- Write bytes into the back buffer of an image. -/
def writeBack (i off : Nat) (b : Bytes) (s : State) : State :=
  { s with dram := memWrite s.dram (imageAddr s i (!(imageOf s i).front) off) b }

/-- The image engine runs. -/
def imageEngineOn (s : State) : Bool := rb s IG_CTRL 0

end Sys2Proof.Machine
end

