-- ==== Sys2Proof/Machine/Traffic.lean ====
section
/-! DEFINITION. Host frames, receive rings, the scheduler, priority flow control and the traffic manager's writes (06 R189
to R193, 10). -/
namespace Sys2Proof.Machine

/-! ### TX_SEND and TX_LAUNCH (R189, R191, R285) -/

/-- Segments of a NET_TX body that hold bytes. -/
def txSegs (d : Bytes) : List (Nat × Nat) :=
  [(le d 0x10 8, le d 0x18 2), (le d 0x20 8, le d 0x1A 2), (le d 0x28 8, le d 0x1C 2)].filter (fun x => x.2 != 0)

/-- Total length of the segments. -/
def txTotal (d : Bytes) : Nat := ((txSegs d).map (fun x => x.2)).sum

/-- max_frame, with FCS, of the port a leaf feeds. -/
def leafMax (s : State) (l : Nat) : Nat := (egressMax s l).getD 9216

/-- The IP header at an offset lies in the frame, as far as a checksum needs it. -/
def txIpIn (b : Bytes) (o : Nat) : Bool :=
  decide (o + 20 ≤ b.length) && (be b o 1 / 16 == 4 || decide (o + 40 ≤ b.length)) &&
    (be b o 1 / 16 != 4 || decide (o + ipv4HeaderLen b o ≤ b.length))

/-- The checksums a NET_TX entry asks for; none when an offset lies outside the frame (R191). -/
def txChecksums (d b : Bytes) : Option Bytes :=
  let l3 := le d 0x31 1
  let l4 := le d 0x32 1
  let want4 := bit (leWord d 0x30) 1
  let want3 := bit (leWord d 0x30) 0
  if (want3 || want4) && !txIpIn b l3 then none
  else if want4 && decide (b.length < l4 + l4CsumOff (ipProto b l3) + 2) then none
  else
    let b := if want4 then splice b (l4 + l4CsumOff (ipProto b l3)) (beBytes 2 (l4Checksum b l3 l4)) else b
    some (if want3 then splice b (l3 + 10) (beBytes 2 (ipv4Checksum b l3)) else b)

/-- The context a NET_TX entry applies, by global index (R189, R351). -/
def txCtx (s : State) (fn fq : Nat) (d : Bytes) : Nat :=
  ctxGlobal fn (queueInst s fn fq * share s .contexts fn + le d 0x34 4)

/-- The checks of R191 that need no data: 0, or the status. -/
def txCheck (s : State) (fn fq : Nat) (launch : Bool) (d : Bytes) : Nat :=
  let l := engineRef (queueOf s fn fq) % 2 ^ 20
  if txTotal d < 14 ∨ leafMax s l - 4 < txTotal d ∨ txTotal d ≤ le d 0x31 1 ∨ txTotal d ≤ le d 0x32 1 then 0x0200
  else if launch && !(decide (8 ≤ leafPort s l) && decide (leafPort s l ≤ 11)) then 0x0201
  else if bit (leWord d 0x30) 2 && (!ctxLive s (txCtx s fn fq d) || ctxHard (ctxOf s (txCtx s fn fq d))) then 0x0202
  else 0

/-- The frame of an entry, with checksums, its context applied, padded; or a status (R189, R191, R358). -/
def txBuild (fn fq : Nat) (d b : Bytes) (s : State) : State × Option Bytes × Nat :=
  match txChecksums d b with
  | none => (s, none, 0x0200)
  | some b =>
    if bit (leWord d 0x30) 2 then
      let l := engineRef (queueOf s fn fq) % 2 ^ 20
      let r := transform (txCtx s fn fq d) (some (le d 0x31 1)) (some (leafMax s l - 4)) b s
      match r.2 with
      | .ok b => (r.1, some (padFrame b), 0)
      | .tooLong => (r.1, none, 0x0200)
      | _ => (r.1, none, 0x0202)
    else (s, some (padFrame b), 0)

/-- A frame of a host queue in the buffer: its number, and the state that holds it, charged to shared (R285). -/
def hostFrame (fn fq : Nat) (e : Entry) (b : Bytes) (pl : Nat) (launch : Option Word) (buf : Nat) (s : State) : State × Nat :=
  let x := rxFrame s b true 1 15 pl s.clk s.clk buf
  let x := { x with owner := some { fn := BitVec.ofNat 2 fn, inst := BitVec.ofNat 10 (queueInst s fn fq), gen := e.gen },
                    tx := some (BitVec.ofNat 2 fn, BitVec.ofNat 20 fq, e.idx), launch := launch }
  addFrame x s

/-- The buffer of a frame that no ingress admits. -/
def freshBuf (len : Nat) (s : State) : State :=
  newBuf { cells := cellsFor len, region := .shared, port := 15, prio := 0, users := 1 } s

/-- A lossless class refuses only for its leaf's limit: the entry is held fetched (R285), with its frame as read and
transformed, so that it takes one sequence number (R361). `s0` is the state before admission. -/
def holdTx (fn fq : Nat) (e : Entry) (b : Bytes) (s0 : State) : State :=
  let q := queueOf s0 fn fq
  let es := q.entries.map (fun (x : Entry) => if x.idx = e.idx then { x with built := some b } else x)
  putQueue fn fq { q with txHeld := true, entries := es } s0

/-- A frame of an entry is admitted to its leaf, staged as a member, refused, or held. -/
def txAdmit (fn fq : Nat) (e : Entry) (l f : Nat) (b : Bytes) (s0 s : State) : State :=
  let lossless := classLossless s (leafClass s l)
  let release (s : State) : State := putQueue fn fq { queueOf s fn fq with txHeld := false } s
  match e.group with
  | some g =>
    let r := admitMember l f s
    if r.2 then
      let s := match frameOf r.1 f with | some x => putFrame f { x with loc := .group } r.1 | none => r.1
      release (stageMember g fn fq e.idx (.frame f (BitVec.ofNat 20 l)) s)
    else if lossless then holdTx fn fq e b s0
    else finish fn fq e.idx true 0x0203 0 none (freeFrame f r.1)
  | none =>
    let r := enqueueFrame l f s
    if r.2 then release (finish fn fq e.idx false 0 0 none r.1)
    else if lossless then holdTx fn fq e b s0
    else finish fn fq e.idx true 0x0203 0 none (freeFrame f r.1)

/-- A built frame of an entry is put to admission. -/
def txOffer (fn : Fn) (fq : Nat) (launch : Bool) (e : Entry) (b : Bytes) (s : State) : State :=
  let l := engineRef (queueOf s fn.val fq) % 2 ^ 20
  let h := hostFrame fn.val fq e b 0 (if launch then some (leWord e.desc 0x38) else none) s.tm.nextBuf (freshBuf b.length s)
  txAdmit fn.val fq e l h.2 b s h.1

/-- TX_SEND and TX_LAUNCH on an entry; one held for room is put to admission again as it was built. -/
def txRun (fn : Fn) (fq : Nat) (launch : Bool) (r : Read) (e : Entry) (s : State) : State :=
  let st := txCheck s fn.val fq launch e.desc
  let fail (st : Nat) (s : State) : State := finish fn.val fq e.idx true st 0 none s
  match e.built with
  | some b => txOffer fn fq launch e b s
  | none =>
    if st ≠ 0 then fail st s else
    let s := (txSegs e.desc).foldl (fun s x => entryRead fn fq e x.1 x.2 s) s
    match r with
    | .data b =>
      let y := txBuild fn.val fq e.desc (slice b 0 (txTotal e.desc)) s
      match y.2.1 with
      | none => fail y.2.2 y.1
      | some b => txOffer fn fq launch e b y.1
    | bad => fail (dmaStatus bad) (readFailure fn (le e.desc 0x10 8) bad s)

/-- TX_SEND (R189). -/
def execTxSend (fn : Fn) (fq : BitVec 20) (r : Read) (s : State) : Res :=
  .next (nextEntry fn.val fq.toNat 0x01 (fun e s => txRun fn fq.toNat false r e s) s)

/-- TX_LAUNCH (R189, R329). -/
def execTxLaunch (fn : Fn) (fq : BitVec 20) (r : Read) (s : State) : Res :=
  .next (nextEntry fn.val fq.toNat 0x02 (fun e s => txRun fn fq.toNat true r e s) s)

/-- TX_PIPE on an entry (R190). -/
def txPipeRun (fn : Fn) (fq : Nat) (r : Read) (e : Entry) (s : State) : State :=
  let len := le e.desc 0x18 2
  let pl := lef e.desc 0x18 16 2
  let fail (st : Nat) (s : State) : State := finish fn.val fq e.idx true st 0 none s
  if len < 14 ∨ 9212 < len then fail 0x0200 s else
  let s := entryRead fn fq e (le e.desc 0x10 8) len s
  match r with
  | .data b =>
    let b := slice b 0 len
    let buf := s.tm.nextBuf
    let a := admitIngress 12 b s
    if !a.2 then fail 0x0203 a.1 else
    let h := hostFrame fn.val fq e b pl none buf a.1
    let s := match frameOf h.1 h.2 with
      | some x => putFrame h.2 { x with mdata := slice e.desc 0x20 32 ++ List.replicate 32 0 } h.1
      | none => h.1
    finish fn.val fq e.idx false 0 0 none (queueFrame pl 8 h.2 s)
  | bad => fail (dmaStatus bad) (readFailure fn (le e.desc 0x10 8) bad s)

/-- TX_PIPE (R190). -/
def execTxPipe (fn : Fn) (fq : BitVec 20) (r : Read) (s : State) : Res :=
  .next (nextEntry fn.val fq.toNat 0x03 (fun e s => txPipeRun fn fq.toNat r e s) s)

/-! ### Receive rings (R192, R193) -/

/-- RX_BUF: the entry is a posted buffer (R192). -/
def execRxBuf (fn : Fn) (fq : BitVec 20) (s : State) : Res :=
  .next (nextEntry fn.val fq.toNat 0x20 (fun e s => setPhase fn.val fq.toNat e.idx .started s) s)

/-- The fetched RX_BUF entries of a queue, in ring order, as far as nothing else stands before them. -/
def rxEntries (s : State) (fn fq : Nat) : List Entry :=
  let q := queueOf s fn fq
  if !queueExecutes q then [] else
  (q.entries.filter (fun e => e.phase == .started || e.phase == .fetched)).takeWhile
    (fun e => e.op == 0x20 && workCurrent s fn fq e.gen && !memberWaits s fn fq e)

/-- The fetched RX_BUF entry for the next frame of a queue: the first in ring order that is not done. -/
def rxEntry (s : State) (fn fq : Nat) : Option Entry := (rxEntries s fn fq).head?

/-- Frames of a queue that wait to be written. -/
def deliveringOf (s : State) (k : Nat) : List Nat := tabGet (fun _ => []) s.tm.delivering k

/-- Set the frames of a queue that wait to be written. -/
def putDelivering (k : Nat) (l : List Nat) (s : State) : State :=
  { s with tm := { s.tm with delivering := tabSet (fun _ => []) s.tm.delivering k l } }

/-- Checksum request bits of a parse record (R213): the field at 0x06. -/
def csumBits (rec : Bytes) : Nat := be rec 6 2

/-- Offset of the layer 3 header of the checked layer. -/
def csumL3 (rec : Bytes) : Nat := be rec (0x32 + 6 * (csumBits rec / 16 % 4)) 2

/-- Offset of the layer 4 header of the checked layer. -/
def csumL4 (rec : Bytes) : Nat := be rec (0x34 + 6 * (csumBits rec / 16 % 4)) 2

/-- Layer 3 kind of the checked layer: 1 IPv4, 2 IPv6. -/
def csumKind (rec : Bytes) : Nat := be rec (0x48 + csumBits rec / 16 % 4) 1 / 16 % 4

/-- The IPv4 header checksum at an offset is right. -/
def l3Right (b : Bytes) (o : Nat) : Bool :=
  decide (o + 20 ≤ b.length) && decide (o + ipv4HeaderLen b o ≤ b.length) && decide (20 ≤ ipv4HeaderLen b o) &&
    onesSum (slice b o (ipv4HeaderLen b o)) == 0xFFFF

/-- An IPv4 UDP datagram that carries no checksum. -/
def udpUnchecked (kind proto : Nat) (b : Bytes) (l4 : Nat) : Bool := kind == 1 && proto == 17 && be b (l4 + 6) 2 == 0

/-- The L4 checksum is right: the sum of the pseudo-header and the L4 part. -/
def l4Right (kind proto : Nat) (b : Bytes) (l3 l4 : Nat) : Bool :=
  let len := l4Length b l3 l4
  (kind == 1 || kind == 2) && decide (l3 + (if kind = 1 then 20 else 40) ≤ l4) && decide (l4 + len ≤ b.length) &&
    onesSum (pseudoHeader b l3 proto len ++ slice b l4 len) == 0xFFFF

/-- The flags word of an RX_BUF result (R192, R213). -/
def rxFlags (rec b : Bytes) : Nat :=
  let c := csumBits rec
  let kind := csumKind rec
  let proto := if c.testBit 3 then 6 else 17
  let l3c := c.testBit 1 && kind == 1
  let l4c := c.testBit 2 && !udpUnchecked kind proto b (csumL4 rec)
  b2n l3c + 2 * b2n (l3c && l3Right b (csumL3 rec)) + 4 * b2n l4c + 8 * b2n (l4c && l4Right kind proto b (csumL3 rec) (csumL4 rec)) +
    16 * (be rec 3 1 / 64 % 4) + 64 * (be rec 3 1 / 4 % 16)

/-- The results of an RX_BUF (R192). -/
def rxResults (x : Frame) : Bytes :=
  leBytes 2 x.len ++ leBytes 2 (rxFlags x.record x.bytes) ++ leBytes 4 (be x.mdata 12 4) ++ leBytes 8 (time64 x.rxTime).toNat

/-- RX_DELIVER: the oldest frame chosen for a queue is written and its entry completes, or it is dropped (R193, R506). -/
def rxDeliver (fn : Fn) (fq : Nat) (ecc : Ecc) (s : State) : State :=
  let k := queueKey fn.val fq
  match deliveringOf s k, rxEntry s fn.val fq with
  | f :: fs, some e =>
    let s := eccCount false ecc (putDelivering k fs s)
    match frameOf s f with
    | none => s
    | some x =>
      if ecc = .bad then
        arrayError blkTM 0x50 (freeNow s).toNat (useFree (freeFrame f s))
      else if le e.desc 0x18 2 < x.len then freeFrame f (addErr (PL_RX_BUF_SHORT x.pl.toNat) 1 s)
      else
        let r := instWrite fn (queueInst s fn.val fq) e.gen true (le e.desc 0x10 8) x.bytes s
        finish fn.val fq e.idx false 0 (BitVec.ofNat 32 (be x.mdata 8 4)) (some (rxResults x)) (freeFrame f r.1)
  | _, _ => s

/-- RX_DELIVER (R193). -/
def execRxDeliver (fn : Fn) (fq : BitVec 20) (ecc : Ecc) (s : State) : Res := .next (rxDeliver fn fq.toNat ecc s)

/-- A frame is in DRAM. -/
def inSpill (s : State) (f : Nat) : Bool :=
  match frameOf s f with
  | none => false
  | some x => match bufOf s x.buf with | some b => b.region == .spill | none => false

/-- Frames that returns have brought back are charged to shared, as for step 3 of R284, without a test (R287). -/
def settleReturns (s : State) : State :=
  { s with tm := { s.tm with bufs := s.tm.bufs.map (fun e =>
      (e.1, if e.2.region = .spillReturn then { e.2 with region := .shared } else e.2)) } }

/-- A spilled frame is brought back into spill return (R279, R287). -/
def bringBack (f : Nat) (s : State) : State :=
  match frameOf s f with
  | none => s
  | some x => match bufOf s x.buf with
    | none => s
    | some b => putBuf x.buf { b with region := .spillReturn } s

/-- Spill data that cannot be read: the frame is dropped, and the word, which is free, is reported (R506). -/
def loseSpilled (l f : Nat) (s : State) : State :=
  arrayError blkTM 0x51 (freeNow s).toNat (useFree (freeFrame f (keepFrames l ((leafOf s l).frames.filter (· != f)) s)))

/-- SPILL_RETURN: the oldest spilled frame of a leaf comes back on die into spill return. It stays charged there until
the next return starts, and to shared from then on: the spec gives no moment (log entry 187). -/
def execSpillReturn (leaf : BitVec 20 × Ecc) (s : State) : Res :=
  .next (match leaf.2, (leafOf s leaf.1.toNat).frames.find? (inSpill s) with
    | _, none => s
    | .bad, some f => loseSpilled leaf.1.toNat f (settleReturns s)
    | e, some f => bringBack f (settleReturns (eccCount true e s)))

/-! ### Eligibility (R289, R292, R327, R329) -/

/-- Overhead of a port node. -/
def portOverhead (s : State) (p : Nat) : Nat := rf s (TM_PORT_B p) 0 6

/-- Charged length (R291). -/
def chargedLen (s : State) (p len : Nat) : Nat := len + 4 + portOverhead s p

/-- A launch time near a time, in nanoseconds: the difference is taken modulo 2^32 seconds, and 2^31 or more is past (R329). -/
def launchNs (w : Word) (now : Nat) : Nat :=
  let m := 2 ^ 32 * 1000000000
  let d := (fld w 32 32 * 1000000000 + fld w 0 32 + 2 * m - now % m) % m
  if d < m / 2 then now + d else now - (m - d)

/-- A plant frame, or a copy of one, whose last bit has not arrived. -/
def arriving (s : State) (f : Nat) : Bool :=
  s.plant.rx.any (fun r => r.ended.isNone && (r.frame == f || r.copies.contains f))

/-- Every node of the path of a leaf is empty but for the frame (R292). -/
def pathEmpty (s : State) (p l f : Nat) : Bool :=
  s.tm.leaves.all (fun e => e.2.frames.isEmpty || leafPort s e.1 != p || (e.1 == l && e.2.frames == [f]))

/-- Time of the 8 octets of preamble and SFD on a port, in 2^-16 ns (R321, R334). -/
def preambleTime (s : State) (p : Nat) : Nat :=
  if p < 8 then 64 * 65536 / portRate s else 8 * octetTime s (p - 8) * 65536 / 10

/-- When a launch frame starts so that its timestamp point, with tx_corr, is at its launch time (R329). -/
def launchStart (s : State) (p : Nat) (w : Word) (now : Nat) : Nat :=
  ((launchNs w now : Int) - (preambleTime s p / 65536 : Nat) - txCorr s p).toNat

/-- When a frame chosen now starts, in nanoseconds. -/
def startNs (s : State) (p : Nat) (x : Frame) (now : Nat) : Nat :=
  match x.launch with
  | none => now
  | some w => max now (launchStart s p w now)

/-- The gate of a plant class lets a frame of a charged length start at a time (R327). -/
def gateAllows (s : State) (p c start charged : Nat) : Bool :=
  if classPlant s c then
    match openFor s (p - 8) (fld (classOf s c).config 26 3) start with
    | none => true
    | some d => d != 0 && decide (charged * octetTime s (p - 8) ≤ 10 * d)
  else true

/-- Launch times that a plant port keeps free for the launch frames it has chosen. -/
def launchesOf (s : State) (p : Nat) : List Nat := tabGet (fun _ => []) s.plant.launching (p - 8)

/-- Every launch frame that the port has chosen and that has not left lets the frame start: it ends before (R329). -/
def launchAllows (s : State) (p start charged : Nat) : Bool :=
  (launchesOf s p).all (fun t => decide (t ≤ start) || decide (10 * start + charged * octetTime s (p - 8) ≤ 10 * t))

/-- The launch time of a head frame lets it be chosen: lead_ns before it at the earliest (R289, R329). -/
def launchReadyNow (s : State) (x : Leaf) (p : Nat) (h : Frame) (now : Nat) : Bool :=
  match h.launch with
  | none => true
  | some w => x.launchReady && decide (launchNs w now ≤ now + rf s (PP_PORT_B (p - 8)) 0 16) &&
      (x.lateSeen || decide (now ≤ launchNs w now + rf s (PP_PORT_B (p - 8)) 16 16))

/-- Conditions of a head frame on a plant port. -/
def plantHead (s : State) (p l f : Nat) (x : Leaf) (h : Frame) (now : Nat) : Bool :=
  let start := startNs s p h now
  let charged := chargedLen s p h.len
  launchReadyNow s x p h now && gateAllows s p (leafClass s l) start charged && launchAllows s p start charged &&
    (!arriving s f || (classPlant s (leafClass s l) && pathEmpty s p l f))

/-- Condition of a leaf under port 12: it is bound to a queue that holds a fetched RX_BUF entry for its head, behind
those that frames chosen before it are to be written to (R193). -/
def ringHead (s : State) (l : Nat) : Bool :=
  match tabFind s.tm.rxBind l with
  | none => false
  | some k => decide ((deliveringOf s k).length < (rxEntries s (k / 2 ^ 20) (k % 2 ^ 20)).length)

/-- A leaf of a port is eligible (R289). -/
def leafEligible (s : State) (p l : Nat) (x : Leaf) (now : Nat) : Bool :=
  bit x.config 16 && shaperEligible x.bucket (tickNow s) &&
  (match x.frames with
   | [] => false
   | f :: _ => match frameOf s f with
     | none => false
     | some h =>
       (match bufOf s h.buf with | some b => b.region != .spill | none => false) &&
       (if 8 ≤ p ∧ p < 12 then plantHead s p l f x h now else !arriving s f && (p != 12 || ringHead s l)))

/-- A class of a network port is paused by the partner (R283). -/
def classPaused (s : State) (p c : Nat) : Bool :=
  let k := fld (classOf s c).config 17 3
  decide (p < 8) && rb s (TM_PORT_C p) (40 + k) && rb s (NP_PORT_CTRL p) (32 + k)

/-- Group and class of a leaf are eligible but for their leaves. -/
def pathEligible (s : State) (p l : Nat) : Bool :=
  let g := leafGroup s l
  let c := groupClass s g
  bit (groupOf s g).config 16 && shaperEligible (groupOf s g).bucket (tickNow s) &&
  bit (classOf s c).config 7 && shaperEligible (classOf s c).bucket (tickNow s) && !classPaused s p c

/-- A port can take a frame. -/
def portEligible (s : State) (p : Nat) : Bool :=
  shaperEligible (portBucket s p) (tickNow s) &&
  (if p < 8 then netUp s p
   else if p < 12 then rb s (PP_PORT_A (p - 8)) 32 && (pairOf s ((p - 8) / 2)).state == .service &&
     (tabFind s.plant.sending (p - 8)).isNone
   else inService s)

/-- The eligible leaves of a port. -/
def eligibleLeaves (s : State) (p now : Nat) : List Nat :=
  (s.tm.leaves.filter (fun e => leafPort s e.1 == p && leafEligible s p e.1 e.2 now && pathEligible s p e.1)).map (fun e => e.1)

/-! ### The choice (R290) -/

/-- The distinct values of a list, in order of first appearance. -/
def distinct : List Nat → List Nat
  | [] => []
  | x :: xs => x :: (distinct xs).filter (fun y => y != x)

/-- The contender after one, in rising order, round to the lowest. -/
def nextContender (cs : List Nat) (cur : Nat) : Nat :=
  match cs.filter (fun c => decide (cur < c)) with
  | [] => cs.foldl min (cs.headD 0)
  | l => l.foldl min (l.headD 0)

/-- Serve the current contender while its deficit lasts; else each next one takes its quantum until one has some. -/
def dwrrRun (cs : List Nat) (quantum : Nat → Nat) : Nat → Dwrr → Dwrr
  | 0, x => x
  | fuel + 1, x =>
    if cs.contains x.cur && decide (0 < deficitOf x x.cur) then x
    else
      let n := nextContender cs x.cur
      dwrrRun cs quantum fuel (setDeficit { x with cur := n } n (deficitOf x n + quantum n))

/-- DWRR among contenders: the state, and the one chosen. -/
def dwrrPick (k : Nat) (cs : List Nat) (weight : Nat → Nat) (s : State) : State × Nat :=
  let x := dwrrRun cs (fun c => 256 * max 1 (weight c)) (40 * cs.length + 1) (dwrrOf s k)
  (putDwrr k x s, x.cur)

/-- Plain round robin among contenders. -/
def rrPick (k : Nat) (cs : List Nat) (s : State) : State × Nat :=
  let x := dwrrOf s k
  let n := nextContender cs x.cur
  (putDwrr k { x with cur := n } s, n)

/-- A path of the tree: class, function, instance, group, leaf. -/
structure Path where
  cls : Nat
  fn : Nat
  inst : Nat
  group : Nat
  leaf : Nat
  deriving DecidableEq, Repr

/-- The choice among eligible leaves of a port. -/
def choosePath (p : Nat) (ls : List Nat) (s : State) : State × Path :=
  let prio (l : Nat) : Nat := fld (classOf s (leafClass s l)).config 4 3
  let top := (ls.map prio).foldl max 0
  let ls := ls.filter (fun l => prio l == top)
  let a := dwrrPick (dwrrKey 0 (16 * p + top)) (distinct (ls.map (leafClass s))) (fun c => fld (classOf s c).config 8 8) s
  let ls := ls.filter (fun l => leafClass s l == a.2)
  let fnOf (l : Nat) : Nat := groupFn (leafGroup s l)
  let b := dwrrPick (dwrrKey 1 a.2) (distinct (ls.map fnOf)) (fun f => rf s TM_FN_WEIGHT (if f = 1 then 0 else 8) 8) a.1
  let ls := ls.filter (fun l => fnOf l == b.2)
  let instOf (l : Nat) : Nat := groupInst s (leafGroup s l)
  let c := rrPick (dwrrKey 2 (4 * a.2 + b.2)) (distinct (ls.map instOf)) b.1
  let ls := ls.filter (fun l => instOf l == c.2)
  let d := dwrrPick (dwrrKey 3 ((4 * a.2 + b.2) * 1024 + c.2)) (distinct (ls.map (leafGroup s)))
    (fun g => fld (groupOf s g).config 24 8) c.1
  let ls := ls.filter (fun l => leafGroup s l == d.2)
  let e := dwrrPick (dwrrKey 4 d.2) (distinct ls) (fun l => fld (leafOf s l).config 24 8) d.1
  (e.1, { cls := a.2, fn := b.2, inst := c.2, group := d.2, leaf := e.2 })

/-- Debit a contender's deficit. -/
def debitDeficit (k c len : Nat) (s : State) : State :=
  let x := dwrrOf s k
  putDwrr k (setDeficit x c (deficitOf x c - len)) s

/-- Debit deficits and shapers along a path (R291). -/
def debitPath (p : Nat) (y : Path) (len : Nat) (s : State) : State :=
  let t := tickNow s
  let s := debitDeficit (classKey s y.cls) y.cls len s
  let s := debitDeficit (dwrrKey 1 y.cls) y.fn len s
  let s := debitDeficit (groupKey s y.group) y.group len s
  let s := debitDeficit (dwrrKey 4 y.group) y.leaf len s
  let s := putLeaf y.leaf { leafOf s y.leaf with bucket := debit (leafOf s y.leaf).bucket t len } s
  let s := putGroup y.group { groupOf s y.group with bucket := debit (groupOf s y.group).bucket t len } s
  let s := putClass y.cls { classOf s y.cls with bucket := debit (classOf s y.cls).bucket t len } s
  putPortBucket p (debit (portBucket s p) t len) s

/-! ### A frame starts (R23, R291, R308, R321, R329) -/

/-- Take the head of a leaf: the next one is judged anew. -/
def popLeaf (l : Nat) (s : State) : State :=
  let s := keepFrames l ((leafOf s l).frames.drop 1) s
  putLeaf l { leafOf s l with launchReady := false, lateSeen := false } s

/-- The frame's generation is no longer its instance's (R291). -/
def staleFrame (s : State) (x : Frame) : Bool :=
  match x.owner with
  | none => false
  | some o => (instOf s o.fn.toNat o.inst.toNat).gen != o.gen

/-- Offset of the EtherType of a frame, untagged or behind one VLAN tag. -/
def ptpType (b : Bytes) : Nat := let t := be b 12 2; if t = 0x8100 ∨ t = 0x88A8 then 16 else 12

/-- The frame carries a PTP event message (R321). -/
def ptpFrame (b : Bytes) : Bool :=
  let o := ptpType b
  let t := be b o 2
  let ip := o + 2
  t == 0x88F7 ||
  (t == 0x0800 && be b ip 1 / 16 == 4 && be b (ip + 9) 1 == 17 && be b (ip + ipv4HeaderLen b ip + 2) 2 == 319) ||
  (t == 0x86DD && be b (ip + 6) 1 == 17 && be b (ip + 42) 2 == 319)

/-- The TX_TIMESTAMP event of a frame (R321). -/
def timestampEvent (p : Nat) (x : Frame) (c : Clock) (s : State) : State :=
  match x.tx with
  | none => s
  | some (fn, fq, idx) =>
    if decide (p < 12) && rb s CK_TS_CTRL p && ptpFrame x.bytes then
      let q := queueOf s fn.toNat fq.toNat
      let body := [0, 0x30] ++ leBytes 2 (c.sec.toNat % 65536) ++ leBytes 4 (localQ s fn.toNat fq.toNat % 2 ^ 20 + p * 2 ^ 20) ++
        leBytes 2 (idx.toNat % ringSize q) ++ leBytes 2 c.frac.toNat ++ leBytes 4 c.ns.toNat
      postEvent fn.toFin (queueEvq s fn.toNat fq.toNat) { source := some (queueKey fn.toNat fq.toNat), body := body } s
    else s

/-- Time of a frame's message timestamp point, the first bit after the SFD, with tx_corr: a launch frame that is in time
leaves at its launch (R321, R329). -/
def txPoint (s : State) (p : Nat) (x : Frame) (cyc : Nat) : Clock :=
  let now := clockNs (clockAt s cyc)
  let straight := clockShift (clockAt s cyc) (preambleTime s p + 65536 * txCorr s p)
  match x.launch with
  | some w => if now ≤ launchStart s p w now then clockOfNs (launchNs w now) else straight
  | none => straight

/-- A frame starts on a network or plant port; `ok` false: it ends with an inverted FCS. -/
def startFrame (p f : Nat) (x : Frame) (ok : Bool) (cyc : Nat) (s : State) : State :=
  let n := x.len + 4
  let s := timestampEvent p x (txPoint s p x cyc) s
  if h : p < 8 then
    freeFrame f (emit (.netFrame ⟨p, h⟩ x.bytes ok) (addStat (NP_TX_OCTETS p) n (addStat (NP_TX_FRAMES p) 1 s)))
  else
    let q := p - 8
    let s := addStat (PP_TX_OCTETS q) n (addStat (PP_TX_FRAMES q) 1 s)
    let now := clockNs (clockAt s cyc)
    let s := match x.launch with
      | some w => if now < launchNs w now then
          let ts := (launchesOf s p).filter (fun t => decide (now < t)) ++ [launchNs w now]
          { s with plant := { s.plant with launching := tabInsert s.plant.launching q ts } } else s
      | none => s
    if arriving s f && ok then
      putFrame f { x with loc := .plant } { s with plant := { s.plant with sending := tabInsert s.plant.sending q f } }
    else freeFrame f (emit (.plantFrame (Fin.ofNat 4 q) x.bytes ok) s)

/-- A frame chosen on port 12 waits to be written to its ring. -/
def toRing (l f : Nat) (s : State) : State :=
  match tabFind s.tm.rxBind l with
  | none => freeFrame f s
  | some k => putDelivering k (deliveringOf s k ++ [f]) s

/-- Errors that a start meets beside its own effect (R23, R31, R506): the state, and whether the frame ends good. -/
def startError (p l : Nat) (err : SchedErr) (s : State) : State × Bool :=
  match err with
  | .underrun => (if p < 8 then addErr (NP_TX_UNDERRUN p) 1 s else if p < 12 then addErr (PP_TX_UNDERRUN (p - 8)) 1 s else s, false)
  | .cell => (arrayError blkTM 0x50 (freeNow s).toNat (useFree s), false)
  | .tokens =>
    let x := leafOf s l
    let b := touch x.bucket (tickNow s)
    (arrayError blkTM 0x18 (32 * l + 0x10) (putLeaf l { x with bucket := { b with tokens := 16 * b.burst.toNat } } s), true)
  | .residueOnce => (tokenResidue .once s, true)
  | .corrected => (correctable FX_CORR_SRAM s, true)
  | _ => (s, true)

/-- Head frames of plant classes that are longer than their gate's longest open interval go (R327). -/
def dropOversize (p : Nat) (s : State) : State :=
  if p < 8 ∨ 11 < p then s else
  s.tm.leaves.foldl (fun s e =>
    match e.2.frames with
    | [] => s
    | f :: _ =>
      if leafPort s e.1 = p ∧ classPlant s (leafClass s e.1) then
        match frameOf s f, longestOpen s (p - 8) (fld (classOf s (leafClass s e.1)).config 26 3) with
        | some x, some d =>
          if 10 * d < chargedLen s p x.len * octetTime s (p - 8) then
            freeFrame f (popLeaf e.1 (addErr (PP_GATE_OVERSIZE (p - 8)) 1 s))
          else s
        | _, _ => s
      else s) s

/-- The chosen head leaves its leaf and starts. -/
def startChosen (p : Nat) (y : Path) (f : Nat) (x : Frame) (err : SchedErr) (cyc : Nat) (s : State) : State :=
  if staleFrame s x then freeFrame f (popLeaf y.leaf (addStat TM_GEN_DISCARD 1 s))
  else
    let r := startError p y.leaf err s
    let s := debitPath p y (chargedLen s p x.len) (popLeaf y.leaf r.1)
    if p < 12 then startFrame p f x r.2 cyc s
    else if r.2 then toRing y.leaf f s else freeFrame f s

/-- An uncorrectable word of the leaf or group node of a path, which is free: the instance whose share holds it is faulted
(R278, R506). -/
def nodeError (y : Path) (s : State) : State :=
  let leaf := (freeNow s).getLsbD 2
  ownerFault (Fin.ofNat 4 y.fn) y.inst (if leaf then 0x18 else 0x19) (32 * (if leaf then y.leaf else y.group) + freeWord s 4)
    true blkTM (useFree s)

/-- SCHEDULE_CHOICE. -/
def scheduleChoice (p : Nat) (err : SchedErr) (cyc : Nat) (s : State) : State :=
  if !portEligible s p then s else
  let s := dropOversize p s
  match eligibleLeaves s p (clockNs (clockAt s cyc)) with
  | [] => s
  | l :: ls =>
    let r := choosePath p (l :: ls) s
    match err with
    | .residueTwice => tokenResidue .twice s
    | .leafNode => nodeError r.2 s
    | .classNode => deviceFault 6 blkTM (32 * r.2.cls + freeWord s 4) (useFree s)
    | .cellList => deviceFault 6 blkTM (freeNow s).toNat (useFree s)
    | _ =>
      match (leafOf s r.2.leaf).frames.head? with
      | none => s
      | some f => match frameOf s f with
        | none => s
        | some x => startChosen p r.2 f x err cyc r.1

/-- SCHEDULE_CHOICE (R290). -/
def execScheduleChoice (port : TmPort) (err : SchedErr) (cyc : Cyc) (s : State) : Res :=
  .next (scheduleChoice port.val err cyc.val s)

/-! ### The sweep (R294) -/

/-- A bucket is touched at a tick. -/
def sweep (b : Bucket) (t : BitVec 32) (s : State) : State :=
  match b with
  | .leaf n => let x := leafOf s n.toNat; putLeaf n.toNat { x with bucket := touch x.bucket t } s
  | .group n => let x := groupOf s n.toNat; putGroup n.toNat { x with bucket := touch x.bucket t } s
  | .cls n => let x := classOf s n.toNat; putClass n.toNat { x with bucket := touch x.bucket t } s
  | .port p => putPortBucket p.val (touch (portBucket s p.val) t) s
  | .meter n => putMeter n.toNat (touchMeter (meterOf s n.toNat) t) s

/-- BUCKET_SWEEP: a bucket is touched; the operation's residue mismatches act as R31 says. -/
def execBucketSweep (b : Bucket × Residue) (s : State) : Res := .next (tokenResidue b.2 (sweep b.1 (tickNow s) s))

/-! ### Priority flow control (R282, R283) -/

/-- PFC_REFRESH: half of 0xFFFF quanta has passed in XOFF since the last PFC for the priority. -/
def execPfcRefresh (port : NPort) (k : Fin 8) (s : State) : Res :=
  let last := tabGet (fun _ => 0) s.tm.pfcSent (8 * port.val + k.val)
  .next (if rb s (TM_PORT_C port.val) (32 + k.val) && timeReached s (last + 65535 * 256 / portRate s)
    then sendPfc port none s else s)

/-- The room of R282 has returned for a priority in XOFF. -/
def xonRoom (s : State) (n k : Nat) : Bool :=
  let m := maxCells s n
  let off := rf s (TM_PORT_B n) 16 16
  let free := sharedSize s - sharedUsed s
  hrUse s n k == 0 && alphaFits (inCount s n k + m + off) (rf s (TM_PORT_B n) 12 4) free && decide (m + off ≤ free)

/-- PFC_XON: the priority returns to XON with a PFC of quanta 0. -/
def execPfcXon (port : NPort) (k : Fin 8) (s : State) : Res :=
  .next (if rb s (TM_PORT_C port.val) (32 + k.val) && xonRoom s port.val k.val
    then sendPfc port (some k.val) (putB (TM_PORT_C port.val) (32 + k.val) false s) else s)

/-- A priority is paused for a number of quanta, or released by none. -/
def pausePrio (n k q : Nat) (s : State) : State :=
  if !rb s (NP_PORT_CTRL n) (32 + k) then s
  else if q = 0 then putB (TM_PORT_C n) (40 + k) false s
  else
    let end_ := nowNs s + (q * 512 + portRate s - 1) / portRate s
    putB (TM_PORT_C n) (40 + k) true { s with tm := { s.tm with pauseEnd := tabInsert s.tm.pauseEnd (8 * n + k) end_ } }

/-- PFC_RECEIVE: counted in every case; the priorities it carries are paused, reloaded or released (R283). -/
def execPfcReceive (port : NPort) (prios : BitVec 8) (quanta : List (BitVec 16)) (s : State) : Res :=
  let n := port.val
  .next (if !netUp s n then s else
    (List.range 8).foldl (fun s k => if prios.getLsbD k then pausePrio n k (quanta.getD k 0).toNat s else s)
      (addStat (TM_PORT_E n) 1 s))

/-- PFC_PAUSE_EXPIRY: a pause has run out. -/
def execPfcPauseExpiry (port : NPort) (k : Fin 8) (s : State) : Res :=
  let n := port.val
  .next (if rb s (TM_PORT_C n) (40 + k.val) && timeReached s (tabGet (fun _ => 0) s.tm.pauseEnd (8 * n + k.val))
    then putB (TM_PORT_C n) (40 + k.val) false s else s)

/-! ### CTL writes (R295, R300, R301) -/

/-- A queue is configured. -/
def configured (q : Queue) : Bool := q.w0 != 0 || q.w1 != 0

/-- A NET queue's binding to its leaf satisfies R288. -/
def bindingOk (s : State) (fn fq : Nat) (q : Queue) : Bool :=
  let l := engineRef q % 2 ^ 20
  let g := leafGroup s l
  groupFn g == fn && groupInst s g == queueInst s fn fq && (if queueKind q = 1 then leafPort s l == 12 else leafPort s l != 12)

/-- A change breaks a binding that holds. -/
def breaksBinding (old new : State) : Bool :=
  old.q.queues.any (fun e =>
    let fn := e.1 / 2 ^ 20
    let fq := e.1 % 2 ^ 20
    decide (queueKind e.2 ≤ 1) && configured e.2 && bindingOk old fn fq e.2 && !bindingOk new fn fq e.2)

/-- A write of opcodes 0xA0 to 0xA3: PF0 instance 0 only, no group member, then its own check and effect (R300, R301). -/
def tmWrite (op cq : Nat) (err : Residue) (run : Bytes → State → State × Nat) (s : State) : State :=
  adminRun op cq (fun e s =>
    if groupMember e then ctlFinish cq e 0x04A0 s
    else let r := run e.desc s; tokenResidue err (ctlFinish cq e r.2 r.1)) s

/-- Free every frame of a leaf, counted in its class. -/
def flushLeaf (l : Nat) (s : State) : State :=
  let fs := (leafOf s l).frames
  fs.foldl (fun s f => freeFrame f s) (keepFrames l [] (addStat (TM_CLASS_CNT_B (leafClass s l)) fs.length s))

/-- TM_LEAF_WRITE. -/
def leafWrite (d : Bytes) (s : State) : State × Nat :=
  let l := lef d 0x10 0 20
  let flush := lef d 0x10 20 1 == 1
  let x := leafOf s l
  let w := leWord d 0x18
  let moved := fld w 0 16 != leafGroup s l
  let s' := if flush then flushLeaf l s else s
  let y := leafOf s' l
  let t := putLeaf l { y with config := w, bucket := acceptShaper y.bucket (tickNow s) (leWord d 0x20) } s'
  if moved && (!flush && !x.frames.isEmpty || breaksBinding s t) then (s, 0x04A2) else (t, 0)

/-- TM_LEAF_WRITE (R300). -/
def execTmLeafWrite (cq : BitVec 20 × Residue) (s : State) : Res := .next (tmWrite 0xA0 cq.1.toNat cq.2 leafWrite s)

/-- TM_GROUP_WRITE. -/
def groupWrite (d : Bytes) (s : State) : State × Nat :=
  let g := lef d 0x10 0 16
  let x := groupOf s g
  let w := leWord d 0x18
  let t := putGroup g { x with config := w, bucket := acceptShaper x.bucket (tickNow s) (leWord d 0x20) } s
  if fld w 0 9 != groupClass s g && (anyFrames s (fun l => leafGroup s l == g) || breaksBinding s t) then (s, 0x04A2) else (t, 0)

/-- TM_GROUP_WRITE (R300). -/
def execTmGroupWrite (cq : BitVec 20 × Residue) (s : State) : Res := .next (tmWrite 0xA1 cq.1.toNat cq.2 groupWrite s)

/-- TM_CLASS_WRITE. -/
def classWrite (d : Bytes) (s : State) : State × Nat :=
  let c := lef d 0x10 0 9
  let x := classOf s c
  let w := leWord d 0x18
  let p := fld w 0 4
  let t := putClass c { x with config := w, bucket := acceptShaper x.bucket (tickNow s) (leWord d 0x20) } s
  if 12 < p ∨ (bit w 21 ∧ (p < 8 ∨ 11 < p)) ∨ (bit w 16 ∧ 7 < p) then (s, 0x04A1)
  else if p != classPort s c && (anyFrames s (fun l => leafClass s l == c) || breaksBinding s t) then (s, 0x04A2) else (t, 0)

/-- TM_CLASS_WRITE (R300). -/
def execTmClassWrite (cq : BitVec 20 × Residue) (s : State) : Res := .next (tmWrite 0xA2 cq.1.toNat cq.2 classWrite s)

/-- TM_METER_WRITE. -/
def meterWrite (d : Bytes) (s : State) : State × Nat :=
  let n := lef d 0x10 0 18
  let x := meterOf s n
  let t := tickNow s
  let rate (o : Nat) : BitVec 24 := BitVec.ofNat 24 (le d o 3)
  let y : Meter := { config := leWord d 0x18, cWord := leWord d 0x20, pWord := leWord d 0x28,
                     c := acceptValues (touchMeter x t).c t true (rate 0x20) (rate 0x24),
                     p := acceptValues (touchMeter x t).p t true (rate 0x28) (rate 0x2C), fill := lef d 0x10 18 1 == 1 }
  (putMeter n y s, 0)

/-- TM_METER_WRITE (R300). -/
def execTmMeterWrite (cq : BitVec 20 × Residue) (s : State) : Res := .next (tmWrite 0xA3 cq.1.toNat cq.2 meterWrite s)

/-- A write of TM_BUF_CTRL (R302). -/
def bufCtrlWrite (v : Word) (s : State) : State :=
  let o := TM_BUF_CTRL
  let s := if bit v 37 then putB o 37 false s else s
  let s := putF o 4 17 (fld v 4 17) s
  let s := if rb s o 0 || spillBytes s != 0 then putB o 37 true s
    else putF o 32 5 (fld v 32 5) (putF o 24 4 (fld v 24 4) s)
  let gib := min 8 (rf s o 24 4)
  if !bit v 0 then putB o 0 false s
  else if gib = 0 ∨ 30 < rf s o 32 5 + gib then putB o 37 true s
  else putB o 0 true s

/-- BUF_CTRL_WRITE (R302). -/
def execBufCtrlWrite (v : BitVec 64) (s : State) : Res := .next (setupWrite s (bufCtrlWrite v))

end Sys2Proof.Machine
end

