-- ==== Sys2Proof/Machine/Plant.lean ====
section
/-! DEFINITION. Plant ports and the plant pipeline, gate schedules, launch times, takeover, the cyclic image engine (11). -/
namespace Sys2Proof.Machine

/-! ### Receipt (R306, R307, R330) -/

/-- A plant port takes the frame into the plant pipeline: it is up, and its pair does not leave the frame to the bypass. -/
def plantTakes (s : State) (q : Nat) (t : Nat) : Bool :=
  rb s (PP_PORT_A q) 32 &&
  (match (pairOf s (q / 2)).state with
   | .taking => decide ((pairOf s (q / 2)).takeAt ≤ t)
   | _ => true)

/-- Add a frame to those whose last bit has not arrived. -/
def addRx (r : PlantRx) (s : State) : State := { s with plant := { s.plant with rx := s.plant.rx ++ [r] } }

/-- PLANT_FRAME_RECEIVE: admitted and left for dealing; its last bit comes later. -/
def plantReceive (q : Nat) (frame : Bytes) (overflow : Bool) (cyc : Nat) (s : State) : State :=
  let t := clockShift (clockAt s cyc) (-(65536 * rxCorr s (8 + q)))
  if !plantTakes s q (clockNs t) then s
  else if overflow then addErr (PP_RX_OVERFLOW q) 1 s
  else
    let octets := frame.length + 4
    let s := addStat (PP_RX_OCTETS q) octets (addStat (PP_RX_FRAMES q) 1 s)
    if maxFrame s (8 + q) < octets then s else
    let buf := s.tm.nextBuf
    let r := admitIngress (8 + q) frame s
    if !r.2 then r.1 else
    let a := addFrame (rxFrame s frame true 4 q 4 t t buf) r.1
    let rx : PlantRx := { frame := a.2, port := Fin.ofNat 4 q, ended := none, released := false, handoff := none,
                          deposit := none, learns := false, recovered := none, copies := [] }
    plantDeal 8 (queueFrame 4 (plantSrc q) a.2 (addRx rx a.1))

/-- PLANT_FRAME_RECEIVE (R307). -/
def execPlantFrameReceive (port : PPort) (frame : Bytes) (overflow : Bool) (cyc : Cyc) (s : State) : Res :=
  .next (plantReceive port.val frame overflow cyc.val s)

/-! ### The plant chain (R309 to R318) -/

/-- A stream entry's fields (R311). -/
structure StreamAct where
  filter : Option Nat
  handle : Nat
  cb : Nat
  strip : Bool
  disp : Nat
  pipeline : Nat
  staFwd : Bool
  sink : Bool
  leaf : Nat
  rxMap : Nat
  leaf2 : Option Nat
  bd : Nat
  deriving DecidableEq, Repr

/-- Read a stream entry. -/
def streamAct (e : Bytes) : StreamAct :=
  let a := leWord e 0x10
  let b := leWord e 0x18
  { filter := if bit a 10 then some (fld a 0 10) else none, handle := fld a 11 10, cb := fld a 21 2, strip := bit a 23,
    disp := fld a 24 2, pipeline := fld a 26 2, staFwd := bit a 28, sink := bit a 29, leaf := fld a 32 20, rxMap := fld a 52 12,
    leaf2 := if bit b 20 then some (fld b 0 20) else none, bd := fld b 32 14 }

/-- The miss disposition (R345). -/
def missAct (s : State) : StreamAct :=
  let c := getReg s PP_PLANT_CTRL
  { filter := none, handle := 0, cb := 0, strip := false,
    disp := match fld c 0 2 with | 1 => 1 | 2 => 0 | _ => 2, pipeline := fld c 2 2, staFwd := false, sink := false,
    leaf := fld c 4 20, rxMap := 0, leaf2 := none, bd := 0 }

/-- Stream key of a frame (R310). -/
def streamKey (x : Frame) : Bytes := BitVec.ofNat 8 (8 + x.port.toNat) :: slice x.record 0x50 12

/-- Add to a counter of a filter: 0 matching, 1 passing, 2 sdu_drop, 3 gate_drop, 4 meter_drop (R316). -/
def countFilter (f c : Nat) (s : State) : State :=
  let v := tabGet (fun _ => (0 : Word)) s.plant.filterCounts (8 * f + c)
  { s with plant := { s.plant with filterCounts := tabSet (fun _ => (0 : Word)) s.plant.filterCounts (8 * f + c) (v + 1) } }

/-- The filter of a frame: true when it passes (R316). -/
def runFilter (f : Nat) (x : Frame) (s : State) : State × Bool :=
  let w := tabGet (fun _ => (0 : Word)) s.plant.filters f
  if !bit w 0 then (s, true) else
  let s := countFilter f 0 s
  if bit w 29 then (s, false)
  else if fld w 32 16 ≠ 0 ∧ fld w 32 16 < x.len then
    let s := countFilter f 2 s
    if bit w 27 then
      ({ s with plant := { s.plant with filters := tabSet (fun _ => (0 : Word)) s.plant.filters f (setBit w 29 true) } }, false)
    else (s, false)
  else if bit w 1 && !(statesAt s (4 + fld w 2 6) (clockNs x.rxTime)).testBit 0 then (countFilter f 3 s, false)
  else if bit w 8 then
    let r := useMeter (fld w 9 18) x.len 0 s
    if r.2.1 = 2 ∨ (r.2.1 = 1 ∧ bit w 28) then (countFilter f 4 r.1, false) else (countFilter f 1 r.1, true)
  else (countFilter f 1 s, true)

/-- A CB function. -/
def cbOf (s : State) (h : Nat) : CbFn := tabGet (fun _ => CbFn.empty) s.plant.cb h
/-- Set a CB function. -/
def putCb (h : Nat) (x : CbFn) (s : State) : State :=
  { s with plant := { s.plant with cb := tabSet (fun _ => CbFn.empty) s.plant.cb h x } }

/-- History length in force (R528). -/
def cbHistory (x : CbFn) : Nat := max 1 (min 32 x.history.toNat)

/-- Reset of a recovery function: any number passes next (R317, R528). -/
def cbReset (x : CbFn) : CbFn := { x with recHigh := 0, recVector := 0, takeAny := true, resets := x.resets + 1 }

/-- A numbered frame meets its recovery function (R317): the vector recovery algorithm of IEEE 802.1CB. -/
def cbRecover (h seq : Nat) (s : State) : State × Bool :=
  let x := cbOf s h
  let len := cbHistory x
  let d := signed 16 (seq + 65536 - x.recHigh.toNat)
  let pass (y : CbFn) : State × Bool := (putCb h { y with passed := y.passed + 1, lastPass := s.ticks } s, true)
  if x.takeAny then pass { x with takeAny := false, recHigh := BitVec.ofNat 16 seq, recVector := 1 }
  else if (len : Int) ≤ d ∨ d ≤ -(len : Int) then (putCb h { x with rogue := x.rogue + 1 } s, false)
  else if d ≤ 0 then
    let i := (-d).toNat
    if x.recVector.getLsbD i then (putCb h { x with discarded := x.discarded + 1 } s, false)
    else pass { x with recVector := x.recVector ||| BitVec.ofNat 32 (2 ^ i) }
  else pass { x with recHigh := BitVec.ofNat 16 seq, recVector := BitVec.ofNat 32 (x.recVector.toNat * 2 ^ d.toNat + 1) }

/-- The number of a frame whose FCS proved bad goes from the history (R318). -/
def cbForget (h : Nat) (seq : BitVec 16) (s : State) : State :=
  let x := cbOf s h
  let i := (x.recHigh - seq).toNat
  if 32 ≤ i then s else putCb h { x with recVector := x.recVector &&& ~~~ BitVec.ofNat 32 (2 ^ i) } s

/-- The next number of a generation function (R317). -/
def cbGenerate (h : Nat) (s : State) : State × Nat :=
  let x := cbOf s h
  (putCb h { x with genNext := x.genNext + 1 } s, x.genNext.toNat)

/-- An R-TAG of a sequence number. -/
def rTag (seq : Nat) : Bytes := [0xF1, 0xC1, 0, 0] ++ beBytes 2 seq

/-- The frame carries an R-TAG, by uflags bit 0 (R310). -/
def hasRTag (x : Frame) : Bool := (be x.record 4 2).testBit 0

/-- Stages 3 and 4: recovery or generation, and the plant editor (R309, R317): the frame's bytes, if it passes, and the
number its recovery function passed. -/
def cbStage (a : StreamAct) (x : Frame) (s : State) : State × Option Bytes × Option (Nat × Nat) :=
  let o := be x.record 0x5E 1
  match a.cb with
  | 1 =>
    if !hasRTag x then
      let y := cbOf s a.handle
      (putCb a.handle { y with tagless := y.tagless + 1 } s, some x.bytes, none)
    else
      let seq := be x.record 0x5C 2
      let r := cbRecover a.handle seq s
      if r.2 then (r.1, some (if a.strip then deleteBytes x.bytes o 6 else x.bytes), some (a.handle, seq)) else (r.1, none, none)
  | 2 => let g := cbGenerate a.handle s; (g.1, some (insertBytes x.bytes o (rTag g.2)), none)
  | _ => (s, some x.bytes, none)

/-- Leaf of a forward: by the station table when the entry asks for it (R313). -/
def plantLeaf (s : State) (a : StreamAct) (key : Bytes) (x : Frame) : Nat :=
  if !a.staFwd then a.leaf else
  let mac := BitVec.ofNat 48 (be key 1 6)
  let bd := BitVec.ofNat 14 a.bd
  match (staSlots s 4 mac bd).find? (fun n => let e := entryAt s .station 4 n x.epoch; staValid e && staIs e mac bd) with
  | none => a.leaf
  | some n =>
    let port := lef (entryAt s .station 4 n x.epoch) 8 0 4
    if 8 ≤ port ∧ port ≤ 11 ∧ port ≠ 8 + x.port.toNat then (a.leaf + (port - 8)) % 2 ^ 20 else a.leaf

/-- Change what is known of a frame that arrives. -/
def mapRx (f : Nat) (g : PlantRx → PlantRx) (s : State) : State :=
  { s with plant := { s.plant with rx := s.plant.rx.map (fun r => if r.frame == f then g r else r) } }

/-- Copies of a released frame go to its leaves (R311): the state and the copies' numbers. -/
def plantCopies (f : Nat) (b : Bytes) (ls : List Nat) (s : State) : State × List Nat :=
  ls.foldl (fun (r : State × List Nat) l => (enqueueCopy l f b r.1, r.2 ++ [r.1.pipe.nextFrame])) (s, [])

/-- A released frame passes the fixed chain (R309). A frame that a stage drops still asks for a learn. -/
def plantChain (f : Nat) (x : Frame) (ecc : Ecc) (s : State) : State :=
  let key := streamKey x
  let hit := streamLookup s key x.epoch
  let s := mapRx f (fun r => { r with learns := true }) s
  if ecc = .bad then
    let n := match hit with | some e => e.1 | none => (streamSlots key).headD 0
    arrayError blkPP 0x28 (32 * n) s
  else
    let s := eccCount true ecc s
    let a := match hit with | some e => streamAct e.2 | none => missAct s
    let r := match a.filter with | some n => runFilter n x s | none => (s, true)
    if !r.2 then r.1 else
    let c := cbStage a x r.1
    match c.2.1 with
    | none => c.1
    | some b =>
      let s := recount f (putFrame f { x with bytes := b } c.1)
      let ls := if a.disp = 0 then plantLeaf s a key x :: a.leaf2.toList else []
      let y := plantCopies f b ls s
      mapRx f (fun r => { r with
        handoff := if a.disp = 1 then some (BitVec.ofNat 2 a.pipeline) else none,
        deposit := if a.disp = 3 ∨ a.sink then some (BitVec.ofNat 12 a.rxMap) else none,
        recovered := c.2.2.map (fun h => (BitVec.ofNat 10 h.1, BitVec.ofNat 16 h.2)), copies := y.2 }) y.1

/-! ### The last bit (R308, R312, R313, R318, R339) -/

/-- A deposit by a receive map entry (R339): bytes of the frame inside it go into the back buffer of the RX image. -/
def depositBytes (m : Nat) (b : Bytes) (s : State) : State :=
  let w := tabGet (fun _ => (0 : Word)) s.plant.rxMap m
  let i := fld w 0 12
  let x := imageOf s i
  if !imageEngineOn s || !imageLive x true then s else
  let off := fld w 16 16
  let dest := fld w 32 16
  let n := min (fld w 48 16) (min (b.length - off) (imageLen x - dest))
  writeBack i dest (slice b off n) (putImage i { x with depositsBack := x.depositsBack + 1 } s)

/-- Plant port of the image a receive map entry names. -/
def mapPort (s : State) (m : Nat) : Nat := imagePort (imageOf s (fld (tabGet (fun _ => (0 : Word)) s.plant.rxMap m) 0 12))

/-- A frame of a later cycle waits, to deposit, for the flip of the boundary before it. -/
def depositWaits (s : State) (m : Nat) (x : Frame) : Bool :=
  match tabFind s.plant.rxBoundary (mapPort s m) with
  | none => false
  | some b => decide (b ≤ clockNs x.rxTime)

/-- A hand-off copy goes to the hand-off source of its bulk pipeline, with the plant record left behind (R312). -/
def handOff (pl : Nat) (x : Frame) (s : State) : State :=
  let n := s.pipe.nextFrame
  let s := match bufOf s x.buf with
    | none => s
    | some b => putBuf x.buf { b with users := b.users + 1 } s
  let y := { x with source := 3, src0 := 3, pass := 0, pl := BitVec.ofNat 3 pl, loc := .waiting, record := [],
                    mdata := List.replicate 64 0, result := .pending, disp := .none }
  queueFrame pl 10 n (putFrame n y { s with pipe := { s.pipe with nextFrame := n + 1 } })

/-- A frame that arrives is known whole and done with. -/
def dropRx (f : Nat) (s : State) : State :=
  { s with plant := { s.plant with rx := s.plant.rx.filter (fun r => r.frame != f) } }

/-- What waits for the last bit of a released frame with a good FCS. A deposit may have to wait for its flip. -/
def settleGood (r : PlantRx) (s : State) : State :=
  match frameOf s r.frame with
  | none => dropRx r.frame s
  | some x =>
    if x.loc ≠ .plant then dropRx r.frame s else
    let s := if r.learns then requestLearn x s else s
    let s := match r.handoff with | some pl => handOff pl.toNat x s | none => s
    match r.deposit with
    | none => dropRx r.frame (freeFrame r.frame s)
    | some m =>
      if depositWaits s m.toNat x then
        mapRx r.frame (fun y => { y with handoff := none, learns := false }) s
      else dropRx r.frame (freeFrame r.frame (depositBytes m.toNat x.bytes s))

/-- The egress that sends a copy ends it: with its FCS, or inverted and counted (R308). -/
def endCopy (f : Nat) (ok : Bool) (s : State) : State :=
  match s.plant.sending.find? (fun e => e.2 == f) with
  | none => s
  | some (q, _) =>
    let b := match frameOf s f with | some x => x.bytes | none => []
    let s := if ok then s else addErr (PP_TX_FCS_CUT q) 1 s
    endSending q (emit (.plantFrame (Fin.ofNat 4 q) b ok) s)

/-- A copy not started is freed (R308). -/
def freeCopy (f : Nat) (s : State) : State :=
  match frameOf s f with
  | none => s
  | some x =>
    match x.loc with
    | .leaf => purgeFrame f s
    | .plant => freeFrame f s
    | _ => s

/-- A released frame proves to have a bad FCS. -/
def settleBad (r : PlantRx) (s : State) : State :=
  let s := match r.recovered with | some (h, n) => cbForget h.toNat n s | none => s
  let s := (r.copies ++ [r.frame]).foldl (fun s f => freeCopy f (endCopy f false s)) s
  dropRx r.frame s

/-- A released frame whose last bit has come. -/
def settleRx (r : PlantRx) (ok : Bool) (s : State) : State :=
  if ok then settleGood r ((r.copies ++ [r.frame]).foldl (fun s f => endCopy f true s) s) else settleBad r s

/-- PLANT_FRAME_END: the last bit of the frame that the port receives. A bad FCS is counted once; one that is found
before the release is dropped then. -/
def plantEnd (q : Nat) (ok : Bool) (cyc : Nat) (s : State) : State :=
  match s.plant.rx.find? (fun r => r.port.val == q && r.ended.isNone) with
  | none => s
  | some r =>
    let s := if ok then s else addErr (PP_RX_FCS_ERR q) 1 s
    let s := match frameOf s r.frame with
      | some x => putFrame r.frame { x with fcsOk := ok, endTime := clockAt s cyc } s
      | none => s
    let s := mapRx r.frame (fun y => { y with ended := some ok }) s
    plantDeal 8 (if r.released then settleRx { r with ended := some ok } ok s else s)

/-- PLANT_FRAME_END (R308). -/
def execPlantFrameEnd (port : PPort) (fcsOk : Bool) (cyc : Cyc) (s : State) : Res := .next (plantEnd port.val fcsOk cyc.val s)

/-- PLANT_RELEASE: the oldest reorder entry of a port, once its parse is done (R308). -/
def plantRelease (q : Nat) (ecc : Ecc) (s : State) : State :=
  let src := srcOf s 4 (plantSrc q)
  match src.rob with
  | [] => s
  | f :: rest =>
    match frameOf s f, s.plant.rx.find? (fun r => r.frame == f) with
    | some x, some r =>
      if x.result = .pending then s else
      let s := putSrc 4 (plantSrc q) { src with rob := rest } s
      if r.ended = some false then plantDeal 8 (advanceRetired 4 (dropRx f (freeFrame f s))) else
      let x := { x with loc := .plant, record := splice x.record 0 (beBytes 2 x.len) }
      let s := mapRx f (fun y => { y with released := true }) (putFrame f x s)
      let s := match x.result with
        | .malformed reason => malformedAction 4 f reason.toNat s
        | _ => plantChain f x ecc s
      let s := advanceRetired 4 s
      plantDeal 8 (match r.ended, s.plant.rx.find? (fun y => y.frame == f) with
        | some ok, some y => settleRx y ok s
        | _, _ => s)
    | _, _ => putSrc 4 (plantSrc q) { src with rob := rest } s

/-- PLANT_RELEASE (R308). -/
def execPlantRelease (port : PPort) (ecc : Ecc) (s : State) : Res := .next (plantRelease port.val ecc s)

/-! ### Gate schedules (R325, R326) -/

/-- GATE_INTERVAL_END: the next interval of the cycle applies. -/
def execGateIntervalEnd (n : Fin 68) (s : State) : Res :=
  let x := schedOf s n.val
  let l := operIntervals x
  .next (match x.pos with
    | none => s
    | some p => match l[p + 1]? with
      | none => s
      | some e => if timeReached s x.posEnd then putSched n.val { x with pos := some (p + 1), posEnd := x.posEnd + e.2 } s else s)

/-- Largest list of a block. -/
def schedLimit (n : Nat) : Nat := if n < 4 then 1024 else 256

/-- The admin parameters and list, as a set (R326, R346). -/
def adminSet (s : State) (n : Nat) : SchedSet :=
  { base := rf s (PP_SCHED_A n) 0 48 * 1000000000 + rf s (PP_SCHED_B n) 0 30,
    cycle := min 1000000000 (rf s (PP_SCHED_B n) 32 32),
    list := (List.range (rf s (PP_SCHED_C n) 0 11)).map (fun i => tabGet (fun _ => (0 : Word)) (schedOf s n).admin i) }

/-- The first base + k × cycle at or after a time (R326). -/
def firstStart (o : SchedSet) (c : Nat) : Nat :=
  if c ≤ o.base then o.base else o.base + (c - o.base + o.cycle - 1) / o.cycle * o.cycle

/-- SCHEDULE_CHANGE: the admin set becomes pending, or the change is refused. -/
def scheduleChange (n cyc : Nat) (s : State) : State :=
  let o := adminSet s n
  if schedLimit n < rf s (PP_SCHED_C n) 0 11 ∨ o.cycle < 1000 then putB (PP_SCHED_C n) 35 true s
  else
    let c := max (rf s (PP_SCHED_D n) 0 48 * 1000000000 + rf s (PP_SCHED_E n) 0 30) (clockNs (clockAt s cyc) + 10000)
    recheckArmed (putB (PP_SCHED_C n) 34 true (putSched n { schedOf s n with pending := some (o, firstStart o c) } s))

/-- SCHEDULE_CHANGE (R326). -/
def execScheduleChange (n : Fin 68) (cyc : Cyc) (s : State) : Res := .next (setupWrite s (scheduleChange n.val cyc.val))

/-- SCHEDULE_SWITCH: at S the pending set becomes the oper set, whose first cycle then starts. A step that has passed S
places the new set afresh (R328). -/
def scheduleSwitch (n : Nat) (s : State) : State :=
  let x := schedOf s n
  match x.pending with
  | none => s
  | some (o, at_) =>
    if !timeReached s at_ then s else
    let y := { x with pending := none, oper := some o, past := (at_, x.oper) :: x.past }
    let y := if at_ < clockNs s.clk then placeSched y (clockNs s.clk) else { placeSched y at_ with next := at_ }
    putF (PP_SCHED_F n) 0 32 o.cycle (putB (PP_SCHED_C n) 33 true (putB (PP_SCHED_C n) 34 false (putSched n y s)))

/-- SCHEDULE_SWITCH (R326). -/
def execScheduleSwitch (n : Fin 68) (s : State) : Res := .next (scheduleSwitch n.val s)

/-! ### Cycle starts: images, frames, the watchdog (R334, R337 to R339) -/

/-- An IMG_PUT into an image is in progress. -/
def putInProgress (s : State) (i : Nat) : Bool :=
  s.q.queues.any (fun e => decide (3 * 2 ^ 20 ≤ e.1) && queueKind e.2 == 5 &&
    e.2.entries.any (fun y => y.phase == .started && y.op == 0x60 && lef y.desc 0x18 0 12 == i))

/-- Images of a port, enabled, in a direction. -/
def imagesOf (s : State) (q : Nat) (rx : Bool) : List Nat :=
  (s.plant.images.filter (fun e => imageLive e.2 rx && imagePort e.2 == q)).map (fun e => e.1)

/-- A TX image flips at a boundary, if it is fresh and no IMG_PUT into it is in progress (R337). -/
def flipTx (b i : Nat) (s : State) : State :=
  let x := imageOf s i
  if x.fresh && !putInProgress s i then
    putImage i { x with front := !x.front, fresh := false, flips := x.flips + 1, frontTime := time64 (clockOfNs b),
                        shown := true } s
  else s

/-- An RX image flips: its deposits travel with the buffer (R339). -/
def flipRx (b i : Nat) (s : State) : State :=
  let x := imageOf s i
  putImage i { x with front := !x.front, flips := x.flips + 1, frontTime := time64 (clockOfNs b),
                      depositsFront := x.depositsBack, depositsBack := 0, shown := true } s

/-- A frame stamped before a boundary may still deposit into an image of a port. -/
def depositsOwed (s : State) (q b : Nat) : Bool :=
  s.plant.rx.any (fun r =>
    (match frameOf s r.frame with | some x => decide (clockNs x.rxTime < b) | none => false) &&
    (!r.released || (match r.deposit with | some m => mapPort s m.toNat == q | none => false)))

/-- Every RX image of a port flips, and deposits that waited for the flip are made. -/
def flipRxPort (q : Nat) (s : State) : State :=
  match tabFind s.plant.rxBoundary q with
  | none => s
  | some b =>
    let s := (imagesOf s q true).foldl (fun s i => flipRx b i s) s
    let s := { s with plant := { s.plant with rxBoundary := tabErase s.plant.rxBoundary q } }
    let late := s.plant.rx.filter (fun r => r.released && r.ended == some true &&
      (match r.deposit with | some m => mapPort s m.toNat == q | none => false))
    late.foldl (fun s r => settleGood r s) s

/-- RX_IMAGE_FLIP (R339). -/
def execRxImageFlip (port : PPort) (s : State) : Res :=
  .next (match tabFind s.plant.rxBoundary port.val with
    | none => s
    | some b => if depositsOwed s port.val b then s else flipRxPort port.val s)

/-- Changed frame-table entries whose image has the port's boundary take effect (R338). -/
def applyFrames (q : Nat) (s : State) : State :=
  let on (w : Word) : Bool := imagePort (imageOf s (fld w 19 12)) == q
  s.plant.framesNew.foldl (fun s e =>
    let old := tabGet (fun _ => ((0, 0) : Word × Word)) s.plant.frames e.1
    if on e.2.1 || on old.1 then
      { s with plant := { s.plant with frames := tabSet (fun _ => ((0, 0) : Word × Word)) s.plant.frames e.1 e.2,
                                       framesNew := tabErase s.plant.framesNew e.1 } }
    else s) s

/-- Payload bytes of a built frame, from the image's front buffer; what lies past its 64 KiB is free (R338). -/
def payloadBytes (s : State) (i off n : Nat) : Bytes :=
  (List.range n).map (fun k =>
    if off + k < 65536 then memByte s.dram (imageAddr s i (imageOf s i).front (off + k)) else Config.freeByte (s.freeCtr + k))

/-- Bytes of an image template. -/
def templateBytes (s : State) (n : Nat) : Bytes := slice (tabGet (fun _ => []) s.plant.templates n) 0 64

/-- Template bytes a frame-table entry uses. -/
def templateLen (w0 : Word) : Nat := max 14 (min 64 (fld w0 2 7))

/-- Port whose max_frame bounds a built frame: that of its leaf, or of its image where the leaf feeds no plant port. -/
def buildPort (s : State) (l i : Nat) : Nat :=
  let p := leafPort s l
  if 8 ≤ p ∧ p ≤ 11 then p - 8 else imagePort (imageOf s i)

/-- A frame of the frame table is built and enqueued as a launch frame at B + launch_off (R338). -/
def buildFrame (b : Nat) (w : Word × Word) (s : State) : State :=
  let i := fld w.1 19 12
  let l := fld w.2 0 20
  let q := buildPort s l i
  let n := templateLen w.1
  let len := n + (if bit w.1 1 then 6 else 0) + fld w.1 48 16
  if maxFrame s (8 + q) - 4 < max 60 len then addErr (PP_GATE_OVERSIZE q) 1 s
  else
    let t := (templateBytes s (fld w.2 20 10)).take n
    let g := if bit w.1 1 then (let r := cbGenerate (fld w.1 9 10) s; (r.1, rTag r.2)) else (s, [])
    let pay := payloadBytes g.1 i (fld w.1 32 16) (fld w.1 48 16)
    let bytes := padFrame (insertBytes t (n - 2) g.2 ++ pay)
    let s := { g.1 with freeCtr := g.1.freeCtr + pay.length }
    let buf := s.tm.nextBuf
    let s := freshBuf bytes.length s
    let x := rxFrame s bytes true 4 q 4 (clockOfNs b) (clockOfNs b) buf
    let x := { x with loc := .leaf, result := .committed, launch := some (time64 (clockOfNs (b + fld w.2 32 32))) }
    let a := addFrame x s
    enqueueOrDrop l a.2 a.1

/-- An image buffer word under a run of an image's front buffer cannot be corrected: it is reported (R506). Which word it
is the run does not say. -/
def imageWordError (i off n : Nat) (s : State) : State :=
  let at_ := imageAddr s i (imageOf s i).front (off + (freeNow s).toNat % max 1 n) - imageAddr s 0 false 0
  arrayError blkIG 0x52 (8 * (at_ / 8)) (useFree s)

/-- The frames of the cycle that starts at a boundary, in table order (R338). `ecc` is what reading the image for the
frame-table entry `bad` meets: a frame whose image word cannot be corrected is not built (R506). -/
def buildFrames (q b bad : Nat) (ecc : Ecc) (s : State) : State :=
  s.plant.frames.foldl (fun s e =>
    let i := fld e.2.1 19 12
    let x := imageOf s i
    if !(bit e.2.1 0 && imageLive x false && imagePort x == q) then s
    else if e.1 = bad ∧ ecc = .bad then imageWordError i (fld e.2.1 32 16) (fld e.2.1 48 16) s
    else buildFrame b e.2 (if e.1 = bad then eccCount true ecc s else s)) s

/-- A watched image flips at the boundary: it has, or it will when the cycle start of its own port at the same time is
carried out. -/
def flippedAt (s : State) (b i : Nat) (x : Image) : Bool :=
  (x.shown && x.frontTime == time64 (clockOfNs b)) ||
  (imageEngineOn s && x.fresh && !putInProgress s i &&
    (schedOf s (imagePort x)).oper.isSome && (schedOf s (imagePort x)).next == b)

/-- The watchdog's check at a cycle start of the lower port (R334). -/
def watchdog (p b : Nat) (s : State) : State :=
  let run := match (pairOf s p).state with | .taking | .service => decide ((pairOf s p).takeAt ≤ b) | _ => false
  if !run then s
  else if s.plant.images.all (fun e => !watched p e.2 || flippedAt s b e.1 e.2) then putF (PP_PAIR_C p) 32 8 0 s
  else
    let miss := min 255 (rf s (PP_PAIR_C p) 32 8 + 1)
    let s := putF (PP_PAIR_C p) 32 8 miss s
    if miss < max 1 (rf s (PP_PAIR_C p) 8 8) then s
    else
      let s := addErr (PP_PAIR_D p) 1 (bypassPair p 0x0A (clockOfNs b) s)
      postLog logPairBypass 0 blkPP (BitVec.ofNat 64 p) (BitVec.ofNat 64 (rf s (PP_PAIR_D p) 0 32)) s

/-- The image engine at a boundary of a port: TX flips, frame-table changes, frames, and RX flips that become due. -/
def imageBoundary (q b bad : Nat) (ecc : Ecc) (s : State) : State :=
  if !imageEngineOn s then s else
  let s := flipRxPort q s
  let s := (imagesOf s q false).foldl (fun s i => flipTx b i s) s
  let s := buildFrames q b bad ecc (applyFrames q s)
  { s with plant := { s.plant with rxBoundary := tabInsert s.plant.rxBoundary q b } }

/-- The schedule of a block at a cycle start. -/
def startCycle (x : Sched) (o : SchedSet) : Sched :=
  let b := x.next
  match operIntervals x with
  | [] => { x with start := b, next := b + o.cycle, pos := none, posEnd := b + o.cycle }
  | e :: _ => { x with start := b, next := b + o.cycle, pos := some 0, posEnd := b + e.2 }

/-- CYCLE_START: a cycle of the oper schedule begins; for a plant port it is the image engine's boundary, and for the
lower port of a pair the watchdog's check. -/
def cycleStart (n bad : Nat) (ecc : Ecc) (s : State) : State :=
  let x := schedOf s n
  match x.oper with
  | none => s
  | some o =>
    let waits := match x.pending with | some (_, at_) => decide (at_ ≤ x.next) | none => false
    if !timeReached s x.next || waits then s else
    let b := x.next
    let s := putF (PP_SCHED_F n) 32 32 (rf s (PP_SCHED_F n) 32 32 + 1) (putSched n (startCycle x o) s)
    if 4 ≤ n then s else
    let s := imageBoundary n b bad ecc s
    if n % 2 = 0 then watchdog (n / 2) b s else s

/-- CYCLE_START (R325). -/
def execCycleStart (n : Fin 68 × BitVec 13 × Ecc) (s : State) : Res :=
  .next (cycleStart n.1.val n.2.1.toNat n.2.2 s)

/-! ### Launch times (R329) -/

/-- LAUNCH_ELIGIBLE: the head of a leaf is within lead_ns of its launch time. -/
def execLaunchEligible (leaf : BitVec 20) (s : State) : Res :=
  let l := leaf.toNat
  let x := leafOf s l
  let p := leafPort s l
  let now := clockNs (clockAt s 1279)
  .next (match x.frames with
    | [] => s
    | f :: _ => match frameOf s f with
      | none => s
      | some h => match h.launch with
        | none => s
        | some w =>
          if 8 ≤ p ∧ p < 12 ∧ launchNs w now ≤ now + rf s (PP_PORT_B (p - 8)) 0 16 then putLeaf l { x with launchReady := true } s
          else s)

/-- LAUNCH_LATE: the head of a leaf did not start by launch + late_ns. -/
def execLaunchLate (leaf : BitVec 20) (s : State) : Res :=
  let l := leaf.toNat
  let x := leafOf s l
  let p := leafPort s l
  let now := clockNs (clockAt s 1279)
  .next (match x.frames with
    | [] => s
    | f :: _ => match frameOf s f with
      | none => s
      | some h => match h.launch with
        | none => s
        | some w =>
          let b := PP_PORT_B (p - 8)
          if 8 ≤ p ∧ p < 12 ∧ x.lateSeen = false ∧ launchNs w now + rf s b 16 16 < now then
            let s := addErr (PP_LAUNCH_LATE (p - 8)) 1 s
            if rb s b 32 then freeFrame f (popLeaf l s) else putLeaf l { x with launchReady := true, lateSeen := true } s
          else s)

/-! ### Takeover (R331 to R333) -/

/-- T as the registers of a pair hold it. -/
def takeTime (s : State) (p : Nat) : Nat := rf s (PP_PAIR_A p) 0 48 * 1000000000 + rf s (PP_PAIR_B p) 0 30

/-- The result of an arm at a time: the first check of R332 that fails, in the table's order, or 0. -/
def armResult (s : State) (p t now : Nat) : Nat :=
  let r := pairChecks s p t
  if r ≠ 0 ∧ r ≠ 0x0E then r
  else if t < now + 10000 then 0x07
  else match (pairOf s p).state with
    | .bypass | .off => r
    | _ => 0x0D

/-- ARM. -/
def arm (p cyc : Nat) (s : State) : State :=
  let t := takeTime s p
  let r := armResult s p t (clockNs (clockAt s cyc))
  let s := pairResult p r s
  if r = 0 then putPair p { state := .armed, takeAt := t } s else s

/-- ARM (R331, R332). -/
def execArm (pair : Fin 2) (cyc : Cyc) (s : State) : Res := .next (setupWrite s (arm pair.val cyc.val))

/-- DISARM (R331). -/
def execDisarm (pair : Fin 2) (s : State) : Res := .next (setupWrite s (unarm pair.val 0x09))

/-- RELEASE (R331). -/
def execRelease (pair : Fin 2) (cyc : Cyc) (s : State) : Res :=
  .next (setupWrite s (fun s => bypassPair pair.val 0x0B (clockAt s cyc.val) s))

/-- TAKEOVER_TIME: at T the checks are made again (R331). The watchdog runs from T (R334). -/
def takeover (p : Nat) (s : State) : State :=
  let x := pairOf s p
  match x.state with
  | .armed =>
    if !timeReached s x.takeAt then s else
    let r := pairChecks s p x.takeAt
    if r = 0 then putF (PP_PAIR_C p) 32 8 0 (putPair p { x with state := .taking } s) else unarm p r s
  | _ => s

/-- TAKEOVER_TIME (R331). -/
def execTakeoverTime (pair : Fin 2) (s : State) : Res := .next (takeover pair.val s)

/-- PAIR_TAKEN: both egresses are drained and handed over (R333). -/
def execPairTaken (pair : Fin 2) (cyc : Cyc) (s : State) : Res :=
  let p := pair.val
  let x := pairOf s p
  .next (match x.state with
    | .taking => pairEvent 0x40 p 0 (clockAt s cyc.val) (putPair p { x with state := .service } s)
    | _ => s)

/-- PLANT_LINK_UP (R345). -/
def execPlantLinkUp (port : PPort) (s : State) : Res :=
  let a := PP_PORT_A port.val
  .next (if inService s && rb s a 0 && !rb s a 32 then pageChanged 3 (putB a 32 true (putB a 33 true s)) else s)

/-- A plant link goes down: an ARMED pair goes back to BYPASS with PORT_DOWN (R331). -/
def plantDown (q : Nat) (s : State) : State :=
  let a := PP_PORT_A q
  if rb s a 32 then unarm (q / 2) 0x04 (pageChanged 3 (putB a 32 false s)) else s

/-- PLANT_LINK_DOWN (R331). -/
def execPlantLinkDown (port : PPort) (s : State) : Res := .next (plantDown port.val s)

/-! ### Image descriptors (R340 to R344) -/

/-- Channel of an IMG queue (R344). -/
def imgChannel (s : State) (fq : Nat) : Nat := engineRef (queueOf s 3 fq) % 64

/-- A transfer of a queue that has started. -/
def imgStarted (s : State) (fq : Nat) : Option Entry :=
  (queueOf s 3 fq).entries.find? (fun e => e.phase == .started && (e.op == 0x60 || e.op == 0x61))

/-- A queue has an IMG entry to run. -/
def imgReady (s : State) (fq : Nat) : Bool := (entryWith s 3 fq 0x60).isSome || (entryWith s 3 fq 0x61).isSome

/-- The IMG queues of a channel. -/
def channelQueues (s : State) (c : Nat) : List Nat :=
  (queuesOf s 3).filter (fun fq => queueKind (queueOf s 3 fq) == 5 && imgChannel s fq == c)

/-- The queue that a channel serves: one whose transfer has started, or the next ready one after the last (R344). -/
def channelTurn (s : State) (c : Nat) : Option Nat :=
  let qs := channelQueues s c
  match qs.find? (fun fq => (imgStarted s fq).isSome) with
  | some fq => some fq
  | none =>
    let ready := qs.filter (imgReady s)
    let last := tabGet (fun _ => 0) s.plant.chanLast c
    match ready.filter (fun fq => decide (last < fq)) with
    | fq :: _ => some fq
    | [] => ready.head?

/-- The mode of a channel, with hysteresis on its fill (R344). -/
def channelMode (c : Nat) (s : State) : State :=
  let a := IG_CHAN_A c
  let fill := ((channelQueues s c).map (fun fq => let q := queueOf s 3 fq; (q.pSeen - q.head).toNat)).sum
  let hi := rf s a 32 16
  let lo : Int := min (rf s a 16 16 : Int) ((hi : Int) - 1)
  if rb s a 1 then (if (fill : Int) ≤ lo then putB a 1 false s else s)
  else if hi ≤ fill then putB a 1 true s else s

/-- 64-byte units that a SLOW channel moves in a tick (R350). -/
def slowRate (s : State) (c : Nat) : Nat := max 1 (rf s (IG_CHAN_A c) 48 16)

/-- Units that a SLOW channel has moved in this tick; none while it still moves those of a transfer before (R344). -/
def slowUsed (s : State) (c : Nat) : Option Nat :=
  let x := tabGet (fun _ => (0, 0)) s.plant.chanFree c
  if s.ticks < x.1 then none else some (if x.1 = s.ticks then x.2 else 0)

/-- A channel may begin a transfer: at once in FAST, within its rate in SLOW. -/
def chanOpen (s : State) (c : Nat) : Bool :=
  rb s (IG_CHAN_A c) 1 || (match slowUsed s c with | none => false | some u => decide (u < slowRate s c))

/-- A SLOW channel moves a number of units, over as many ticks as its rate takes. -/
def chanMoves (c units : Nat) (s : State) : State :=
  if rb s (IG_CHAN_A c) 1 then s else
  let u := (slowUsed s c).getD 0 + units
  let free := tabInsert s.plant.chanFree c (s.ticks + u / slowRate s c, u % slowRate s c)
  { s with plant := { s.plant with chanFree := free } }

/-- The checks of R343, in the table's order: 0 or the status. -/
def imgCheck (s : State) (fq : Nat) (e : Entry) : Nat :=
  let x := imageOf s (lef e.desc 0x18 0 12)
  let get := e.op == 0x61
  if !imageLive x get then 0x0700
  else if get && !x.shown then 0x0703
  else if !rb s (IG_CHAN_A (imgChannel s fq)) 0 then 0x0704
  else if fld x.host 32 10 ≠ queueInst s 3 fq then 0x0705
  else 0

/-- Retries of a transfer so far. -/
def imgRetries (e : Entry) : Nat := if e.phase == .started then e.aux.toNat else 0

/-- The entry that an IMG command works on, when the channel serves its queue. -/
def imgTransfer (s : State) (fq op : Nat) : Option Entry :=
  if !imageEngineOn s || channelTurn s (imgChannel s fq) ≠ some fq || !chanOpen s (imgChannel s fq) then none else
  match imgStarted s fq with
  | some e => if e.op == op && workCurrent s 3 fq e.gen then some e else none
  | none => entryWith s 3 fq op

/-- IMG_HALF, once a transfer (R342). -/
def imgHalf (fq : Nat) (e : Entry) (s : State) : State :=
  if bit (leWord e.desc 0x18) 12 && e.phase != .started then
    postQueueEvent 3 fq 0x50 0 e.idx.toNat (lef e.desc 0x18 0 12) s
  else s

/-- A transfer ends with a status: the channel's turn passes. -/
def imgFail (fq : Nat) (e : Entry) (st retries : Nat) (s : State) : State :=
  finish 3 fq e.idx true st (BitVec.ofNat 32 retries) none
    { s with plant := { s.plant with chanLast := tabInsert s.plant.chanLast (imgChannel s fq) fq } }

/-- A transfer is done: counted, with IMG_FULL to follow its overwrite (R342). -/
def imgDone (fq : Nat) (e : Entry) (retries : Nat) (results : Option Bytes) (s : State) : State :=
  let c := imgChannel s fq
  let s := { s with plant := { s.plant with chanLast := tabInsert s.plant.chanLast c fq } }
  let s := addStat (IG_CHAN_B c) 1 s
  let ev : Event := { source := some (queueKey 3 fq),
                      body := eventBody 0x51 0 (localQ s 3 fq) e.idx.toNat (lef e.desc 0x18 0 12) }
  let s := if bit (leWord e.desc 0x18) 13 then mapEntry 3 fq e.idx (fun y => { y with after := some ev }) s else s
  finish 3 fq e.idx false 0 (BitVec.ofNat 32 retries) results s

/-- A torn or restarted attempt: the transfer is tried again, or fails at the third (R341). -/
def imgAgain (fq : Nat) (e : Entry) (s : State) : State :=
  let n := imgRetries e + 1
  if 3 ≤ n then imgFail fq e 0x0701 (n - 1) s
  else mapEntry 3 fq e.idx (fun y => { y with phase := .started, aux := BitVec.ofNat 32 n }) s

/-- One attempt of an IMG_PUT. -/
def imgPut (fq : Nat) (r : Read) (before after : Word) (e : Entry) (s : State) : State :=
  let i := lef e.desc 0x18 0 12
  let x := imageOf s i
  let s := chanMoves (imgChannel s fq) (imageLen x / 64) s
  let host := le e.desc 0x10 8
  let rb_ := bit (leWord e.desc 0x18) 14
  let seq (s : State) : State := if rb_ then entryRead 3 fq e (host + le e.desc 0x1C 2) 8 s else s
  let s := seq (entryRead 3 fq e host (imageLen x) (seq s))
  match r with
  | .data b =>
    let s := imgHalf fq e (writeBack i 0 (slice b 0 (imageLen x)) s)
    if rb_ && (bit before 0 || before != after) then imgAgain fq e s
    else imgDone fq e (imgRetries e) none (putImage i { imageOf s i with fresh := true } s)
  | bad => imgFail fq e (dmaStatus bad) (imgRetries e) (readFailure 3 host bad s)

/-- IMG_PUT (R340, R341): the read and the sequence words that one attempt meets, and what its reading of the image table
meets: a word of this table that cannot be corrected is a device fault (R506). -/
def execImgPut (fq : BitVec 20) (r : Read) (seqBefore : BitVec 64) (seqAfter : BitVec 64 × Ecc) (s : State) : Res :=
  let f := fq.toNat
  let s := channelMode (imgChannel s f) (joinWaiting 3 f s)
  .next (match imgTransfer s f 0x60 with
    | none => s
    | some e =>
      if seqAfter.2 = .bad then deviceFault 5 blkIG (16 * lef e.desc 0x18 0 12) s else
      let s := eccCount false seqAfter.2 s
      let st := imgCheck s f e
      if st ≠ 0 then imgFail f e st (imgRetries e) s else imgPut f r seqBefore seqAfter.1 e s)

/-- Write a run of bytes of an IMG_GET. -/
def imgWrite (fq : Nat) (e : Entry) (addr : Nat) (b : Bytes) (s : State) : State :=
  (instWrite 3 (queueInst s 3 fq) e.gen true addr b s).1

/-- Results of an IMG_GET (R340). -/
def imgResults (x : Image) : Bytes :=
  leBytes 4 x.flips.toNat ++ leBytes 4 x.depositsFront.toNat ++ leBytes 8 x.frontTime.toNat

/-- The bytes of an image that an IMG_GET reads: those of a word that cannot be corrected are free, and the word is
reported (R506). -/
def imgFront (i n : Nat) (ecc : Ecc) (s : State) : State × Bytes :=
  let b := readFront s i 0 n
  match ecc with
  | .bad =>
    let at_ := 8 * ((freeNow s).toNat % n / 8)
    let x := (List.range 8).map (fun k => Config.freeByte (s.freeCtr + 1 + k))
    let s := imageWordError i 0 n s
    ({ s with freeCtr := s.freeCtr + 8 }, splice b at_ x)
  | _ => (eccCount true ecc s, b)

/-- One attempt of an IMG_GET. -/
def imgGet (fq : Nat) (flipped : Bool) (back : Read) (ecc : Ecc) (e : Entry) (s : State) : State :=
  let i := lef e.desc 0x18 0 12
  let x := imageOf s i
  let host := le e.desc 0x10 8
  let n := imageLen x
  let y := imgFront i n ecc (chanMoves (imgChannel s fq) (n / 64) s)
  let b := y.2
  let s := y.1
  let s := imgWrite fq e (host + n / 2) (b.drop (n / 2)) (imgHalf fq e (imgWrite fq e host (b.take (n / 2)) s))
  if flipped then imgAgain fq e s
  else if bit (leWord e.desc 0x18) 14 then
    let s := entryRead 3 fq e (host + n - 64) 64 s
    match back with
    | .data y =>
      if slice y 0 64 = b.drop (n - 64) then imgDone fq e (imgRetries e) (some (imgResults x)) s
      else imgFail fq e 0x0702 (imgRetries e) s
    | bad => imgFail fq e (dmaStatus bad) (imgRetries e) (readFailure 3 (host + n - 64) bad s)
  else imgDone fq e (imgRetries e) (some (imgResults x)) s

/-- IMG_GET (R340, R341): whether the image flipped during the attempt, what the read-back meets, and what reading the
image buffer meets. -/
def execImgGet (fq : BitVec 20) (flipped : Bool) (back : Read × Ecc) (s : State) : Res :=
  let f := fq.toNat
  let s := channelMode (imgChannel s f) (joinWaiting 3 f s)
  .next (match imgTransfer s f 0x61 with
    | none => s
    | some e =>
      let st := imgCheck s f e
      if st ≠ 0 then imgFail f e st (imgRetries e) s else imgGet f flipped back.1 back.2 e s)

/-- A write of IG_CTRL: a region_base above 59, or any write of it while enable is 1, is dropped and sets refused (R350). -/
def igCtrlWrite (v : Word) (s : State) : State :=
  let on := rb s IG_CTRL 0
  let s := if bit v 7 then putB IG_CTRL 7 false s else s
  let b := fld v 1 6
  let s := if on || decide (59 < b) then putB IG_CTRL 7 true s
    else putF IG_CTRL 1 6 b s
  putB IG_CTRL 0 (bit v 0) s

/-- IG_CTRL_WRITE (R350). -/
def execIgCtrlWrite (v : BitVec 64) (s : State) : Res := .next (setupWrite s (igCtrlWrite v))

end Sys2Proof.Machine
end

