-- ==== Sys2Proof/Machine/Link.lean ====
section
/-! DEFINITION. The host link: training, function resets, power states, stops of a function's work, read completions,
precision time measurement, wake events and peer windows (03 R71 to R113). -/
namespace Sys2Proof.Machine

/-! ### Stops of a function's requests (R92, R99, R100) -/

/-- Bus Master Enable of a function is cleared, or it enters D3hot (R92, R99): its queues are quiesced, and a boot
descriptor whose image was being copied is dropped, unless its fuses burn. -/
def stopDma (fn : Fn) (s : State) : State :=
  let s := quiesceFn fn s
  if fn = 0 ∧ s.life.burn.isNone then { s with life := { s.life with boot := none } } else s

/-- A function may issue requests again (R86, R100, R128, R143): held vectors are signalled, record reads that are owed
and the consumer records of event queues in overflow are read, and a quiesce that waited goes on. -/
def resumeDma (fn : Fn) (s : State) : State :=
  if dmaOn s fn.val then
    let s := flushMsix fn s
    let s := (queuesOf s fn.val).foldl (fun s fq => issueOwed fn fq s) s
    let s := (evqsOf s fn.val).foldl (fun s n => if (evqOf s fn.val n).overflow then readConsumer fn n s else s) s
    if quiescing s fn.val then startQuiesce fn s else s
  else s

/-- BUS_MASTER_ENABLE_CLEAR (R99). -/
def execBusMasterEnableClear (fn : Fn) (s : State) : Res :=
  let c := cfgOf s fn.val
  .next (if cfgReachable s fn && c.busMaster then stopDma fn (linkBusy (putCfg fn.val { c with busMaster := false } s)) else s)

/-- BUS_MASTER_ENABLE_SET (R100). -/
def execBusMasterEnableSet (fn : Fn) (s : State) : Res :=
  let c := cfgOf s fn.val
  .next (if cfgReachable s fn && !c.busMaster then resumeDma fn (linkBusy (putCfg fn.val { c with busMaster := true } s)) else s)

/-- A write of HL_FN_QUIESCE (R107): done bits written 1 clear, request bits start quiesces. -/
def quiesceWrite (v : Word) (s : State) : State :=
  quiesce v ([0, 1, 2, 3].foldl (fun s n =>
    if bit v (12 + n) && rb s HL_FN_QUIESCE (12 + n) then pageChanged n (putB HL_FN_QUIESCE (12 + n) false s) else s) s)

/-- QUIESCE (R100). -/
def execQuiesce (v : BitVec 64) (s : State) : Res := .next (setupWrite s (quiesceWrite v))

/-! ### FLR of PF1 to PF3 (R96, R97) -/

/-- The function's epoch goes on by one, modulo 16 (R96). -/
def nextEpoch (fn : Nat) (s : State) : State :=
  putF HL_EPOCH (4 * fn) 4 (rf s HL_EPOCH (4 * fn) 4 + 1) s

/-- The configuration space of a function, its MSI-X table and its pending bits go back to their defaults. -/
def cfgDefaults (fn : Nat) (s : State) : State :=
  { s with link := { s.link with
      cfg := tabErase s.link.cfg fn,
      msixTable := s.link.msixTable.filter (fun e => e.1 / 0x2000 != fn),
      msixPending := setFld s.link.msixPending (16 * fn) 16 0 } }

/-- The instances of a function that are not OFF. -/
def liveInsts (s : State) (fn : Nat) : List Nat :=
  (s.im.insts.filter (fun e => e.1 / 1024 == fn && e.2.state != .off)).map (fun e => e.1 % 1024)

/-- State in which an FLR leaves an instance while it drains (R151). -/
def flrState : IState → IState
  | .faulted => .faulted
  | _ => .resetting

/-- A queue is quiesced at once, with nothing held (R96, R101); where its instance drains, the drain drops what it holds
when the work past its commit point has finished. -/
def flrQueue (fn : Fn) (fq : Nat) (s : State) : State :=
  let s := quiesceQueue fn fq s
  let q := queueOf s fn.val fq
  if q.qstate = .quiesced ∧ (instOf s fn.val (queueInst s fn.val fq)).drain.isNone then putQueue fn.val fq { q with entries := [] } s
  else s

/-- FLR on PF1, PF2 or PF3 (R96): the tag epoch, the instances' drains, the queues and the commit groups of the function. -/
def flr (fn : Fn) (s : State) : State :=
  let n := fn.val
  let s := { cfgDefaults n s with link := { (cfgDefaults n s).link with flr := s.link.flr ||| (1#4 <<< n), deviceD3 := false } }
  let s := dropTagWaits fn (nextEpoch n s)
  let s := { s with link := { s.link with tags := s.link.tags.filter (fun x => x.fn != fn) } }
  let s := (groupsOf s (fun k => k / 2 ^ 20 == n)).foldl (fun s g => abortGroup g ((queuesOf s n).map (queueKey n)) 0x0502 s) s
  let s := (liveInsts s n).foldl (fun s i => drain n i .flr (flrState (instOf s n i).state) s) s
  let s := (queuesOf s n).foldl (fun s fq => flrQueue fn fq s) s
  pageChanged n ((evqsOf s n).foldl (fun s k => loseConsumerRead fn k s) s)

/-- FLR (R96). An FLR of PF0 is a command of its own. -/
def execFlr (fn : Fn) (s : State) : Res := .next (if fn ≠ 0 ∧ cfgReachable s fn then flr fn (linkBusy s) else s)

/-- No instance of a function drains. -/
def noDrain (s : State) (fn : Nat) : Bool := s.im.insts.all (fun e => e.1 / 1024 != fn || e.2.drain.isNone)

/-- FLR_DONE (R97): configuration requests to the function are answered again, once its drains have ended (R161). -/
def execFlrDone (fn : Fn) (s : State) : Res :=
  .next (if noDrain s fn.val then { s with link := { s.link with flr := s.link.flr &&& ~~~ (1#4 <<< fn.val) } } else s)

/-! ### Power states (R92 to R94) -/

/-- Every present function is in D3hot. -/
def allD3 (s : State) : Bool := (List.range 4).all (fun n => !fnPresent s n || (cfgOf s n).d3hot)

/-- Device-wide D3hot (R92): the bypass is asserted on both pairs, and the network ports that magic_ports does not
select go to electrical idle. A pair that is ARMED goes back to the bypass as well (R68). With every function in D3hot the link
is in L1, or in L1.1 where PCI-PM L1.1 is enabled in PF0 (R72, R106). -/
def enterDeviceD3 (s : State) : State :=
  let s := { s with link := { s.link with deviceD3 := true, l1 := if (cfgOf s 0).pmL11 then 2 else 1 } }
  let s := [0, 1].foldl (fun s p => unarm p 0x0C (bypassPair p 0x0C s.clk s)) s
  (List.range 8).foldl (fun s n => if rb s HL_PME_CTRL n && portExists s n then s else netDown n s) s

/-- D3HOT_ENTRY (R92). -/
def execD3hotEntry (fn : Fn) (s : State) : Res :=
  let c := cfgOf s fn.val
  .next (if cfgReachable s fn && !c.d3hot then
    let s := stopDma fn (linkBusy (putCfg fn.val { c with d3hot := true } s))
    if allD3 s then enterDeviceD3 s else s
  else s)

/-- D0_RETURN (R93): setup is kept, queues stay quiesced, the pairs stay in the bypass. -/
def execD0Return (fn : Fn) (s : State) : Res :=
  let c := cfgOf s fn.val
  .next (if cfgReachable s fn && c.d3hot then
    let s := linkBusy (putCfg fn.val { c with d3hot := false } s)
    resumeDma fn { s with link := { s.link with deviceD3 := false } }
  else s)

/-- PME for a wake event (R94): PME_Status and a bit of HL_PME_STATUS are set and PM_PME is sent, waking the link first. -/
def raisePme (bitNo : Nat) (s : State) : State :=
  let c := cfgOf s 0
  if s.link.deviceD3 && c.pmeEnable then
    let l1 := s.link.l1 != 0
    linkBusy (emit (.pme l1) (putB HL_PME_STATUS bitNo true (putCfg 0 { c with pmeStatus := true } s)))
  else s

/-- MAGIC_PACKET (R94): on a configured, enabled port that magic_ports selects. -/
def execMagicPacket (port : NPort) (s : State) : Res :=
  let n := port.val
  .next (if rb s HL_PME_CTRL n && portExists s n && rb s (NP_PORT_CTRL n) 0 then raisePme n s else s)

/-- LANE_SIGNAL_CHANGE (R94): the port shows the signal, and a wake is raised where it is enabled. -/
def execLaneSignalChange (port : PPort) (gain : Bool) (s : State) : Res :=
  let q := port.val
  if s.life.stage = 0 ∨ rb s (PP_PORT_A q) 33 = gain then .next s else
  let s := putB (PP_PORT_A q) 33 gain s
  let b := if gain then 12 + q else 8 + q
  .next (if rb s HL_PME_CTRL b && rb s (PP_PORT_A q) 0 then raisePme b s else s)

/-- PPS_IN_LOSS (R94). -/
def execPpsInLoss (s : State) : Res := .next (if rb s HL_PME_CTRL 16 then raisePme 16 s else s)

/-- L1 idle time in force: 0 acts as 1 (R108). -/
def l1Idle (s : State) : Nat := max 1 (rf s HL_L1_CTRL 0 16)

/-- L1_ENTRY (R91): with ASPM L1.1 enabled in PF0 the link goes on to that substate (R72, R106). -/
def execL1Entry (s : State) : Res :=
  .next (if s.link.up && s.link.l1 == 0 && (cfgOf s 0).aspmL1 && decide (l1Idle s ≤ s.link.idleTicks) then
    emit .l1Request { s with link := { s.link with l1 := if (cfgOf s 0).aspmL11 then 2 else 1 } } else s)

/-! ### Link training (R71, R106) -/

/-- A rate code and a width that the link can settle on. -/
def trainable (speed : BitVec 3) (width : BitVec 5) : Bool :=
  decide (1 ≤ speed.toNat) && decide (speed.toNat ≤ 6) && [1, 2, 4, 8, 16].contains width.toNat

/-- LINK_TRAIN (R71): at 64 GT/s the link is in Flit Mode. Training of a link that is up counts as a retraining. -/
def execLinkTrain (speed : BitVec 3) (width : BitVec 5) (flit : Bool) (s : State) : Res :=
  .next (if s.life.stage != 0 && trainable speed width then
    let s := if s.link.up then addErrAt HL_LINK_STATUS 16 1 s else s
    { s with link := { s.link with up := true, speed := speed, width := width, flit := flit || speed == 6, l1 := 0,
                                   idleTicks := 0 } }
  else s)

/-! ### PASID Enable (R79, R151) -/

/-- PASID_ENABLE_CHANGE (R151): for every ON instance but instance 0 it is an instance-local fault in which
no word failed (R510). -/
def execPasidEnableChange (fn : Fn) (on : Bool) (s : State) : Res :=
  let n := fn.val
  let c := cfgOf s n
  .next (if cfgReachable s fn && c.pasidEnable != on then
    let s := linkBusy (putCfg n { c with pasidEnable := on } s)
    ((liveInsts s n).filter (fun i => i != 0 && (instOf s n i).state == .on)).foldl (fun s i => instanceFault fn i 0 0 s) s
  else s)

/-! ### Peer windows (R103 to R105, R335, R337) -/

/-- A peer window: enabled, first BAR4 offset, bytes, first offset of the image region's views (R112). -/
structure PeerWindow where
  enable : Bool
  bar : Nat
  len : Nat
  dev : Nat

/-- The window of two words. DESIGN CHOICE: the spec gives a length of up to 1,048,576 units and no effect of a larger
one, which the field can hold; it is used as it stands (log entry 184). -/
def peerWindow (a b : Word) : PeerWindow :=
  { enable := bit a 0, bar := fld a 6 24 * 64, len := fld a 32 21 * 64, dev := fld b 6 24 * 64 }

/-- The active set of window `n`. -/
def activeWindow (s : State) (n : Nat) : PeerWindow := peerWindow (getReg s (HL_PW_ACTIVE_A n)) (getReg s (HL_PW_ACTIVE_B n))

/-- The set of window `n` once a commit of `sel` has been made. -/
def nextWindow (s : State) (sel : Nat) (n : Nat) : PeerWindow :=
  if sel.testBit n then peerWindow (getReg s (HL_PW_SHADOW_A n)) (getReg s (HL_PW_SHADOW_B n)) else activeWindow s n

/-- Two enabled windows share a byte of BAR4. -/
def windowsOverlap (x y : PeerWindow) : Bool :=
  x.enable && y.enable && decide (max x.bar y.bar < min (x.bar + x.len) (y.bar + y.len))

/-- The commit is refused (R104): a selected window runs past BAR4 or past the views, or overlaps another enabled window. -/
def commitRefused (s : State) (sel : Nat) : Bool :=
  (List.range 16).any (fun n => sel.testBit n &&
    (let x := nextWindow s sel n
     decide (2 ^ 30 < x.bar + x.len) || decide (0x30000000 < x.dev + x.len) ||
       (List.range 16).any (fun m => m != n && windowsOverlap x (nextWindow s sel m))))

/-- A write of HL_PW_COMMIT (R104, R113). -/
def pwCommit (v : Word) (s : State) : State :=
  let sel := fld v 0 16
  let s := putF HL_PW_COMMIT 16 16 ((getReg s HL_PW_COMMIT &&& ~~~ v).toNat / 2 ^ 16) s
  if commitRefused s sel then putF HL_PW_COMMIT 16 16 ((rf s HL_PW_COMMIT 16 16) ||| sel) s
  else (List.range 16).foldl (fun s n =>
    if sel.testBit n then
      putReg (HL_PW_ACTIVE_B n) (getReg s (HL_PW_SHADOW_B n)) (putReg (HL_PW_ACTIVE_A n) (getReg s (HL_PW_SHADOW_A n)) s)
    else s) s

/-- PW_COMMIT (R104). -/
def execPwCommit (v : BitVec 64) (s : State) : Res := .next (setupWrite s (pwCommit v))

/-- Bytes that land in the back view (R335, R337): dropped and counted unless the image is an enabled TX image; the write
that covers the last 8 bytes of the image makes it fresh. -/
def backViewWrite (i off : Nat) (b : Bytes) (s : State) : State :=
  let x := imageOf s i
  if !imageLive x false then addErr IG_PEER_DROPS 1 s else
  let s := writeBack i off b s
  if off + 8 ≤ imageLen x ∧ imageLen x ≤ off + b.length then putImage i { imageOf s i with fresh := true } s else s

/-- Bytes that land at an offset of the views, all within one 64 KiB buffer. -/
def viewWrite (off : Nat) (b : Bytes) (s : State) : State :=
  if off < 0x10000000 then backViewWrite (off / 65536) (off % 65536) b s
  else { s with dram := memWrite s.dram (rf s IG_CTRL 1 6 * 2 ^ 29 + (off - 0x10000000)) b }

/-- A peer write lands, buffer by buffer. -/
def landWrite : Nat → Nat → Bytes → State → State
  | 0, _, _, s => s
  | fuel + 1, off, b, s =>
    if b.isEmpty then s else
    let n := 65536 - off % 65536
    landWrite fuel (off + n) (b.drop n) (viewWrite off (b.take n) s)

/-- A peer write is dropped whole and counted (R89, R105). -/
def missPeer (off : Nat) (a : Aer) (s : State) : State :=
  aerReport 3 a (putReg HL_PW_MISS_ADDR (BitVec.ofNat 64 off) (addErr HL_PW_MISS 1 s))

/-- What a TLP's own errors report before it is decoded, and whether it is dropped for them (R72, R89). A receiver
error is corrected by the link, which sends the TLP again, and the errors of DLLPs leave the TLP as it is; an ECRC that
does not match counts only while checking is enabled; a malformed TLP and one of a wrong ECRC go no further. -/
def tlpError (fn : Fn) (e : TlpErr) (s : State) : State × Bool :=
  match e with
  | .receiver => (aerLink .receiverError s, false)
  | .badDllp => (aerLink .badDllp s, false)
  | .dllpProtocol => (aerLink .dataLinkProtocol s, false)
  | .ecrc => if (cfgOf s fn.val).ecrcCheck then (aerReport fn .ecrcError s, true) else (s, false)
  | .malformed => (aerLink .malformedTlp s, true)
  | .none | .poisoned => (s, false)

/-- PEER_WRITE (R84, R89, R105): every byte lies in one enabled active window, or the write is dropped whole. -/
def execPeerWrite (off : BitVec 30) (data : Bytes) (err : TlpErr) (s : State) : Res :=
  if !linkUp s || !fnPresent s 3 then .next s else
  let e := tlpError 3 err (linkBusy s)
  let s := e.1
  if e.2 then .next s else
  if !barOpen s 3 then .next (aerReport 3 .unsupportedRequest s) else
  let o := off.toNat
  if err = .poisoned then .next (missPeer o .poisonedTlp s) else
  match ((List.range 16).map (activeWindow s)).find? (fun x =>
      x.enable && decide (0 < x.len) && decide (x.bar ≤ o) && decide (o + data.length ≤ x.bar + x.len)) with
  | none => .next (missPeer o .unsupportedRequest s)
  | some x => .next (landWrite (data.length + 1) (x.dev + (o - x.bar)) data s)

/-- PEER_READ (R105). -/
def execPeerRead (off : BitVec 30) (s : State) : Res :=
  .next (if linkUp s then let _ := off; linkBusy (emit (.readUnsupported 3) s) else s)

/-! ### Precision time measurement (R102, R110) -/

/-- An exchange starts, and t1 is the time its request leaves; without PTM Enable in PF0 it fails. -/
def ptmStart (cyc : Nat) (s : State) : State :=
  if (cfgOf s 0).ptmEnable then
    linkBusy (emit .ptmRequest { s with link := { s.link with ptm := some (time64 (clockAt s cyc)) } })
  else putB HL_PTM_CTRL 24 true s

/-- PTM_TRIGGER. -/
def execPtmTrigger (cyc : Cyc) (s : State) : Res := .next (setupWrite s (ptmStart cyc.val))

/-- The PTM period in nanoseconds: period milliseconds, 0 as 1 (R110). -/
def ptmPeriod (s : State) : Nat := 1000000 * max 1 (rf s HL_PTM_CTRL 8 16)

/-- A periodic exchange is due within the present Clove tick, or has been (R102). -/
def ptmIsDue (s : State) : Bool := rb s HL_PTM_CTRL 1 && decide (s.link.ptmDue < 1024 * (s.ticks + 1))

/-- PTM_PERIOD: the exchange of every period milliseconds; none before it is due. -/
def execPtmPeriod (cyc : Cyc) (s : State) : Res :=
  .next (if ptmIsDue s then
      ptmStart cyc.val { s with link := { s.link with ptmDue := s.link.ptmDue + ptmPeriod s } }
    else s)

/-- PTM_RESPONSE: the four results are written and seq counts the exchange. -/
def execPtmResponse (master : BitVec 64) (prop : BitVec 32) (cyc : Cyc) (s : State) : Res :=
  match s.link.ptm with
  | none => .next s
  | some t1 =>
    let s := linkBusy { s with link := { s.link with ptm := none } }
    let s := putReg HL_PTM_T1 t1 (putReg HL_PTM_T4 (time64 (clockAt s cyc.val)) s)
    let s := putReg HL_PTM_MASTER master (putReg HL_PTM_PROP (prop.setWidth 64) s)
    .next (putF HL_PTM_CTRL 32 32 (rf s HL_PTM_CTRL 32 32 + 1) s)

/-- PTM_TIMEOUT: 10 ms without a response. -/
def execPtmTimeout (s : State) : Res :=
  .next (if s.link.ptm.isSome then putB HL_PTM_CTRL 24 true { s with link := { s.link with ptm := none } } else s)

/-! ### Completions of device reads (R74, R89, R90) -/

/-- Is this answer data. -/
def isData : Read → Bool
  | .data _ => true
  | _ => false

/-- What an entry's own operation makes of the answer of its payload read. Operations with more than one read take the
answer when it fails them; their data arrive with the operation's own command. -/
def payloadReturn (fn : Fn) (fq : BitVec 20) (e : Entry) (r : Read) (s : State) : Res :=
  match queueKind (queueOf s fn.val fq.toNat), e.op with
  | 0, 0x01 => execTxSend fn fq r s
  | 0, 0x02 => execTxLaunch fn fq r s
  | 0, 0x03 => execTxPipe fn fq r s
  | 2, 0x30 => execStRead fq e.idx r s
  | 2, 0x31 => if isData r && bit (leWord e.desc 0x24) 16 then .next s else execStWrite fq e.idx r r s
  | 2, 0x35 => if isData r then .next s else execStCmpwrite fq e.idx r r s
  | 4, 0xB1 => execJtNodeWrite fq r s
  | 4, 0xB2 => execJtRuleWrite fq r s
  | 4, 0xD0 => execCtxWrite fq r s
  | 5, 0x60 => if isData r then .next s else execImgPut fq r 0 (0, .good) s
  | 5, 0x61 => if isData r then .next s else execImgGet fq false (r, .good) s
  | _, _ => .next s

/-- The work that issued a read takes its answer (R89, R90). -/
def workReturn (fn : Fn) (w : ReadWork) (r : Read) (s : State) : Res :=
  match w with
  | .doorbell fq => .next (recordReturn fn fq.toNat r s)
  | .descriptor fq => .next (fetchDescriptor fn fq.toNat r s)
  | .consumer fevq => execConsumerRecordReturn fn fevq (r, .good) s
  | .bootDescriptor => execBootDescriptorFetch (r, .good) s
  | .bootImage => if (bootServing s 1).isSome then execBootLoad r s else execBootFuse r s
  | .payload fq idx =>
    match entryIdx s fn.val fq.toNat idx with
    | none => .next s
    | some e => payloadReturn fn fq e r s
  | .flowCore core t => execDmaRd core t r .none s

/-- READ_COMPLETION (R89): one with another epoch than the function's is dropped and counted. -/
def execReadCompletion (fn : Fn) (epoch : BitVec 4) (work : ReadWork) (r : Read) (s : State) : Res :=
  if s.life.stage = 0 then .next s
  else if epoch.toNat ≠ rf s HL_EPOCH (4 * fn.val) 4 then .next (linkBusy (addErrAt HL_EPOCH 32 1 s))
  else workReturn fn work r (linkBusy s)

/-- COMPLETION_TIMEOUT (R89, R90): none while Completion Timeout Disable is set. -/
def execCompletionTimeout (fn : Fn) (work : ReadWork) (s : State) : Res :=
  if s.life.stage = 0 ∨ (cfgOf s fn.val).timeoutDisable then .next s else workReturn fn work .timeout s

end Sys2Proof.Machine
end

