-- ==== Sys2Proof/Machine/Bays.lean ====
section
/-! DEFINITION. Media bays and packs: power, presence, life, rebuild (16). -/
namespace Sys2Proof.Machine

/-! ### Extents on a bay (R445, R459, R464) -/

/-- The extents of enabled namespaces that lie on a bay: fns, extent. -/
def extentsOn (s : State) (b : Nat) : List (Nat × Bool) :=
  s.st.ns.flatMap (fun e =>
    if e.2.state = .off then [] else
    ((if e.2.mirror then [false, true] else [false]).filter (fun x => e.2.bay x == b)).map (fun x => (e.1, x)))

/-- An extent is lost with its pack: a single namespace is ABSENT, a mirrored one degraded or ABSENT (R459). -/
def loseExtent (x : Nat × Bool) (s : State) : State :=
  if (nsOf s x.1).mirror then markExtent x.1 x.2 0x0304 s else putNsState x.1 .absent s

/-- Commands outstanding at a pack that is gone: a storage command fails on that extent, and answers that might still
come are discarded (R445, R459). -/
def failOutstanding (b : Nat) (s : State) : State :=
  let gone := s.st.packCmds.filter (fun e => e.1 / 2 ^ 32 == b)
  let s := { s with st := { s.st with packCmds := s.st.packCmds.filter (fun e => e.1 / 2 ^ 32 != b) } }
  gone.foldl (fun s e => match e.2 with
    | .cmd n onB off => cmdAnswer n onB off (some { sf := 0, lba := BitVec.allOnes 64, removed := true }) [] s
    | _ => s) s

/-- A pack is removed, fails or is forced off (R459): namespaces and rebuilds, the journal, outstanding commands. -/
def removePack (b cause : Nat) (s : State) : State :=
  let s := (extentsOn s b).foldl (fun s x => loseExtent x s) s
  let s := if s.cg.bay.toNat = b ∧ s.cg.jstate ≠ .closed then journalLost cause s else s
  failOutstanding b s

/-! ### Power and states (R453 to R459) -/

/-- Set the state of a bay. -/
def putBayState (b : Nat) (st : BayState) (s : State) : State := putBay b { bayOf s b with state := st } s

/-- Power is removed: BAYn_PERST_N low, then BAYn_PWREN low. The link and the pack's identity in use go with it. -/
def powerOff (b : Nat) (st : BayState) (s : State) : State :=
  let x := bayOf s b
  let s := if bayPowered x then emit (.bayPin (Fin.ofNat 4 b) false false) (emit (.bayPin (Fin.ofNat 4 b) true false) s) else s
  putBay b { BaySt.empty with state := st, present := x.present } s

/-- BAY_STATE. -/
def stateEvent (b : Nat) (st : BayState) (s : State) : State :=
  let code : Nat := match st with
    | .empty => 0 | .off => 1 | .powering => 2 | .training => 3 | .init => 4 | .ready => 5 | .stopping => 6 | .failed => 7
  bayEvent 0x72 code b (rf s (MB_BAY_B b) 12 4) 0 s

/-- A bay fails: fail_cause, power and the power indicator off, BAY_STATE (R454, R455, R461). -/
def failBay (b cause : Nat) (s : State) : State :=
  stateEvent b .failed (powerOff b .failed (putF (MB_BAY_A b) 4 2 0 (putF (MB_BAY_B b) 12 4 cause s)))

/-- A bay is enabled and out of stage 0. -/
def bayLive (s : State) (b : Nat) : Bool := bayEnabled s b && s.life.stage != 0

/-- A host write of a bay's registers: ignored for a bay that is not enabled (R449). -/
def bayWrite (b : Nat) (s : State) (f : State → State) : State := setupWrite s (fun s => if bayEnabled s b then f s else s)

/-- BAY_POWER_ON: pwr_ctrl 1, in stage 3 (R454, R460). -/
def execBayPowerOn (bay : Bay) (s : State) : Res :=
  let b := bay.val
  .next (bayWrite b s (fun s =>
    if s.life.stage != 3 then s else
    let s := putB (MB_BAY_A b) 0 true s
    if (bayOf s b).state = .off ∨ (bayOf s b).state = .failed then emit (.bayPin bay true false) (putBayState b .powering s)
    else s))

/-- A power off without force is refused (R457). -/
def offRefused (s : State) (b : Nat) : Bool :=
  (extentsOn s b).any (fun x => !(if x.2 then (nsOf s x.1).failedB else (nsOf s x.1).failedA)) ||
  s.st.rebuilds.any (fun e => let n := nsOf s e.2.fns.toNat; n.bay false == b || n.bay true == b) ||
  (s.cg.bay.toNat == b && (s.cg.jstate == .opened || s.cg.jstate == .closing || s.cg.jstate == .opening))

/-- BAY_POWER_OFF: pwr_ctrl 0 (R457). -/
def execBayPowerOff (bay : Bay) (force : Bool) (s : State) : Res :=
  let b := bay.val
  .next (bayWrite b s (fun s =>
    if s.life.stage != 3 then s
    else if !force && offRefused s b then putB (MB_BAY_B b) 3 true s
    else
      let s := putB (MB_BAY_A b) 0 false s
      let s := if force && bayPowered (bayOf s b) then removePack b 2 s else failOutstanding b s
      match (bayOf s b).state with
      | .powering => powerOff b .off s
      | .training => powerOff b .off s
      | .init => putBayState b .stopping s
      | .ready => putBayState b .stopping s
      | _ => s))

/-- A pack is seated. -/
def packSeated (b : Nat) (s : State) : State :=
  let s := putB (MB_BAY_B b) 1 true (putBay b { bayOf s b with present := true } s)
  if (bayOf s b).state = .empty then bayEvent 0x70 1 b 0 0 (putBayState b .off s) else s

/-- A pack is pulled: R459, power off, EMPTY. A bay that had failed has counted it already. -/
def packPulled (b : Nat) (s : State) : State :=
  let s := putB (MB_BAY_B b) 1 true (putBay b { bayOf s b with present := false } s)
  match (bayOf s b).state with
  | .empty => s
  | st =>
    let s := if st = .failed then s else removePack b 0 (addErr (MB_BAY_REMOVALS b) 1 s)
    bayEvent 0x70 0 b 0 0 (powerOff b .empty (putF (MB_BAY_A b) 4 2 0 s))

/-- PRESENCE_CHANGE (R454, R459). In stage 0 only the pin is seen. -/
def execPresenceChange (bay : Bay) (present : Bool) (s : State) : Res :=
  let b := bay.val
  .next (if (bayOf s b).present == present then s
    else if !bayLive s b then
      putBay b { BaySt.empty with present := present, state := if present then .off else .empty } s
    else if present then packSeated b s else packPulled b s)

/-- POWER_SETTLE: 100 ms after power-on (R454). -/
def execPowerSettle (bay : Bay) (s : State) : Res :=
  .next (if (bayOf s bay.val).state = .powering then emit (.bayPin bay true true) (putBayState bay.val .training s) else s)

/-- BAY_LINK_UP (R454). -/
def execBayLinkUp (bay : Bay) (speed : BitVec 3) (width : BitVec 4) (s : State) : Res :=
  .next (if (bayOf s bay.val).state = .training then
      putBay bay.val { bayOf s bay.val with state := .init, linkSpeed := speed, linkWidth := width } s
    else s)

/-- BAY_TRAINING_TIMEOUT: fail_cause 1 (R454). -/
def execBayTrainingTimeout (bay : Bay) (s : State) : Res :=
  .next (if (bayOf s bay.val).state = .training then failBay bay.val 1 s else s)

/-- BAY_READY_TIMEOUT: fail_cause 2 (R454). -/
def execBayReadyTimeout (bay : Bay) (s : State) : Res :=
  .next (if (bayOf s bay.val).state = .init then failBay bay.val 2 s else s)

/-! ### Life (R462 to R464) -/

/-- The pack of an extent has become read-only: the extent is marked failed and its namespace degraded on it; the extent
that alone still holds the data keeps its reads (R445, R464). -/
def wearExtent (x : Nat × Bool) (s : State) : State :=
  let n := nsOf s x.1
  if !n.mirror then s else
  let alone := match n.state with
    | .degradedA => x.2
    | .degradedB => !x.2
    | .rebuilding => (match rebuildOf s x.1 with | some r => r.target != x.2 | none => false)
    | _ => false
  if alone then putNs x.1 (if x.2 then { n with failedB := true } else { n with failedA := true }) s
  else markExtent x.1 x.2 0x0305 s

/-- PACK_LIFE. -/
def lifeEvent (b status : Nat) (s : State) : State :=
  bayEvent 0x73 status b (rf s (MB_BAY_C b) 0 8) (rf s (MB_BAY_C b) 8 8) s

/-- The life flags are evaluated (R463). -/
def evalLife (b : Nat) (s : State) : State :=
  let pct := rf s (MB_BAY_C b) 0 8
  let warn := decide (rf s (MB_BAY_C b) 16 8 ≤ pct)
  let ro := decide (rf s (MB_BAY_C b) 24 8 ≤ pct) || rb s (MB_BAY_C b) 11
  let wasWarn := rb s (MB_BAY_B b) 7
  let wasRo := rb s (MB_BAY_B b) 8
  let s := putB (MB_BAY_B b) 8 ro (putB (MB_BAY_B b) 7 warn s)
  let s := if warn && !wasWarn then lifeEvent b 0 (putF (MB_BAY_A b) 2 2 2 s)
    else if !warn && wasWarn then lifeEvent b 2 s else s
  if ro && !wasRo then
    let s := (extentsOn s b).foldl (fun s x => wearExtent x s) (lifeEvent b 1 s)
    if s.cg.bay.toNat = b ∧ s.cg.jstate ≠ .closed then journalLost 1 s else s
  else if !ro && wasRo then lifeEvent b 2 s
  else s

/-- A poll answer loads pct_used and crit_warn (R462). -/
def loadLife (b : Nat) (pct crit : BitVec 8) (s : State) : State :=
  let c := getReg s (MB_BAY_C b)
  evalLife b (putReg (MB_BAY_C b) (BitVec.ofNat 64 (pct.toNat + 2 ^ 8 * crit.toNat + 2 ^ 16 * fld c 16 16
    + 2 ^ 32 * ((fld c 32 32 + 1) % 2 ^ 32))) s)

/-- Serial, model and firmware of a pack (R462, R470). -/
def putIdentity (b : Nat) (p : PackIdent) (s : State) : State :=
  let sn := slice p.serial 0 20
  let mn := slice p.model 0 40
  let s := (List.range 3).foldl (fun s k => putReg (MB_BAY_SERIAL b k) (leWord sn (8 * k)) s) s
  let s := (List.range 5).foldl (fun s k => putReg (MB_BAY_MODEL b k) (leWord mn (8 * k)) s) s
  putReg (MB_BAY_FW b) p.firmware s

/-- The life poll period in nanoseconds: poll_s, 0 as 1 and above 3,600 as 3,600 (R469). -/
def pollPeriod (s : State) : Nat := 1000000000 * max 1 (min 3600 (rf s MB_CTRL 16 12))

/-- BAY_INIT_DONE: identity and first life poll; Identify that fails, or no I/O queue granted, is fail_cause 5 (R454, R456). -/
def execBayInitDone (bay : Bay) (ident : Option PackIdent) (s : State) : Res :=
  let b := bay.val
  .next (if (bayOf s b).state != .init then s else
    match ident with
    | none => failBay b 5 s
    | some p =>
      -- the queues are created before the identity is read (R456)
      if p.ioQueues = 0 then failBay b 5 s
      else
        let s := emit (.lifePoll bay) (putIdentity b p s)
        let s := putBay b { bayOf s b with state := .ready, ident := some p, pollDue := tickNs s + pollPeriod s } s
        stateEvent b .ready (loadLife b p.pct p.crit s))

/-- PACK_FAILURE on a READY pack: CSTS.CFS, or DL_Down with presence asserted (R454, R459). -/
def execPackFailure (bay : Bay) (cfs : Bool) (s : State) : Res :=
  let b := bay.val
  .next (if (bayOf s b).state != .ready then s
    else failBay b (if cfs then 3 else 4) (removePack b 0 (addErr (MB_BAY_REMOVALS b) 1 s)))

/-- SHUTDOWN_COMPLETE (R454). -/
def execShutdownComplete (bay : Bay) (s : State) : Res :=
  .next (if (bayOf s bay.val).state = .stopping then stateEvent bay.val .off (powerOff bay.val .off s) else s)

/-- ATTENTION_BUTTON (R461). -/
def execAttentionButton (bay : Bay) (s : State) : Res :=
  .next (if bayLive s bay.val then bayEvent 0x71 0 bay.val 0 0 (putB (MB_BAY_B bay.val) 2 true s) else s)

/-- A poll of a READY pack is due within the present Clove tick, or has been (R462). -/
def pollIsDue (s : State) (b : Nat) : Bool :=
  (bayOf s b).state == .ready && decide ((bayOf s b).pollDue < 1024 * (s.ticks + 1))

/-- The poll that is due: the next is due a period later, and one goes out unless one is outstanding. -/
def pollBay (b : Nat) (s : State) : State :=
  let x := bayOf s b
  let s := if x.polling then s else emit (.lifePoll (Fin.ofNat 4 b)) s
  putBay b { x with polling := true, pollDue := x.pollDue + pollPeriod s } s

/-- LIFE_POLL: a poll to each READY pack for which one is due, by the housekeeping core (R462). -/
def execLifePoll (s : State) : Res :=
  .next (if !s.life.hkLoaded then s else
    (List.range 4).foldl (fun s b => if pollIsDue s b then pollBay b s else s) s)

/-- POLL_ANSWER (R462, R463). -/
def execPollAnswer (bay : Bay) (ok : Bool) (pct crit : BitVec 8) (s : State) : Res :=
  let b := bay.val
  .next (let x := bayOf s b
    if !x.polling || x.state != .ready then s
    else
      let s := putBay b { x with polling := false } s
      if ok then loadLife b pct crit s else addErr (MB_BAY_POLL_ERRORS b) 1 s)

/-- LIFE_THRESHOLD_WRITE (R463). -/
def execLifeThresholdWrite (bay : Bay) (warn ro : BitVec 8) (s : State) : Res :=
  .next (bayWrite bay.val s (fun s =>
    evalLife bay.val (putF (MB_BAY_C bay.val) 16 16 (warn.toNat + 256 * ro.toNat) s)))

/-! ### Rebuild (R465 to R467) -/

/-- The namespace as a rebuild start maps it. -/
def rebuildMap (n : Ns) (d : Bytes) : Ns :=
  let bay := lef d 0x10 20 2
  let nsid := leBytes 4 (le d 0x14 4)
  let plba := leBytes 8 (le d 0x18 8)
  let c := n.conf
  if bit (leWord d 0x10) 17 then
    let c := splice c 0 (leBytes 8 (setFld (leWord c 0) 22 2 bay).toNat)
    { n with conf := splice (splice c 0x18 nsid) 0x20 plba }
  else
    let c := splice c 0 (leBytes 8 (setFld (leWord c 0) 20 2 bay).toNat)
    { n with conf := splice (splice c 4 nsid) 0x10 plba }

/-- A free rebuild slot. -/
def rebuildSlot (s : State) : Option Nat := (List.range 8).find? (fun k => (tabFind s.st.rebuilds k).isNone)

/-- Checks of a start, 0 when they pass (R465). -/
def rebuildCheck (s : State) (d : Bytes) : Nat :=
  let fns := lef d 0x10 0 16
  let n := nsOf s fns
  let target := bit (leWord d 0x10) 17
  let bay := lef d 0x10 20 2
  if !fnPresent s 2 then 0x0310
  else if n.state != (if target then .degradedB else .degradedA) then 0x0320
  else if (rebuildSlot s).isNone then 0x0321
  else
    let st := extentCheck s fns n.bshift n.size bay (BitVec.ofNat 32 (le d 0x14 4)) (le d 0x18 8)
    if st ≠ 0 then st else if bay = n.bay (!target) then 0x0316 else 0

/-- The words of an MB_REBUILD slot (R471). -/
def putRebuild (k : Nat) (r : Rebuild) (s : State) : State :=
  putReg (MB_REBUILD_B k) (BitVec.ofNat 64 r.next)
    (putReg (MB_REBUILD_A k) (BitVec.ofNat 64 (r.fns.toNat + 2 ^ 16 + 2 ^ 17 * b2n r.target))
      { s with st := { s.st with rebuilds := tabInsert s.st.rebuilds k r } })

/-- The state of a mirrored namespace degraded on an extent. -/
def degradedOn (target : Bool) : NsState := if target then .degradedB else .degradedA

/-- NS_REBUILD (R465). -/
def nsRebuild (cq : Nat) (e : Entry) (s : State) : State :=
  let d := e.desc
  let fns := lef d 0x10 0 16
  let target := bit (leWord d 0x10) 17
  if !adminQueue s cq then finish 0 cq e.idx true 0x0121 0 none s
  else if bit (leWord d 0x10) 16 then
    match (nsOf s fns).state, rebuildOf s fns with
    | .rebuilding, some r => finish 0 cq e.idx false 0 0 none (endRebuild fns 0x0322 (putNsState fns (degradedOn r.target) s))
    | _, _ => finish 0 cq e.idx true 0x0320 0 none s
  else
    let st := rebuildCheck s d
    match st, rebuildSlot s with
    | 0, some k =>
      let s := putNs fns { rebuildMap (nsOf s fns) d with state := .rebuilding } s
      let r : Rebuild := { fns := BitVec.ofNat 16 fns, target := target, next := 0,
                           rate := BitVec.ofNat 16 (max 1 (min 14000 (lef d 0x20 0 16))), start := s.ticks }
      finish 0 cq e.idx false 0 0 none (putRebuild k r s)
    | _, _ => finish 0 cq e.idx true st 0 none s

/-- NS_REBUILD (R465). -/
def execNsRebuild (cq : BitVec 20) (s : State) : Res :=
  .next (nextEntry 0 cq.toNat 0xCA (fun e s => nsRebuild cq.toNat e s) s)

/-- Blocks of the next chunk. -/
def chunkBlocks (n : Ns) (next : Nat) : Nat := min (2 ^ 20 / 2 ^ n.bshift) (n.size - next)

/-- The shared lock of a chunk is granted: the owning instance has an entry left and no earlier exclusive entry overlaps
(R434, R466). -/
def chunkLock (s : State) (r : Rebuild) : Bool :=
  let n := nsOf s r.fns.toNat
  let k := chunkBlocks n r.next
  decide (locksHeld s (ownerOf s .namespaces 2 r.fns.toNat) < share s .locks 2) &&
  s.st.cmds.all (fun e => !e.2.held || e.2.fns != r.fns || e.2.op == 0x30 ||
    decide (e.2.slba + e.2.nblocks ≤ r.next) || decide (r.next + k ≤ e.2.slba))

/-- The copy rate lets the chunk end: the bytes copied with it do not exceed rate_mbps × 10^6 × elapsed seconds, counted in
whole Clove ticks (R466). -/
def chunkPaced (s : State) (r : Rebuild) : Bool :=
  let n := nsOf s r.fns.toNat
  decide ((r.next + chunkBlocks n r.next) * 2 ^ n.bshift * 1000 ≤ r.rate.toNat * (1024 * (s.ticks - r.start)))

/-- The NVMe commands of a chunk on an extent, split at MDTS. -/
def chunkSend (r : Rebuild) (onB : Bool) (opcode : Nat) (data : Bytes) (s : State) : State :=
  let n := nsOf s r.fns.toNat
  let k := ratio s n onB
  let sh := n.bshift - (if k = 8 then 3 else 0)
  let blocks := k * chunkBlocks n r.next
  (runsOf (mdtsBlocks s (n.bay onB) sh blocks) blocks 0 blocks).foldl (fun s x =>
    packSend (n.bay onB) opcode (n.nsid onB) (n.plba onB + k * r.next + x.1) x.2
      (slice data (x.1 * 2 ^ sh) (if data.isEmpty then 0 else x.2 * 2 ^ sh)) s) s

/-- The read side of a chunk, from the in-sync extent. -/
def chunkRead (r : Rebuild) (s : State) : State := chunkSend r (!r.target) nvRead [] s

/-- A chunk is copied: next advances, and at the size the namespace is ONLINE. -/
def chunkCopied (slot : Nat) (r : Rebuild) (data : Bytes) (s : State) : State :=
  let n := nsOf s r.fns.toNat
  let next := r.next + chunkBlocks n r.next
  let s := putRebuild slot { r with next := next } (chunkSend r r.target nvWrite data (chunkRead r s))
  if next < n.size then s
  else
    let n := { n with state := .online }
    endRebuild r.fns.toNat 0 (putNs r.fns.toNat (if r.target then { n with failedB := false } else { n with failedA := false }) s)

/-- A read or a write of a chunk failed: the namespace stays degraded on the target. -/
def chunkFailed (r : Rebuild) (s : State) : State :=
  endRebuild r.fns.toNat 0x0303 (putNsState r.fns.toNat (degradedOn r.target) s)

/-- REBUILD_CHUNK: one chunk is copied under its lock, or the rebuild ends (R466, R467). -/
def execRebuildChunk (slot : Fin 8) (res : ChunkResult) (s : State) : Res :=
  .next (match tabFind s.st.rebuilds slot.val with
    | none => s
    | some r =>
      if !chunkLock s r then s else
      match res with
      | .copied data => if chunkPaced s r then chunkCopied slot.val r data s else s
      | .sourceFailed => chunkFailed r (chunkRead r s)
      | .targetFailed data => chunkFailed r (chunkSend r r.target nvWrite data (chunkRead r s)))

end Sys2Proof.Machine
end

