-- ==== Sys2Proof/Machine/Clove.lean ====
section
/-! DEFINITION. The Clove time base: ticks, steps, latches, references and PPS (01 R24, 11 R319 to R328, R344, 13 R383,
R392). -/
namespace Sys2Proof.Machine

/-! ### The tick (R24) -/

/-- The time base advances by the 1,280 cycles of a tick, but for those it already counts (R24, R320). -/
def tickTime (s : State) : State :=
  { s with ticks := s.ticks + 1, clk := clockAfter s.clk (rateAdj s) (1280 - s.mon.rateCyc), mon := { s.mon with rateCyc := 0 } }

/-- A tick with no TLP pending counts toward the L1 idle time (R91). -/
def tickLink (s : State) : State :=
  if s.link.up && s.link.l1 == 0 then { s with link := { s.link with idleTicks := s.link.idleTicks + 1 } } else s

/-- Each core whose closed-wait condition holds has held it for one more tick (R383). -/
def tickCores (s : State) : State :=
  (List.range 32).foldl (fun s c =>
    if coreClosed s c then putCore c { coreOf s c with quiet := (coreOf s c).quiet + 1 } s else s) s

/-- The housekeeping core runs: its image is loaded and its thread has neither stopped, faulted nor halted. -/
def hkRunning (s : State) : Bool :=
  s.life.hkLoaded && (match (threadOf s 32 0).state with
    | .stopped => false
    | .faulted => false
    | .halted => false
    | _ => true)

/-- The heartbeat advances every 976 ticks, within 1 ms, while the housekeeping core runs (R392). -/
def tickHeart (s : State) : State :=
  if hkRunning s && decide (s.fc.hkBeat + 976 ≤ s.ticks) then
    putF FC_HK_STATUS 16 32 (rf s FC_HK_STATUS 16 32 + 1) { s with fc := { s.fc with hkBeat := s.ticks } }
  else s

/-- A recovery function is reset when no frame has passed it for reset_ticks ticks (R317). -/
def tickCb (s : State) : State :=
  s.plant.cb.foldl (fun s e =>
    let x := e.2
    if x.resetTicks != 0 && !x.takeAny && decide (x.lastPass + x.resetTicks.toNat ≤ s.ticks) then putCb e.1 (cbReset x) s
    else s) s

/-- The modes of the image channels (R344). -/
def tickChannels (s : State) : State := (List.range 64).foldl (fun s c => channelMode c s) s

/-- The PMBus master (R554): idle until the housekeeping image runs and has supplied the regulator's address, it then reads
one of three telemetry values. When the image supplies an address, which one, and when and what the master reads the spec
does not say: they are free. -/
def tickPmbus (s : State) : State :=
  if !hkRunning s then s else
  let v := freeNow s
  let s := useFree s
  if bit v 0 then { s with mon := { s.mon with pmbus := some (BitVec.ofNat 7 (fld v 1 7)) } } else
  match s.mon.pmbus with
  | none => s
  | some a => match fld v 8 2 with
    | 0 => s
    | 1 => emit (.pmbusRead a .vout) s
    | 2 => emit (.pmbusRead a .iout) s
    | _ => emit (.pmbusRead a .temperature1) s

/-- A vector-0 signal of the log that waited for holdoff is sent (R515). -/
def tickLog (s : State) : State := if s.link.logOwed then signalLog s else s

/-- CLOVE_TICK (R24): it reaches every consumer exactly once. -/
def execCloveTick (s : State) : Res :=
  .next (if s.life.stage = 0 then s
    else tickLog (tickPmbus (tickChannels (tickCb (tickHeart (tickCores (tickLink (tickTime s))))))))

/-! ### Steps (R320, R328) -/

/-- The offset of a step, in nanoseconds: the signed seconds last written and the signed nanoseconds of the write. -/
def stepOffset (s : State) (v : Word) : Int :=
  signed 48 (rf s CK_STEP_SEC 0 48) * 1000000000 + signed 32 (fld v 0 32)

/-- A schedule is placed afresh at a time; a pending set whose switch time has passed is the oper set (R328). -/
def placeAfresh (t n : Nat) (s : State) : State :=
  let x := schedOf s n
  match x.pending with
  | some (o, at_) =>
    if at_ ≤ t then
      putF (PP_SCHED_F n) 0 32 o.cycle (putB (PP_SCHED_C n) 33 true (putB (PP_SCHED_C n) 34 false
        (putSched n (placeSched { x with pending := none, oper := some o, past := (at_, x.oper) :: x.past } t) s)))
    else putSched n (placeSched x t) s
  | none => putSched n (placeSched x t) s

/-- A number of nanoseconds moved by an offset; below 0 it is 0. -/
def moveNs (d : Int) (t : Nat) : Nat := ((t : Int) + d).toNat

/-- Ends of pauses and times of PFC frames measure durations, so they move with the time (R282, R283). -/
def moveDurations (d : Int) (s : State) : State :=
  { s with tm := { s.tm with pauseEnd := s.tm.pauseEnd.map (fun e => (e.1, moveNs d e.2)),
                             pfcSent := s.tm.pfcSent.map (fun e => (e.1, moveNs d e.2)) } }

/-- What is known of a leaf's launch frame is compared with the new time (R328): it is no longer eligible before lead_ns,
nor late before late_ns. -/
def launchAfresh (t l : Nat) (x : Leaf) (s : State) : State :=
  match x.frames.head? with
  | none => s
  | some f => match frameOf s f with
    | none => s
    | some h => match h.launch with
      | none => s
      | some w =>
        let b := PP_PORT_B (leafPort s l - 8)
        putLeaf l { x with launchReady := x.launchReady && decide (launchNs w t ≤ t + rf s b 0 16),
                           lateSeen := x.lateSeen && decide (launchNs w t + rf s b 16 16 < t) } s

/-- A step is applied at a cycle: schedules placed afresh, launch times and armed takeovers compared with the new time
(R328, R331). -/
def applyStep (d : Int) (cyc : Nat) (s : State) : State :=
  let old := clockNs (clockAt s cyc)
  let s := moveDurations d { s with clk := clockShift s.clk (d * 65536) }
  let t := clockNs (clockAt s cyc)
  let s := (List.range 68).foldl (fun s n => placeAfresh t n s) s
  let s := s.tm.leaves.foldl (fun s e => launchAfresh t e.1 e.2 s) s
  let s := [0, 1].foldl (fun s p =>
    let at_ := (pairOf s p).takeAt
    if old < at_ ∧ at_ ≤ t then unarm p 0x08 s else s) s
  recheckArmed s

/-- A write of CK_STEP_NS (R320). -/
def ckStep (v : Word) (cyc : Nat) (s : State) : State :=
  let d := stepOffset s v
  let t : Int := (clockNs (clockAt s cyc) : Int) + d
  if t < 0 ∨ (2 ^ 48 * 1000000000 : Int) ≤ t then putB CK_CTRL 3 true s else applyStep d cyc s

/-- CK_STEP (R320). -/
def execCkStep (v : BitVec 64) (cyc : Cyc) (s : State) : Res := .next (setupWrite s (ckStep v cyc.val))

/-! ### Latches, references, PPS (R320 to R322) -/

/-- The 32-bit nanoseconds and 16-bit fraction of a time. -/
def nsWord (c : Clock) : Nat := c.ns.toNat + c.frac.toNat * 2 ^ 32

/-- TIME_LATCH: a read of CK_TIME_NS latches the whole time (R320). -/
def execTimeLatch (cyc : Cyc) (s : State) : Res :=
  let c := clockAt s cyc.val
  .next (setupWrite s (fun s =>
    putReg CK_TIME_SEC (BitVec.ofNat 64 c.sec.toNat) (putReg CK_TIME_NS (BitVec.ofNat 64 (nsWord c)) s)))

/-- CLOVE_REF: the selected 10 MHz input shows no edge for 1 us (R320). -/
def execCloveRef (s : State) : Res :=
  .next (if rb s CK_CTRL 0 then postLog logCloveRef 0 blkCK 0 0 (putB CK_CTRL 1 true s) else s)

/-- A whole second of Clove time falls in the current tick. -/
def secondInTick (s : State) : Bool := s.clk.ns == 0 || (clockAt s 1279).sec != s.clk.sec

/-- Milliseconds for which PPS_OUT stays high: 0 acts as 1, values above 999 as 999 (R349). -/
def ppsWidth (s : State) : Nat := max 1 (min 999 (rf s CK_CTRL 16 10))

/-- PPS_OUT_EDGE: PPS_OUT rises, and stays high for pps_width_ms (R322). -/
def execPpsOutEdge (s : State) : Res :=
  .next (if inService s && rb s CK_CTRL 2 && secondInTick s then emit (.ppsOut (ppsWidth s)) s else s)

/-- PPS_IN_EDGE: the edge latches Clove time and counts (R322). -/
def execPpsInEdge (cyc : Cyc) (s : State) : Res :=
  let c := clockAt s cyc.val
  .next (if s.life.stage1Done then
    putReg CK_PPS_IN_SEC (BitVec.ofNat 64 c.sec.toNat) (putReg CK_PPS_IN_NS
      (BitVec.ofNat 64 (nsWord c + (rf s CK_PPS_IN_NS 48 16 + 1) % 65536 * 2 ^ 48)) s)
  else s)

end Sys2Proof.Machine
end

