-- ==== Sys2Proof/Machine/Windows.lean ====
section
/-! DEFINITION. What a read of setup space returns, the snapshot latches and the structured windows (18 R514, R517;
19 R520, R523 to R530). -/
namespace Sys2Proof.Machine

/-! ### Fields that reflect state of their own -/

/-- Number of a register in a family. -/
def famIdx (off base stride : Nat) : Nat := (off - base) / stride

/-- Offset within an element of a family. -/
def famOff (off base stride : Nat) : Nat := (off - base) % stride

/-- pair_bypass of SB_STATUS: the pair forwards through the bypass (R36, R40, R543, R555). -/
def pairBypassBit (s : State) (p : Nat) : Nat := b2n (bypassForwards s (Fin.ofNat 4 (2 * p)))

/-- SB (R36, R37). -/
def readSB (s : State) (off : Nat) (v : Word) : Word :=
  if off = SB_STATUS then
    BitVec.ofNat 64 (s.life.stage.val + b2n s.life.stage1Done * 2 ^ 2 + b2n s.life.bistFail * 2 ^ 3
      + b2n s.life.identityBad * 2 ^ 4 + b2n s.life.vppOk * 2 ^ 5 + b2n s.life.hkLoaded * 2 ^ 6
      + s.life.parseLoaded.toNat * 2 ^ 7 + fld v 12 2 * 2 ^ 12 + pairBypassBit s 0 * 2 ^ 14 + pairBypassBit s 1 * 2 ^ 15
      + s.life.resetCause.toNat * 2 ^ 16)
  else if off = SB_CTRL then BitVec.ofNat 64 (b2n (decide (2 ≤ s.life.stage.val)))
  else v

/-- FS (R51, R52). -/
def readFS (s : State) (off : Nat) (v : Word) : Word :=
  if off = FS_IDENTITY_LO then s.life.identity.setWidth 64
  else if off = FS_IDENTITY_HI then (s.life.identity >>> 64).setWidth 64
  else if off = FS_PROTECT then setFld (setBit s.life.sensed.setup 0 true) 48 7 (arbCount s.life.sensed.arb)
  else if off = FS_ARB_RAW then s.life.sensed.arb
  else if FS_KEYHASH 0 0 ≤ off then
    (keyHash s (famIdx off (FS_KEYHASH 0 0) 0x30) >>> (8 * famOff off (FS_KEYHASH 0 0) 0x30)).setWidth 64
  else v

/-- tag_mode: the tags PF0 uses (R106, R73). -/
def tagMode (s : State) : Nat :=
  let c := cfgOf s 0
  if c.tag14 && s.link.flit then 2 else if c.tag10 then 1 else 0

/-- HL (R106). -/
def readHL (s : State) (off : Nat) (v : Word) : Word :=
  if off = HL_LINK_STATUS then
    BitVec.ofNat 64 (s.link.speed.toNat + s.link.width.toNat * 2 ^ 3 + b2n s.link.flit * 2 ^ 8 + tagMode s * 2 ^ 9
      + b2n s.link.up * 2 ^ 11 + s.link.l1.toNat * 2 ^ 12 + fld v 16 32 * 2 ^ 16)
  else v

/-- Instance state code (R150). -/
def istateCode : IState → Nat
  | .off => 0 | .on => 1 | .resetting => 2 | .faulted => 3

/-- IM (R168, R169). -/
def readIM (s : State) (off : Nat) (v : Word) : Word :=
  if off < IM_REFUSED then
    let fn := famIdx off (IM_FN_SHARE 0) 8
    setFld (setFld v 16 20 (share s .queues fn)) 36 20 (share s .contexts fn)
  else if IM_INST_A 0 ≤ off ∧ off < IM_INST_A 4096 then
    let k := famIdx off (IM_INST_A 0) 16
    let x := instOf s (k / 1024) (k % 1024)
    if off % 16 = 0 then
      BitVec.ofNat 64 (istateCode x.state + x.gen.toNat * 2 ^ 8 + x.pasid.toNat * 2 ^ 16 + x.bind.toNat * 2 ^ 36
        + b2n x.logOn * 2 ^ 46 + b2n x.logOverflow * 2 ^ 47)
    else BitVec.ofNat 64 (x.logCount.toNat + x.epoch.toNat * 2 ^ 32)
  else v

/-- CL (R249). -/
def readCL (s : State) (off : Nat) (v : Word) : Word :=
  if off < CL_STAGE_A 0 0 ∧ famOff off (CL_SHADOW 0) 0x100 = 0 ∧ CL_SHADOW 0 ≤ off then
    BitVec.ofNat 64 (shadowsUsed s (famIdx off (CL_SHADOW 0) 0x100))
  else if CL_CHAIN 0 ≤ off ∧ off < CL_CHAIN 4 ∧ famOff off (CL_CHAIN 0) 0x100 = 0 then
    setBit v 24 (jtExcess s (famIdx off (CL_CHAIN 0) 0x100))
  else if CL_EPOCH 0 ≤ off ∧ off < CL_EPOCH 4 ∧ famOff off (CL_EPOCH 0) 0x100 = 0 then
    getReg s (CL_EPOCH (epochHome s (famIdx off (CL_EPOCH 0) 0x100)))
  else v

/-- FT (R273, R275): units, or the entries of a stage that nodes take, those that await release among them. -/
def readFT (s : State) (off : Nat) (v : Word) : Word :=
  if off < FT_DIR_MAP 0 0 ∧ famOff off 0x60000 0x100 = 0x18 then setFld v 0 19 (stationUse s (famIdx off 0x60000 0x100))
  else if FT_LPM_USE 0 0 ≤ off ∧ off < FT_LPM_USE 4 0 then
    let pl := famIdx off (FT_LPM_USE 0 0) 0x40
    let k := famOff off (FT_LPM_USE 0 0) 0x40 / 8
    BitVec.ofNat 64 ((if k = 0 then lpmUnits s pl else stageUse (routeNodes s pl) k) % 2 ^ 23)
  else v

/-- TM (R302 to R305). -/
def readTM (s : State) (off : Nat) (v : Word) : Word :=
  let used (p : Buf → Bool) : Nat := cellSum s p
  if off = TM_BUF_USE then BitVec.ofNat 64 (sharedSize s + sharedUsed s * 2 ^ 32)
  else if off = TM_HR_USE then BitVec.ofNat 64 (hrReserved s + used (fun b => b.region == .headroom) * 2 ^ 32)
  else if off = TM_G_USE then
    BitVec.ofNat 64 (used (fun b => match b.region with | .guaranteed fn _ => fn == 1 | _ => false)
      + used (fun b => match b.region with | .guaranteed fn _ => fn == 3 | _ => false) * 2 ^ 32)
  else if off = TM_SPILL_USE then BitVec.ofNat 64 (spillBytes s)
  else if off = TM_TICK then BitVec.ofNat 64 (tickNow s).toNat
  else if TM_PORT_C 8 ≤ off + 0x10 ∧ off < TM_PORT_A 13 ∧ 0x10 ≤ famOff off (TM_PORT_A 0) 0x40
      ∧ famOff off (TM_PORT_A 0) 0x40 ≤ 0x20 ∧ 8 ≤ famIdx off (TM_PORT_A 0) 0x40 then 0
  else if TM_PORT_A 0 ≤ off ∧ off < TM_PORT_A 8 ∧ 0x18 ≤ famOff off (TM_PORT_A 0) 0x40
      ∧ famOff off (TM_PORT_A 0) 0x40 ≤ 0x28 ∧ !portExists s (famIdx off (TM_PORT_A 0) 0x40) then 0
  else if TM_CLASS_CNT_A 0 ≤ off ∧ off < TM_CLASS_CNT_A 512 ∧ off % 0x20 = 0x18 then
    BitVec.ofNat 64 (classUse s (famIdx off (TM_CLASS_CNT_A 0) 0x20))
  else v

/-- Thread state code (R372). -/
def tstateCode : TState → Nat
  | .halted => 0 | .ready => 1 | .running => 2 | .stalled => 3 | .stopped => 4 | .faulted => 5 | .frozen => 6

/-- Number, core and kind of a channel: true for a mailbox. -/
def chnParts : Chn → Nat × Nat × Bool
  | .local c n => (n, c, false)
  | .mbox c n => (n, c, true)

/-- wait, wait_ch and wait_core of a thread (R394). -/
def waitFields (x : Thread) : Nat :=
  let at_ (code n c : Nat) : Nat := code * 2 ^ 4 + n % 64 * 2 ^ 8 + c % 32 * 2 ^ 14
  match x.wait with
  | .none => 0
  | .cluster => at_ 1 0 0
  | .dram => at_ 2 0 0
  | .call => at_ 3 0 0
  | .timer _ => at_ 4 0 0
  | .recv (.local _ n) _ => at_ 5 n 0
  | .claim (.local _ n) => at_ 6 n 0
  | .recv (.mbox c n) _ => at_ 7 n c
  | .claim (.mbox c n) => at_ 8 n c
  | .join _ _ _ => at_ 3 0 0
  | .remoteSend k => at_ 9 (chnParts k).1 (if (chnParts k).2.2 then (chnParts k).2.1 else 0)

/-- Word A of a thread's registers (R394). -/
def threadWordA (s : State) (c t : Nat) : Word :=
  let x := threadOf s c t
  let stalled : Bool := match x.state with | .stalled => true | .frozen => true | _ => false
  let claim : Nat := match x.claim with
    | none => 0
    | some k => let p := chnParts k
                2 ^ 3 + b2n p.2.2 * 2 ^ 19 + p.1 % 64 * 2 ^ 20 + (if p.2.2 then p.2.1 % 32 * 2 ^ 26 else 0)
  BitVec.ofNat 64 (tstateCode x.state + (if stalled then waitFields x else 0) + claim
    + (if x.state = .running then 0 else x.pc.toNat % 2 ^ 15 * 2 ^ 32))

/-- Bits of the threads of a core in a state. -/
def threadBits (s : State) (c : Nat) (st : TState) : Nat :=
  ((threadsOf c).map (fun t => if (threadOf s c t).state = st then 2 ^ t else 0)).sum

/-- FC (R393 to R396). -/
def readFC (s : State) (off : Nat) (v : Word) : Word :=
  if off < FC_CORE_CTRL 32 then
    if famOff off (FC_CORE_CTRL 0) 0x40 = 8 then
      let c := famIdx off (FC_CORE_CTRL 0) 0x40
      setFld (setFld (setFld (setBit v 24 (allHalted s c)) 0 8 (threadBits s c .halted)) 8 8 (threadBits s c .frozen)) 16 8
        (threadBits s c .faulted)
    else v
  else if FC_THR_A 0 ≤ off ∧ off < FC_THR_A 256 then
    if off % 0x20 = 0 then let n := famIdx off (FC_THR_A 0) 0x20; threadWordA s (n / 8) (n % 8) else v
  else if FC_DBG_CTRL 0 ≤ off ∧ off < FC_DBG_CTRL 33 then
    if debugLocked s then 0
    else if famOff off (FC_DBG_CTRL 0) 0x40 = 0 then
      BitVec.ofNat 64 (threadBits s (famIdx off (FC_DBG_CTRL 0) 0x40) .stopped * 2 ^ 24)
    else v
  else if off = FC_HK_STATUS then setBit v 0 (hkRunning s)
  else v

/-- Pair state code (R330). -/
def pairCode : PairMode → Nat
  | .bypass => 0 | .armed => 1 | .taking => 2 | .service => 3 | .off => 4

/-- PP (R347). -/
def readPP (s : State) (off : Nat) (v : Word) : Word :=
  if off = PP_PAIR_C 0 then setFld v 16 3 (pairCode (pairOf s 0).state)
  else if off = PP_PAIR_C 1 then setFld v 16 3 (pairCode (pairOf s 1).state)
  else v

/-- FX_LAST_FAULT (R516). -/
def readFX (s : State) (off : Nat) (v : Word) : Word :=
  if off = FX_LAST_FAULT_A then
    match s.life.lastFault with
    | none => 0
    | some r => BitVec.ofNat 64 (1 + r.cause.toNat * 2 ^ 8 + r.block.toNat * 2 ^ 16 + r.detail.toNat * 2 ^ 32)
  else if off = FX_LAST_FAULT_B then match s.life.lastFault with | none => 0 | some r => r.time
  else if off = FX_LAST_FAULT_C then s.life.laterFaults.setWidth 64
  else v

/-- ST (R447, R448). -/
def readST (s : State) (off : Nat) (v : Word) : Word :=
  if off = ST_LOCK_USE then BitVec.ofNat 64 (s.st.cmds.filter (fun e => e.2.held)).length
  else if ST_ELOG_A 0 ≤ off ∧ off < ST_ELOG_A 1024 then
    let x := elogOf s (famIdx off (ST_ELOG_A 0) 16)
    if off % 16 = 0 then setFld x.base 0 12 x.sizeLog2.toNat else x.nextSeq.setWidth 64
  else v

/-- Bay state code (R453). -/
def bayCode : BayState → Nat
  | .empty => 0 | .off => 1 | .powering => 2 | .training => 3 | .init => 4 | .ready => 5 | .stopping => 6 | .failed => 7

/-- MB: the registers of a bay that is not enabled read 0 (R449, R470). -/
def readMB (s : State) (off : Nat) (v : Word) : Word :=
  if MB_BAY_A 0 ≤ off ∧ off < MB_BAY_A 4 then
    let b := famIdx off (MB_BAY_A 0) 0x100
    if !bayEnabled s b then 0
    else if off = MB_BAY_B b then
      let x := bayOf s b
      let io := match x.ident with | some p => p.ioQueues.toNat | none => 0
      setFld (setFld (setFld (setFld (setBit v 0 x.present) 4 3 (bayCode x.state)) 16 3 x.linkSpeed.toNat) 19 4 x.linkWidth.toNat)
        23 7 io
    else v
  else v

/-- Journal state code (R500). -/
def jstateCode : JState → Nat
  | .closed => 0 | .opening => 1 | .opened => 2 | .closing => 3 | .lost => 4

/-- CG (R500). -/
def readCG (s : State) (off : Nat) (v : Word) : Word :=
  if off = CG_STATUS then BitVec.ofNat 64 (s.cg.groups.length + jstateCode s.cg.jstate * 2 ^ 32 + s.cg.bay.toNat * 2 ^ 36)
  else if off = CG_JOURNAL_SEQ then s.cg.nextSeq
  else if off = CG_JOURNAL_USE then
    BitVec.ofNat 64 ((s.cg.records.filter liveRecord).length % 2 ^ 20 + (logSize s - s.cg.logUsed) / 2 ^ 20 * 2 ^ 32)
  else if off = CG_STAGING then BitVec.ofNat 64 (poolUsed s)
  else v

/-- NP: the registers of a port that the mode does not form read 0 (R171). -/
def readNP (s : State) (off : Nat) (v : Word) : Word :=
  if NP_RX_FRAMES 0 ≤ off ∧ off < NP_RX_FRAMES 8 ∧ !portExists s (famIdx off (NP_RX_FRAMES 0) 0x80) then 0
  else v

/-- The value of a register with the fields that reflect other state. -/
def readBlock (s : State) (num off : Nat) (v : Word) : Word :=
  match num with
  | 1 => readFS s off v
  | 2 => readSB s off v
  | 3 => readHL s off v
  | 5 => readIM s off v
  | 6 => readNP s off v
  | 8 => readPP s off v
  | 9 => readCL s off v
  | 10 => readFT s off v
  | 11 => readTM s off v
  | 14 => readFC s off v
  | 16 => readST s off v
  | 17 => readMB s off v
  | 18 => readCG s off v
  | 19 => readFX s off v
  | _ => v

/-- BLOCK_ID of a block (R520). -/
def blockId (b : Block) : Word := BitVec.ofNat 64 (b.num + b.sizeLog2 * 2 ^ 16)

/-- Setup space outside the SB and FS blocks is open: stage 1 is done (R66). -/
def blockOpen (s : State) (num : Nat) : Bool := num == blkSB || num == blkFS || s.life.stage1Done

/-- What a read of an 8-byte register of setup space returns (R10, R66, R519, R520). Write-only bits read 0. -/
def readReg (s : State) (off : Nat) : Word :=
  match blockOf off with
  | none => 0
  | some b =>
    if !blockOpen s b.num then 0
    else if off = blockErrOff b then getReg s off
    else if off + 8 = blockErrOff b then blockId b
    else match regRow off with
      | none => 0
      | some r => readBlock s b.num off (getReg s off &&& ~~~ r.wo)

/-! ### Snapshots (R514, R517) -/

/-- Count a run of free values as used. -/
def useFrees (n : Nat) (s : State) : State := { s with freeCtr := s.freeCtr + n }

/-- Write words into consecutive registers. -/
def putWords (off : Nat) : List Word → State → State
  | [], s => s
  | w :: ws, s => putWords (off + 8) ws (putReg off w s)

/-- Words of a latch: 0 acts as 1, values above 512 as 512. -/
def snapCount (s : State) (n : Nat) : Nat := max 1 (min 512 (rf s (FX_SNAP_A n) 16 10))

/-- First word of a latch. -/
def snapSource (s : State) (n : Nat) : Nat := rf s (FX_SNAP_B n) 3 23 * 8

/-- The run of a latch lies within one block. -/
def snapWithin (s : State) (n : Nat) : Bool :=
  let a := snapSource s n
  match blockOf a, blockOf (a + 8 * (snapCount s n - 1)) with
  | some x, some y => x == y
  | _, _ => false

/-- A go of a latch, at a Clove-cycle boundary: the run is copied as reads of it return it, or refused (R514). -/
def snapGo (n cyc : Nat) (s : State) : State :=
  if snapWithin s n then
    let ws := (List.range (snapCount s n)).map (fun k => readReg s (snapSource s n + 8 * k))
    let s' := putWords (FX_SNAP_DATA n 0) ws s
    putReg (FX_SNAP_D n) (time64 (clockAt s cyc)) (putF (FX_SNAP_C n) 0 32 (rf s (FX_SNAP_C n) 0 32 + 1) s')
  else putB (FX_SNAP_A n) 2 true s

/-- SNAPSHOT (R514). -/
def execSnapshot (n : Fin 4) (cyc : Cyc) (s : State) : Res := .next (setupWrite s (snapGo n.val cyc.val))

/-! ### Window structures (R526) -/

/-- Entry bytes of a structure; 0 for a code that is not one. -/
def winSize : Nat → Nat
  | 0x01 => 64 | 0x02 => 32 | 0x08 => 16 | 0x09 => 32 | 0x0A => 16 | 0x0B => 8 | 0x0C => 8 | 0x0D => 16
  | 0x10 => 32 | 0x11 => 8 | 0x12 => 16 | 0x13 => 64 | 0x14 => 64 | 0x15 => 64 | 0x16 => 16
  | 0x18 => 32 | 0x19 => 32 | 0x1A => 32 | 0x1B => 40 | 0x20 => 256
  | 0x28 => 32 | 0x29 => 16 | 0x2A => 40 | 0x2B => 64 | 0x2C => 8 | 0x2D => 8
  | 0x30 => 16 | 0x31 => 16 | 0x32 => 64 | 0x33 => 8 | 0x38 => 64 | 0x39 => 16 | 0x40 => 136 | 0x41 => 64
  | _ => 0

/-- A number of entries for units below a bound. -/
def below (unit n entries : Nat) : Option Nat := if unit < n then some entries else none

/-- Entries of a structure for a unit; none for an unknown structure or a unit out of range. -/
def winEntries (code unit : Nat) : Option Nat :=
  match code with
  | 0x01 => below unit 4 (poolSize .queues unit)
  | 0x02 => below unit 4 (poolSize .evqs unit)
  | 0x08 => below unit 5 (if unit = 4 then 1024 else 8192)
  | 0x09 => below unit 5 (16 * staBuckets unit)
  | 0x0A => below unit 4 1048576
  | 0x0B => below unit 4 8192
  | 0x0C => if unit % 8 = 0 then none else below unit 32 (if unit % 8 = 1 then 1048576 else 4194304)
  | 0x0D => below unit 4 1048576
  | 0x10 => below unit 4 65536
  | 0x11 => below unit 4 64
  | 0x12 => below unit 4 131072
  | 0x13 => below unit 4 262144
  | 0x14 => below unit 4 4096
  | 0x15 => below unit 4 1024
  | 0x16 => below unit 4 262144
  | 0x18 => below unit 1 1048576
  | 0x19 => below unit 1 65536
  | 0x1A => below unit 1 512
  | 0x1B => below unit 1 262144
  | 0x20 => below unit 1 1048576
  | 0x28 => below unit 1 4096
  | 0x29 => below unit 1 1024
  | 0x2A => below unit 1 1024
  | 0x2B => below unit 1 1024
  | 0x2C => below unit 68 (schedLimit unit)
  | 0x2D => below unit 68 (schedLimit unit)
  | 0x30 => below unit 1 4096
  | 0x31 => below unit 1 8192
  | 0x32 => below unit 1 1024
  | 0x33 => below unit 1 4096
  | 0x38 => below unit 1 65536
  | 0x39 => below unit 4 1024
  | 0x40 => below unit 33 (if unit = 32 then 1 else 8)
  | 0x41 => below unit 33 (if unit = 32 then 65536 else 8192)
  | _ => none

/-- Structures with access RW. -/
def winWritable (code : Nat) : Bool := [0x29, 0x2B, 0x2C, 0x30, 0x31, 0x32, 0x33, 0x40, 0x41].contains code

/-- Debug structures (R530). -/
def winDebug (code : Nat) : Bool := code == 0x40 || code == 0x41

/-- An epoch-bound entry: view 0 as a frame dealt now sees it, view 1 the main entry (R525). -/
def viewEntry (s : State) (k : TabKind) (pl key view n : Nat) : Bytes :=
  slice (if view = 0 then entryAt s k pl key (epochCurrent s pl) else mainEntry s k pl key) 0 n

/-- A queue context (R117). -/
def queueWords (q : Queue) : List Word :=
  [q.w0, q.w1, q.w2, q.w3, BitVec.ofNat 64 (q.head.toNat + q.fetch.toNat * 2 ^ 32),
   BitVec.ofNat 64 (q.pSeen.toNat + q.latched.toNat * 2 ^ 32),
   BitVec.ofNat 64 (qstateCode q.qstate + b2n q.evPending * 2 ^ 4 + b2n q.reread * 2 ^ 5 + q.stopStatus.toNat * 2 ^ 16), 0]

/-- An event queue context (R138). -/
def evqWords (e : Evq) : List Word :=
  [e.w0, e.w1, BitVec.ofNat 64 (e.prod.toNat + e.consSeen.toNat * 2 ^ 32),
   BitVec.ofNat 64 (e.suppressed.toNat + b2n e.overflow * 2 ^ 32)]

/-- The shaper word in effect (R293). -/
def shaperWord (b : TokenBucket) : Word := BitVec.ofNat 64 (b2n b.en + b.rate.toNat * 2 ^ 8 + b.burst.toNat * 2 ^ 32)

/-- Last touch, pending and depth (R527). -/
def touchWord (b : TokenBucket) (depth : Nat) : Word :=
  BitVec.ofNat 64 (b.last.toNat + b2n b.pending.isSome * 2 ^ 32 + depth % 2 ^ 20 * 2 ^ 33)

/-- A node entry (R527). -/
def nodeWords (config : Word) (b : TokenBucket) (depth : Nat) : List Word :=
  [config, shaperWord b, BitVec.ofNat 64 (wrapInt 64 b.tokens), touchWord b depth]

/-- A meter entry (R527). -/
def meterWords (m : Meter) : List Word :=
  [m.config, m.cWord, m.pWord, touchWord m.c 0, BitVec.ofNat 64 (wrapInt 32 m.c.tokens + wrapInt 32 m.p.tokens * 2 ^ 32)]

/-- A CB function (R528). -/
def cbWords (x : CbFn) : List Word :=
  [BitVec.ofNat 64 (x.history.toNat + x.resetTicks.toNat * 2 ^ 16 + x.genNext.toNat * 2 ^ 32 + x.recHigh.toNat * 2 ^ 48),
   x.recVector.setWidth 64, x.passed, x.discarded, x.rogue, x.tagless, x.resets, 0]

/-- An image entry (R336). -/
def imageWords (x : Image) : List Word :=
  [x.host, BitVec.ofNat 64 (b2n x.front + b2n x.fresh * 2 + x.flips.toNat * 2 ^ 32)]

/-- A frame table entry as last written (R338). -/
def frameEntry (s : State) (n : Nat) : Word × Word :=
  match tabFind s.plant.framesNew n with
  | some e => e
  | none => tabGet (fun _ => ((0, 0) : Word × Word)) s.plant.frames n

/-- Namespace state code (R426). -/
def nsCode : NsState → Nat
  | .off => 0 | .online => 1 | .degradedA => 2 | .degradedB => 3 | .rebuilding => 4 | .absent => 5

/-- A namespace entry (R529). -/
def nsEntry (s : State) (fns : Nat) : Bytes :=
  let n := nsOf s fns
  let cmds := s.st.cmds.filter (fun e => e.2.fns.toNat == fns)
  slice n.conf 0 40 ++
    leBytes 8 (nsCode n.state + b2n n.failedA * 2 ^ 3 + b2n n.failedB * 2 ^ 4 + n.cmpwMax.toNat * 2 ^ 16
      + b2n n.trimZeroes * 2 ^ 32) ++
    leBytes 8 (cmds.length + (cmds.filter (fun e => e.2.held)).length * 2 ^ 32) ++ leBytes 8 0

/-- A pack namespace entry (R529). -/
def packNsWords (s : State) (b n : Nat) : List Word :=
  match (bayOf s b).ident with
  | none => [0, 0]
  | some p => match p.namespaces[n]? with
    | none => [0, 0]
    | some x => [BitVec.ofNat 64 (x.nsid.toNat + 2 ^ 32 + x.lbads.toNat * 2 ^ 40 + b2n x.deallocZero * 2 ^ 48), x.capacity]

/-- A thread registers entry (R530). -/
def threadWords (s : State) (c t : Nat) : List Word :=
  let x := threadOf s c t
  (List.range 16).map (fun n => getG x n) ++ [BitVec.ofNat 64 x.pc.toNat]

/-- Address of a line of thread memory (R530). -/
def linePlace (c n : Nat) : Place :=
  if c = 32 then .hk (64 * n) else .slice (sliceBase c (n / 1024) + 64 * (n % 1024))

/-- A pair of a counter structure. -/
def pairWords (p : Word × Word) : List Word := [p.1, p.2]

/-- The bytes of an entry (R525 to R530). -/
def winEntry (s : State) (code unit view n : Nat) : Bytes :=
  match code with
  | 0x01 => wordsBytes (queueWords (queueOf s unit n))
  | 0x02 => wordsBytes (evqWords (evqOf s unit n))
  | 0x08 => leBytes 16 (csShown (tabGet (fun _ => (0 : BitVec 128)) s.pipe.cs (8192 * unit + n))).toNat
  | 0x09 => viewEntry s .station unit n view 32
  | 0x0A => viewEntry s .direct unit n view 16
  | 0x10 => viewEntry s .action unit n view 32
  | 0x11 => viewEntry s .root unit n view 8
  | 0x12 => viewEntry s .node unit n view 16
  | 0x13 => viewEntry s .rule unit n view 64
  | 0x14 => viewEntry s .program unit n view 64
  | 0x15 => viewEntry s .template unit n view 64
  | 0x16 => wordsBytes (pairWords (tabGet (fun _ => ((0, 0) : Word × Word)) s.tab.pairs (2 ^ 18 * unit + n)))
  | 0x18 => wordsBytes (nodeWords (leafOf s n).config (leafOf s n).bucket (leafDepth s n))
  | 0x19 => wordsBytes (nodeWords (groupOf s n).config (groupOf s n).bucket 0)
  | 0x1A => wordsBytes (nodeWords (classOf s n).config (classOf s n).bucket 0)
  | 0x1B => wordsBytes (meterWords (meterOf s n))
  | 0x20 => splice (ctxOf s n) 0x20 (List.replicate 32 0)
  | 0x28 => viewEntry s .stream 4 n view 32
  | 0x29 => wordsBytes [tabGet (fun _ => (0 : Word)) s.plant.filters n, 0]
  | 0x2A => wordsBytes ((List.range 5).map (fun c => tabGet (fun _ => (0 : Word)) s.plant.filterCounts (8 * n + c)))
  | 0x2B => wordsBytes (cbWords (cbOf s n))
  | 0x2C => wordsBytes [tabGet (fun _ => (0 : Word)) (schedOf s unit).admin n]
  | 0x2D => wordsBytes [match (schedOf s unit).oper with | none => 0 | some o => o.list.getD n 0]
  | 0x30 => wordsBytes (imageWords (imageOf s n))
  | 0x31 => wordsBytes (pairWords (frameEntry s n))
  | 0x32 => templateBytes s n
  | 0x33 => wordsBytes [tabGet (fun _ => (0 : Word)) s.plant.rxMap n]
  | 0x38 => nsEntry s n
  | 0x39 => wordsBytes (packNsWords s unit n)
  | 0x40 => wordsBytes (threadWords s unit n)
  | 0x41 => placeRead s (linePlace unit n) 64
  | _ => []

/-- What an entry of the route engine's stores that nothing takes now was left with: 0 while the pipeline holds no route,
else free values. -/
def routeLeft (s : State) (pl k : Nat) : Word := if (routeKeys s pl).isEmpty then 0 else Config.freeValue (s.freeCtr + k)

/-- The words of an entry of the route engine's stores (R265). -/
def routeWords (s : State) (code unit view n k : Nat) : List Word :=
  match code with
  | 0x0B => [rootWord s unit view n]
  | 0x0C => [stageWord s (unit / 8) (unit % 8) n (routeLeft s (unit / 8) k)]
  | _ => resultWords s unit n (routeLeft s unit k, routeLeft s unit (k + 1))

/-- Words that a read returns. -/
def winWords (s : State) (code unit view n count : Nat) : List Word :=
  if code = 0x0B ∨ code = 0x0C ∨ code = 0x0D then
    (List.range count).flatMap (fun i => routeWords s code unit view (n + i) (2 * i))
  else
    let b := (List.range count).flatMap (fun i => winEntry s code unit view (n + i))
    (List.range (b.length / 8)).map (fun k => leWord b (8 * k))

/-! ### Writes of entries -/

/-- The host fields of an image entry but enable. -/
def imageRest (w : Word) : Word := setBit w 0 false

/-- The structure's own rules let an entry be written (R524, R526, R530). -/
def winMay (s : State) (code unit n : Nat) (b : Bytes) : Bool :=
  match code with
  | 0x30 =>
    let old := (imageOf s n).host
    let new := leWord b 0
    (!bit old 0 && !bit new 0) || imageRest old == imageRest new
  | 0x40 => (threadOf s unit n).state == .stopped
  | 0x41 => (threadOf s unit (if unit = 32 then 0 else n / 1024)).state == .stopped
  | _ => true

/-- Registers and pc of a stopped thread; g0 is not written. -/
def writeThread (c t : Nat) (b : Bytes) (s : State) : State :=
  putThread c t { threadOf s c t with
    regs := (List.range 15).map (fun k => leWord b (8 * (k + 1)))
    pc := BitVec.ofNat 20 (lef b 128 0 (if c = 32 then 20 else 15)) } s

/-- A window write of one entry; fields marked "Device" are ignored. -/
def winPut (code unit n : Nat) (b : Bytes) (s : State) : State :=
  let w := leWord b 0
  match code with
  | 0x29 => { s with plant := { s.plant with filters := tabSet (fun _ => (0 : Word)) s.plant.filters n w } }
  | 0x2B => putCb n (cbReset { cbOf s n with history := BitVec.ofNat 6 (fld w 0 6), resetTicks := BitVec.ofNat 16 (fld w 16 16) }) s
  | 0x2C => let x := schedOf s unit
            putSched unit { x with admin := tabSet (fun _ => (0 : Word)) x.admin n w } s
  | 0x30 => putImage n { imageOf s n with host := w } s
  | 0x31 => { s with plant := { s.plant with framesNew := tabInsert s.plant.framesNew n (w, leWord b 8) } }
  | 0x32 => { s with plant := { s.plant with templates := tabSet (fun _ => []) s.plant.templates n (if allZero b then [] else b) } }
  | 0x33 => { s with plant := { s.plant with rxMap := tabSet (fun _ => (0 : Word)) s.plant.rxMap n w } }
  | 0x40 => writeThread unit n b s
  | 0x41 => placeWrite (linePlace unit n) b s
  | _ => s

/-! ### Window operations (R524) -/

/-- Statuses of an operation. -/
def WIN_STRUCT : Nat := 1
def WIN_INDEX : Nat := 2
def WIN_READ_ONLY : Nat := 3
def WIN_LOCKED : Nat := 5
def WIN_STATE : Nat := 6
def WIN_GO : Nat := 7

/-- Count of a window's request: 0 acts as 1. -/
def winCount (s : State) (w : Nat) : Nat := max 1 (rf s (DV_WIN_SEL w) 24 8)

/-- The data words of a window as bytes. -/
def winData (s : State) (w : Nat) : Bytes := wordsBytes ((List.range 64).map (fun k => getReg s (DV_WIN_DATA w k)))

/-- The bytes of the i-th entry of a window's data. -/
def winSlot (s : State) (w size i : Nat) : Bytes := slice (winData s w) (size * i) size

/-- The status of a request, in the order of R524. -/
def winStatus (s : State) (w : Nat) (write : Bool) : Nat :=
  let sel := DV_WIN_SEL w
  let code := rf s sel 0 8
  let unit := rf s sel 8 8
  let n := rf s sel 32 32
  let count := winCount s w
  match winEntries code unit with
  | none => WIN_STRUCT
  | some total =>
    if total < n + count ∨ 512 < count * winSize code then WIN_INDEX
    else if write && !winWritable code then WIN_READ_ONLY
    else if winDebug code && debugLocked s then WIN_LOCKED
    else if write && !(List.range count).all (fun i => winMay s code unit (n + i) (winSlot s w (winSize code) i)) then WIN_STATE
    else 0

/-- An operation ends: status, done and seq. -/
def winEnd (w status : Nat) (s : State) : State :=
  let c := getReg s (DV_WIN_CTRL w)
  putReg (DV_WIN_CTRL w) (setFld (setFld (setBit c 3 true) 8 8 status) 32 32 (fld c 32 32 + 1)) s

/-- What an operation moves. -/
def winMove (w : Nat) (write : Bool) (s : State) : State :=
  let sel := DV_WIN_SEL w
  let code := rf s sel 0 8
  let unit := rf s sel 8 8
  let n := rf s sel 32 32
  let count := winCount s w
  if write then
    recheckArmed ((List.range count).foldl (fun t i => winPut code unit (n + i) (winSlot s w (winSize code) i) t) s)
  else useFrees 64 (putWords (DV_WIN_DATA w 0) (winWords s code unit (rf s sel 16 1) n count) s)

/-- One operation of a window. With debug locked, the data words of a debug structure read 0. -/
def winGo (w : Nat) (write : Bool) (s : State) : State :=
  let st := winStatus s w write
  if st = 0 then winEnd w 0 (winMove w write s)
  else if st = WIN_LOCKED then winEnd w st (putWords (DV_WIN_DATA w 0) (List.replicate 64 0) s)
  else winEnd w st s

/-- WINDOW_READ (R524). -/
def execWindowRead (w : Fin 4) (s : State) : Res := .next (setupWrite s (winGo w.val false))

/-- WINDOW_WRITE (R524). -/
def execWindowWrite (w : Fin 4) (s : State) : Res := .next (setupWrite s (winGo w.val true))

end Sys2Proof.Machine
end

