-- ==== Sys2Proof/Machine/BarRead.lean ====
section
/-! DEFINITION. Reads of BAR0 and BAR2: what each returns, how it is completed, and accesses of a wrong shape (03 R73, R77,
R80 to R84; 19 R519, R531). -/
namespace Sys2Proof.Machine

/-- The state an outcome leaves. -/
def nextOf (r : Res) (s : State) : State :=
  match r with
  | .next t => t
  | _ => s

/-! ### What a read returns -/

/-- A word of a function's MSI-X area: the table, the pending bits, and 0 elsewhere (R77). -/
def msixRead (s : State) (fn off : Nat) : Word :=
  if off < 0x100 then tabGet msixDefault s.link.msixTable (0x2000 * fn + off)
  else if off = 0x1000 then BitVec.ofNat 64 (fld s.link.msixPending (16 * fn) 16)
  else 0

/-- SP_LINKS of a function's status page: the links of PF1, the bays of PF2, the links and pairs of PF3 (R531). -/
def statusLinks (s : State) (fn : Nat) : Word :=
  BitVec.ofNat 64 (match fn with
    | 1 => ((List.range 8).map (fun n => b2n (netUp s n) * 2 ^ n)).sum
    | 2 => ((List.range 4).map (fun b => bayCode (bayOf s b).state * 2 ^ (4 * b))).sum
    | _ => ((List.range 4).map (fun q => b2n (rb s (PP_PORT_A q) 32) * 2 ^ q)).sum
        + pairCode (pairOf s 0).state * 2 ^ 4 + pairCode (pairOf s 1).state * 2 ^ 8)

/-- A word of the status page of PF1, PF2 or PF3 (R531). -/
def statusPage (s : State) (fn off : Nat) : Word :=
  if off = 0 then
    BitVec.ofNat 64 (s.life.stage.val + b2n (rb s HL_FN_QUIESCE (8 + fn)) * 2 ^ 2 + b2n (rb s HL_FN_QUIESCE (12 + fn)) * 2 ^ 3
      + rf s HL_EPOCH (4 * fn) 4 * 2 ^ 4 + rf s (IM_FN_SHARE fn) 0 4 * 2 ^ 8 + (pageSeq s fn).toNat * 2 ^ 32)
  else if off = 8 then statusLinks s fn
  else if 0x100 ≤ off ∧ off < 0x200 then
    BitVec.ofNat 64 ((List.range 32).map (fun m => istateCode (instOf s fn (4 * (off - 0x100) + m)).state * 2 ^ (2 * m))).sum
  else 0

/-- An 8-byte word of PF0 BAR0, and whether no chapter assigns it (R519). -/
def pf0Word (s : State) (off : Nat) : Word × Bool :=
  if 0x3FE0000 ≤ off ∧ off < 0x3FE2000 then (if s.life.stage1Done then msixRead s 0 (off - 0x3FE0000) else 0, false)
  else match blockOf off with
    | none => (0, true)
    | some b =>
      (readReg s off, blockOpen s b.num && (regRow off).isNone && off != blockErrOff b && off + 8 != blockErrOff b)

/-- An 8-byte word of the BAR0 of PF1, PF2 or PF3, and whether it lies outside its MSI-X table, its PBA and its status
page (R81, R531). -/
def pfWord (s : State) (fn off : Nat) : Word × Bool :=
  if off < 0x100 ∨ (0x1000 ≤ off ∧ off < 0x1008) then (msixRead s fn off, false)
  else if 0x2000 ≤ off ∧ off < 0x3000 then (statusPage s fn (off - 0x2000), false)
  else (0, decide (off < 0x10000))

/-- The word of a function's BAR0. -/
def bar0Word (s : State) (fn off : Nat) : Word × Bool := if fn = 0 then pf0Word s off else pfWord s fn off

/-! ### How it is completed -/

/-- The completions of a read: none crosses a boundary of 64 bytes, the Read Completion Boundary (R73). -/
def rcbSplit : Nat → Nat → Nat → List (Nat × Nat)
  | 0, _, _ => []
  | fuel + 1, off, len =>
    if len = 0 then [] else
    let n := min len (64 - off % 64)
    (off, n) :: rcbSplit fuel (off + n) (len - n)

/-- A read is completed with its data. -/
def completeRead (fn : Fn) (off : Nat) (data : Bytes) (s : State) : State :=
  (rcbSplit data.length off data.length).foldl (fun s p =>
    linkBusy (emit (.readCompletion fn (slice data (p.1 - off) p.2)) s)) s

/-- A read is completed with Unsupported Request. -/
def refuseRead (fn : Fn) (s : State) : State := linkBusy (emit (.readUnsupported fn) s)

/-- A naturally aligned access of 4 or 8 bytes (R81). -/
def rightShape (off len : Nat) : Bool := (len == 4 || len == 8) && off % len == 0

/-- An access of a function's BAR0 that no chapter assigns is counted: in PF0 in its block or in DV, elsewhere in DV
(R81, R519). -/
def countBar0 (fn : Fn) (off : Nat) (s : State) : State :=
  if fn = 0 then countUnmapped off s else addErr (blockErrOff (blockNum blkDV)) 1 s

/-- A read of the right shape of BAR0; one of CK_TIME_NS first latches the time, at an instant it does not tell (R320). -/
def readBar0 (fn : Fn) (off len : Nat) (s : State) : State :=
  let s := if fn = 0 ∧ off / 8 * 8 = CK_TIME_NS then nextOf (execTimeLatch (Fin.ofNat 1280 (freeNow s).toNat) (useFree s)) s else s
  let w := bar0Word s fn.val (off / 8 * 8)
  completeRead fn off (slice (leBytes 8 w.1.toNat) (off % 8) len) (if w.2 then countBar0 fn off s else s)

/-- An access of a wrong shape is logged as Unsupported Request and counted (R81, R89). -/
def badShape (fn : Fn) (off : Nat) (s : State) : State := countBar0 fn off (aerReport fn .unsupportedRequest (linkBusy s))

/-- BAD_SHAPE_ACCESS (R81, R83, R84, R89): a write of a wrong shape to BAR0, or a read of BAR0 or BAR2, of whatever
shape: while the BAR is closed it is answered Unsupported Request. -/
def execBadShapeAccess (fn : Fn) (off : BitVec 26) (access : BarAccess) (s : State) : Res :=
  if !linkUp s || !fnPresent s fn.val then .next s else
  match access with
  | .write => .next (if barOpen s fn.val then badShape fn off.toNat s else tlpDropped s)
  | .read0 len =>
    .next (if !barOpen s fn.val then refuseRead fn s
      else if rightShape off.toNat len.toNat then readBar0 fn off.toNat len.toNat (linkBusy s)
      else refuseRead fn (badShape fn off.toNat s))
  | .read2 len =>
    .next (if barOpen s fn.val then completeRead fn off.toNat (List.replicate len.toNat 0) (linkBusy s) else refuseRead fn s)

end Sys2Proof.Machine
end

