-- ==== Sys2Proof/Machine/RegWrite.lean ====
section
/-! DEFINITION. REGISTER_WRITE: a BAR0 write of any register, by its field types, with the effect of each register that has
one of its own (R10, R81, R519, R531). -/
namespace Sys2Proof.Machine

/-- An effect at an instant within the present tick that the write does not tell: a free number of cycles. -/
def atInstant (f : Nat → State → State) (s : State) : State := f ((freeNow s).toNat % 1280) (useFree s)

/-! ### MSI-X tables (R77) -/

/-- Bits of an MSI-X table word that the host sets: address [63:2]; data and the mask bit. -/
def msixMaskOf (off : Nat) : Word := if off % 16 = 0 then 0xFFFFFFFFFFFFFFFC#64 else 0x1FFFFFFFF#64

/-- A write of the bits `m` of a word of a function's MSI-X table; a vector that may now be sent is sent. -/
def msixWrite (fn : Fn) (off : Nat) (m v : Word) (s : State) : State :=
  let k := 0x2000 * fn.val + off
  let old := tabGet msixDefault s.link.msixTable k
  let m := m &&& msixMaskOf off
  flushMsix fn { s with link := { s.link with msixTable := tabSet msixDefault s.link.msixTable k ((old &&& ~~~ m) ||| (v &&& m)) } }

/-! ### Registers whose write has an effect of its own -/

/-- SB_CTRL (R37). -/
def sbCtrlWrite (w : Word) (s : State) : State :=
  let s := if bit w 0 then nextOf (execBootEnable s) s else s
  if bit w 1 then nextOf (execGoService s) s else s

/-- FX_LAST_FAULT A: a write of valid clears the register (R516). -/
def lastFaultWrite (w : Word) (s : State) : State :=
  if bit w 0 then { s with life := { s.life with lastFault := none, laterFaults := 0 } } else s

/-- MB_BAY words A and C; word B by its field types (R470). `low` is whether the write reaches bits [31:0]. -/
def bayRegWrite (off b : Nat) (low : Bool) (w : Word) (s : State) : Option State :=
  if !bayEnabled s b then some s
  else if off = MB_BAY_A b then
    let s := putF (MB_BAY_A b) 2 4 (fld w 2 4) s
    some (if !low then s
      else if bit w 0 then nextOf (execBayPowerOn (Fin.ofNat 4 b) s) s
      else if rb s (MB_BAY_A b) 0 then nextOf (execBayPowerOff (Fin.ofNat 4 b) (bit w 1) s) s
      else s)
  else if off = MB_BAY_C b then
    some (nextOf (execLifeThresholdWrite (Fin.ofNat 4 b) (BitVec.ofNat 8 (fld w 16 8)) (BitVec.ofNat 8 (fld w 24 8)) s) s)
  else none

/-- QE_CTL_SETUP: its other registers keep their values while a request is under way (R558). -/
def qeCtlHeld (s : State) (off : Nat) : Bool :=
  rb s QE_CTL_GO 2 && decide (QE_CTL_CTX 0 ≤ off) && decide (off < QE_CTL_GO)

/-- A register of a network port that the mode does not form. -/
def unformed (s : State) (off : Nat) : Bool :=
  (decide (NP_PORT_CTRL 0 ≤ off) && decide (off < NP_PORT_CTRL 8) && !portExists s (famIdx off (NP_PORT_CTRL 0) 8)) ||
  (decide (TM_PORT_A 0 ≤ off) && decide (off < TM_PORT_A 8) && !portExists s (famIdx off (TM_PORT_A 0) 0x40)) ||
  (decide (CK_PORT_CORR 0 ≤ off) && decide (off < CK_PORT_CORR 8) && !portExists s (famIdx off (CK_PORT_CORR 0) 8))

/-- A debug register while debug is locked (R387). -/
def debugHeld (s : State) (off : Nat) : Bool :=
  debugLocked s && decide (FC_DBG_CTRL 0 ≤ off) && decide (off < FC_DBG_CTRL 33)

/-- The whole effect of a write to a register that does not follow its field types alone; none for any other register.
`w` is the whole word as the write leaves it: the host's fields of a half not written keep their values. -/
def ownWrite (off : Nat) (low : Bool) (w : Word) (s : State) : Option State :=
  if off = SB_CTRL then some (sbCtrlWrite w s)
  else if off = HL_FN_QUIESCE then some (quiesceWrite w s)
  else if off = HL_PW_COMMIT then some (pwCommit w s)
  else if IM_FN_SHARE 0 ≤ off ∧ off < IM_FN_SHARE 4 then some (fnShareWrite (famIdx off (IM_FN_SHARE 0) 8) w s)
  else if IM_INST_A 0 ≤ off ∧ off < IM_INST_A 4096 then
    let k := famIdx off (IM_INST_A 0) 16
    some (nextOf (execInstRegisterWrite (Fin.ofNat 4 (k / 1024)) (BitVec.ofNat 10 k) (off % 16 != 0) w s) s)
  else if off = NP_MODE then some (npModeWrite w s)
  else if FT_LEARN_CTRL 0 ≤ off ∧ off < FT_LEARN_CTRL 5 ∧ famOff off (FT_LEARN_CTRL 0) 0x100 = 0x10 then
    some (nextOf (execHashSeedWrite (Fin.ofNat 5 (famIdx off (FT_LEARN_CTRL 0) 0x100)) w s) s)
  else if off = TM_BUF_CTRL then some (bufCtrlWrite w s)
  else if off = IG_CTRL then some (if low then recheckArmed (igCtrlWrite w s) else s)
  else if off = CX_CTRL then some (if low then nextOf (execCxCtrlWrite w s) s else s)
  else if off = CG_CTRL then some (if low then nextOf (execCgCtrlWrite w s) s else s)
  else if off = FX_LAST_FAULT_A then some (lastFaultWrite w s)
  else if MB_BAY_A 0 ≤ off ∧ off < MB_BAY_A 4 then bayRegWrite off (famIdx off (MB_BAY_A 0) 0x100) low w s
  else if unformed s off || qeCtlHeld s off || debugHeld s off then some s
  else none

/-! ### Effects that follow the fields -/

/-- Write-only bits of QE_CTL_GO: a write that sets both has no effect (R558). -/
def qeGo (act : Word) (s : State) : State :=
  match bit act 0, bit act 1 with
  | true, false => nextOf (execQeCtlEnable s) s
  | false, true => nextOf (execQeCtlDisable s) s
  | _, _ => s

/-- Go bits of a window: both in one write end with WIN_GO (R524). -/
def windowGo (w : Nat) (act : Word) (s : State) : State :=
  match bit act 0, bit act 1 with
  | true, true => winEnd w WIN_GO s
  | true, false => winGo w false s
  | false, true => winGo w true s
  | false, false => s

/-- Stops, resumes and steps of a core's threads (R395). -/
def debugGo (c : Nat) (act : Word) (s : State) : State :=
  let each (lo : Nat) (f : CoreHk → Thr → State → Res) (s : State) : State :=
    (List.range 8).foldl (fun s t => if bit act (lo + t) then nextOf (f (Fin.ofNat 33 c) (Fin.ofNat 8 t) s) s else s) s
  each 16 execDebugStep (each 8 execResume (each 0 execStop s))

/-- Halt and thaw of a core (R393). -/
def coreGo (c : Nat) (act : Word) (s : State) : State :=
  let s := if bit act 0 then nextOf (execCoreHalt (Fin.ofNat 32 c) s) s else s
  if bit act 1 then nextOf (execThaw (Fin.ofNat 32 c) s) s else s

/-- Kill and start of a thread (R394). -/
def threadGo (n : Nat) (act : Word) (s : State) : State :=
  let s := if bit act 0 then nextOf (execKill (Fin.ofNat 32 (n / 8)) (Fin.ofNat 8 n) s) s else s
  if bit act 1 then nextOf (execStart (Fin.ofNat 32 (n / 8)) (Fin.ofNat 8 n) s) s else s

/-- Arm, release and disarm of a pair (R347). -/
def pairGo (p : Nat) (act : Word) (s : State) : State :=
  let s := if bit act 0 then atInstant (fun c => arm p c) s else s
  let s := if bit act 1 then atInstant (fun c s => bypassPair p 0x0B (clockAt s c) s) s else s
  if bit act 2 then unarm p 0x09 s else s

/-- NP_PORT_CTRL: enable is ignored before stage 3; a port disabled goes down; PFC is computed again (R197, R281). -/
def netPortWritten (n : Nat) (old : Word) (s : State) : State :=
  let s := if inService s then s else putB (NP_PORT_CTRL n) 0 (bit old 0) s
  if !rb s (NP_PORT_CTRL n) 0 then netDown n s
  else if netUp s n ∧ (fld old 16 14 ≠ rf s (NP_PORT_CTRL n) 16 14 ∨ fld old 32 8 ≠ rf s (NP_PORT_CTRL n) 32 8) then reservePfc n s
  else s

/-- TM_PORT words A and B: the shaper is accepted, and H is computed again (R281, R295). -/
def tmPortWritten (n o : Nat) (old : Word) (s : State) : State :=
  if o = 0 then putPortBucket n (acceptShaper (portBucket s n) (tickNow s) (getReg s (TM_PORT_A n))) s
  else if o = 8 ∧ n < 8 ∧ netUp s n ∧ fld old 32 32 ≠ rf s (TM_PORT_B n) 32 32 then reservePfc n s
  else s

/-- QE_SWEEP: the first period begins at the write that sets sweep_en (R129). -/
def sweepWritten (k : Nat) (old : Word) (s : State) : State :=
  if !bit old 0 && rb s (QE_SWEEP k) 0 then putSweepDue k (tickNs s + sweepPeriod s k) s else s

/-- PP registers: a port disabled goes down; a change or a go acts; ARMED pairs are checked again (R331, R345 to R347). -/
def ppWritten (off : Nat) (act : Word) (s : State) : State :=
  if PP_PORT_A 0 ≤ off ∧ off < PP_PORT_A 4 then
    let q := famIdx off (PP_PORT_A 0) 0x40
    recheckArmed (if rb s (PP_PORT_A q) 0 then s else plantDown q s)
  else if PP_PAIR_A 0 ≤ off ∧ off < PP_PAIR_A 2 then pairGo (famIdx off (PP_PAIR_A 0) 0x40) act s
  else if PP_SCHED_A 0 ≤ off ∧ off < PP_SCHED_A 68 then
    recheckArmed (if bit act 32 then atInstant (fun c => scheduleChange (famIdx off (PP_SCHED_A 0) 0x40) c) s else s)
  else s

/-- CK_RATE takes effect from the next cycle (R320): the cycles of the tick so far are counted at the rate before. -/
def rateWritten (old : Word) (s : State) : State :=
  atInstant (fun c s =>
    { s with clk := clockAt (putReg CK_RATE old s) c, mon := { s.mon with rateCyc := max c s.mon.rateCyc } }) s

/-- HL_PTM_CTRL: the first period begins at the write that sets periodic, and trigger starts an exchange (R102). -/
def ptmWritten (old act : Word) (s : State) : State :=
  let s := if !bit old 1 && rb s HL_PTM_CTRL 1 then
      { s with link := { s.link with ptmDue := 1024 * s.ticks + ptmPeriod s } } else s
  if bit act 0 then atInstant ptmStart s else s

/-- What follows a write by the field types: `old` is the register before, `act` its write-only bits written 1. -/
def afterWrite (off : Nat) (low : Bool) (old act : Word) (s : State) : State :=
  if off = DV_PACE_CTRL then
    paceEnabled (bit old 0) (if bit act 8 then nextOf (execClearExtremes s) s else s)
  else if DV_WIN_SEL 0 ≤ off ∧ off < DV_WIN_SEL 4 ∧ famOff off (DV_WIN_SEL 0) 0x1000 = 8 then
    windowGo (famIdx off (DV_WIN_SEL 0) 0x1000) act s
  else if off = HL_PTM_CTRL then ptmWritten old act s
  else if off = QE_CTL_GO then qeGo act s
  else if QE_SWEEP 0 ≤ off ∧ off < QE_SWEEP 4096 then sweepWritten (famIdx off (QE_SWEEP 0) 8) old s
  else if NP_PORT_CTRL 0 ≤ off ∧ off < NP_PORT_CTRL 8 then netPortWritten (famIdx off (NP_PORT_CTRL 0) 8) old s
  else if TM_PORT_A 0 ≤ off ∧ off < TM_PORT_A 13 then
    tmPortWritten (famIdx off (TM_PORT_A 0) 0x40) (famOff off (TM_PORT_A 0) 0x40) old s
  else if PP_PLANT_CTRL ≤ off ∧ off < CK_CTRL then ppWritten off act s
  else if off = CK_RATE then rateWritten old s
  else if off = CK_STEP_NS then (if low then atInstant (ckStep act) s else s)
  else if FC_CORE_CTRL 0 ≤ off ∧ off < FC_CORE_CTRL 32 ∧ famOff off (FC_CORE_CTRL 0) 0x40 = 0 then
    coreGo (famIdx off (FC_CORE_CTRL 0) 0x40) act s
  else if FC_THR_A 0 ≤ off ∧ off < FC_THR_A 256 ∧ off % 0x20 = 8 then threadGo (famIdx off (FC_THR_A 0) 0x20) act s
  else if FC_DBG_CTRL 0 ≤ off ∧ off < FC_DBG_CTRL 33 ∧ famOff off (FC_DBG_CTRL 0) 0x40 = 0 then
    debugGo (famIdx off (FC_DBG_CTRL 0) 0x40) act s
  else if FX_SNAP_A 0 ≤ off ∧ off < FX_SNAP_A 4 ∧ off % 0x20 = 0 then
    (if bit act 0 then atInstant (snapGo (famIdx off (FX_SNAP_A 0) 0x20)) s else s)
  else s

/-! ### The write -/

/-- The bits of a register after a write of the bits `m` (R10): RW fields set, W1C bits cleared, all else kept. -/
def plainValue (r : RegRow) (old m v : Word) : Word :=
  ((old &&& ~~~ (r.rw &&& m)) ||| (v &&& r.rw &&& m)) &&& ~~~ (v &&& r.w1c &&& m)

/-- The whole word a write leaves for a register of its own effect: RW fields of the half not written keep their values,
W1C and write-only bits of it are not written. -/
def wholeValue (s : State) (off : Nat) (r : RegRow) (m v : Word) : Word :=
  (readReg s off &&& r.rw &&& ~~~ m) ||| (v &&& m)

/-- A write of an assigned register. The seconds of a step are kept for the write that applies it (R349). -/
def writeRow (off : Nat) (r : RegRow) (m v : Word) (s : State) : State :=
  match ownWrite off (bit m 0) (wholeValue s off r m v) s with
  | some t => t
  | none =>
    let old := getReg s off
    let new := plainValue r old m v
    let new := if off = CK_STEP_SEC then (old &&& ~~~ (r.wo &&& m)) ||| (v &&& r.wo &&& m) else new
    afterWrite off (bit m 0) old (v &&& r.wo &&& m) (putReg off new s)

/-- A write of the bits `m` of the 8-byte word at an offset of PF0 BAR0. -/
def writePf0 (off : Nat) (m v : Word) (s : State) : State :=
  if 0x3FE0000 ≤ off ∧ off < 0x3FE2000 then
    if off < 0x3FE0100 && s.life.stage1Done then msixWrite 0 (off - 0x3FE0000) m v s else s
  else match blockOf off with
    | none => countUnmapped off s
    | some b =>
      if !blockOpen s b.num then s
      else if off = blockErrOff b ∨ off + 8 = blockErrOff b then s
      else match regRow off with
        | none => countUnmapped off s
        | some r => writeRow off r m v s

/-- A write of the bits `m` of the word at an offset of the 64 KiB BAR0 of PF1, PF2 or PF3 (R531). -/
def writePf (fn : Fn) (off : Nat) (m v : Word) (s : State) : State :=
  if 0x10000 ≤ off then s
  else if off < 0x100 then msixWrite fn off m v s
  else if (0x1000 ≤ off ∧ off < 0x1008) ∨ (0x2000 ≤ off ∧ off < 0x3000) then s
  else addErr (blockErrOff (blockNum blkDV)) 1 s

/-- A write of 4 or 8 bytes: the 8-byte offset, the bits written and the value in their place. -/
def registerWrite (fn : Fn) (off : Nat) (four : Bool) (v : Word) (s : State) : State :=
  let hi := four && off % 8 == 4
  let m : Word := if four then (if hi then 0xFFFFFFFF00000000#64 else 0xFFFFFFFF#64) else BitVec.allOnes 64
  let v := if hi then v <<< 32 else v
  let o := off / 8 * 8
  if fn = 0 then writePf0 o m v s else writePf fn o m v s

/-- REGISTER_WRITE (R10, R81, R84). A write that is not naturally aligned has a wrong shape. -/
def execRegisterWrite (fn : Fn) (off : BitVec 26) (four : Bool) (v : BitVec 64) (s : State) : Res :=
  if off.toNat % (if four then 4 else 8) ≠ 0 then execBadShapeAccess fn off .write s
  else .next (if barOpen s fn.val && fnPresent s fn.val then registerWrite fn off.toNat four v (linkBusy s) else tlpDropped s)

end Sys2Proof.Machine
end

