-- ==== Sys2Proof/Machine/Dispatch.lean ====
section
/-! DEFINITION. One arm for each command: its meaning. -/
namespace Sys2Proof.Machine

/-- The effect of a command on everything but the queue of commands. -/
def exec (i : Instr) (s : State) : Host.Outcome State Fault Refusal :=
  match i with
  | .vddAonGood pb01 pb23 => Sys2Proof.Machine.execVddAonGood pb01 pb23 s
  | .plantReferenceStable => Sys2Proof.Machine.execPlantReferenceStable s
  | .bypassStart => Sys2Proof.Machine.execBypassStart s
  | .bypassFrame port frame fcsOk => Sys2Proof.Machine.execBypassFrame port frame fcsOk s
  | .vddAonLoss => Sys2Proof.Machine.execVddAonLoss s
  | .perstAssert => Sys2Proof.Machine.execPerstAssert s
  | .perstRelease => Sys2Proof.Machine.execPerstRelease s
  | .fuseSenseDone => Sys2Proof.Machine.execFuseSenseDone s
  | .bistDone fail => Sys2Proof.Machine.execBistDone fail s
  | .dramTrainDone failed => Sys2Proof.Machine.execDramTrainDone failed s
  | .stage1Done => Sys2Proof.Machine.execStage1Done s
  | .rrsPeriodEnd => Sys2Proof.Machine.execRrsPeriodEnd s
  | .configurationRequest fn off => Sys2Proof.Machine.execConfigurationRequest fn off s
  | .configWrite fn field v => Sys2Proof.Machine.execConfigWrite fn field v s
  | .bootEnable => Sys2Proof.Machine.execBootEnable s
  | .goService => Sys2Proof.Machine.execGoService s
  | .stage3Entry => Sys2Proof.Machine.execStage3Entry s
  | .bootDescriptorFetch d => Sys2Proof.Machine.execBootDescriptorFetch d s
  | .bootLoad img => Sys2Proof.Machine.execBootLoad img s
  | .bootFuse img => Sys2Proof.Machine.execBootFuse img s
  | .fuseLinkBurn verified => Sys2Proof.Machine.execFuseLinkBurn verified s
  | .hotReset => Sys2Proof.Machine.execHotReset s
  | .dlDown => Sys2Proof.Machine.execDlDown s
  | .flrPf0 => Sys2Proof.Machine.execFlrPf0 s
  | .flr fn => Sys2Proof.Machine.execFlr fn s
  | .flrDone fn => Sys2Proof.Machine.execFlrDone fn s
  | .d3hotEntry fn => Sys2Proof.Machine.execD3hotEntry fn s
  | .d0Return fn => Sys2Proof.Machine.execD0Return fn s
  | .busMasterEnableClear fn => Sys2Proof.Machine.execBusMasterEnableClear fn s
  | .busMasterEnableSet fn => Sys2Proof.Machine.execBusMasterEnableSet fn s
  | .pasidEnableChange fn on => Sys2Proof.Machine.execPasidEnableChange fn on s
  | .linkTrain speed width flit => Sys2Proof.Machine.execLinkTrain speed width flit s
  | .registerWrite fn off four v => Sys2Proof.Machine.execRegisterWrite fn off four v s
  | .badShapeAccess fn off access => Sys2Proof.Machine.execBadShapeAccess fn off access s
  | .peerWrite off data err => Sys2Proof.Machine.execPeerWrite off data err s
  | .peerRead off => Sys2Proof.Machine.execPeerRead off s
  | .pwCommit v => Sys2Proof.Machine.execPwCommit v s
  | .quiesce v => Sys2Proof.Machine.execQuiesce v s
  | .ptmTrigger cyc => Sys2Proof.Machine.execPtmTrigger cyc s
  | .ptmPeriod cyc => Sys2Proof.Machine.execPtmPeriod cyc s
  | .ptmResponse master prop cyc => Sys2Proof.Machine.execPtmResponse master prop cyc s
  | .ptmTimeout => Sys2Proof.Machine.execPtmTimeout s
  | .readCompletion fn epoch work r => Sys2Proof.Machine.execReadCompletion fn epoch work r s
  | .completionTimeout fn work => Sys2Proof.Machine.execCompletionTimeout fn work s
  | .l1Entry => Sys2Proof.Machine.execL1Entry s
  | .magicPacket port => Sys2Proof.Machine.execMagicPacket port s
  | .laneSignalChange port gain => Sys2Proof.Machine.execLaneSignalChange port gain s
  | .ppsInLoss => Sys2Proof.Machine.execPpsInLoss s
  | .cloveTick => Sys2Proof.Machine.execCloveTick s
  | .paceWindow completions => Sys2Proof.Machine.execPaceWindow completions s
  | .clearExtremes => Sys2Proof.Machine.execClearExtremes s
  | .temp sensor => Sys2Proof.Machine.execTemp sensor s
  | .vcore => Sys2Proof.Machine.execVcore s
  | .thermTrip => Sys2Proof.Machine.execThermTrip s
  | .hint fn page chunk bytes intakeFull => Sys2Proof.Machine.execHint fn page chunk bytes intakeFull s
  | .doorbellRecordReturn fn fq r => Sys2Proof.Machine.execDoorbellRecordReturn fn fq r s
  | .sweep fn inst => Sys2Proof.Machine.execSweep fn inst s
  | .descriptorFetch fn fq r ecc => Sys2Proof.Machine.execDescriptorFetch fn fq r ecc s
  | .completionBatch fn fq => Sys2Proof.Machine.execCompletionBatch fn fq s
  | .nop fn fq => Sys2Proof.Machine.execNop fn fq s
  | .countDelta fn fq => Sys2Proof.Machine.execCountDelta fn fq s
  | .queueConfig cq => Sys2Proof.Machine.execQueueConfig cq s
  | .queueEnable cq => Sys2Proof.Machine.execQueueEnable cq s
  | .queueDisable cq => Sys2Proof.Machine.execQueueDisable cq s
  | .disableDone fn fq => Sys2Proof.Machine.execDisableDone fn fq s
  | .queueResume cq => Sys2Proof.Machine.execQueueResume cq s
  | .evqConfig cq => Sys2Proof.Machine.execEvqConfig cq s
  | .qeCtlEnable => Sys2Proof.Machine.execQeCtlEnable s
  | .qeCtlDisable => Sys2Proof.Machine.execQeCtlDisable s
  | .consumerRecordReturn fn fevq r => Sys2Proof.Machine.execConsumerRecordReturn fn fevq r s
  | .overflowReread fn fevq => Sys2Proof.Machine.execOverflowReread fn fevq s
  | .interruptMessage g => Sys2Proof.Machine.execInterruptMessage g s
  | .instEnable cq => Sys2Proof.Machine.execInstEnable cq s
  | .instDisable cq => Sys2Proof.Machine.execInstDisable cq s
  | .instReset cq => Sys2Proof.Machine.execInstReset cq s
  | .dlogEpoch cq => Sys2Proof.Machine.execDlogEpoch cq s
  | .drainComplete fn inst => Sys2Proof.Machine.execDrainComplete fn inst s
  | .fnShareWrite fn v => Sys2Proof.Machine.execFnShareWrite fn v s
  | .instRegisterWrite fn inst wordB v => Sys2Proof.Machine.execInstRegisterWrite fn inst wordB v s
  | .npModeWrite v => Sys2Proof.Machine.execNpModeWrite v s
  | .networkFrameReceive port frame fcsOk overflow cyc => Sys2Proof.Machine.execNetworkFrameReceive port frame fcsOk overflow cyc s
  | .networkLinkUp port => Sys2Proof.Machine.execNetworkLinkUp port s
  | .deal pl => Sys2Proof.Machine.execDeal pl s
  | .parseNop pl unit err => Sys2Proof.Machine.execParseNop pl unit err s
  | .parseMov pl unit err => Sys2Proof.Machine.execParseMov pl unit err s
  | .parseAdd pl unit err => Sys2Proof.Machine.execParseAdd pl unit err s
  | .parseSub pl unit err => Sys2Proof.Machine.execParseSub pl unit err s
  | .parseAnd pl unit err => Sys2Proof.Machine.execParseAnd pl unit err s
  | .parseOr pl unit err => Sys2Proof.Machine.execParseOr pl unit err s
  | .parseXor pl unit err => Sys2Proof.Machine.execParseXor pl unit err s
  | .parseShl pl unit err => Sys2Proof.Machine.execParseShl pl unit err s
  | .parseShr pl unit err => Sys2Proof.Machine.execParseShr pl unit err s
  | .parseCmpeq pl unit err => Sys2Proof.Machine.execParseCmpeq pl unit err s
  | .parseCmplt pl unit err => Sys2Proof.Machine.execParseCmplt pl unit err s
  | .parseTest pl unit err => Sys2Proof.Machine.execParseTest pl unit err s
  | .parseRange pl unit err => Sys2Proof.Machine.execParseRange pl unit err s
  | .parseAdvance pl unit err => Sys2Proof.Machine.execParseAdvance pl unit err s
  | .parseSetcur pl unit err => Sys2Proof.Machine.execParseSetcur pl unit err s
  | .parseMark pl unit err => Sys2Proof.Machine.execParseMark pl unit err s
  | .parseTag pl unit err => Sys2Proof.Machine.execParseTag pl unit err s
  | .parseTunnel pl unit err => Sys2Proof.Machine.execParseTunnel pl unit err s
  | .parseEmit pl unit err => Sys2Proof.Machine.execParseEmit pl unit err s
  | .parseSetf pl unit err => Sys2Proof.Machine.execParseSetf pl unit err s
  | .parseCsum pl unit err => Sys2Proof.Machine.execParseCsum pl unit err s
  | .parseHash pl unit err => Sys2Proof.Machine.execParseHash pl unit err s
  | .parseMalf pl unit err => Sys2Proof.Machine.execParseMalf pl unit err s
  | .stepLimit pl unit => Sys2Proof.Machine.execStepLimit pl unit s
  | .reorderRelease pl src => Sys2Proof.Machine.execReorderRelease pl src s
  | .classifyStage pl frame err => Sys2Proof.Machine.execClassifyStage pl frame err s
  | .headerEdit pl frame => Sys2Proof.Machine.execHeaderEdit pl frame s
  | .epochFlip pl => Sys2Proof.Machine.execEpochFlip pl s
  | .actWrite cq => Sys2Proof.Machine.execActWrite cq s
  | .jtNodeWrite cq r => Sys2Proof.Machine.execJtNodeWrite cq r s
  | .jtRuleWrite cq r => Sys2Proof.Machine.execJtRuleWrite cq r s
  | .jtRootWrite cq => Sys2Proof.Machine.execJtRootWrite cq s
  | .dirWrite cq => Sys2Proof.Machine.execDirWrite cq s
  | .staWrite cq => Sys2Proof.Machine.execStaWrite cq s
  | .lpmWrite cq => Sys2Proof.Machine.execLpmWrite cq s
  | .staFlush cq => Sys2Proof.Machine.execStaFlush cq s
  | .hashSeedWrite pl v => Sys2Proof.Machine.execHashSeedWrite pl v s
  | .learnRequest pl => Sys2Proof.Machine.execLearnRequest pl s
  | .learnApply pl => Sys2Proof.Machine.execLearnApply pl s
  | .ageTick pl => Sys2Proof.Machine.execAgeTick pl s
  | .txSend fn fq r => Sys2Proof.Machine.execTxSend fn fq r s
  | .txLaunch fn fq r => Sys2Proof.Machine.execTxLaunch fn fq r s
  | .txPipe fn fq r => Sys2Proof.Machine.execTxPipe fn fq r s
  | .rxBuf fn fq => Sys2Proof.Machine.execRxBuf fn fq s
  | .rxDeliver fn fq ecc => Sys2Proof.Machine.execRxDeliver fn fq ecc s
  | .spillReturn leaf => Sys2Proof.Machine.execSpillReturn leaf s
  | .scheduleChoice port err cyc => Sys2Proof.Machine.execScheduleChoice port err cyc s
  | .bucketSweep b => Sys2Proof.Machine.execBucketSweep b s
  | .pfcRefresh port k => Sys2Proof.Machine.execPfcRefresh port k s
  | .pfcXon port k => Sys2Proof.Machine.execPfcXon port k s
  | .pfcReceive port prios quanta => Sys2Proof.Machine.execPfcReceive port prios quanta s
  | .pfcPauseExpiry port k => Sys2Proof.Machine.execPfcPauseExpiry port k s
  | .tmLeafWrite cq => Sys2Proof.Machine.execTmLeafWrite cq s
  | .tmGroupWrite cq => Sys2Proof.Machine.execTmGroupWrite cq s
  | .tmClassWrite cq => Sys2Proof.Machine.execTmClassWrite cq s
  | .tmMeterWrite cq => Sys2Proof.Machine.execTmMeterWrite cq s
  | .bufCtrlWrite v => Sys2Proof.Machine.execBufCtrlWrite v s
  | .plantFrameReceive port frame overflow cyc => Sys2Proof.Machine.execPlantFrameReceive port frame overflow cyc s
  | .plantRelease port ecc => Sys2Proof.Machine.execPlantRelease port ecc s
  | .plantFrameEnd port fcsOk cyc => Sys2Proof.Machine.execPlantFrameEnd port fcsOk cyc s
  | .streamWrite cq => Sys2Proof.Machine.execStreamWrite cq s
  | .gateIntervalEnd blk => Sys2Proof.Machine.execGateIntervalEnd blk s
  | .cycleStart blk => Sys2Proof.Machine.execCycleStart blk s
  | .scheduleChange blk cyc => Sys2Proof.Machine.execScheduleChange blk cyc s
  | .scheduleSwitch blk => Sys2Proof.Machine.execScheduleSwitch blk s
  | .launchEligible leaf => Sys2Proof.Machine.execLaunchEligible leaf s
  | .launchLate leaf => Sys2Proof.Machine.execLaunchLate leaf s
  | .ckStep v cyc => Sys2Proof.Machine.execCkStep v cyc s
  | .timeLatch cyc => Sys2Proof.Machine.execTimeLatch cyc s
  | .cloveRef => Sys2Proof.Machine.execCloveRef s
  | .ppsOutEdge => Sys2Proof.Machine.execPpsOutEdge s
  | .ppsInEdge cyc => Sys2Proof.Machine.execPpsInEdge cyc s
  | .arm pair cyc => Sys2Proof.Machine.execArm pair cyc s
  | .disarm pair => Sys2Proof.Machine.execDisarm pair s
  | .release pair cyc => Sys2Proof.Machine.execRelease pair cyc s
  | .takeoverTime pair => Sys2Proof.Machine.execTakeoverTime pair s
  | .pairTaken pair cyc => Sys2Proof.Machine.execPairTaken pair cyc s
  | .rxImageFlip port => Sys2Proof.Machine.execRxImageFlip port s
  | .imgPut fq r seqBefore seqAfter => Sys2Proof.Machine.execImgPut fq r seqBefore seqAfter s
  | .imgGet fq flipped back => Sys2Proof.Machine.execImgGet fq flipped back s
  | .igCtrlWrite v => Sys2Proof.Machine.execIgCtrlWrite v s
  | .ctxWrite cq r => Sys2Proof.Machine.execCtxWrite cq r s
  | .ctxClear cq => Sys2Proof.Machine.execCtxClear cq s
  | .contextFill g ecc => Sys2Proof.Machine.execContextFill g ecc s
  | .cxCtrlWrite v => Sys2Proof.Machine.execCxCtrlWrite v s
  | .msgPost fn fq => Sys2Proof.Machine.execMsgPost fn fq s
  | .mailboxDelivery core mbox => Sys2Proof.Machine.execMailboxDelivery core mbox s
  | .turnLimit core => Sys2Proof.Machine.execTurnLimit core s
  | .longStallEnd core t => Sys2Proof.Machine.execLongStallEnd core t s
  | .threadSwitch core => Sys2Proof.Machine.execThreadSwitch core s
  | .fcAdd core t err => Sys2Proof.Machine.execFcAdd core t err s
  | .fcSub core t err => Sys2Proof.Machine.execFcSub core t err s
  | .fcAnd core t err => Sys2Proof.Machine.execFcAnd core t err s
  | .fcOr core t err => Sys2Proof.Machine.execFcOr core t err s
  | .fcXor core t err => Sys2Proof.Machine.execFcXor core t err s
  | .fcShl core t err => Sys2Proof.Machine.execFcShl core t err s
  | .fcShr core t err => Sys2Proof.Machine.execFcShr core t err s
  | .fcSar core t err => Sys2Proof.Machine.execFcSar core t err s
  | .fcSeq core t err => Sys2Proof.Machine.execFcSeq core t err s
  | .fcSlt core t err => Sys2Proof.Machine.execFcSlt core t err s
  | .fcSltu core t err => Sys2Proof.Machine.execFcSltu core t err s
  | .fcMul core t err => Sys2Proof.Machine.execFcMul core t err s
  | .fcMulhu core t err => Sys2Proof.Machine.execFcMulhu core t err s
  | .fcDstep core t err => Sys2Proof.Machine.execFcDstep core t err s
  | .fcSltu128 core t err => Sys2Proof.Machine.execFcSltu128 core t err s
  | .fcClz core t err => Sys2Proof.Machine.execFcClz core t err s
  | .fcPopc core t err => Sys2Proof.Machine.execFcPopc core t err s
  | .fcBswap core t err => Sys2Proof.Machine.execFcBswap core t err s
  | .fcAddi core t err => Sys2Proof.Machine.execFcAddi core t err s
  | .fcAndi core t err => Sys2Proof.Machine.execFcAndi core t err s
  | .fcOri core t err => Sys2Proof.Machine.execFcOri core t err s
  | .fcXori core t err => Sys2Proof.Machine.execFcXori core t err s
  | .fcShli core t err => Sys2Proof.Machine.execFcShli core t err s
  | .fcShri core t err => Sys2Proof.Machine.execFcShri core t err s
  | .fcSari core t err => Sys2Proof.Machine.execFcSari core t err s
  | .fcSeqi core t err => Sys2Proof.Machine.execFcSeqi core t err s
  | .fcSlti core t err => Sys2Proof.Machine.execFcSlti core t err s
  | .fcSltui core t err => Sys2Proof.Machine.execFcSltui core t err s
  | .fcExtu core t err => Sys2Proof.Machine.execFcExtu core t err s
  | .fcMovi core t err => Sys2Proof.Machine.execFcMovi core t err s
  | .fcLim core t err => Sys2Proof.Machine.execFcLim core t err s
  | .fcLd core t err => Sys2Proof.Machine.execFcLd core t err s
  | .fcSt core t err => Sys2Proof.Machine.execFcSt core t err s
  | .fcSwap core t err => Sys2Proof.Machine.execFcSwap core t err s
  | .fcFadd core t err => Sys2Proof.Machine.execFcFadd core t err s
  | .fcCas core t err => Sys2Proof.Machine.execFcCas core t err s
  | .fcBc core t err => Sys2Proof.Machine.execFcBc core t err s
  | .fcJal core t err => Sys2Proof.Machine.execFcJal core t err s
  | .fcJr core t err => Sys2Proof.Machine.execFcJr core t err s
  | .fcClaim core t err => Sys2Proof.Machine.execFcClaim core t err s
  | .fcPut core t err => Sys2Proof.Machine.execFcPut core t err s
  | .fcSend core t err => Sys2Proof.Machine.execFcSend core t err s
  | .fcRecv core t err => Sys2Proof.Machine.execFcRecv core t err s
  | .fcPoll core t err => Sys2Proof.Machine.execFcPoll core t err s
  | .fcHalt core t err => Sys2Proof.Machine.execFcHalt core t err s
  | .fcWait core t err => Sys2Proof.Machine.execFcWait core t err s
  | .fcTime core t err => Sys2Proof.Machine.execFcTime core t err s
  | .fcTick core t err => Sys2Proof.Machine.execFcTick core t err s
  | .fcTid core t err => Sys2Proof.Machine.execFcTid core t err s
  | .fcYield core t err => Sys2Proof.Machine.execFcYield core t err s
  | .fcBkpt core t err => Sys2Proof.Machine.execFcBkpt core t err s
  | .fcFault core t err => Sys2Proof.Machine.execFcFault core t err s
  | .dmaRd core t r err => Sys2Proof.Machine.execDmaRd core t r err s
  | .dmaWr core t err => Sys2Proof.Machine.execDmaWr core t err s
  | .pktRead core t err => Sys2Proof.Machine.execPktRead core t err s
  | .pktWrite core t err => Sys2Proof.Machine.execPktWrite core t err s
  | .pktSend core t err => Sys2Proof.Machine.execPktSend core t err s
  | .pktFree core t err => Sys2Proof.Machine.execPktFree core t err s
  | .pktNew core t err => Sys2Proof.Machine.execPktNew core t err s
  | .lookup core t err => Sys2Proof.Machine.execLookup core t err s
  | .crypt core t err => Sys2Proof.Machine.execCrypt core t err s
  | .count core t err => Sys2Proof.Machine.execCount core t err s
  | .gopen core t err => Sys2Proof.Machine.execGopen core t err s
  | .gjoin core t err => Sys2Proof.Machine.execGjoin core t err s
  | .gclose core t err => Sys2Proof.Machine.execGclose core t err s
  | .kill core t => Sys2Proof.Machine.execKill core t s
  | .start core t => Sys2Proof.Machine.execStart core t s
  | .coreHalt core => Sys2Proof.Machine.execCoreHalt core s
  | .thaw core => Sys2Proof.Machine.execThaw core s
  | .stop core t => Sys2Proof.Machine.execStop core t s
  | .resume core t => Sys2Proof.Machine.execResume core t s
  | .debugStep core t => Sys2Proof.Machine.execDebugStep core t s
  | .closedWait core => Sys2Proof.Machine.execClosedWait core s
  | .hkHeartbeat => Sys2Proof.Machine.execHkHeartbeat s
  | .stRead fq idx sgl => Sys2Proof.Machine.execStRead fq idx sgl s
  | .stWrite fq idx sgl r => Sys2Proof.Machine.execStWrite fq idx sgl r s
  | .stFlush fq idx => Sys2Proof.Machine.execStFlush fq idx s
  | .stZero fq idx => Sys2Proof.Machine.execStZero fq idx s
  | .stTrim fq idx => Sys2Proof.Machine.execStTrim fq idx s
  | .stCmpwrite fq idx cmp r => Sys2Proof.Machine.execStCmpwrite fq idx cmp r s
  | .nsConfig cq => Sys2Proof.Machine.execNsConfig cq s
  | .stElogConfig cq => Sys2Proof.Machine.execStElogConfig cq s
  | .admission => Sys2Proof.Machine.execAdmission s
  | .lockGrant cmd => Sys2Proof.Machine.execLockGrant cmd s
  | .packCompletion bay cid sf data failLba => Sys2Proof.Machine.execPackCompletion bay cid sf data failLba s
  | .bayPowerOn bay => Sys2Proof.Machine.execBayPowerOn bay s
  | .bayPowerOff bay force => Sys2Proof.Machine.execBayPowerOff bay force s
  | .presenceChange bay present => Sys2Proof.Machine.execPresenceChange bay present s
  | .powerSettle bay => Sys2Proof.Machine.execPowerSettle bay s
  | .bayLinkUp bay speed width => Sys2Proof.Machine.execBayLinkUp bay speed width s
  | .bayTrainingTimeout bay => Sys2Proof.Machine.execBayTrainingTimeout bay s
  | .bayInitDone bay ident => Sys2Proof.Machine.execBayInitDone bay ident s
  | .bayReadyTimeout bay => Sys2Proof.Machine.execBayReadyTimeout bay s
  | .packFailure bay cfs => Sys2Proof.Machine.execPackFailure bay cfs s
  | .shutdownComplete bay => Sys2Proof.Machine.execShutdownComplete bay s
  | .attentionButton bay => Sys2Proof.Machine.execAttentionButton bay s
  | .lifePoll => Sys2Proof.Machine.execLifePoll s
  | .pollAnswer bay ok pct crit => Sys2Proof.Machine.execPollAnswer bay ok pct crit s
  | .lifeThresholdWrite bay warn ro => Sys2Proof.Machine.execLifeThresholdWrite bay warn ro s
  | .nsRebuild cq => Sys2Proof.Machine.execNsRebuild cq s
  | .rebuildChunk slot res => Sys2Proof.Machine.execRebuildChunk slot res s
  | .commitPoint slot => Sys2Proof.Machine.execCommitPoint slot s
  | .journalSubmit slot => Sys2Proof.Machine.execJournalSubmit slot s
  | .retireAppend slot => Sys2Proof.Machine.execRetireAppend slot s
  | .journalOpen cq media => Sys2Proof.Machine.execJournalOpen cq media s
  | .journalClose cq => Sys2Proof.Machine.execJournalClose cq s
  | .cgDiscard cq => Sys2Proof.Machine.execCgDiscard cq s
  | .cgCtrlWrite v => Sys2Proof.Machine.execCgCtrlWrite v s
  | .snapshot n cyc => Sys2Proof.Machine.execSnapshot n cyc s
  | .windowRead w => Sys2Proof.Machine.execWindowRead w s
  | .windowWrite w => Sys2Proof.Machine.execWindowWrite w s
  | .mctpMessage kind body => Sys2Proof.Machine.execMctpMessage kind body s
  | .jtagInstruction x => Sys2Proof.Machine.execJtagInstruction x s
  | .networkLinkDown port => Sys2Proof.Machine.execNetworkLinkDown port s
  | .plantLinkUp port => Sys2Proof.Machine.execPlantLinkUp port s
  | .plantLinkDown port => Sys2Proof.Machine.execPlantLinkDown port s
  | .tempSensorRead die stack0 stack1 => Sys2Proof.Machine.execTempSensorRead die stack0 stack1 s
  | .vppFuseChange inWindow => Sys2Proof.Machine.execVppFuseChange inWindow s
  | .plantReferenceLoss => Sys2Proof.Machine.execPlantReferenceLoss s

end Sys2Proof.Machine
end

