-- ==== Sys2Proof/Safety.lean ====
section
/-! DEFINITION. What counts as a legal state of the block, in the terms the claims use: memories and registers in their
canonical form, a stage that the start steps allow, and the block as an entry to stage 0 or 1 leaves it. -/
namespace Sys2Proof.Machine

/-- Every addressed memory and the register table are in canonical form. -/
def State.memsWf (s : State) : Prop :=
  Memory.wf s.fc.slices = true ∧ Memory.wf s.fc.cluster = true ∧ Memory.wf s.fc.hkMem = true ∧
  Memory.wf s.dram = true ∧ tabWf regDefault s.regs = true

/-- The stage agrees with the supplies and the start steps: nothing runs without VDD_AON (R34), PERST# holds stage 0 (R65),
and stages 2 and 3 are entered only with stage1_done 1 and bist_fail 0 (R37). -/
def State.stageLegal (s : State) : Prop :=
  (s.life.stage ≠ 0 → s.life.aonGood = true) ∧ (s.life.perst = true → s.life.stage = 0) ∧
  (2 ≤ s.life.stage.val → s.life.stage1Done = true ∧ s.life.bistFail = false)

/-- The invariant of the block. -/
def State.legal (s : State) : Prop := s.memsWf ∧ s.stageLegal

/-- The block as an entry to stage 0 or 1 leaves it (R66): all setup, every image and every unit cleared,
and the threads halted with the registers they held (R397). -/
def State.cleared (t : State) : Prop :=
  t.regs = [] ∧ t.q = { queues := [], evqs := [], lastMessage := [], sweepDue := [] } ∧
  t.im = { insts := [], filter := [] } ∧ t.pipe = Pipes.reset ∧ t.tab = Tables.reset ∧ t.tm = Tm.reset ∧
  t.plant = { Plant.reset with pairs := t.plant.pairs } ∧ t.cx = { cache := [] } ∧
  t.fc = { FlowCores.reset with threads := t.fc.threads } ∧
  (∀ e ∈ t.fc.threads, e.2 = { Thread.reset with regs := e.2.regs }) ∧
  t.st = { Storage.reset with bays := t.st.bays } ∧ t.cg = Commit.reset ∧ t.dram = [] ∧ t.ticks = 0

/-- The parts of the state that a frame speaks of. -/
inductive Part where
  /-- The counter of free values used. -/
  | freeCtr
  /-- Ticks since stage 1. -/
  | ticks
  /-- Setup-space registers. -/
  | regs
  /-- Start, boot and fault state, but for the fuses. -/
  | life
  /-- Fuses. -/
  | fuses
  /-- Configuration space of the functions. -/
  | cfg
  /-- MSI-X table, pending bits and the state of the log's interrupt. -/
  | msix
  /-- The rest of the host link. -/
  | link
  /-- Descriptor queues. -/
  | queues
  /-- The rest of the queue engine: event queues, last messages, sweeps. -/
  | evqs
  /-- Instances. -/
  | im
  /-- Monitors. -/
  | mon
  /-- Clove time. -/
  | clk
  /-- Held frames. -/
  | frames
  /-- Pipelines and microcode. -/
  | pipe
  /-- Tables. -/
  | tab
  /-- Traffic manager. -/
  | tm
  /-- Plant side. -/
  | plant
  /-- Contexts. -/
  | cx
  /-- Threads and cores. -/
  | threads
  /-- Channels and mailboxes. -/
  | channels
  /-- Code memory. -/
  | code
  /-- Slices. -/
  | slices
  /-- Cluster memory. -/
  | cluster
  /-- Housekeeping memory. -/
  | hkMem
  /-- Storage but for the bays. -/
  | st
  /-- Bays. -/
  | bays
  /-- Commit groups and journal. -/
  | cg
  /-- Device DRAM. -/
  | dram
  deriving DecidableEq, Repr

/-- A part is the same in two states. -/
def samePart (s t : State) : Part → Prop
  | .freeCtr => t.freeCtr = s.freeCtr
  | .ticks => t.ticks = s.ticks
  | .regs => t.regs = s.regs
  | .life => { t.life with fuses := s.life.fuses } = s.life
  | .fuses => t.life.fuses = s.life.fuses
  | .cfg => t.link.cfg = s.link.cfg
  | .msix => (t.link.msixTable, t.link.msixPending, t.link.logSignalled, t.link.logOwed) =
      (s.link.msixTable, s.link.msixPending, s.link.logSignalled, s.link.logOwed)
  | .link =>
      { t.link with cfg := s.link.cfg, msixTable := s.link.msixTable, msixPending := s.link.msixPending, logSignalled := s.link.logSignalled, logOwed := s.link.logOwed } = s.link
  | .queues => t.q.queues = s.q.queues
  | .evqs => { t.q with queues := s.q.queues } = s.q
  | .im => t.im = s.im
  | .mon => t.mon = s.mon
  | .clk => t.clk = s.clk
  | .frames => (t.pipe.frames, t.pipe.nextFrame) = (s.pipe.frames, s.pipe.nextFrame)
  | .pipe => { t.pipe with frames := s.pipe.frames, nextFrame := s.pipe.nextFrame } = s.pipe
  | .tab => t.tab = s.tab
  | .tm => t.tm = s.tm
  | .plant => t.plant = s.plant
  | .cx => t.cx = s.cx
  | .threads => (t.fc.threads, t.fc.cores, t.fc.hkBeat) = (s.fc.threads, s.fc.cores, s.fc.hkBeat)
  | .channels => (t.fc.chans, t.fc.mboxes) = (s.fc.chans, s.fc.mboxes)
  | .code => t.fc.code = s.fc.code
  | .slices => t.fc.slices = s.fc.slices
  | .cluster => t.fc.cluster = s.fc.cluster
  | .hkMem => t.fc.hkMem = s.fc.hkMem
  | .st => { t.st with bays := s.st.bays } = s.st
  | .bays => t.st.bays = s.st.bays
  | .cg => t.cg = s.cg
  | .dram => t.dram = s.dram

/-- From `s` to `t` only the named parts may differ, and the outputs of `t` are those of `s` with any new ones before. -/
def changesOnly (ps : List Part) (s t : State) : Prop := s.out <:+ t.out ∧ ∀ p, p ∉ ps → samePart s t p

/-- The parts that a command may change while the block stays out of stage 0 and 1. -/
def footprint : Instr → List Part
  | .vddAonGood .. | .gateIntervalEnd .. => [.plant]
  | .plantReferenceStable | .bypassStart | .stage1Done | .rrsPeriodEnd | .thermTrip | .jtagInstruction ..
   | .vppFuseChange .. | .plantReferenceLoss => [.life]
  | .bypassFrame .. | .vddAonLoss | .perstAssert | .perstRelease | .hotReset | .dlDown | .flrPf0 | .temp .. | .vcore
   | .ppsOutEdge | .hkHeartbeat | .mctpMessage .. => []
  | .fuseSenseDone | .bootDescriptorFetch .. | .bootFuse .. => [.freeCtr, .regs, .life, .cfg, .msix, .link]
  | .bistDone .. | .bootEnable => [.regs, .life, .msix, .link]
  | .dramTrainDone .. => [.freeCtr, .regs, .life, .msix, .link]
  | .configurationRequest .. | .flr .. | .flrDone .. | .descriptorFetch .. | .interruptMessage .. =>
    [.freeCtr, .regs, .cfg, .msix, .link, .queues, .evqs, .im, .frames, .pipe, .tab, .tm, .threads, .st, .cg]
  | .configWrite .. => [.cfg, .msix, .link]
  | .goService => [.life, .link]
  | .stage3Entry => [.regs, .life, .msix, .link, .im]
  | .bootLoad .. =>
    [.freeCtr, .regs, .life, .cfg, .msix, .link, .frames, .pipe, .tm, .threads, .code, .slices, .cluster, .hkMem]
  | .fuseLinkBurn .. => [.regs, .life, .fuses, .msix, .link]
  | .d3hotEntry .. =>
    [.freeCtr, .regs, .life, .cfg, .msix, .link, .queues, .evqs, .im, .frames, .tab, .tm, .plant, .threads, .st, .cg]
  | .d0Return .. | .busMasterEnableSet .. | .doorbellRecordReturn .. =>
    [.freeCtr, .regs, .cfg, .msix, .link, .queues, .evqs, .im, .frames, .tab, .tm, .threads, .st, .cg]
  | .busMasterEnableClear .. =>
    [.freeCtr, .regs, .life, .cfg, .msix, .link, .queues, .evqs, .im, .frames, .tab, .tm, .threads, .st, .cg]
  | .pasidEnableChange .. => [.regs, .cfg, .msix, .link, .queues, .im, .frames, .pipe, .tab, .tm, .threads, .st, .cg]
  | .linkTrain .. | .networkLinkUp .. | .cloveRef | .networkLinkDown .. | .plantLinkUp .. => [.regs, .msix, .link]
  | .registerWrite .. =>
    [.freeCtr, .regs, .life, .cfg, .msix, .link, .queues, .evqs, .im, .mon, .clk, .frames, .tab, .tm, .plant, .cx,
     .threads, .channels, .slices, .cluster, .hkMem, .st, .bays, .cg, .dram]
  | .badShapeAccess .. | .fcAdd .. | .fcSub .. | .fcAnd .. | .fcOr .. | .fcXor .. | .fcShl .. | .fcShr .. | .fcSar ..
   | .fcSeq .. | .fcSlt .. | .fcSltu .. | .fcMul .. | .fcMulhu .. | .fcDstep .. | .fcSltu128 .. | .fcClz .. | .fcPopc ..
   | .fcBswap .. | .fcAddi .. | .fcAndi .. | .fcOri .. | .fcXori .. | .fcShli .. | .fcShri .. | .fcSari .. | .fcSeqi ..
   | .fcSlti .. | .fcSltui .. | .fcExtu .. | .fcMovi .. | .fcLim .. | .fcLd .. | .fcBc .. | .fcJal .. | .fcJr ..
   | .fcClaim .. | .fcPut .. | .fcSend .. | .fcRecv .. | .fcPoll .. | .fcHalt .. | .fcWait .. | .fcTime .. | .fcTick ..
   | .fcTid .. | .fcYield .. | .fcBkpt .. | .fcFault .. | .dmaRd .. | .pktRead .. | .pktWrite .. | .pktSend ..
   | .pktFree .. | .pktNew .. | .count .. | .gopen .. | .gjoin .. | .gclose .. =>
    [.freeCtr, .regs, .cfg, .msix, .link, .queues, .frames, .tab, .tm, .threads, .channels, .st, .cg]
  | .peerWrite .. => [.freeCtr, .regs, .cfg, .msix, .link, .plant, .dram]
  | .peerRead .. | .l1Entry => [.link]
  | .pwCommit .. | .ptmTrigger .. | .ptmPeriod .. | .ptmResponse .. | .ptmTimeout | .clearExtremes | .npModeWrite ..
   | .hashSeedWrite .. | .bufCtrlWrite .. | .timeLatch .. | .igCtrlWrite .. | .cgCtrlWrite .. => [.regs, .link]
  | .quiesce .. | .queueDisable .. | .disableDone .. | .queueResume .. | .qeCtlDisable | .staFlush ..
   | .lifeThresholdWrite .. | .nsRebuild .. =>
    [.freeCtr, .regs, .msix, .link, .queues, .evqs, .im, .frames, .tab, .tm, .threads, .st, .cg]
  | .readCompletion .. | .completionTimeout .. =>
    [.freeCtr, .regs, .life, .cfg, .msix, .link, .queues, .evqs, .im, .frames, .pipe, .tab, .tm, .plant, .cx, .threads,
     .channels, .code, .slices, .cluster, .hkMem, .st, .cg, .dram]
  | .magicPacket .. | .laneSignalChange .. | .ppsInLoss => [.regs, .cfg, .link]
  | .cloveTick => [.freeCtr, .ticks, .regs, .msix, .link, .mon, .clk, .frames, .tab, .plant, .threads]
  | .paceWindow .. => [.regs, .msix, .link, .mon]
  | .hint .. => [.regs, .msix, .link, .queues, .evqs, .plant]
  | .sweep .. => [.link, .queues, .evqs]
  | .completionBatch .. => [.freeCtr, .regs, .msix, .link, .queues, .evqs, .im, .cg]
  | .nop .. | .countDelta .. | .queueConfig .. | .queueEnable .. | .actWrite .. | .jtRootWrite .. | .dirWrite ..
   | .staWrite .. | .lpmWrite .. | .rxBuf .. | .streamWrite .. | .nsConfig .. | .stElogConfig .. | .journalOpen ..
   | .journalClose .. | .cgDiscard .. => [.regs, .msix, .link, .queues, .frames, .tab, .tm, .threads, .st, .cg]
  | .evqConfig .. | .instDisable .. => [.regs, .msix, .link, .queues, .evqs, .im, .frames, .tab, .tm, .threads, .st, .cg]
  | .qeCtlEnable => [.regs, .link, .queues, .tm]
  | .consumerRecordReturn .. | .scheduleChoice .. =>
    [.freeCtr, .regs, .cfg, .msix, .link, .queues, .evqs, .im, .frames, .pipe, .tab, .tm, .plant, .threads, .st, .cg]
  | .overflowReread .. => [.link, .evqs]
  | .instEnable .. | .dlogEpoch .. | .stFlush .. | .stZero .. | .stTrim .. =>
    [.regs, .msix, .link, .queues, .im, .frames, .tab, .tm, .threads, .st, .cg]
  | .instReset .. => [.regs, .msix, .link, .queues, .im, .frames, .pipe, .tab, .tm, .threads, .st, .cg]
  | .drainComplete .. => [.regs, .msix, .link, .queues, .evqs, .im, .frames, .pipe, .tab, .tm, .threads, .st, .cg]
  | .fnShareWrite .. | .instRegisterWrite .. => [.regs, .msix, .link, .im]
  | .networkFrameReceive .. => [.regs, .msix, .link, .frames, .pipe, .tm]
  | .deal .. => [.regs, .frames, .pipe]
  | .parseNop .. | .parseMov .. | .parseAdd .. | .parseSub .. | .parseAnd .. | .parseOr .. | .parseXor .. | .parseShl ..
   | .parseShr .. | .parseCmpeq .. | .parseCmplt .. | .parseTest .. | .parseRange .. | .parseAdvance ..
   | .parseSetcur .. | .parseMark .. | .parseTag .. | .parseTunnel .. | .parseEmit .. | .parseSetf .. | .parseCsum ..
   | .parseHash .. | .parseMalf .. => [.freeCtr, .regs, .cfg, .msix, .link, .frames, .pipe]
  | .stepLimit .. => [.frames, .pipe]
  | .reorderRelease .. => [.freeCtr, .regs, .cfg, .msix, .link, .frames, .pipe, .tab, .tm, .threads, .channels]
  | .classifyStage .. =>
    [.freeCtr, .regs, .cfg, .msix, .link, .queues, .evqs, .im, .frames, .pipe, .tab, .tm, .threads, .channels]
  | .headerEdit .. =>
    [.freeCtr, .regs, .cfg, .msix, .link, .queues, .evqs, .im, .frames, .pipe, .tab, .tm, .cx, .threads, .channels,
     .dram]
  | .epochFlip .. | .mailboxDelivery .. =>
    [.regs, .msix, .link, .queues, .im, .frames, .tab, .tm, .cx, .threads, .channels, .st, .cg, .dram]
  | .jtNodeWrite .. | .jtRuleWrite .. | .tmLeafWrite .. | .tmGroupWrite .. | .tmClassWrite .. | .tmMeterWrite .. =>
    [.freeCtr, .regs, .cfg, .msix, .link, .queues, .frames, .tab, .tm, .threads, .st, .cg]
  | .learnRequest .. | .learnApply .. | .ageTick .. => [.freeCtr, .regs, .msix, .link, .queues, .evqs, .im, .tab]
  | .txSend .. | .txLaunch .. =>
    [.freeCtr, .regs, .cfg, .msix, .link, .queues, .evqs, .im, .frames, .tab, .tm, .cx, .threads, .st, .cg, .dram]
  | .txPipe .. => [.freeCtr, .regs, .cfg, .msix, .link, .queues, .frames, .pipe, .tab, .tm, .threads, .st, .cg]
  | .rxDeliver .. | .stRead .. | .stWrite .. | .stCmpwrite .. | .lockGrant .. =>
    [.freeCtr, .regs, .cfg, .msix, .link, .queues, .im, .frames, .tab, .tm, .threads, .st, .cg]
  | .spillReturn .. => [.freeCtr, .regs, .cfg, .msix, .link, .frames, .tm]
  | .bucketSweep .. => [.freeCtr, .regs, .cfg, .msix, .link, .tm]
  | .pfcRefresh .. | .pfcXon .. | .pfcReceive .. => [.regs, .tm]
  | .pfcPauseExpiry .. | .ppsInEdge .. => [.regs]
  | .plantFrameReceive .. => [.regs, .msix, .link, .frames, .pipe, .tm, .plant]
  | .plantRelease .. =>
    [.freeCtr, .regs, .cfg, .msix, .link, .frames, .pipe, .tab, .tm, .plant, .threads, .channels, .dram]
  | .plantFrameEnd .. => [.regs, .msix, .link, .frames, .pipe, .tab, .tm, .plant, .threads, .dram]
  | .cycleStart .. => [.freeCtr, .regs, .cfg, .msix, .link, .queues, .evqs, .im, .frames, .pipe, .tab, .tm, .plant, .dram]
  | .scheduleChange .. | .arm .. | .disarm .. | .takeoverTime .. | .plantLinkDown .. => [.regs, .msix, .link, .plant]
  | .scheduleSwitch .. => [.regs, .plant]
  | .launchEligible .. => [.tm]
  | .launchLate .. => [.regs, .msix, .link, .frames, .tm]
  | .ckStep .. => [.regs, .msix, .link, .clk, .tm, .plant]
  | .release .. => [.freeCtr, .regs, .msix, .link, .queues, .evqs, .im, .frames, .tm, .plant]
  | .pairTaken .. => [.freeCtr, .regs, .msix, .link, .queues, .evqs, .im, .plant]
  | .rxImageFlip .. => [.frames, .pipe, .tab, .tm, .plant, .dram]
  | .imgPut .. =>
    [.freeCtr, .regs, .cfg, .msix, .link, .queues, .evqs, .im, .frames, .tab, .tm, .plant, .threads, .st, .cg, .dram]
  | .imgGet .. =>
    [.freeCtr, .regs, .cfg, .msix, .link, .queues, .evqs, .im, .frames, .tab, .tm, .plant, .threads, .st, .cg]
  | .ctxWrite .. => [.freeCtr, .regs, .cfg, .msix, .link, .queues, .frames, .tab, .tm, .cx, .threads, .st, .cg, .dram]
  | .ctxClear .. => [.regs, .msix, .link, .queues, .frames, .tab, .tm, .cx, .threads, .st, .cg, .dram]
  | .contextFill .. => [.freeCtr, .regs, .cfg, .msix, .link, .cx, .dram]
  | .cxCtrlWrite .. => [.regs, .link, .cx, .dram]
  | .msgPost .. | .kill .. | .coreHalt .. =>
    [.regs, .msix, .link, .queues, .frames, .tab, .tm, .threads, .channels, .st, .cg]
  | .turnLimit .. | .threadSwitch .. => [.threads]
  | .longStallEnd .. => [.regs, .msix, .link, .tab, .threads, .channels, .slices, .cluster, .hkMem, .cg, .dram]
  | .fcSt .. | .fcSwap .. | .fcFadd .. | .fcCas .. =>
    [.freeCtr, .regs, .cfg, .msix, .link, .queues, .frames, .tab, .tm, .threads, .channels, .slices, .cluster, .hkMem,
     .st, .cg, .dram]
  | .dmaWr .. => [.freeCtr, .regs, .cfg, .msix, .link, .queues, .im, .frames, .tab, .tm, .threads, .channels, .st, .cg]
  | .lookup .. =>
    [.freeCtr, .regs, .cfg, .msix, .link, .queues, .evqs, .im, .frames, .tab, .tm, .threads, .channels, .st, .cg]
  | .crypt .. =>
    [.freeCtr, .regs, .cfg, .msix, .link, .queues, .evqs, .im, .frames, .tab, .tm, .cx, .threads, .channels, .st, .cg,
     .dram]
  | .start .. | .stop .. | .resume .. | .debugStep .. => [.link, .threads]
  | .thaw .. => [.regs, .msix, .link, .threads, .channels]
  | .closedWait .. => [.regs, .msix, .link, .threads]
  | .admission .. => [.freeCtr, .regs, .cfg, .msix, .link, .queues, .im, .frames, .pipe, .tab, .tm, .threads, .st, .cg]
  | .packCompletion .. =>
    [.freeCtr, .regs, .msix, .link, .queues, .evqs, .im, .frames, .tab, .tm, .threads, .st, .cg, .dram]
  | .bayPowerOn .. => [.regs, .msix, .link, .bays]
  | .bayPowerOff .. | .presenceChange .. | .packFailure .. =>
    [.freeCtr, .regs, .msix, .link, .queues, .evqs, .im, .frames, .tab, .tm, .threads, .st, .bays, .cg, .dram]
  | .powerSettle .. | .bayLinkUp .. | .lifePoll => [.msix, .link, .bays]
  | .bayTrainingTimeout .. | .bayReadyTimeout .. | .shutdownComplete .. =>
    [.freeCtr, .regs, .msix, .link, .queues, .evqs, .im, .bays]
  | .bayInitDone .. | .pollAnswer .. =>
    [.freeCtr, .regs, .msix, .link, .queues, .evqs, .im, .frames, .tab, .tm, .threads, .st, .bays, .cg]
  | .attentionButton .. => [.freeCtr, .regs, .msix, .link, .queues, .evqs, .im]
  | .rebuildChunk .. => [.freeCtr, .regs, .msix, .link, .queues, .evqs, .im, .st]
  | .commitPoint .. =>
    [.freeCtr, .regs, .cfg, .msix, .link, .queues, .im, .frames, .tab, .tm, .cx, .threads, .channels, .st, .cg, .dram]
  | .journalSubmit .. | .retireAppend .. => [.st, .cg]
  | .snapshot .. => [.freeCtr, .regs, .link]
  | .windowRead .. | .windowWrite .. =>
    [.freeCtr, .regs, .msix, .link, .plant, .threads, .slices, .cluster, .hkMem, .dram]
  | .tempSensorRead .. => [.regs, .mon]

/-- `e` is the entry of a queue that runs next and has an opcode, in the state `u` that `s` is once the members that wait
for a group have been tried again (R124, R473). -/
def NextIs (s : State) (fn fq op : Nat) (e : Entry) (u : State) : Prop :=
  u = joinWaiting fn fq s ∧ entryWith u fn fq op = some e

/-- `u` is the state a NOP or COUNT_DELTA acts on, and `e` its entry: one past its commit point since its fetch (R134), or,
with none, the next entry of the queue. -/
def CountedIs (s : State) (fn fq op : Nat) (e : Entry) (u : State) : Prop :=
  (pastEntry s fn fq op = some e ∧ u = s) ∨ (pastEntry s fn fq op = none ∧ NextIs s fn fq op e u)

/-- The same for an opcode that only the CTL queues of PF0 instance 0 accept (R137). -/
def AdminIs (s : State) (cq op : Nat) (e : Entry) (u : State) : Prop := NextIs s 0 cq op e u ∧ adminQueue u cq = true

/-- A parse unit is about to execute a legal microword of an operation (R206 to R210): its frame, the word at its pc, its
extract value and its operands A and B. -/
structure WordReady (s : State) (pl unit op fid : Nat) (f : Frame) (u : ParseUnit) (m : MicroWord) (a b : BitVec 32) : Prop where
  unit_ : unitOf s pl unit = u
  frame : u.frame = some fid
  held : frameOf s fid = some f
  steps : u.steps.toNat < stepLimit s pl
  word : ∃ p, csDecode (csRead s pl u.pc.toNat) = some (p, false) ∧ m = microWord (BitVec.ofNat 128 p)
  op_ : m.op = op
  legal : illegalWord m = false
  operands : ∃ x, extract m u f.bytes = .value x ∧ a = source m.sa m x u f ∧ b = source m.sb m x u f

/-- A thread of a core is about to run an instruction (R373, R387, R399, R420): it is RUNNING within its turn, no
breakpoint stops it, and the word at its pc is the instruction's. -/
structure FcReady (s : State) (c t op w : Nat) (x : Thread) : Prop where
  known : (threadsOf c).contains t = true
  thread : threadOf s c t = x
  running : x.state = .running
  turn : (coreOf s c).turn < 64
  free : bpHit s c t x.pc = false ∨ x.passBp = true ∨ debugLocked s = true
  word : fetchWord s c x.pc = w
  legal : insnOf (c == 32) w = some op

/-- A thread is about to make an engine call whose block of `n` bytes it may read (R409): the block's address and bytes. -/
structure CallReady (s : State) (c t call n w a : Nat) (b : Bytes) : Prop where
  ready : ∃ x, FcReady s c t (0x1000 + call) w x ∧ a = (getG x (iRa w)).toNat
  aligned : a % 8 = 0
  inside : a + n ≤ if c = 32 then 0x400000 else 0x10000
  block : b = placeRead s (place s c t a n) n

/-- An admitted storage command of an opcode waits for its lists and data (R430, R432). -/
structure StReady (s : State) (op fq : Nat) (idx : BitVec 32) (n : Nat) (c : StCmd) (e : Entry) : Prop where
  admitted : cmdFor s fq idx = some (n, c)
  posted : entryIdx s 2 fq idx = some e
  op_ : c.op = op
  waits : c.ready = false
  kept : c.discarded = false

end Sys2Proof.Machine
end

