-- ==== Sys2Proof/Certificates/Slice0/Obligations.lean ====
section
/-! DEFINITION. The statements about the block: one definition for each, in the order of OBLIGATIONS.json. A command's
statement gives the next state it answers under conditions on the state and its operands alone; the invariant and the
stage order are over every step of every state. -/
open Sys2Proof Sys2Proof.Machine

/-! ### The step and the start (02) -/

/-- A step runs the command at the front of the queue on the state with the queue's rest; with none it idles (the idling
is the model's choice, log entry 5). -/
def Obligations.StepRunsFront : Prop :=
  (∀ (c : Instr) (rest : List Instr) (s : State), step { s with pending := c :: rest } = exec c { s with pending := rest }) ∧
  ∀ s : State, s.pending = [] → step s = .next s

/-- Every command completes; it leaves the queue of waiting commands and the identity fuses as they are, and unless it
leaves the block in stage 0 or 1 (where setup is gone, which other statements say), it changes only the parts of the
state that `footprint` names for it, and adds outputs before those there were. -/
def Obligations.EveryCommandCompletes : Prop :=
  ∀ (c : Instr) (s : State), ∃ t, exec c s = .next t ∧ t.pending = s.pending ∧
    t.life.fuses.identity = s.life.fuses.identity ∧ (2 ≤ t.life.stage.val → changesOnly (footprint c) s t)

/-- The machine at reset: stage 0, VDD_AON not good, no command waiting, every register at its value after stage 1,
every descriptor queue DISABLED, every instance OFF, every thread HALTED, every bay EMPTY, every memory without a listed
byte. The fuses and the start before VDD_AON are the model's choice (log entries 1 and 2). A device made to either profile
of R6 resets to the same machine but for its fuses. -/
def Obligations.ResetState : Prop :=
  State.reset.pending = [] ∧ State.reset.life.stage = 0 ∧ State.reset.life.aonGood = false ∧
  (∀ off, getReg State.reset off = regDefault off) ∧
  getReg State.reset DV_PACE_CTRL = 0xA1#64 ∧ getReg State.reset DV_PACE_INDEX = 0x00000000FFFF0000#64 ∧
  (∀ k, (tabGet (fun _ => Queue.none) State.reset.q.queues k).qstate = .disabled) ∧ (∀ k, (tabGet (fun _ => Inst.none) State.reset.im.insts k).state = .off) ∧
  (∀ c t, (threadOf State.reset c t).state = .halted) ∧ (∀ b, (bayOf State.reset b).state = .empty) ∧
  State.reset.fc.slices = [] ∧ State.reset.fc.cluster = [] ∧ State.reset.fc.hkMem = [] ∧ State.reset.dram = [] ∧
  (∀ p : Profile, State.resetOf p = { State.reset with life := { State.reset.life with fuses := Fuses.ofProfile p } })

/-- Supplies and the bypass: VDD_AON good samples the straps and enters stage 0 with each pair in the bypass, or OFF
where the bypass is not permitted or strapped off; the plant reference comes and goes; the bypass starts when both are
there and forwards frames unchanged to the other port of the pair; the loss of VDD_AON keeps only the fuses (and pins). -/
def Obligations.SuppliesAndBypass : Prop :=
  (∀ (a b : BitVec 2) (s : State), s.life.aonGood = false → ∃ l pairs, exec (.vddAonGood a b) s =
      .next { s with life := l, plant := { s.plant with pairs := pairs } } ∧
      l.aonGood = true ∧ l.strap0 = a ∧ l.strap1 = b ∧ l.stage = 0 ∧ l.fuses = s.life.fuses ∧
      pairs = [PairSt.mk (if bypassPossible l 0 then .bypass else .off) 0, PairSt.mk (if bypassPossible l 1 then .bypass else .off) 0]) ∧
  (∀ s : State, exec .plantReferenceStable s = .next { s with life := { s.life with refStable := true } }) ∧
  (∀ s : State, exec .plantReferenceLoss s = .next { s with life := { s.life with refStable := false, bypassUp := false } }) ∧
  (∀ s : State, s.life.aonGood = true → s.life.refStable = true →
      exec .bypassStart s = .next { s with life := { s.life with bypassUp := true } }) ∧
  (∀ (p : PPort) (f : Bytes) (ok : Bool) (s : State), bypassForwards s p = true →
      exec (.bypassFrame p f ok) s = .next { s with out := .bypassFrame (pairPeer p) f ok :: s.out }) ∧
  (∀ (p : PPort) (f : Bytes) (ok : Bool) (s : State), bypassForwards s p = false →
      exec (.bypassFrame p f ok) s = .next s) ∧
  (∀ s : State, ∃ t, exec .vddAonLoss s = .next t ∧ t.life.fuses = s.life.fuses ∧ t.life.aonGood = false ∧
      t.life.stage = 0 ∧ t.life.bypassUp = false ∧ t.life.lastFault = none ∧ t.regs = [] ∧ t.link = Link.reset ∧
      t.pipe = Pipes.reset ∧ t.tab = Tables.reset ∧ t.tm = Tm.reset ∧ t.plant = Plant.reset ∧ t.fc = FlowCores.reset ∧
      t.cg = Commit.reset ∧ t.dram = [])

/-- PERST# asserted holds the block in stage 0 and takes the link down; its release, a hot reset and a DL_Down start all
of stage 1 with their causes; an FLR on PF0 repeats array clears and DRAM scrub only. Each entry leaves every register
at its value after stage 1, no queue, instance, frame, table, leaf, thread, namespace or group, and keeps the fuses. -/
def Obligations.ReturnsToStage1 : Prop :=
  (∀ s : State, s.life.aonGood = true → ∃ t, exec .perstAssert s = .next t ∧ t.life.stage = 0 ∧ t.life.perst = true ∧
      t.link = Link.reset ∧ t.cleared ∧ t.life.fuses = s.life.fuses) ∧
  (∀ s : State, s.life.aonGood = true → s.life.perst = true → ∃ t, exec .perstRelease s = .next t ∧ t.life.stage = 1 ∧
      t.life.perst = false ∧ t.life.stage1Done = false ∧ t.life.rrs = true ∧ t.life.fusesSensed = false ∧
      t.life.bistDone = false ∧ t.life.dramDone = false ∧ t.life.resetCause = (if s.life.powerUp then 1 else 2) ∧
      t.cleared ∧ t.life.fuses = s.life.fuses) ∧
  (∀ s : State, s.life.stage ≠ 0 → ∃ t, exec .hotReset s = .next t ∧ t.life.stage = 1 ∧ t.life.stage1Done = false ∧
      t.life.rrs = true ∧ t.life.fusesSensed = false ∧ t.life.bistDone = false ∧ t.life.dramDone = false ∧
      t.life.resetCause = 3 ∧ t.cleared ∧ t.life.fuses = s.life.fuses) ∧
  (∀ s : State, exec .dlDown s = exec .hotReset s) ∧
  (∀ s : State, s.life.stage ≠ 0 → s.life.rrs = false → ∃ t, exec .flrPf0 s = .next t ∧ t.life.stage = 1 ∧
      t.life.stage1Done = false ∧ t.life.fusesSensed = s.life.fusesSensed ∧ t.life.bistDone = true ∧
      t.life.dramDone = true ∧ t.life.bistFail = s.life.bistFail ∧ t.life.resetCause = 4 ∧
      t.link.up = s.link.up ∧ t.cleared ∧ t.life.fuses = s.life.fuses)

/-- The steps of stage 1 (R43): fuse sensing takes the majority of three copies and checks the identity; BIST and DRAM
training each complete once, a failure setting bist_fail; STAGE1_DONE needs all three; the RRS period ends. -/
def Obligations.Stage1Steps : Prop :=
  (∀ s : State, s.life.stage = 1 → s.life.fusesSensed = false → ∃ t, exec .fuseSenseDone s = .next t ∧
      t.life = { s.life with fusesSensed := true, smbusUp := true, sensed := protMajority s.life.fuses,
                             identity := s.life.fuses.identity, identityBad := !identityGood s.life.fuses.identity }) ∧
  (∀ s : State, s.life.stage = 1 → s.life.bistDone = false →
      exec (.bistDone none) s = .next { s with life := { s.life with bistDone := true } }) ∧
  (∀ (f : BistFail) (s : State), s.life.stage = 1 → s.life.bistDone = false → ∃ t, exec (.bistDone (some f)) s = .next t ∧
      t.life = { s.life with bistDone := true, bistFail := true } ∧
      t = postLog 3 0 0 (f.array.setWidth 64) f.addr { s with life := { s.life with bistDone := true, bistFail := true } }) ∧
  (∀ s : State, s.life.stage = 1 → s.life.dramDone = false →
      exec (.dramTrainDone false) s = .next { s with life := { s.life with dramDone := true } }) ∧
  (∀ s : State, s.life.stage = 1 → s.life.dramDone = false → ∃ t, exec (.dramTrainDone true) s = .next t ∧
      t.life = { s.life with dramDone := true, bistFail := true }) ∧
  (∀ s : State, s.life.stage = 1 → s.life.fusesSensed = true → s.life.bistDone = true → s.life.dramDone = true →
      exec .stage1Done s = .next { s with life := { s.life with stage1Done := true, flrStage := false } }) ∧
  (∀ s : State, (s.life.stage ≠ 1 ∨ s.life.fusesSensed = false ∨ s.life.bistDone = false ∨ s.life.dramDone = false) →
      exec .stage1Done s = .next s) ∧
  (∀ s : State, exec .rrsPeriodEnd s = .next { s with life := { s.life with rrs := false } })

/-- BOOT_ENABLE, GO_SERVICE and STAGE3_ENTRY (R37, R42, R63): a write of boot_enable in stage 1 enters stage 2 if
stage1_done is 1 and bist_fail is 0, otherwise sets boot_refused; one of go_service in stage 2 waits for the boot ring; then
stage 3 with PF0 instance 0 ON if the housekeeping image and all five microcode images are loaded, otherwise go_refused. A
write outside its stage, or with BAR0 closed, changes nothing but the idle time of a live link. -/
def Obligations.StagesOfService : Prop :=
  (∀ s : State, s.life.stage = 1 → barOpen s 0 = true → s.life.stage1Done = true → s.life.bistFail = false →
      exec .bootEnable s = .next (linkBusy (pagesStage { s with life := { s.life with stage := 2 } }))) ∧
  (∀ s : State, s.life.stage = 1 → barOpen s 0 = true → (s.life.stage1Done = false ∨ s.life.bistFail = true) →
      exec .bootEnable s = .next (linkBusy (putB SB_STATUS 13 true s))) ∧
  (∀ s : State, (s.life.stage ≠ 1 ∨ barOpen s 0 = false) → exec .bootEnable s = .next (tlpDropped s)) ∧
  (∀ s : State, s.life.stage = 2 → barOpen s 0 = true →
      exec .goService s = .next (linkBusy { s with life := { s.life with goPending := true } })) ∧
  (∀ s : State, (s.life.stage ≠ 2 ∨ barOpen s 0 = false) → exec .goService s = .next (tlpDropped s)) ∧
  (∀ s u : State, s.life.stage = 2 → s.life.goPending = true → s.life.boot = none → s.life.hkLoaded = true →
      s.life.parseLoaded = 0x1F#5 → u = pagesStage { s with life := { s.life with goPending := false, stage := 3 } } →
      exec .stage3Entry s = .next (putInst 0 0 { instOf s 0 0 with state := .on } u) ∧
      (instOf (putInst 0 0 { instOf s 0 0 with state := .on } u) 0 0).state = .on) ∧
  (∀ s : State, s.life.stage = 2 → s.life.goPending = true → s.life.boot = none →
      (s.life.hkLoaded = false ∨ s.life.parseLoaded ≠ 0x1F#5) →
      exec .stage3Entry s = .next (putB SB_STATUS 12 true { s with life := { s.life with goPending := false } })) ∧
  (∀ s : State, (s.life.stage ≠ 2 ∨ s.life.goPending = false ∨ s.life.boot ≠ none) → exec .stage3Entry s = .next s)

/-- The boot ring (R54, R55): a descriptor is read at the head; one that already carries done is passed, one that breaks
a rule of R55 completes with status 1, any other is taken into service; a read that fails passes the head. Boot opcodes
(R57, R58, R61): an image takes effect where it passes every check; its descriptor completes with the status of the
first check that fails, or with OK, and an image that fails changes nothing else; a fuse authorisation that passes burns
its links one by one, and a link whose verify fails ends it with BURN_FAIL (0x10). -/
def Obligations.BootRing : Prop :=
  (∀ (b : Bytes) (s : State), bootReady s = true → 2 ≤ fld (leWord (slice b 0 64) 0) 2 2 →
      fld (leWord (slice b 0 64) 0) 0 2 = lapOf (bootSize s) (bootHead s) →
      exec (.bootDescriptorFetch (.data b, .good)) s =
        .next (bootPass (hostRead 0 none (bootAddr s (bootHead s)) 64 .bootDescriptor s))) ∧
  (∀ (b : Bytes) (s : State), bootReady s = true → fld (leWord (slice b 0 64) 0) 2 2 < 2 →
      badBootDesc s (bootHead s) (slice b 0 64) = true →
      exec (.bootDescriptorFetch (.data b, .good)) s = .next (bootComplete (bootHead s) (slice b 0 64) 1
        (hostRead 0 none (bootAddr s (bootHead s)) 64 .bootDescriptor s))) ∧
  (∀ (b : Bytes) (s : State), bootReady s = true → fld (leWord (slice b 0 64) 0) 2 2 < 2 →
      badBootDesc s (bootHead s) (slice b 0 64) = false → ∃ t, exec (.bootDescriptorFetch (.data b, .good)) s = .next t ∧
      t.life = { s.life with boot := some { index := bootHead s, desc := slice b 0 64 } } ∧ t.regs = s.regs ∧
      ∃ tag, t.out = .hostRead 0 none (bootAddr s (bootHead s)) 64 .bootDescriptor tag :: s.out) ∧
  (∀ s : State, bootReady s = true → tabSorted none s.regs = true → ∃ t, exec (.bootDescriptorFetch (.ur, .good)) s = .next t ∧ t.life = s.life ∧
      bootHead t = bootHead s + 1) ∧
  (∀ (b : Bytes) (x : BootDesc) (st : Nat) (s u : State), bootServing s 1 = some x → 512 ≤ le x.desc 0x18 4 →
      le x.desc 0x18 4 ≤ 512 + 2 ^ 24 → u = readImage (le x.desc 0x10 8) (le x.desc 0x18 4) s →
      st = imageStatus u false (slice b 0 (le x.desc 0x18 4)) →
      exec (.bootLoad (.data b)) s = .next (bootComplete x.index x.desc st
        (if st = 0 then loadImage (slice b 0 (le x.desc 0x18 4)) u else u))) ∧
  (∀ (img : Read) (x : BootDesc) (s : State), bootServing s 1 = some x →
      (le x.desc 0x18 4 < 512 ∨ 512 + 2 ^ 24 < le x.desc 0x18 4) →
      exec (.bootLoad img) s = .next (bootComplete x.index x.desc 3 s)) ∧
  (∀ (b p : Bytes) (x : BootDesc) (st : Nat) (s u : State), bootServing s 2 = some x → 512 ≤ le x.desc 0x18 4 →
      le x.desc 0x18 4 ≤ 512 + 2 ^ 24 → u = readImage (le x.desc 0x10 8) (le x.desc 0x18 4) s →
      p = slice (slice b 0 (le x.desc 0x18 4)) 512 16 →
      st = (if imageStatus u true (slice b 0 (le x.desc 0x18 4)) ≠ 0 then
        imageStatus u true (slice b 0 (le x.desc 0x18 4)) else fuseStatus u p) →
      exec (.bootFuse (.data b)) s = .next (if st ≠ 0 ∨ fuseLinks u p = [] then bootComplete x.index x.desc st u
        else { u with life := { u.life with burn := some ⟨fuseLinks u p⟩ } })) ∧
  (∀ (l m : Nat) (rest : List Nat) (s : State), s.life.burn = some ⟨l :: m :: rest⟩ →
      exec (.fuseLinkBurn true) s = .next { s with out := .fuseBurn l :: s.out, life := { s.life with fuses := burnLink l s.life.fuses, burn := some ⟨m :: rest⟩ } }) ∧
  (∀ (l : Nat) (rest : List Nat) (s : State), s.life.burn = some ⟨l :: rest⟩ →
      exec (.fuseLinkBurn false) s = .next (endBurn 0x10 s))

/-! ### The host link (03) -/

/-- Configuration requests and writes (R44, R65, R78, R84): no answer while the link is down; then RRS in the period of
R44 and while an FLR is under way, Unsupported Request for an absent function, else live; a write sets its field and sends
the vectors it lets go. -/
def Obligations.Configuration : Prop :=
  (∀ (fn : Fn) (off : BitVec 12) (s : State), linkUp s = false → exec (.configurationRequest fn off) s = .next s) ∧
  (∀ (fn : Fn) (off : BitVec 12) (s : State), linkUp s = true → (s.life.rrs = true ∨ s.link.flr.getLsbD fn.val = true) →
      exec (.configurationRequest fn off) s = .next (linkBusy (emit (.cfgCompletion fn .retry 0) s))) ∧
  (∀ (fn : Fn) (off : BitVec 12) (s : State), linkUp s = true → s.life.rrs = false → s.link.flr.getLsbD fn.val = false →
      fnPresent s fn.val = false →
      exec (.configurationRequest fn off) s = .next (linkBusy (emit (.cfgCompletion fn .unsupported 0) s))) ∧
  (∀ (fn : Fn) (off : BitVec 12) (s : State), cfgReachable s fn = true →
      exec (.configurationRequest fn off) s = .next (linkBusy (emit (.cfgCompletion fn .live
        (BitVec.ofNat 32 (cfgDword s fn.val (off.toNat / 4 * 4)))) s))) ∧
  (∀ s : State, cfgDword s 0 0 = 0x84201E7C ∧ cfgDword s 1 0 = 0x84211E7C ∧ cfgDword s 2 0 = 0x84221E7C ∧
      cfgDword s 3 0 = 0x84231E7C) ∧
  (∀ (fn : Fn) (f : CfgField) (v : BitVec 32) (s : State), cfgReachable s fn = true →
      exec (.configWrite fn f v) s = .next (flushMsix fn (linkBusy (putMargin fn f v (putCfg fn.val (setCfgField (cfgOf s fn.val) f v) s))))) ∧
  (∀ (fn : Fn) (f : CfgField) (v : BitVec 32) (s : State), cfgReachable s fn = false →
      exec (.configWrite fn f v) s = .next (tlpDropped s))

/-- Resets and power states of a function: an FLR of PF1 to PF3 acts once, FLR_DONE ends its RRS period once
no instance of the function drains (R161); clearing or
setting Bus Master Enable, entering D3hot and returning to D0 each act only when they change the function's state, and
otherwise change nothing. PASID Enable (R151): a change faults every ON instance of the function but instance 0; a write
that repeats its value changes nothing. -/
def Obligations.FunctionPower : Prop :=
  (∀ (fn : Fn) (s : State), fn ≠ 0 → cfgReachable s fn = true → exec (.flr fn) s = .next (flr fn (linkBusy s))) ∧
  (∀ (fn : Fn) (s : State), noDrain s fn.val = true → exec (.flrDone fn) s =
      .next { s with link := { s.link with flr := s.link.flr &&& ~~~ (1#4 <<< fn.val) } }) ∧
  (∀ (fn : Fn) (s : State), noDrain s fn.val = false → exec (.flrDone fn) s = .next s) ∧
  (∀ (fn : Fn) (s : State), cfgReachable s fn = true → (cfgOf s fn.val).busMaster = true →
      exec (.busMasterEnableClear fn) s =
        .next (stopDma fn (linkBusy (putCfg fn.val { cfgOf s fn.val with busMaster := false } s)))) ∧
  (∀ (fn : Fn) (s : State), cfgReachable s fn = true → (cfgOf s fn.val).busMaster = false →
      exec (.busMasterEnableSet fn) s =
        .next (resumeDma fn (linkBusy (putCfg fn.val { cfgOf s fn.val with busMaster := true } s)))) ∧
  (∀ (fn : Fn) (s : State), (cfgOf s fn.val).busMaster = true → exec (.busMasterEnableSet fn) s = .next s) ∧
  (∀ (fn : Fn) (s : State), (cfgOf s fn.val).busMaster = false → exec (.busMasterEnableClear fn) s = .next s) ∧
  (∀ (fn : Fn) (s u : State), cfgReachable s fn = true → (cfgOf s fn.val).d3hot = false →
      u = stopDma fn (linkBusy (putCfg fn.val { cfgOf s fn.val with d3hot := true } s)) →
      exec (.d3hotEntry fn) s = .next (if allD3 u then enterDeviceD3 u else u)) ∧
  (∀ (fn : Fn) (s u : State), cfgReachable s fn = true → (cfgOf s fn.val).d3hot = true →
      u = linkBusy (putCfg fn.val { cfgOf s fn.val with d3hot := false } s) →
      exec (.d0Return fn) s = .next (resumeDma fn { u with link := { u.link with deviceD3 := false } })) ∧
  (∀ (fn : Fn) (on : Bool) (s : State), cfgReachable s fn = true → (cfgOf s fn.val).pasidEnable ≠ on →
      (∀ i, i ∈ liveInsts s fn.val → i = 0) → exec (.pasidEnableChange fn on) s =
        .next (linkBusy (putCfg fn.val { cfgOf s fn.val with pasidEnable := on } s))) ∧
  (∀ (fn : Fn) (on : Bool) (i : Nat) (s : State), cfgReachable s fn = true → (cfgOf s fn.val).pasidEnable ≠ on →
      liveInsts s fn.val = [i] → i ≠ 0 → (instOf s fn.val i).state = .on → exec (.pasidEnableChange fn on) s =
        .next (instanceFault fn i 0 0 (linkBusy (putCfg fn.val { cfgOf s fn.val with pasidEnable := on } s)))) ∧
  (∀ (fn : Fn) (s : State), exec (.pasidEnableChange fn (cfgOf s fn.val).pasidEnable) s = .next s)

/-- Training and wake events (R71, R91, R94): the link comes up at the rate and width given, in Flit Mode at 64 GT/s; L1
(or L1.1 where it is enabled) is requested after l1_idle ticks; in device-wide D3hot a selected event sets PME_Status and its bit and sends PM_PME; a
lane signal shows in its port. -/
def Obligations.LinkAndWake : Prop :=
  (∀ (sp : BitVec 3) (w : BitVec 5) (f : Bool) (s : State), s.life.stage ≠ 0 → trainable sp w = true → s.link.up = false →
      exec (.linkTrain sp w f) s = .next { s with link := { s.link with up := true, speed := sp, width := w, flit := f || sp == 6, l1 := 0, idleTicks := 0 } }) ∧
  (∀ (sp : BitVec 3) (w : BitVec 5) (f : Bool) (s : State), s.life.stage ≠ 0 → trainable sp w = true → s.link.up = true →
      ∃ t, exec (.linkTrain sp w f) s = .next t ∧ t.regs = (addErrAt HL_LINK_STATUS 16 1 s).regs ∧ t.link.up = true ∧
        t.link.speed = sp ∧ t.link.width = w) ∧
  (∀ s : State, s.link.up = true → s.link.l1 = 0 → (cfgOf s 0).aspmL1 = true → l1Idle s ≤ s.link.idleTicks →
      exec .l1Entry s = .next (emit .l1Request { s with link := { s.link with l1 := if (cfgOf s 0).aspmL11 then 2 else 1 } })) ∧
  (∀ (p : NPort) (s : State), rb s HL_PME_CTRL p.val = true → portExists s p.val = true →
      rb s (NP_PORT_CTRL p.val) 0 = true → exec (.magicPacket p) s = .next (raisePme p.val s)) ∧
  (∀ s : State, rb s HL_PME_CTRL 16 = true → exec .ppsInLoss s = .next (raisePme 16 s)) ∧
  (∀ (n : Nat) (s : State), s.link.deviceD3 = true → (cfgOf s 0).pmeEnable = true → ∃ t, raisePme n s = t ∧
      t.out = .pme (s.link.l1 != 0) :: s.out ∧ t.regs = (putB HL_PME_STATUS n true s).regs) ∧
  (∀ (n : Nat) (s : State), (s.link.deviceD3 = false ∨ (cfgOf s 0).pmeEnable = false) → raisePme n s = s) ∧
  (∀ (p : PPort) (g : Bool) (s : State), s.life.stage ≠ 0 → rb s (PP_PORT_A p.val) 33 ≠ g → s.link.deviceD3 = false →
      exec (.laneSignalChange p g) s = .next (putB (PP_PORT_A p.val) 33 g s))

/-- Accesses of a wrong shape and peer accesses (R81, R83, R84, R89, R105): an access whose BAR is closed has no effect but
the answer of a read; an open one of a wrong shape is reported and counted; a read of BAR2 completes with zeros, a read of
BAR0 of the right shape with the register's bytes, each split at the Read Completion Boundary; a peer write that lies in no
enabled active window, or is poisoned, is dropped whole, counted and reported, one with an ECRC that does not match, where
ECRC is checked, or malformed (reported in every function) is dropped and reported, and one whose BAR4 is closed is reported as Unsupported Request; a
peer read completes with Unsupported Request. PW_COMMIT and QUIESCE (R100, R104): a commit that is not refused copies every
selected shadow set to its active set and no other; one that is refused sets the refused bits it names; a write of
HL_FN_QUIESCE starts the quiesces it asks for. While setup space is closed neither changes anything but the idle time. -/
def Obligations.PeerWindows : Prop :=
  (∀ (fn : Fn) (off : BitVec 26) (len : BitVec 13) (s : State), linkUp s = true → fnPresent s fn.val = true → barOpen s fn.val = false →
      exec (.badShapeAccess fn off (.read0 len)) s = .next (linkBusy (emit (.readUnsupported fn) s)) ∧
      exec (.badShapeAccess fn off (.read2 len)) s = .next (linkBusy (emit (.readUnsupported fn) s)) ∧
      exec (.badShapeAccess fn off .write) s = .next (linkBusy s)) ∧
  (∀ (off : BitVec 26) (s : State), barOpen s 0 = true →
      exec (.badShapeAccess 0 off .write) s = .next (countUnmapped off.toNat (aerReport 0 .unsupportedRequest (linkBusy s)))) ∧
  (∀ (fn : Fn) (off : BitVec 26) (len : BitVec 13) (s : State), fn ≠ 0 → fnPresent s fn.val = true → barOpen s fn.val = true →
      rightShape off.toNat len.toNat = false →
      exec (.badShapeAccess fn off (.read0 len)) s = .next (linkBusy (emit (.readUnsupported fn)
        (addErr (blockErrOff (blockNum blkDV)) 1 (aerReport fn .unsupportedRequest (linkBusy s)))))) ∧
  (∀ (fn : Fn) (off : BitVec 26) (len : BitVec 13) (s : State), fnPresent s fn.val = true → barOpen s fn.val = true →
      exec (.badShapeAccess fn off (.read2 len)) s =
        .next (completeRead fn off.toNat (List.replicate len.toNat 0) (linkBusy s))) ∧
  (∀ (off : BitVec 26) (w : Word) (s : State), barOpen s 0 = true → off.toNat % 8 = 0 → off.toNat ≠ CK_TIME_NS →
      bar0Word (linkBusy s) 0 off.toNat = (w, false) →
      exec (.badShapeAccess 0 off (.read0 8)) s = .next (linkBusy (emit (.readCompletion 0 (leBytes 8 w.toNat)) (linkBusy s)))) ∧
  (∀ (off : BitVec 30) (d : Bytes) (s : State), barOpen s 3 = true → fnPresent s 3 = true →
      exec (.peerWrite off d .poisoned) s = .next (missPeer off.toNat .poisonedTlp (linkBusy s))) ∧
  (∀ (off : BitVec 30) (d : Bytes) (s : State), linkUp s = true → fnPresent s 3 = true →
      exec (.peerWrite off d .malformed) s = .next (aerLink .malformedTlp (linkBusy s)) ∧
      ((cfgOf s 3).ecrcCheck = true → exec (.peerWrite off d .ecrc) s = .next (aerReport 3 .ecrcError (linkBusy s))) ∧
      (barOpen s 3 = false → exec (.peerWrite off d .none) s = .next (aerReport 3 .unsupportedRequest (linkBusy s)))) ∧
  (∀ (off : BitVec 30) (d : Bytes) (s : State), barOpen s 3 = true → fnPresent s 3 = true →
      (∀ n, n < 16 → (activeWindow s n).enable = true →
        off.toNat < (activeWindow s n).bar ∨ (activeWindow s n).bar + (activeWindow s n).len < off.toNat + d.length ∨
        (activeWindow s n).len = 0) →
      exec (.peerWrite off d .none) s = .next (missPeer off.toNat .unsupportedRequest (linkBusy s))) ∧
  (∀ (off : BitVec 30) (d : Bytes) (n : Nat) (s : State), barOpen s 3 = true → fnPresent s 3 = true →
      n < 16 → (activeWindow s n).enable = true → 0 < (activeWindow s n).len → (activeWindow s n).bar ≤ off.toNat →
      off.toNat + d.length ≤ (activeWindow s n).bar + (activeWindow s n).len → (∀ m, m < n → (activeWindow s m).enable = false) →
      exec (.peerWrite off d .none) s = .next (landWrite (d.length + 1)
        ((activeWindow s n).dev + (off.toNat - (activeWindow s n).bar)) d (linkBusy s))) ∧
  (∀ (off : BitVec 30) (s : State), linkUp s = true →
      exec (.peerRead off) s = .next (linkBusy (emit (.readUnsupported 3) s))) ∧
  (∀ (v : BitVec 64) (s : State), setupOpen s = true → exec (.pwCommit v) s = .next (linkBusy (pwCommit v s))) ∧
  (∀ (v : BitVec 64) (s : State), setupOpen s = true → exec (.quiesce v) s = .next (linkBusy (quiesceWrite v s))) ∧
  (∀ (v : BitVec 64) (s : State), setupOpen s = false →
      exec (.pwCommit v) s = .next (tlpDropped s) ∧ exec (.quiesce v) s = .next (tlpDropped s)) ∧
  (∀ (n : Nat) (s : State), n < 16 → tabSorted none s.regs = true → setupOpen s = true →
      commitRefused s (2 ^ n) = false →
      ∃ t, exec (.pwCommit (BitVec.ofNat 64 (2 ^ n))) s = .next t ∧
        getReg t (HL_PW_ACTIVE_A n) = getReg s (HL_PW_SHADOW_A n) ∧ getReg t (HL_PW_ACTIVE_B n) = getReg s (HL_PW_SHADOW_B n) ∧
        ∀ m, m < 16 → m ≠ n → getReg t (HL_PW_ACTIVE_A m) = getReg s (HL_PW_ACTIVE_A m))

/-- Precision time measurement (R102): an exchange starts with t1 the time its request leaves, or sets failed when PTM
Enable is 0, on a trigger and, with auto 1, once every period_ms milliseconds (0 as 1); a response writes its four results and counts seq; a time-out sets failed and ends the exchange. -/
def Obligations.PrecisionTime : Prop :=
  (∀ (c : Cyc) (s : State), setupOpen s = true → (cfgOf s 0).ptmEnable = true → exec (.ptmTrigger c) s =
      .next (linkBusy (linkBusy (emit .ptmRequest { s with link := { s.link with ptm := some (time64 (clockAt s c.val)) } })))) ∧
  (∀ (c : Cyc) (s : State), setupOpen s = true → (cfgOf s 0).ptmEnable = false → exec (.ptmTrigger c) s =
      .next (linkBusy (putB HL_PTM_CTRL 24 true s))) ∧
  (∀ (c : Cyc) (s : State), rb s HL_PTM_CTRL 1 = true → s.link.ptmDue < 1024 * (s.ticks + 1) → exec (.ptmPeriod c) s =
      .next (ptmStart c.val { s with link := { s.link with ptmDue := s.link.ptmDue + 1000000 * max 1 (rf s HL_PTM_CTRL 8 16) } })) ∧
  (∀ (c : Cyc) (s : State), (rb s HL_PTM_CTRL 1 = false ∨ 1024 * (s.ticks + 1) ≤ s.link.ptmDue) →
      exec (.ptmPeriod c) s = .next s) ∧
  (∀ (m : BitVec 64) (p : BitVec 32) (c : Cyc) (t1 : Word) (s : State), s.link.ptm = some t1 → tabSorted none s.regs = true →
      ∃ t, exec (.ptmResponse m p c) s = .next t ∧ getReg t HL_PTM_T1 = t1 ∧
        getReg t HL_PTM_T4 = time64 (clockAt s c.val) ∧ getReg t HL_PTM_MASTER = m ∧
        getReg t HL_PTM_PROP = p.setWidth 64 ∧ rf t HL_PTM_CTRL 32 32 = (rf s HL_PTM_CTRL 32 32 + 1) % 2 ^ 32 ∧
        t.link.ptm = none) ∧
  (∀ (t1 : Word) (s : State), s.link.ptm = some t1 →
      exec .ptmTimeout s = .next (putB HL_PTM_CTRL 24 true { s with link := { s.link with ptm := none } })) ∧
  (∀ s : State, s.link.ptm = none → exec .ptmTimeout s = .next s)

/-- Completions of device reads (R89): one of another epoch than its function's is dropped and counted; one of the
present epoch goes to the work that issued the read, as does a Completion Timeout unless it is disabled. -/
def Obligations.ReadAnswers : Prop :=
  (∀ (fn : Fn) (ep : BitVec 4) (w : ReadWork) (r : Read) (s : State), s.life.stage ≠ 0 →
      ep.toNat ≠ rf s HL_EPOCH (4 * fn.val) 4 →
      exec (.readCompletion fn ep w r) s = .next (linkBusy (addErrAt HL_EPOCH 32 1 s))) ∧
  (∀ (fn : Fn) (ep : BitVec 4) (fq : BitVec 20) (r : Read) (s : State), s.life.stage ≠ 0 →
      ep.toNat = rf s HL_EPOCH (4 * fn.val) 4 →
      exec (.readCompletion fn ep (.doorbell fq) r) s = .next (recordReturn fn fq.toNat r (linkBusy s)) ∧
      exec (.readCompletion fn ep (.descriptor fq) r) s = .next (fetchDescriptor fn fq.toNat r (linkBusy s))) ∧
  (∀ (fn : Fn) (fq : BitVec 20) (s : State), s.life.stage ≠ 0 → (cfgOf s fn.val).timeoutDisable = false →
      exec (.completionTimeout fn (.doorbell fq)) s = .next (recordReturn fn fq.toNat .timeout s) ∧
      exec (.completionTimeout fn (.descriptor fq)) s = .next (fetchDescriptor fn fq.toNat .timeout s)) ∧
  (∀ (fn : Fn) (w : ReadWork) (s : State), (cfgOf s fn.val).timeoutDisable = true →
      exec (.completionTimeout fn w) s = .next s)

/-! ### Registers, snapshots and windows (00, 18, 19) -/

/-- REGISTER_WRITE (R10, R81): with BAR0 of the function open a naturally aligned write acts, else it has no effect but on the
idle time of a live link; one
that is not naturally aligned counts as an access of a wrong shape. A write of a register of field types alone sets its
RW bits, clears its W1C bits written 1 and leaves every other bit. Snapshots and windows (R514, R524): while setup space
is open a snapshot latches its run at one instant, and a window operation that a check refuses ends with that check's
status, done set and seq counted, and moves nothing. -/
def Obligations.RegisterSpace : Prop :=
  (∀ (fn : Fn) (off : BitVec 26) (four : Bool) (v : BitVec 64) (s : State), off.toNat % (if four then 4 else 8) = 0 →
      barOpen s fn.val = true → fnPresent s fn.val = true →
      exec (.registerWrite fn off four v) s = .next (registerWrite fn off.toNat four v (linkBusy s))) ∧
  (∀ (fn : Fn) (off : BitVec 26) (four : Bool) (v : BitVec 64) (s : State), off.toNat % (if four then 4 else 8) = 0 →
      (barOpen s fn.val = false ∨ fnPresent s fn.val = false) → exec (.registerWrite fn off four v) s = .next (tlpDropped s)) ∧
  (∀ (fn : Fn) (off : BitVec 26) (four : Bool) (v : BitVec 64) (s : State), off.toNat % (if four then 4 else 8) ≠ 0 →
      exec (.registerWrite fn off four v) s = exec (.badShapeAccess fn off .write) s) ∧
  (∀ (v : BitVec 64) (s : State), setupOpen s = true → ∃ t,
      exec (.registerWrite 0 (BitVec.ofNat 26 (HL_PW_SHADOW_A 0)) false v) s = .next t ∧
      t = putReg (HL_PW_SHADOW_A 0) ((getReg s (HL_PW_SHADOW_A 0) &&& ~~~ 0x1FFFFF3FFFFFC1#64) |||
        (v &&& 0x1FFFFF3FFFFFC1#64)) (linkBusy s)) ∧
  (∀ (r : RegRow) (old m v : Word) (i : Nat), i < 64 → (plainValue r old m v).getLsbD i =
      (if r.w1c.getLsbD i && m.getLsbD i && v.getLsbD i then false
       else if r.rw.getLsbD i && m.getLsbD i then v.getLsbD i else old.getLsbD i)) ∧
  (∀ (n : Fin 4) (c : Cyc) (s : State), setupOpen s = true →
      exec (.snapshot n c) s = .next (linkBusy (snapGo n.val c.val s))) ∧
  (∀ (w : Fin 4) (s : State), setupOpen s = true → winStatus s w.val false = 0 →
      exec (.windowRead w) s = .next (linkBusy (winEnd w.val 0 (winMove w.val false s)))) ∧
  (∀ (w : Fin 4) (s : State), setupOpen s = true → winStatus s w.val true = 0 →
      exec (.windowWrite w) s = .next (linkBusy (winEnd w.val 0 (winMove w.val true s)))) ∧
  (∀ (w : Fin 4) (wr : Bool) (k : Nat) (s : State), setupOpen s = true → winStatus s w.val wr = k → k ≠ 0 → k ≠ 5 →
      exec (if wr then .windowWrite w else .windowRead w) s = .next (linkBusy (winEnd w.val k s))) ∧
  (∀ (w : Nat) (k : Nat) (s : State), tabSorted none s.regs = true → k < 256 →
      rb (winEnd w k s) (DV_WIN_CTRL w) 3 = true ∧ rf (winEnd w k s) (DV_WIN_CTRL w) 8 8 = k ∧
      rf (winEnd w k s) (DV_WIN_CTRL w) 32 32 = (rf s (DV_WIN_CTRL w) 32 32 + 1) % 2 ^ 32)

/-! ### Monitors and device faults (01, 18, 20) -/

/-- The pace monitor (R25 to R29): a window of the running monitor updates the indexes; clear_extremes loads min_seen
with 0xFFFF and max_seen with 0; a monitor that is off counts nothing. Temperature, fuses' supply, management and JTAG
(R36, R549, R550, R553, R555). The PMBus (R554) is the firmware's of the housekeeping core: where that core runs a tick may
read one value of one regulator and does nothing else, and where it does not run the bus is idle. -/
def Obligations.Monitors : Prop :=
  (∀ (cs : List (BitVec 32)) (s : State), rb s DV_PACE_CTRL 0 = true → s.life.stage ≠ 0 →
      exec (.paceWindow cs) s = .next (paceWindow cs s)) ∧
  (∀ (cs : List (BitVec 32)) (s : State), rb s DV_PACE_CTRL 0 = false → exec (.paceWindow cs) s = .next s) ∧
  (∀ c w : Nat, paceIndex c w = c * 256 / (10 * 2 ^ w)) ∧
  (∀ s : State, setupOpen s = true → tabSorted none s.regs = true → ∃ t, exec .clearExtremes s = .next t ∧
      rf t DV_PACE_INDEX 16 16 = 0xFFFF ∧ rf t DV_PACE_INDEX 32 16 = 0 ∧
      rf t DV_PACE_INDEX 0 16 = rf s DV_PACE_INDEX 0 16 ∧ rf t DV_PACE_INDEX 48 8 = rf s DV_PACE_INDEX 48 8) ∧
  (∀ s : State, s.life.aonGood = true → exec .thermTrip s =
      .next { s with life := { s.life with thermTrip := true }, out := .thermTrip :: s.out }) ∧
  (∀ (b : Bool) (s : State), exec (.vppFuseChange b) s = .next { s with life := { s.life with vppOk := b } }) ∧
  (∀ (x : BitVec 8) (xs : List (BitVec 8)) (a b : BitVec 8) (s : State), s.life.stage ≠ 0 → tabSorted none s.regs = true →
      ∃ t, exec (.tempSensorRead (x :: xs) a b) s = .next t ∧
        rf t DV_TEMP 24 8 = a.toNat ∧ rf t DV_TEMP 32 8 = b.toNat ∧ t.mon.tempSeen = true ∧
        (rb t DV_TEMP 40 = true ↔ 95 < signed 8 a.toNat) ∧ (rb t DV_TEMP 41 = true ↔ 95 < signed 8 b.toNat)) ∧
  (∀ (k : MctpKind) (m : Bytes) (s : State), s.life.smbusUp = false → exec (.mctpMessage k m) s = .next (emit (.mctp none) s)) ∧
  (∀ (m : Bytes) (s : State), s.life.smbusUp = true → s.life.hkLoaded = true →
      exec (.mctpMessage .vendor m) s = .next (emit (.mctpToHk m) s)) ∧
  (∀ (m : Bytes) (s : State), s.life.smbusUp = true →
      exec (.mctpMessage .control m) s = .next (emit (.mctp (some (Config.mctpAnswer 0 m (getReg s DV_TEMP) s.life.hkLoaded))) s)) ∧
  (∀ s : State, s.life.stage ≠ 0 → exec (.jtagInstruction .idcode) s = .next (emit (.jtag .idcode true (some 0x08420A2F#32))
      { s with life := { s.life with jtag := .idcode } })) ∧
  (∀ s : State, s.life.stage ≠ 0 → debugLocked s = true →
      exec (.jtagInstruction .debug) s = .next (emit (.jtag .debug false none) s)) ∧
  (∀ s : State, s.life.stage ≠ 0 → s.life.fusesSensed = false → exec (.jtagInstruction .debug) s = .next (emit (.jtag .debug false none) s)) ∧
  (∀ s : State, s.life.stage ≠ 0 → s.life.fusesSensed = true → debugLocked s = false → exec (.jtagInstruction .debug) s =
      .next (emit (.jtag .debug true none) { s with life := { s.life with jtag := .debug } })) ∧
  (∀ s : State, (hkRunning s = false → tickPmbus s = s) ∧
      ((tickPmbus s).out = s.out ∨ ∃ a v, (tickPmbus s).out = .pmbusRead a v :: s.out))

/-- Device faults (R33, R392, R503 to R505, R516): TEMP, VCORE and the loss of the heartbeat record cause and detail,
and return the block to stage 1 with configuration space live, every setup register but the log at its after-stage-1
value. -/
def Obligations.DeviceFaults : Prop :=
  (∀ (x : BitVec 4) (s : State), s.life.stage ≠ 0 → ∃ t r, exec (.temp x) s = .next t ∧ t.life.faultLatch = some r ∧
      r.cause = 1 ∧ r.detail = x.setWidth 32 ∧ r.time = now64 s ∧ t.life.stage = 1 ∧ t.life.stage1Done = false ∧
      t.life.resetCause = 5 ∧ t.link.up = s.link.up) ∧
  (∀ s : State, s.life.stage ≠ 0 → ∃ t r, exec .vcore s = .next t ∧ t.life.faultLatch = some r ∧ r.cause = 2 ∧
      t.life.stage = 1 ∧ t.life.resetCause = 5) ∧
  (∀ s : State, 2 ≤ s.life.stage.val → s.life.hkLoaded = true → s.fc.hkBeat + 97657 ≤ s.ticks →
      ∃ t r, exec .hkHeartbeat s = .next t ∧ t.life.faultLatch = some r ∧ r.cause = 4 ∧ t.life.stage = 1 ∧ t.life.resetCause = 5) ∧
  (∀ (x : BitVec 4) (s : State), s.life.stage ≠ 0 → s.life.lastFault = none → ∃ t, exec (.temp x) s = .next t ∧
      t.life.lastFault = t.life.faultLatch ∧ t.life.laterFaults = s.life.laterFaults) ∧
  (∀ (x : BitVec 4) (f : FaultRec) (s : State), s.life.stage ≠ 0 → s.life.lastFault = some f →
      s.life.laterFaults ≠ 0xFFFFFFFF#32 → ∃ t, exec (.temp x) s = .next t ∧ t.life.lastFault = some f ∧
      t.life.laterFaults = s.life.laterFaults + 1)

/-! ### Clove time (11) -/

/-- A Clove tick advances the tick index by one and the time base by 1,280 cycles, those since the cycle of the last write of
CK_RATE at the rate written (R24, R319, R320: the free cycle is the model's choice, log entry 57); in stage 0 there is none.
Steps, latches, references and the PPS pins (R320, R322): a step moves Clove time by its offset or is refused with
step_refused; a latch and a PPS_IN edge hold the whole time of their cycle; the loss of the selected 10 MHz input sets
ref_lost and is logged; PPS_OUT rises at a whole second while it is enabled, for pps_width_ms
milliseconds (0 acts as 1, values above 999 as 999). -/
def Obligations.CloveTime : Prop :=
  (∀ s : State, s.life.stage ≠ 0 → ∃ t, exec .cloveTick s = .next t ∧ t.ticks = s.ticks + 1 ∧
      t.clk = clockAfter s.clk (rateAdj s) (1280 - s.mon.rateCyc) ∧ t.mon.rateCyc = 0 ∧ t.life = s.life) ∧
  (∀ s : State, s.life.stage = 0 → exec .cloveTick s = .next s) ∧
  (∀ (c : Clock) (n : Nat), c.ns.toNat < 1000000000 → (clockAfter c 0 n).ns.toNat < 1000000000) ∧
  (∀ (v : BitVec 64) (c : Cyc) (s : State), setupOpen s = true →
      0 ≤ (clockNs (clockAt s c.val) : Int) + stepOffset s v →
      (clockNs (clockAt s c.val) : Int) + stepOffset s v < 2 ^ 48 * 1000000000 →
      exec (.ckStep v c) s = .next (linkBusy (applyStep (stepOffset s v) c.val s))) ∧
  (∀ (v : BitVec 64) (c : Cyc) (s : State), setupOpen s = true →
      (clockNs (clockAt s c.val) : Int) + stepOffset s v < 0 →
      exec (.ckStep v c) s = .next (linkBusy (putB CK_CTRL 3 true s))) ∧
  (∀ (c : Cyc) (s : State), setupOpen s = true → tabSorted none s.regs = true → ∃ t, exec (.timeLatch c) s = .next t ∧
      getReg t CK_TIME_SEC = BitVec.ofNat 64 (clockAt s c.val).sec.toNat ∧
      rf t CK_TIME_NS 0 32 = (clockAt s c.val).ns.toNat ∧ rf t CK_TIME_NS 32 16 = (clockAt s c.val).frac.toNat) ∧
  (∀ s : State, rb s CK_CTRL 0 = true → exec .cloveRef s = .next (postLog 0xA 0 blkCK 0 0 (putB CK_CTRL 1 true s))) ∧
  (∀ s : State, rb s CK_CTRL 0 = false → exec .cloveRef s = .next s) ∧
  (∀ s : State, s.life.stage = 3 → rb s CK_CTRL 2 = true → secondInTick s = true →
      exec .ppsOutEdge s = .next (emit (.ppsOut (max 1 (min 999 (rf s CK_CTRL 16 10)))) s)) ∧
  (∀ (c : Cyc) (s : State), s.life.stage1Done = true → tabSorted none s.regs = true → ∃ t, exec (.ppsInEdge c) s = .next t ∧
      getReg t CK_PPS_IN_SEC = BitVec.ofNat 64 (clockAt s c.val).sec.toNat ∧
      rf t CK_PPS_IN_NS 0 32 = (clockAt s c.val).ns.toNat ∧
      rf t CK_PPS_IN_NS 48 16 = (rf s CK_PPS_IN_NS 48 16 + 1) % 2 ^ 16)

/-! ### The queue engine (04) -/

/-- Hints (R128): one that is accepted is counted and pokes its queue or its event queue; one of a wrong size, with the
intake full, to an instance that is not ON or with reserved bits is dropped and counted; a closed BAR drops it silently.
A doorbell record that returns (R119, R128): a good P becomes p_seen and the queue goes on; a malformed P stops the
queue with BAD_DOORBELL (0x114) at the fetch index; a record that no read asked for changes nothing but the tags of reads.
A due sweep (R129) moves the instance's due time on by a period; of an instance that is not ON it does nothing more, and of one
that is ON it pokes a sweep-enabled running queue, stated where the function holds that queue alone. -/
def Obligations.Doorbells : Prop :=
  (∀ (fn : Fn) (p : BitVec 10) (c : BitVec 64) (s : State), barOpen s fn.val = true → fnPresent s fn.val = true →
      exec (.hint fn p c 8 false) s = .next (hint fn p.toNat c 8 false (linkBusy s))) ∧
  (∀ (fn : Fn) (p : BitVec 10) (c : BitVec 64) (n : Nat) (full : Bool) (s : State), barOpen s fn.val = true →
      fnPresent s fn.val = true → (n ≠ 8 ∨ full = true ∨ instOn s fn.val p.toNat = false ∨ fld c 20 10 ≠ 0) →
      exec (.hint fn p c n full) s = .next (dropHint (linkBusy s))) ∧
  (∀ (fn : Fn) (p : BitVec 10) (c : BitVec 64) (n : Nat) (full : Bool) (s : State), barOpen s fn.val = false →
      exec (.hint fn p c n full) s = .next (tlpDropped s)) ∧
  (∀ (fn : Fn) (p : BitVec 10) (q : BitVec 20) (a : BitVec 32) (s u : State), barOpen s fn.val = true →
      fnPresent s fn.val = true → u = addStat QE_HINT_ACCEPTED 1 (linkBusy s) → instOn s fn.val p.toNat = true →
      q.toNat < share s .queues fn.val →
      (queueOf s fn.val (p.toNat * share s .queues fn.val + q.toNat)).qstate = .running →
      exec (.hint fn p (BitVec.ofNat 64 (q.toNat + a.toNat * 2 ^ 32)) 8 false) s =
        .next (queueHint fn (p.toNat * share s .queues fn.val + q.toNat) a.toNat u)) ∧
  (∀ (fn : Fn) (fq : BitVec 20) (r : Read) (s v : State), v = hostReadDone fn (.doorbell fq) s →
      (queueOf v fn.val fq.toNat).reading = false → exec (.doorbellRecordReturn fn fq r) s = .next v) ∧
  (∀ (fn : Fn) (fq : BitVec 20) (b : Bytes) (q : Queue) (s v u : State), v = hostReadDone fn (.doorbell fq) s →
      q = { queueOf v fn.val fq.toNat with reading := false } →
      (queueOf v fn.val fq.toNat).reading = true → q.qstate = .running → u = putQueue fn.val fq.toNat q v →
      instOn u fn.val (queueInst u fn.val fq.toNat) = true → badProd q (BitVec.ofNat 32 (le b 0 4)) = false →
      exec (.doorbellRecordReturn fn fq (.data b)) s = .next (issueOwed fn fq.toNat
        (putQueue fn.val fq.toNat { q with pSeen := BitVec.ofNat 32 (le b 0 4), holdFetch := false } u))) ∧
  (∀ (fn : Fn) (fq : BitVec 20) (b : Bytes) (q : Queue) (s v u : State), v = hostReadDone fn (.doorbell fq) s →
      q = { queueOf v fn.val fq.toNat with reading := false } →
      (queueOf v fn.val fq.toNat).reading = true → q.qstate = .running → u = putQueue fn.val fq.toNat q v →
      instOn u fn.val (queueInst u fn.val fq.toNat) = true → badProd q (BitVec.ofNat 32 (le b 0 4)) = true →
      exec (.doorbellRecordReturn fn fq (.data b)) s = .next (stopRecord fn fq.toNat 0x114 u)) ∧
  (∀ (fn : Fn) (inst : BitVec 10) (s : State), rb s (QE_SWEEP (1024 * fn.val + inst.toNat)) 0 = true →
      sweepDue s (1024 * fn.val + inst.toNat) ≤ tickNs s → instOn s fn.val inst.toNat = false →
      exec (.sweep fn inst) s = .next (putSweepDue (1024 * fn.val + inst.toNat)
        (sweepDue s (1024 * fn.val + inst.toNat) + sweepPeriod s (1024 * fn.val + inst.toNat)) s)) ∧
  (∀ (fn : Fn) (inst : BitVec 10) (fq : Nat) (s t : State), rb s (QE_SWEEP (1024 * fn.val + inst.toNat)) 0 = true →
      sweepDue s (1024 * fn.val + inst.toNat) ≤ tickNs s → instOn s fn.val inst.toNat = true →
      queuesOf s fn.val = [fq] → queueInst s fn.val fq = inst.toNat → bit (queueOf s fn.val fq).w0 4 = true →
      (queueOf s fn.val fq).qstate = .running → t = pokeQueue fn fq s →
      exec (.sweep fn inst) s = .next (putSweepDue (1024 * fn.val + inst.toNat)
        (sweepDue t (1024 * fn.val + inst.toNat) + sweepPeriod t (1024 * fn.val + inst.toNat)) t))

/-- A fetch (R123): a descriptor with another lap stops the queue with BAD_LAP (0x110), one with an unassigned opcode
with BAD_OPCODE (0x111), one with a reserved bit set with RESERVED_BIT (0x112); one that passes every check is the
queue's next entry and the fetch index passes it, past its commit point at once for a NOP or COUNT_DELTA outside a group
(R134); a queue that may not fetch fetches nothing. -/
def Obligations.Fetches : Prop :=
  (∀ (fn : Fn) (fq : BitVec 20) (b : Bytes) (s u : State), u = joinWaiting fn.val fq.toNat s →
      mayFetch u fn.val fq.toNat = false → exec (.descriptorFetch fn fq (.data b) .good) s = .next u) ∧
  (∀ (fn : Fn) (fq : BitVec 20) (b : Bytes) (q : Queue) (k : BitVec 32) (s u v : State), u = joinWaiting fn.val fq.toNat s →
      mayFetch u fn.val fq.toNat = true → q = queueOf u fn.val fq.toNat → k = nextFetch q q.entries.length q.fetch →
      k ≠ q.pSeen → v = instRead fn (queueInst (putQueue fn.val fq.toNat { q with fetch := k } u) fn.val fq.toNat)
        (entryAddr q k) 64 (.descriptor fq) (putQueue fn.val fq.toNat { q with fetch := k } u) →
      exec (.descriptorFetch fn fq (.data b) .good) s = .next (takeDescriptor fn fq.toNat k (slice b 0 64) v)) ∧
  (∀ (fn : Fn) (fq : Nat) (k : BitVec 32) (d : Bytes) (s : State), checkEntry s fn.val fq (queueOf s fn.val fq) k d = .run →
      bit (leWord d 0) 14 = false → takeDescriptor fn fq k d s =
        addEntry fn.val fq (newEntry k d (instOf s fn.val (queueInst s fn.val fq)).gen
          (if lef d 0 4 8 = 0xF0 ∨ lef d 0 4 8 = 0xF1 then .past else .fetched)) s) ∧
  (∀ (s : State) (fn fq : Nat) (q : Queue) (k : BitVec 32) (d : Bytes), lef d 0 0 2 ≠ lapOf (ringSize q) k →
      checkEntry s fn fq q k d = .stop 0x110) ∧
  (∀ (s : State) (fn fq : Nat) (q : Queue) (k : BitVec 32) (d : Bytes), lef d 0 0 2 = lapOf (ringSize q) k →
      lef d 0 2 2 = 1 → opValid (queueKind q) (lef d 0 4 8) = false → checkEntry s fn fq q k d = .stop 0x111) ∧
  (∀ (s : State) (fn fq : Nat) (q : Queue) (k : BitVec 32) (d : Bytes), lef d 0 0 2 = lapOf (ringSize q) k →
      lef d 0 2 2 = 1 → opValid (queueKind q) (lef d 0 4 8) = true → reservedSet (queueKind q) d = true →
      checkEntry s fn fq q k d = .stop 0x112)

/-- Completions (R125, R131): a batch writes at most 64 overwrites of finished entries, moves the head past every entry
that is complete and publishes it if it moved; a queue of an instance
that is not ON moves no head (R160); a DISABLED or QUIESCED queue writes none. -/
def Obligations.CompletionBatches : Prop :=
  (∀ (fn : Fn) (fq : BitVec 20) (s : State),
      ((queueOf s fn.val fq.toNat).qstate = .disabled ∨ (queueOf s fn.val fq.toNat).qstate = .quiesced) →
      exec (.completionBatch fn fq) s = .next s) ∧
  (∀ (fn : Fn) (fq : BitVec 20) (s u : State), (queueOf s fn.val fq.toNat).qstate = .running → dmaOn s fn.val = true →
      instOn s fn.val (queueInst s fn.val fq.toNat) = true → u = writeReady fn fq.toNat 64 s → (moveHead fn.val fq.toNat u).2 = true →
      exec (.completionBatch fn fq) s = .next (freeSettled (settleStop fn fq.toNat
        (publishHead fn fq.toNat false (moveHead fn.val fq.toNat u).1)))) ∧
  (∀ (fn : Fn) (fq : BitVec 20) (s : State), (queueOf s fn.val fq.toNat).qstate = .running → dmaOn s fn.val = true →
      instOn s fn.val (queueInst s fn.val fq.toNat) = false →
      exec (.completionBatch fn fq) s = .next (freeSettled (writeReady fn fq.toNat 64 s))) ∧
  (∀ (es : List Entry) (h : BitVec 32), (∀ e ∈ es, e.idx ≠ h) → advanceHead es h = (es, h)) ∧
  (∀ (e : Entry) (es : List Entry) (h : BitVec 32), e.idx = h → e.phase = .written →
      advanceHead (e :: es) h = advanceHead es (h + 1))

/-- NOP and COUNT_DELTA (R122, R484): outside a group each finishes at once with status OK, COUNT_DELTA adding both
deltas to its counter pair; inside a group each waits, staged, for the commit point. An entry that finishes without
failing holds its completion, phase finished, and every other entry of its queue, the queue's indices and state, and
every other part of the block are unchanged (R134). -/
def Obligations.NopAndCountDelta : Prop :=
  (∀ (fn : Fn) (fq : BitVec 20) (e : Entry) (s u : State), CountedIs s fn.val fq.toNat 0xF0 e u → e.group = none →
      exec (.nop fn fq) s = .next (finish fn.val fq.toNat e.idx false 0 0 none u)) ∧
  (∀ (fn : Fn) (fq : BitVec 20) (e : Entry) (g : Nat) (s u : State), CountedIs s fn.val fq.toNat 0xF0 e u → e.group = some g →
      exec (.nop fn fq) s = .next (stageMember g fn.val fq.toNat e.idx .none u)) ∧
  (∀ (fn : Fn) (fq : BitVec 20) (e : Entry) (p : Nat) (s u : State), CountedIs s fn.val fq.toNat 0xF1 e u → e.group = none →
      countPair u fn.val (queueInst u fn.val fq.toNat) (lef e.desc 0x10 2 18) = some p →
      exec (.countDelta fn fq) s = .next (finish fn.val fq.toNat e.idx false 0 0 none
        (addPair (lef e.desc 0x10 0 2) p (leWord e.desc 0x18) (leWord e.desc 0x20) u))) ∧
  (∀ (pl p : Nat) (a b : Word) (s : State), tabSorted none s.tab.pairs = true →
      tabGet (fun _ => (0, 0)) (addPair pl p a b s).tab.pairs (2 ^ 18 * pl + p) =
        ((tabGet (fun _ => (0, 0)) s.tab.pairs (2 ^ 18 * pl + p)).1 + a, (tabGet (fun _ => (0, 0)) s.tab.pairs (2 ^ 18 * pl + p)).2 + b)) ∧
  (∀ (fn : Fn) (fq : BitVec 20) (s : State), pastEntry s fn.val fq.toNat 0xF0 = none →
      entryWith (joinWaiting fn.val fq.toNat s) fn.val fq.toNat 0xF0 = none →
      exec (.nop fn fq) s = .next (joinWaiting fn.val fq.toNat s)) ∧
  (∀ (fn fq st : Nat) (idx aux : BitVec 32) (r : Option Bytes) (s : State),
    finish fn fq idx false st aux r s = putQueue fn fq { queueOf s fn fq with
      entries := (queueOf s fn fq).entries.map (fun e => if e.idx == idx then
        { e with phase := .finished, failed := false, status := BitVec.ofNat 16 st, aux := aux, results := r } else e) } s)

/-- Queue management (R133, R136 to R138): each opcode, run from the CTL queue of PF0 instance 0, has its effect when
its checks pass and completes with the status of the first check that fails. The end of a disable, and QE_CTL_SETUP
(R135, R558): a disable whose work is finished ends DISABLED with the exact head published; QE_CTL_GO.enable configures
and enables a queue of PF0 instance 0, or ends with the failing status; disable of a DISABLED queue answers with its
head at once; neither acts while a request is under way. -/
def Obligations.QueueManagement : Prop :=
  (∀ (cq : BitVec 20) (e : Entry) (st : Nat) (s u : State), AdminIs s cq.toNat 0x80 e u →
      st = configStatus u (targetOf e.desc).1 (targetOf e.desc).2 (leWord e.desc 0x18) (leWord e.desc 0x30) →
      exec (.queueConfig cq) s = .next (ctlFinish cq.toNat e st (if st = 0 then
        writeContext (targetOf e.desc).1 (targetOf e.desc).2 (leWord e.desc 0x18) (leWord e.desc 0x20) (leWord e.desc 0x28) (leWord e.desc 0x30) u
        else u))) ∧
  (∀ (cq : BitVec 20) (e : Entry) (s u : State), AdminIs s cq.toNat 0x81 e u →
      targetGood u (targetOf e.desc).1 (targetOf e.desc).2 = true → instBarred u (targetOf e.desc).1 (targetOf e.desc).2 = false →
      (queueOf u (targetOf e.desc).1 (targetOf e.desc).2).qstate = .disabled →
      exec (.queueEnable cq) s = .next (ctlFinish cq.toNat e 0
        (enableQueue (Fin.ofNat 4 (targetOf e.desc).1) (targetOf e.desc).2 (le e.desc 0x18 4) u))) ∧
  (∀ (cq : BitVec 20) (e : Entry) (s u : State), AdminIs s cq.toNat 0x81 e u →
      targetGood u (targetOf e.desc).1 (targetOf e.desc).2 = true → instBarred u (targetOf e.desc).1 (targetOf e.desc).2 = false →
      (queueOf u (targetOf e.desc).1 (targetOf e.desc).2).qstate ≠ .disabled →
      exec (.queueEnable cq) s = .next (ctlFinish cq.toNat e 0x120 u)) ∧
  (∀ (cq : BitVec 20) (e : Entry) (q : Queue) (s u : State), AdminIs s cq.toNat 0x82 e u →
      targetGood u (targetOf e.desc).1 (targetOf e.desc).2 = true → ¬ ((targetOf e.desc).1 = 0 ∧ (targetOf e.desc).2 = cq.toNat) →
      q = queueOf u (targetOf e.desc).1 (targetOf e.desc).2 →
      exec (.queueDisable cq) s = .next (
        if q.qstate = .disabled then finish 0 cq.toNat e.idx false 0 q.head none u
        else if q.qstate = .quiesced then ctlFinish cq.toNat e 0x120 u
        else disableWait cq.toNat e (Fin.ofNat 4 (targetOf e.desc).1) (targetOf e.desc).2 u)) ∧
  (∀ (cq : BitVec 20) (e : Entry) (q : Queue) (s u : State), AdminIs s cq.toNat 0x83 e u →
      targetGood u (targetOf e.desc).1 (targetOf e.desc).2 = true → instBarred u (targetOf e.desc).1 (targetOf e.desc).2 = false →
      q = queueOf u (targetOf e.desc).1 (targetOf e.desc).2 → (q.qstate = .error ∨ q.qstate = .frozen) →
      BitVec.ofNat 32 (le e.desc 0x18 4) = q.latched →
      exec (.queueResume cq) s = .next (ctlFinish cq.toNat e 0
        (resumeQueue (Fin.ofNat 4 (targetOf e.desc).1) (targetOf e.desc).2 q.latched u))) ∧
  (∀ (cq : BitVec 20) (e : Entry) (q : Queue) (s u : State), AdminIs s cq.toNat 0x83 e u →
      targetGood u (targetOf e.desc).1 (targetOf e.desc).2 = true → instBarred u (targetOf e.desc).1 (targetOf e.desc).2 = false →
      q = queueOf u (targetOf e.desc).1 (targetOf e.desc).2 → (q.qstate = .error ∨ q.qstate = .frozen) →
      BitVec.ofNat 32 (le e.desc 0x18 4) ≠ q.latched → BitVec.ofNat 32 (le e.desc 0x18 4) ≠ q.latched + 1 →
      exec (.queueResume cq) s = .next (ctlFinish cq.toNat e 0x122 u)) ∧
  (∀ (cq : BitVec 20) (e : Entry) (fn n : Nat) (s u : State), AdminIs s cq.toNat 0x84 e u → fn = lef e.desc 0x10 16 2 →
      n = lef e.desc 0x10 0 16 → fnPresent u fn = true → n < poolSize .evqs fn → bit (leWord e.desc 0x18) 0 = true →
      4 ≤ fld (leWord e.desc 0x18) 4 5 → fld (leWord e.desc 0x18) 4 5 ≤ 16 → bit (evqOf u fn n).w0 0 = false →
      exec (.evqConfig cq) s = .next (ctlFinish cq.toNat e 0 (putEvq fn n { Evq.none with
        w0 := leWord e.desc 0x18, w1 := leWord e.desc 0x20, prod := BitVec.ofNat 32 (le e.desc 0x28 4), consSeen := BitVec.ofNat 32 (le e.desc 0x28 4) } u))) ∧
  (∀ (fn : Fn) (fq : BitVec 20) (s : State), disableReady s fn fq.toNat = true →
      exec (.disableDone fn fq) s = .next (endDisable fn fq.toNat s)) ∧
  (∀ (fn : Fn) (fq : BitVec 20) (s : State), disableReady s fn fq.toNat = false → exec (.disableDone fn fq) s = .next s) ∧
  (∀ s : State, setupOpen s = true → rb s QE_CTL_GO 2 = false → s.life.stage = 3 → ctlTarget s < share s .queues 0 →
      configStatus s 0 (ctlTarget s) (getReg s (QE_CTL_CTX 0)) (getReg s (QE_CTL_CTX 3)) = 0 →
      exec .qeCtlEnable s = .next (linkBusy (ctlDone 0 (rf s QE_CTL_GO 32 32) (enableQueue 0 (ctlTarget s) (rf s QE_CTL_TARGET 32 32)
        (writeContext 0 (ctlTarget s) (getReg s (QE_CTL_CTX 0)) (getReg s (QE_CTL_CTX 1)) (getReg s (QE_CTL_CTX 2)) (getReg s (QE_CTL_CTX 3)) s))))) ∧
  (∀ s : State, setupOpen s = true → rb s QE_CTL_GO 2 = false → s.life.stage = 3 → ctlTarget s < share s .queues 0 →
      (queueOf s 0 (ctlTarget s)).qstate = .disabled →
      exec .qeCtlDisable s = .next (linkBusy (ctlDone 0 (queueOf s 0 (ctlTarget s)).head.toNat s))) ∧
  (∀ s : State, setupOpen s = true → rb s QE_CTL_GO 2 = true →
      exec .qeCtlEnable s = .next (linkBusy s) ∧ exec .qeCtlDisable s = .next (linkBusy s))

/-- Events and messages (R138, R143, R145): a consumer record read is taken only by an event queue that waits for it;
while overflow is set the record is read again; an arming hint that came while the record was
read has it read again; an owed message that may be sent is sent once, as a 4-byte write of its entry, which clears armed
and the owed message (R144). -/
def Obligations.EventsAndMessages : Prop :=
  (∀ (fn : Fn) (n : BitVec 16) (b : Bytes) (e : Evq) (s v : State), v = hostReadDone fn (.consumer n) s → e = evqOf v fn.val n.toNat →
      e.reading = true → bit e.w0 0 = true → e.armCheck = false → e.reread = none →
      exec (.consumerRecordReturn fn n (.data b, .good)) s = .next (consumerSeen fn n.toNat (putEvq fn.val n.toNat
        { e with reading := false, armCheck := false, reread := none, consSeen := BitVec.ofNat 32 (le b 0 4) } v))) ∧
  (∀ (fn : Fn) (n : BitVec 16) (b : Bytes) (arm : Bool) (e : Evq) (s v : State), v = hostReadDone fn (.consumer n) s →
      e = evqOf v fn.val n.toNat → e.reading = true → bit e.w0 0 = true → e.armCheck = false → e.reread = some arm →
      exec (.consumerRecordReturn fn n (.data b, .good)) s = .next (rereadConsumer fn n.toNat (some arm) (consumerSeen fn n.toNat
        (putEvq fn.val n.toNat
          { e with reading := false, armCheck := false, reread := none, consSeen := BitVec.ofNat 32 (le b 0 4) } v)))) ∧
  (∀ (fn : Fn) (n : BitVec 16) (r : Read) (ecc : Ecc) (s v : State), v = hostReadDone fn (.consumer n) s →
      (evqOf v fn.val n.toNat).reading = false → exec (.consumerRecordReturn fn n (r, ecc)) s = .next v) ∧
  (∀ (fn : Fn) (n : BitVec 16) (s : State), bit (evqOf s fn.val n.toNat).w0 0 = true → (evqOf s fn.val n.toNat).overflow = true →
      exec (.overflowReread fn n) s = .next (readConsumer fn n.toNat s)) ∧
  (∀ (g : BitVec 16) (s : State), messageReady s g.toNat = true → ∃ t, exec (.interruptMessage (g, .good)) s = .next t ∧
      t.out = .message (intFn g.toNat) (fld (getReg s (QE_INT_A g.toNat)) 2 62 * 4)
        (BitVec.ofNat 32 (fld (getReg s (QE_INT_B g.toNat)) 0 32)) :: s.out ∧
      t.q.lastMessage = tabInsert s.q.lastMessage g.toNat s.ticks ∧
      t.regs = (putReg (QE_INT_B g.toNat) (setBit (setBit (getReg s (QE_INT_B g.toNat)) 34 false) 35 false) s).regs ∧
      t.q.queues = s.q.queues ∧ t.q.evqs = s.q.evqs) ∧
  (∀ (g : BitVec 16) (s : State), messageReady s g.toNat = false → exec (.interruptMessage (g, .good)) s = .next s) ∧
  (∀ (fn : Fn) (n : Nat) (ev : Event) (s : State), bit (evqOf s fn.val n).w0 0 = false →
      postEvent fn n ev s = addErr QE_EVQ_DISCARDED 1 s)

/-! ### Instances (05) -/

/-- INST_ENABLE, INST_DISABLE, INST_RESET and DLOG_EPOCH (R151, R152, R166): each acts on its target when its checks
pass (INST_DISABLE only masks the instance's interrupt store entries, so an owed message stays owed), and completes with the status of the check that fails; PF0 instance 0 is never a target. -/
def Obligations.InstanceOpcodes : Prop :=
  (∀ (cq : BitVec 20) (e : Entry) (fn i : Nat) (s u : State), AdminIs s cq.toNat 0xE0 e u → (fn, i) = instTarget e.desc →
      mgmtTarget (fn, i) = false → i < instCount u fn → fnPresent u fn = true → (i = 0 ∨ (cfgOf u fn).pasidEnable = true) →
      (instOf u fn i).state = .off → bindTaken u fn i = false → instQueues (putInst fn i { instOf u fn i with state := .on } u) fn i = [] →
      exec (.instEnable cq) s = .next (ctlFinish cq.toNat e 0 (putInst fn i { instOf u fn i with state := .on } u))) ∧
  (∀ (cq : BitVec 20) (e : Entry) (fn i : Nat) (s u : State), AdminIs s cq.toNat 0xE0 e u → (fn, i) = instTarget e.desc →
      mgmtTarget (fn, i) = false → i < instCount u fn → fnPresent u fn = true → (i = 0 ∨ (cfgOf u fn).pasidEnable = true) →
      (instOf u fn i).state ≠ .off → exec (.instEnable cq) s = .next (ctlFinish cq.toNat e 0x481 u)) ∧
  (∀ (cq : BitVec 20) (e : Entry) (fn i : Nat) (s u : State), AdminIs s cq.toNat 0xE1 e u → (fn, i) = instTarget e.desc →
      mgmtTarget (fn, i) = false → (instOf u fn i).state = .on →
      (∀ fq ∈ instQueues u fn i, (queueOf u fn fq).qstate = .disabled) →
      exec (.instDisable cq) s = .next (ctlFinish cq.toNat e 0
        (putInst fn i { instOf u fn i with state := .off, logOn := false } (closeEvents fn i maskInt u)))) ∧
  (∀ (cq : BitVec 20) (e : Entry) (fn i fq : Nat) (s u : State), AdminIs s cq.toNat 0xE1 e u → (fn, i) = instTarget e.desc →
      mgmtTarget (fn, i) = false → (instOf u fn i).state = .on → fq ∈ instQueues u fn i →
      (queueOf u fn fq).qstate ≠ .disabled → exec (.instDisable cq) s = .next (ctlFinish cq.toNat e 0x482 u)) ∧
  (∀ (cq : BitVec 20) (e : Entry) (fn i : Nat) (s u : State), AdminIs s cq.toNat 0xE2 e u → (fn, i) = instTarget e.desc →
      mgmtTarget (fn, i) = false → (instOf u fn i).state ≠ .off →
      exec (.instReset cq) s = .next (resetInst cq.toNat e fn i u)) ∧
  (∀ (cq : BitVec 20) (e : Entry) (fn i sz : Nat) (x : Inst) (s u : State), AdminIs s cq.toNat 0xE3 e u →
      (fn, i) = instTarget e.desc → i < instCount u fn → fnPresent u fn = true → sz = lef e.desc 0x18 0 5 →
      (sz = 0 ∨ (9 ≤ sz ∧ sz ≤ 24)) → x = instOf u fn i → exec (.dlogEpoch cq) s = .next (finish 0 cq.toNat e.idx false 0 0
        (some (leBytes 4 x.epoch.toNat ++ leBytes 4 x.logCount.toNat ++ leBytes 8 (b2n x.logOverflow)))
        (putInst fn i { x with epoch := x.epoch + 1, logCount := 0, logOverflow := false, logOn := sz != 0, logSize := BitVec.ofNat 5 sz, logBase := leWord e.desc 0x18 } u))) ∧
  (∀ (cq : BitVec 20) (e : Entry) (op : Nat) (c : Instr) (s u : State),
      ((op = 0xE0 ∧ c = .instEnable cq) ∨ (op = 0xE1 ∧ c = .instDisable cq) ∨ (op = 0xE2 ∧ c = .instReset cq)) →
      AdminIs s cq.toNat op e u → instTarget e.desc = (0, 0) → exec c s = .next (ctlFinish cq.toNat e 0x121 u))

/-- Drains and instance registers (R149, R151, R153, R159): a drain ends once no work past its commit point is left, in
the state its cause decides; n_log2 changes only while the function's instances are OFF, otherwise refused is set; pasid
and bind_id are written only while the instance is OFF and exists, otherwise IM_REFUSED counts. -/
def Obligations.DrainsAndShares : Prop :=
  (∀ (fn : Fn) (i : BitVec 10) (c : DrainCause) (s : State), (instOf s fn.val i.toNat).drain = some c →
      drained s fn.val i.toNat = true → exec (.drainComplete fn i) s = .next (endDrain fn i.toNat c s)) ∧
  (∀ (fn : Fn) (i : BitVec 10) (s : State), ((instOf s fn.val i.toNat).drain = none ∨ drained s fn.val i.toNat = false) →
      exec (.drainComplete fn i) s = .next s) ∧
  (∀ x : IState, drainedState .reset x = .on ∧ drainedState .fault x = .faulted ∧ drainedState .flr .resetting = .on) ∧
  (∀ (fn : Fn) (v : BitVec 64) (s : State), setupOpen s = true → bit v 4 = false → fld v 0 4 ≠ rf s (IM_FN_SHARE fn.val) 0 4 →
      fld v 0 4 ≤ maxInstLog2 s fn.val → shareFree s fn.val = true →
      exec (.fnShareWrite fn v) s = .next (linkBusy (pageChanged fn.val (clearOutside fn.val (2 ^ fld v 0 4)
        (putF (IM_FN_SHARE fn.val) 0 4 (fld v 0 4) s))))) ∧
  (∀ (fn : Fn) (v : BitVec 64) (s : State), setupOpen s = true → bit v 4 = false → fld v 0 4 ≠ rf s (IM_FN_SHARE fn.val) 0 4 →
      (maxInstLog2 s fn.val < fld v 0 4 ∨ shareFree s fn.val = false) →
      exec (.fnShareWrite fn v) s = .next (linkBusy (putB (IM_FN_SHARE fn.val) 4 true s))) ∧
  (∀ (fn : Fn) (i : BitVec 10) (v : BitVec 64) (s : State), setupOpen s = true → i.toNat < instCount s fn.val →
      (instOf s fn.val i.toNat).state = .off → exec (.instRegisterWrite fn i false v) s = .next (linkBusy
        (putInst fn.val i.toNat { instOf s fn.val i.toNat with pasid := BitVec.ofNat 20 (fld v 16 20), bind := BitVec.ofNat 10 (fld v 36 10) } s))) ∧
  (∀ (fn : Fn) (i : BitVec 10) (v : BitVec 64) (s : State), setupOpen s = true →
      (instCount s fn.val ≤ i.toNat ∨ (instOf s fn.val i.toNat).state ≠ .off) →
      exec (.instRegisterWrite fn i false v) s = .next (linkBusy (addErr IM_REFUSED 1 s)))

/-! ### Network ports and the bulk pipelines (06) -/

/-- Network ports (R171, R172, R281, R282): the lane mode changes only while every port is disabled, else refused is
set; a link of an enabled port comes up with its headroom reserved, and goes down with PFC inactive. Receipt (R174,
R198, R280): a frame at a port that is down is lost; the codewords that FEC corrected or could
not correct are counted; an ingress overflow, an over-long frame and a frame that ingress
accounting refuses are counted and dropped; an admitted frame is counted and waits at its source. -/
def Obligations.NetworkPorts : Prop :=
  (∀ (v : BitVec 64) (s : State), setupOpen s = true → bit v 2 = false → fld v 0 2 ≠ 3 →
      (∀ n, n < 8 → rb s (NP_PORT_CTRL n) 0 = false) →
      exec (.npModeWrite v) s = .next (linkBusy (putF NP_MODE 0 2 (fld v 0 2) s))) ∧
  (∀ (v : BitVec 64) (n : Nat) (s : State), setupOpen s = true → bit v 2 = false → n < 8 →
      rb s (NP_PORT_CTRL n) 0 = true → exec (.npModeWrite v) s = .next (linkBusy (putB NP_MODE 2 true s))) ∧
  (∀ (p : NPort) (s : State), netEnabled s p.val = true → netUp s p.val = false →
      exec (.networkLinkUp p) s = .next (pageChanged 1 (reservePfc p.val (putB (NP_PORT_CTRL p.val) 40 true s)))) ∧
  (∀ (p : NPort) (s : State), netEnabled s p.val = false → exec (.networkLinkUp p) s = .next s) ∧
  (∀ (p : NPort) (s : State), netUp s p.val = true →
      exec (.networkLinkDown p) s = .next (pageChanged 1 (releasePfc p.val (putB (NP_PORT_CTRL p.val) 40 false s)))) ∧
  (∀ (p : NPort) (s : State), netUp s p.val = false → exec (.networkLinkDown p) s = .next s) ∧
  (∀ (p : NPort) (b : Bytes) (ok ov : Bool) (n : BitVec 16 × BitVec 16) (c : Cyc) (s : State), netUp s p.val = false →
      exec (.networkFrameReceive p b (ok, n) ov c) s = .next s) ∧
  (∀ (p : NPort) (b : Bytes) (ok : Bool) (n : BitVec 16 × BitVec 16) (c : Cyc) (s v : State), netUp s p.val = true →
      v = addErr (NP_FEC_UNCORRECTED p.val) n.2.toNat (addStat (NP_FEC_CORRECTED p.val) n.1.toNat s) →
      exec (.networkFrameReceive p b (ok, n) true c) s = .next (addErr (NP_RX_OVERFLOW p.val) 1 v)) ∧
  (∀ (p : NPort) (b : Bytes) (ok : Bool) (n : BitVec 16 × BitVec 16) (c : Cyc) (s v u : State), netUp s p.val = true →
      v = addErr (NP_FEC_UNCORRECTED p.val) n.2.toNat (addStat (NP_FEC_CORRECTED p.val) n.1.toNat s) →
      u = addStat (NP_RX_OCTETS p.val) (b.length + 4) (addStat (NP_RX_FRAMES p.val) 1 v) → maxFrame u p.val < b.length + 4 →
      exec (.networkFrameReceive p b (ok, n) false c) s = .next (addErr (NP_RX_TOO_LONG p.val) 1 u)) ∧
  (∀ (p : NPort) (b : Bytes) (ok : Bool) (n : BitVec 16 × BitVec 16) (c : Cyc) (s v u : State), netUp s p.val = true →
      v = addErr (NP_FEC_UNCORRECTED p.val) n.2.toNat (addStat (NP_FEC_CORRECTED p.val) n.1.toNat s) →
      u = addStat (NP_RX_OCTETS p.val) (b.length + 4) (addStat (NP_RX_FRAMES p.val) 1 v) → b.length + 4 ≤ maxFrame u p.val →
      (admitIngress p.val b u).2 = true → ∃ t f x, exec (.networkFrameReceive p b (ok, n) false c) s = .next t ∧
        f = (admitIngress p.val b u).1.pipe.nextFrame ∧ frameOf t f = some x ∧ x.bytes = b ∧ x.fcsOk = ok ∧
        x.loc = .waiting ∧ x.source = 0 ∧ x.port = BitVec.ofNat 4 p.val ∧ x.result = .pending ∧
        t.pipe.nextFrame = f + 1) ∧
  (∀ (p : NPort) (b : Bytes) (ok : Bool) (n : BitVec 16 × BitVec 16) (c : Cyc) (s v u : State), netUp s p.val = true →
      v = addErr (NP_FEC_UNCORRECTED p.val) n.2.toNat (addStat (NP_FEC_CORRECTED p.val) n.1.toNat s) →
      u = addStat (NP_RX_OCTETS p.val) (b.length + 4) (addStat (NP_RX_FRAMES p.val) 1 v) → b.length + 4 ≤ maxFrame u p.val →
      (admitIngress p.val b u).2 = false → exec (.networkFrameReceive p b (ok, n) false c) s = .next (admitIngress p.val b u).1)

/-- Dealing and reorder release (R175, R176, R181): a chosen source's first frame goes to the next idle unit; an entry
whose parse is pending stays; a frame with a bad FCS is freed and counted, a malformed one takes its action, any other
enters its chain; nothing is dealt while no source is ready. An uncorrectable word of the reorder buffer is a device fault
of cause 5, a corrected one is counted (R32, R506). -/
def Obligations.DealAndRelease : Prop :=
  (∀ (pl : BulkPl) (src left f w : Nat) (s : State), dealChoice s pl.val = some (src, left) →
      (srcOf s pl.val src).wait.head? = some f → idleUnit s pl.val src = some w → exec (.deal pl) s =
        .next (dealFrame pl.val src f w (putPipe pl.val { pipeOf s pl.val with turn := src, turnLeft := left, lastUnit := w } s))) ∧
  (∀ (pl : BulkPl) (s : State), dealChoice s pl.val = none → exec (.deal pl) s = .next s) ∧
  (∀ (pl : BulkPl) (x : Source) (f : Nat) (rest : List Nat) (y : Frame) (s : State),
      (srcOf s pl.val (sourceNum x)).rob = f :: rest → frameOf s f = some y → y.result = .pending →
      exec (.reorderRelease pl (x, .good)) s = .next s) ∧
  (∀ (pl : BulkPl) (x : Source) (f : Nat) (rest : List Nat) (y : Frame) (s u : State),
      (srcOf s pl.val (sourceNum x)).rob = f :: rest → frameOf s f = some y → y.result = .committed → y.fcsOk = true →
      u = putSrc pl.val (sourceNum x) { srcOf s pl.val (sourceNum x) with rob := rest } s →
      exec (.reorderRelease pl (x, .good)) s = .next (enterChain pl.val (sourceNum x) f y u)) ∧
  (∀ (pl : BulkPl) (x : Source) (f : Nat) (rest : List Nat) (y : Frame) (r : BitVec 7) (s u : State),
      (srcOf s pl.val (sourceNum x)).rob = f :: rest → frameOf s f = some y → y.result = .malformed r → y.fcsOk = true →
      u = putSrc pl.val (sourceNum x) { srcOf s pl.val (sourceNum x) with rob := rest } s →
      exec (.reorderRelease pl (x, .good)) s = .next (malformedAction pl.val f r.toNat u)) ∧
  (∀ (pl : BulkPl) (n : NPort) (f : Nat) (rest : List Nat) (y : Frame) (s u : State),
      (srcOf s pl.val n.val).rob = f :: rest → frameOf s f = some y → y.result ≠ .pending → y.fcsOk = false →
      u = putSrc pl.val n.val { srcOf s pl.val n.val with rob := rest } s →
      exec (.reorderRelease pl (.net n, .good)) s = .next (advanceRetired pl.val (freeFrame f (addErr (NP_RX_FCS_ERR n.val) 1 u)))) ∧
  (∀ (pl : BulkPl) (x : Source) (s : State), (srcOf s pl.val (sourceNum x)).rob ≠ [] →
      exec (.reorderRelease pl (x, .bad)) s = .next (deviceFault 5 blkPL 0 s) ∧
      exec (.reorderRelease pl (x, .corrected)) s = exec (.reorderRelease pl (x, .good)) (correctable FX_CORR_SRAM s)) ∧
  (∀ (pl : Pl) (w : Fin 32) (fid : Nat) (f : Frame) (s : State), (unitOf s pl.val w.val).frame = some fid →
      frameOf s fid = some f → stepLimit s pl.val ≤ (unitOf s pl.val w.val).steps.toNat →
      exec (.stepLimit pl w) s = .next (putUnit pl.val w.val ParseUnit.idle (putFrame fid { f with result := .malformed 2 } s))) ∧
  (∀ (pl : Pl) (w : Fin 32) (s : State), (unitOf s pl.val w.val).steps.toNat < stepLimit s pl.val →
      exec (.stepLimit pl w) s = .next s)

/-! ### Parse microwords (07) -/

/-- The operations that write dst: MOV, ADD, SUB, AND, OR, XOR and the shifts by B[4:0] write their value; NOP writes
none. The operations on the condition and the cursor: CMPEQ, CMPLT, TEST and RANGE set c; ADVANCE and SETCUR set the
cursor; none of them changes anything else of the unit but what every word does. The operations on the record: MARK,
EMIT, SETF, CSUM and HASH change it; TAG also advances the cursor, and a ninth tag is malformed with TAG_LIMIT (5);
TUNNEL at layer 3 is malformed with TUNNEL_LIMIT (6); MALF ends the run with its reason. Under every operation a corrected
word counts and runs on (R205, R207), an uncorrectable one abandons the run, and so does a residue mismatch (R31, R32). -/
def Obligations.ParseWords : Prop :=
  (∀ (pl : Pl) (w : Fin 32) (fid : Nat) (f : Frame) (u : ParseUnit) (m : MicroWord) (a b : BitVec 32) (s : State),
    (WordReady s pl.val w.val 0x00 fid f u m a b → exec (.parseNop pl w .none) s =
      .next (endWord pl.val w.val fid f (finishWord m a u (storeSize pl.val)) s)) ∧
    (WordReady s pl.val w.val 0x01 fid f u m a b → exec (.parseMov pl w .none) s =
      .next (endWord pl.val w.val fid f (finishWord m a (writeDst m.dst (some a) u) (storeSize pl.val)) s)) ∧
    (WordReady s pl.val w.val 0x02 fid f u m a b → exec (.parseAdd pl w .none) s =
      .next (endWord pl.val w.val fid f (finishWord m a (writeDst m.dst (some (a + b)) u) (storeSize pl.val)) s)) ∧
    (WordReady s pl.val w.val 0x03 fid f u m a b → exec (.parseSub pl w .none) s =
      .next (endWord pl.val w.val fid f (finishWord m a (writeDst m.dst (some (a - b)) u) (storeSize pl.val)) s)) ∧
    (WordReady s pl.val w.val 0x04 fid f u m a b → exec (.parseAnd pl w .none) s =
      .next (endWord pl.val w.val fid f (finishWord m a (writeDst m.dst (some (a &&& b)) u) (storeSize pl.val)) s)) ∧
    (WordReady s pl.val w.val 0x05 fid f u m a b → exec (.parseOr pl w .none) s =
      .next (endWord pl.val w.val fid f (finishWord m a (writeDst m.dst (some (a ||| b)) u) (storeSize pl.val)) s)) ∧
    (WordReady s pl.val w.val 0x06 fid f u m a b → exec (.parseXor pl w .none) s =
      .next (endWord pl.val w.val fid f (finishWord m a (writeDst m.dst (some (a ^^^ b)) u) (storeSize pl.val)) s)) ∧
    (WordReady s pl.val w.val 0x07 fid f u m a b → exec (.parseShl pl w .none) s =
      .next (endWord pl.val w.val fid f (finishWord m a (writeDst m.dst (some (a <<< (b.toNat % 32))) u) (storeSize pl.val)) s)) ∧
    (WordReady s pl.val w.val 0x08 fid f u m a b → exec (.parseShr pl w .none) s =
      .next (endWord pl.val w.val fid f (finishWord m a (writeDst m.dst (some (a >>> (b.toNat % 32))) u) (storeSize pl.val)) s))) ∧
  (∀ (pl : Pl) (w : Fin 32) (fid : Nat) (f : Frame) (u : ParseUnit) (m : MicroWord) (a b : BitVec 32) (s : State),
    (WordReady s pl.val w.val 0x09 fid f u m a b → exec (.parseCmpeq pl w .none) s =
      .next (endWord pl.val w.val fid f (finishWord m a { u with c := a == b } (storeSize pl.val)) s)) ∧
    (WordReady s pl.val w.val 0x0A fid f u m a b → exec (.parseCmplt pl w .none) s =
      .next (endWord pl.val w.val fid f (finishWord m a { u with c := decide (a.toNat < b.toNat) } (storeSize pl.val)) s)) ∧
    (WordReady s pl.val w.val 0x0B fid f u m a b → exec (.parseTest pl w .none) s =
      .next (endWord pl.val w.val fid f (finishWord m a { u with c := a &&& b != 0 } (storeSize pl.val)) s)) ∧
    (WordReady s pl.val w.val 0x0C fid f u m a b → exec (.parseRange pl w .none) s =
      .next (endWord pl.val w.val fid f (finishWord m a { u with c := decide (m.imm.toNat % 65536 ≤ a.toNat) && decide (a.toNat ≤ m.imm.toNat / 65536) } (storeSize pl.val)) s)) ∧
    (WordReady s pl.val w.val 0x0D fid f u m a b → exec (.parseAdvance pl w .none) s =
      .next (endWord pl.val w.val fid f (finishWord m a { u with cur := u.cur + a.setWidth 16 } (storeSize pl.val)) s)) ∧
    (WordReady s pl.val w.val 0x0E fid f u m a b → exec (.parseSetcur pl w .none) s =
      .next (endWord pl.val w.val fid f (finishWord m a { u with cur := a.setWidth 16 } (storeSize pl.val)) s))) ∧
  (∀ (pl : Pl) (w : Fin 32) (fid : Nat) (f : Frame) (u : ParseUnit) (m : MicroWord) (a b : BitVec 32) (s : State),
    (WordReady s pl.val w.val 0x10 fid f u m a b → exec (.parseMark pl w .none) s =
      .next (endWord pl.val w.val fid f (finishWord m a (opMark m.imm a u) (storeSize pl.val)) s)) ∧
    (WordReady s pl.val w.val 0x11 fid f u m a b → be u.record 3 1 / 4 % 16 < 8 → ∃ v, exec (.parseTag pl w .none) s =
      .next (endWord pl.val w.val fid f (finishWord m a v (storeSize pl.val)) s) ∧ v.cur = u.cur + 4 ∧ v.pc = u.pc) ∧
    (WordReady s pl.val w.val 0x11 fid f u m a b → 8 ≤ be u.record 3 1 / 4 % 16 → exec (.parseTag pl w .none) s =
      .next (unitMalformed pl.val w.val fid f 5 s)) ∧
    (WordReady s pl.val w.val 0x12 fid f u m a b → u.layer ≠ 3 → ∃ v, exec (.parseTunnel pl w .none) s =
      .next (endWord pl.val w.val fid f (finishWord m a v (storeSize pl.val)) s) ∧ v.layer = u.layer + 1 ∧ v.cur = u.cur) ∧
    (WordReady s pl.val w.val 0x12 fid f u m a b → u.layer = 3 → exec (.parseTunnel pl w .none) s =
      .next (unitMalformed pl.val w.val fid f 6 s)) ∧
    (WordReady s pl.val w.val 0x13 fid f u m a b → exec (.parseEmit pl w .none) s =
      .next (endWord pl.val w.val fid f (finishWord m a (opEmit m.imm a u) (storeSize pl.val)) s)) ∧
    (WordReady s pl.val w.val 0x14 fid f u m a b → exec (.parseSetf pl w .none) s =
      .next (endWord pl.val w.val fid f (finishWord m a (opSetf m.imm u) (storeSize pl.val)) s)) ∧
    (WordReady s pl.val w.val 0x15 fid f u m a b → exec (.parseCsum pl w .none) s =
      .next (endWord pl.val w.val fid f (finishWord m a (opCsum m.imm u) (storeSize pl.val)) s)) ∧
    (WordReady s pl.val w.val 0x16 fid f u m a b → exec (.parseHash pl w .none) s =
      .next (endWord pl.val w.val fid f (finishWord m a (opHash a b u) (storeSize pl.val)) s)) ∧
    (WordReady s pl.val w.val 0x17 fid f u m a b → exec (.parseMalf pl w .none) s =
      .next (unitMalformed pl.val w.val fid f (BitVec.ofNat 7 (0x40 + m.imm.toNat % 64)) s))) ∧
  (∀ (pl : Pl) (w : Fin 32) (op fid : Nat) (f : Frame) (u : ParseUnit) (m : MicroWord) (a b : BitVec 32) (s : State),
    WordReady s pl.val w.val op fid f u m a b →
    parseWord op pl.val w.val .corrected s =
      endWord pl.val w.val fid f (runWord m u f (storeSize pl.val)) (correctable FX_CORR_SRAM s) ∧
    parseWord op pl.val w.val .controlStore s = abandonRun pl.val w.val fid f u 0x0C (csError pl.val u.pc.toNat s) ∧
    parseWord op pl.val w.val .residue s = abandonRun pl.val w.val fid f u 1 (correctable FX_CORR_RESIDUE s))

/-! ### The chain and the header editor (06, 08) -/

/-- The chain and the header editor (R228, R231, R232, R186): a stage runs for a frame that stands at it; a second
mismatch of its key arithmetic makes the frame malformed with KEY_CHECK (8); a frame that an edit program cannot edit is
malformed with the program's reason; a frame that stands elsewhere is left alone. A corrected table word is counted (R32);
a frame whose edit program cannot be read is dropped (R506). -/
def Obligations.ChainAndEditor : Prop :=
  (∀ (pl : BulkPl) (f : Nat) (x : Frame) (st : BitVec 5) (s : State), frameOf s f = some x → x.loc = .chain st →
      x.pl.toNat = pl.val → exec (.classifyStage pl f .none) s = .next (stageRun pl.val st.toNat f .none x s)) ∧
  (∀ (pl : BulkPl) (f : Nat) (x : Frame) (st : BitVec 5) (s : State), frameOf s f = some x → x.loc = .chain st →
      x.pl.toNat = pl.val → x.rebuilt = true → exec (.classifyStage pl f .residueOnce) s =
        .next (malformedAction pl.val f 8 (mirrorCopies f x (correctable FX_CORR_RESIDUE s)))) ∧
  (∀ (pl : BulkPl) (f : Nat) (e : ClassErr) (s : State), frameOf s f = none →
      exec (.classifyStage pl f e) s = .next s ∧ exec (.headerEdit pl (f, .good)) s = .next s) ∧
  (∀ (pl : BulkPl) (f : Nat) (x : Frame) (r : BitVec 7) (s : State), frameOf s f = some x → x.loc = .edit →
      x.pl.toNat = pl.val → nextOut s pl.val f = true → editFrame s x (editLimit s x) = .bad r →
      exec (.headerEdit pl (f, .good)) s = .next (malformedAction pl.val f r.toNat s)) ∧
  (∀ (pl : BulkPl) (f : Nat) (x : Frame) (b : Bytes) (l : BitVec 20) (s : State), frameOf s f = some x → x.loc = .edit →
      x.pl.toNat = pl.val → nextOut s pl.val f = true → editFrame s x (editLimit s x) = .ok b → x.disp = .forward l →
      exec (.headerEdit pl (f, .good)) s = .next (advanceRetired pl.val (forwardEdited pl.val f l.toNat x { x with bytes := b } s))) ∧
  (∀ (pl : BulkPl) (f : Nat) (x : Frame) (s : State), frameOf s f = some x → x.loc ≠ .edit →
      exec (.headerEdit pl (f, .good)) s = .next s) ∧
  (∀ (pl : BulkPl) (f : Nat) (x : Frame) (s : State), frameOf s f = some x →
      exec (.headerEdit pl (f, .corrected)) s = exec (.headerEdit pl (f, .good)) (correctable FX_CORR_DRAM s) ∧
      (x.editProg ≠ 0 → exec (.headerEdit pl (f, .bad)) s = .next (editUnread pl.val f s)) ∧
      (x.editProg = 0 → exec (.headerEdit pl (f, .bad)) s = exec (.headerEdit pl (f, .good)) s)) ∧
  (∀ (pl : BulkPl) (f : Nat) (x : Frame) (st : BitVec 5) (s : State), frameOf s f = some x → x.loc = .chain st →
      x.pl.toNat = pl.val → exec (.classifyStage pl f .corrected) s = .next (stageRun pl.val st.toNat f .none x (correctable FX_CORR_DRAM s)))

/-! ### Tables, learning and aging (08, 09) -/

/-- What a frame of an epoch reads (R241): the main entry while no pending update it sees waits, else the update with
the latest tag. Flips and flushes (R242, R263, R273): a requested flip proceeds once retired equals current, and current
rises by one; STA_FLUSH removes what its filter matches; the hash seed changes only while no entry is valid or reserved. -/
def Obligations.TableEpochs : Prop :=
  (∀ (s : State) (k : TabKind) (pl key : Nat) (e : BitVec 32),
      (∀ x ∈ s.tab.shadows, x.kind = k → x.pl.toNat = pl → x.key = key → ∀ t, x.tag = some t → epochLe t e = false) →
      entryAt s k pl key e = mainEntry s k pl key) ∧
  (∀ (s : State) (k : TabKind) (pl key : Nat) (e t : BitVec 32) (x : Shadow) (l : List Shadow), s.tab.shadows = l ++ [x] →
      x.kind = k → x.pl.toNat = pl → x.key = key → x.tag = some t → epochLe t e = true →
      (∀ y ∈ l, ∀ u, y.tag = some u → epochLe u t = true) → entryAt s k pl key e = x.value) ∧
  (∀ (pl : Pl) (s : State), epochRetired s pl.val = epochCurrent s pl.val → flipPending s (epochMates s pl.val) = true →
      exec (.epochFlip pl) s = .next (advanceGroups (flip pl.val s))) ∧
  (∀ (pl : Pl) (s : State), (epochRetired s pl.val ≠ epochCurrent s pl.val ∨ flipPending s (epochMates s pl.val) = false) →
      exec (.epochFlip pl) s = .next s) ∧
  (∀ (pl : Pl) (cur ret : BitVec 32) (s : State), tabSorted none s.regs = true →
      epochCurrent (putEpoch pl.val cur ret s) pl.val = cur ∧ epochRetired (putEpoch pl.val cur ret s) pl.val = ret) ∧
  (∀ (cq : BitVec 20) (e : Entry) (s u : State), NextIs s 0 cq.toNat 0x93 e u → groupMember e = false →
      badPairMask u (lef e.desc 0x10 0 5) = false → exec (.staFlush cq) s = .next (finish 0 cq.toNat e.idx false 0 0 none
        ((maskPls (lef e.desc 0x10 0 5)).foldl (fun s p => ((stationsOf s p).filter (fun x => flushMatch e.desc x.2)).foldl
          (fun s x => removeStation p x.1 x.2 s) s) u))) ∧
  (∀ (cq : BitVec 20) (e : Entry) (s u : State), NextIs s 0 cq.toNat 0x93 e u → groupMember e = true →
      exec (.staFlush cq) s = .next (finish 0 cq.toNat e.idx true 0x0497 0 none u)) ∧
  (∀ (pl : Pl) (v : BitVec 64) (s : State), setupOpen s = true → stationUse s pl.val = 0 → tabSorted none s.regs = true →
      ∃ t, exec (.hashSeedWrite pl v) s = .next t ∧ getReg t (FT_HASH_SEED pl.val) = v) ∧
  (∀ (pl : Pl) (v : BitVec 64) (s : State), setupOpen s = true → stationUse s pl.val ≠ 0 → tabSorted none s.regs = true →
      ∃ t, exec (.hashSeedWrite pl v) s = .next t ∧ getReg t (FT_HASH_SEED pl.val) = getReg s (FT_HASH_SEED pl.val) ∧
        rb t (FT_STATION_USE pl.val) 19 = true)

/-- ACT_WRITE, JT_ROOT_WRITE, DIR_WRITE, STA_WRITE, LPM_WRITE and STREAM_WRITE (R241, R244, R245, R269, R316): a write
that passes its checks takes a shadow slot in each named pipeline and waits for its flip; one that fails a check
completes with its status; a deletion that finds nothing completes done with its status. JT_NODE_WRITE and JT_RULE_WRITE
(R245): a member fails with 0x04B0; a run that passes its checks is read and written whole to every named pipeline,
entry by entry. -/
def Obligations.TableWrites : Prop :=
  (∀ (cq : BitVec 20) (op : Nat) (c : Instr) (plan : State → Bytes → Plan) (e : Entry) (s u : State),
    ((op = 0xB0 ∧ c = .actWrite cq ∧ plan = actPlan) ∨ (op = 0xB3 ∧ c = .jtRootWrite cq ∧ plan = jtRootPlan) ∨
     (op = 0x90 ∧ c = .dirWrite cq ∧ plan = dirPlan) ∨ (op = 0x91 ∧ c = .staWrite cq ∧ plan = staPlan) ∨
     (op = 0x92 ∧ c = .lpmWrite cq ∧ plan = lpmPlan) ∨ (op = 0xC0 ∧ c = .streamWrite cq ∧ plan = streamPlan)) →
    NextIs s 0 cq.toNat op e u → e.group = none →
    (∀ k keys, plan u e.desc = .write k keys → shadowRoom u (keys.map (fun x => x.1)) = true → ∃ t, exec c s = .next t ∧
      t.tab.flips = u.tab.flips ++ [{ fq := cq, idx := e.idx, pls := keys.map (fun x => (BitVec.ofNat 3 x.1, none)) }] ∧
      t.tab.shadows = u.tab.shadows ++ keys.map (fun x =>
        { pl := BitVec.ofNat 3 x.1, kind := k, key := x.2.1, value := x.2.2, tag := none, group := none, writer := some (cq, e.idx) }) ∧
      t.regs = u.regs ∧ t.life = u.life) ∧
    (∀ k keys, plan u e.desc = .write k keys → shadowRoom u (keys.map (fun x => x.1)) = false → exec c s = .next u) ∧
    (∀ st, plan u e.desc = .fail st → exec c s = .next (finish 0 cq.toNat e.idx true st 0 none u)) ∧
    (∀ st, plan u e.desc = .info st → exec c s = .next (finish 0 cq.toNat e.idx false st 0 none u))) ∧
  (∀ (cq : BitVec 20) (r : Read) (e : Entry) (s u : State), NextIs s 0 cq.toNat 0xB1 e u → groupMember e = true →
      exec (.jtNodeWrite cq r) s = .next (finish 0 cq.toNat e.idx true 0x04B0 0 none u)) ∧
  (∀ (cq : BitVec 20) (b : Bytes) (e : Entry) (mask n first : Nat) (s u : State), NextIs s 0 cq.toNat 0xB1 e u →
      groupMember e = false → mask = lef e.desc 0x10 0 4 → n = lef e.desc 0x10 16 13 → first = lef e.desc 0x10 32 17 →
      badPairMask u mask = false → n ≠ 0 → first + n ≤ 131072 → exec (.jtNodeWrite cq (.data b)) s = .next
        (finish 0 cq.toNat e.idx false 0 0 none (writeRun .node (maskPls mask) first 16 b n
          (entryRead 0 cq.toNat e (leWord e.desc 0x18).toNat (16 * n) u)))) ∧
  (∀ (cq : BitVec 20) (b : Bytes) (e : Entry) (mask n first : Nat) (s u : State), NextIs s 0 cq.toNat 0xB2 e u →
      groupMember e = false → mask = lef e.desc 0x10 0 4 → n = lef e.desc 0x10 16 13 → first = lef e.desc 0x10 32 18 →
      badPairMask u mask = false → n ≠ 0 → first + n ≤ 262144 → exec (.jtRuleWrite cq (.data b)) s = .next
        (finish 0 cq.toNat e.idx false 0 0 none (writeRun .rule (maskPls mask) first 64 b n
          (entryRead 0 cq.toNat e (leWord e.desc 0x18).toNat (64 * n) u)))) ∧
  (∀ (k : TabKind) (pls : List Nat) (first size n p i : Nat) (b : Bytes) (s : State), tabSorted none s.tab.main = true →
      (∀ q ∈ pls, q < 8) → p ∈ pls → i < n → first + n ≤ 262144 →
      mainEntry (writeRun k pls first size b n s) k p (first + i) = slice b (size * i) size)

/-- Learning and aging (R257, R258, R262): a request late for its order point is applied at once and counted; a full
hold set drops it and counts; else it is held, and applied in order once its hold has ended. An age tick, due
every tick_ms milliseconds (below 10 as 10, above 10,000 as 10,000), advances now. -/
def Obligations.LearningAndAging : Prop :=
  (∀ (pl : Pl) (l : Learner) (q : LearnReq) (rest : List LearnReq) (p : Nat × Nat) (s : State), l = learnerOf s pl.val →
      l.arriving = q :: rest → l.last = some p → pointLt (learnOrder q) p = true → exec (.learnRequest pl) s = .next
        (applyLearnAt pl.val q (addErr (FT_LEARN_LATE pl.val) 1 (putLearner pl.val { l with arriving := rest } s)))) ∧
  (∀ (pl : Pl) (l : Learner) (q : LearnReq) (rest : List LearnReq) (s : State), l = learnerOf s pl.val →
      l.arriving = q :: rest → l.last = none → 1024 ≤ l.hold.length → exec (.learnRequest pl) s = .next
        (addErr (FT_LEARN_DROPPED pl.val) 1 (putLearner pl.val { l with arriving := rest } s))) ∧
  (∀ (pl : Pl) (l : Learner) (q : LearnReq) (rest : List LearnReq) (s : State), tabSorted none s.tab.learners = true →
      l = learnerOf s pl.val → l.arriving = q :: rest → l.last = none → l.hold.length < 1024 →
      ∃ t, exec (.learnRequest pl) s = .next t ∧ learnerOf t pl.val = { l with arriving := rest, hold := l.hold ++ [q] } ∧
        t.tab.main = s.tab.main) ∧
  (∀ (pl : Pl) (q : LearnReq) (s : State), earliest (learnerOf s pl.val).hold = some q → holdEnded s pl.val q = true →
      exec (.learnApply pl) s = .next (applyLearnAt pl.val q
        (putLearner pl.val { learnerOf s pl.val with hold := (learnerOf s pl.val).hold.erase q } s))) ∧
  (∀ (pl : Pl) (q : LearnReq) (s : State), earliest (learnerOf s pl.val).hold = some q → holdEnded s pl.val q = false →
      exec (.learnApply pl) s = .next s) ∧
  (∀ (pl : Pl) (s : State), 1024 * (s.ticks + 1) ≤ ageDue s pl.val → exec (.ageTick pl) s = .next s) ∧
  (∀ (pl : Pl) (s : State), ageDue s pl.val < 1024 * (s.ticks + 1) → rb s (FT_AGE_CTRL pl.val) 0 = false →
      tabSorted none s.regs = true → ∃ t, exec (.ageTick pl) s = .next t ∧ ageNow t pl.val = (ageNow s pl.val + 1) % 65536 ∧
        t.tab = { s.tab with ageLast := tabSet (fun _ => 0) s.tab.ageLast pl.val (ageDue s pl.val) }) ∧
  (∀ (pl : Pl) (s u v : State), ageDue s pl.val < 1024 * (s.ticks + 1) → rb s (FT_AGE_CTRL pl.val) 0 = true → tabSorted none s.regs = true →
      v = { s with tab := { s.tab with ageLast := tabSet (fun _ => 0) s.tab.ageLast pl.val (ageDue s pl.val) } } →
      u = putF (FT_AGE_CTRL pl.val) 48 16 (ageNow v pl.val + 1) v → exec (.ageTick pl) s = .next
        (((stationsOf u pl.val).filter (fun x => aged u pl.val x.2)).foldl (fun s x => removeStation pl.val x.1 x.2 s) u)) ∧
  (∀ (pl : Pl) (s : State), ageDue s pl.val =
      tabGet (fun _ => 0) s.tab.ageLast pl.val + 1000000 * max 10 (min 10000 (rf s (FT_AGE_CTRL pl.val) 4 14))) ∧
  (∀ (qs : List LearnReq) (q r : LearnReq), earliest qs = some q → r ∈ qs → pointLt (learnOrder r) (learnOrder q) = false)

/-! ### Host frames and receive rings (06, 10) -/

/-- TX_SEND, TX_LAUNCH and TX_PIPE (R189 to R191, R285): an entry that fails a check completes with its status; a read
that fails completes with its DMA status; a frame that is built is offered to its leaf, and one held for room is offered again as it was built
(R285, R361). Receive
rings and spill (R192, R193, R287): RX_BUF posts a buffer; a frame too long for its buffer is dropped and counted; else
it is written and its entry completes; the first spilled frame of a leaf comes back charged to spill return, or is lost
where its cells cannot be read. -/
def Obligations.HostFrames : Prop :=
  (∀ (fn : Fn) (fq : BitVec 20) (r : Read) (op : Nat) (launch : Bool) (c : Instr) (e : Entry) (s u : State),
      ((op = 1 ∧ launch = false ∧ c = .txSend fn fq r) ∨ (op = 2 ∧ launch = true ∧ c = .txLaunch fn fq r)) →
      NextIs s fn.val fq.toNat op e u → e.built = none → txCheck u fn.val fq.toNat launch e.desc ≠ 0 →
      exec c s = .next (finish fn.val fq.toNat e.idx true (txCheck u fn.val fq.toNat launch e.desc) 0 none u)) ∧
  (∀ (fn : Fn) (fq : BitVec 20) (b : Bytes) (op : Nat) (launch : Bool) (c : Instr) (e : Entry) (fr : Bytes) (f : Nat) (s u v w x : State),
      ((op = 1 ∧ launch = false ∧ c = .txSend fn fq (.data b)) ∨ (op = 2 ∧ launch = true ∧ c = .txLaunch fn fq (.data b))) →
      NextIs s fn.val fq.toNat op e u → e.built = none → txCheck u fn.val fq.toNat launch e.desc = 0 →
      v = (txSegs e.desc).foldl (fun s x => entryRead fn fq.toNat e x.1 x.2 s) u →
      txBuild fn.val fq.toNat e.desc (slice b 0 (txTotal e.desc)) v = (w, some fr, 0) → hostFrame fn.val fq.toNat e fr 0
        (if launch then some (leWord e.desc 0x38) else none) w.tm.nextBuf (freshBuf fr.length w) = (x, f) →
      exec c s = .next (txAdmit fn.val fq.toNat e (engineRef (queueOf w fn.val fq.toNat) % 2 ^ 20) f fr w x)) ∧
  (∀ (fn : Fn) (fq : BitVec 20) (r : Read) (op : Nat) (launch : Bool) (c : Instr) (e : Entry) (fr : Bytes) (f : Nat) (s u x : State),
      ((op = 1 ∧ launch = false ∧ c = .txSend fn fq r) ∨ (op = 2 ∧ launch = true ∧ c = .txLaunch fn fq r)) →
      NextIs s fn.val fq.toNat op e u → e.built = some fr → hostFrame fn.val fq.toNat e fr 0
        (if launch then some (leWord e.desc 0x38) else none) u.tm.nextBuf (freshBuf fr.length u) = (x, f) →
      exec c s = .next (txAdmit fn.val fq.toNat e (engineRef (queueOf u fn.val fq.toNat) % 2 ^ 20) f fr u x)) ∧
  (∀ (fn : Fn) (fq : BitVec 20) (r : Read) (e : Entry) (s u : State), NextIs s fn.val fq.toNat 3 e u →
      (le e.desc 0x18 2 < 14 ∨ 9212 < le e.desc 0x18 2) →
      exec (.txPipe fn fq r) s = .next (finish fn.val fq.toNat e.idx true 0x0200 0 none u)) ∧
  (∀ (fn : Fn) (fq : BitVec 20) (b : Bytes) (e : Entry) (n : Nat) (s u v w : State), NextIs s fn.val fq.toNat 3 e u →
      n = le e.desc 0x18 2 → 14 ≤ n → n ≤ 9212 → v = entryRead fn fq.toNat e (le e.desc 0x10 8) n u →
      admitIngress 12 (slice b 0 n) v = (w, false) →
      exec (.txPipe fn fq (.data b)) s = .next (finish fn.val fq.toNat e.idx true 0x0203 0 none w)) ∧
  (∀ (fn : Fn) (fq : BitVec 20) (b : Bytes) (e : Entry) (n f : Nat) (x : Frame) (s u v w y : State), NextIs s fn.val fq.toNat 3 e u →
      n = le e.desc 0x18 2 → 14 ≤ n → n ≤ 9212 → v = entryRead fn fq.toNat e (le e.desc 0x10 8) n u →
      admitIngress 12 (slice b 0 n) v = (w, true) →
      hostFrame fn.val fq.toNat e (slice b 0 n) (lef e.desc 0x18 16 2) none v.tm.nextBuf w = (y, f) → frameOf y f = some x →
      exec (.txPipe fn fq (.data b)) s = .next (finish fn.val fq.toNat e.idx false 0 0 none (queueFrame (lef e.desc 0x18 16 2) 8 f
        (putFrame f { x with mdata := slice e.desc 0x20 32 ++ List.replicate 32 0 } y)))) ∧
  (∀ (fn : Fn) (fq : BitVec 20) (e : Entry) (s u : State), NextIs s fn.val fq.toNat 0x20 e u →
      exec (.rxBuf fn fq) s = .next (setPhase fn.val fq.toNat e.idx .started u)) ∧
  (∀ (fn : Fn) (fq : BitVec 20) (k f : Nat) (fs : List Nat) (e : Entry) (x : Frame) (s : State), k = queueKey fn.val fq.toNat →
      deliveringOf s k = f :: fs → rxEntry s fn.val fq.toNat = some e → frameOf s f = some x → le e.desc 0x18 2 < x.len →
      exec (.rxDeliver fn fq .good) s = .next (freeFrame f (addErr (PL_RX_BUF_SHORT x.pl.toNat) 1 (putDelivering k fs s)))) ∧
  (∀ (fn : Fn) (fq : BitVec 20) (k f : Nat) (fs : List Nat) (e : Entry) (x : Frame) (s u : State), k = queueKey fn.val fq.toNat →
      deliveringOf s k = f :: fs → rxEntry s fn.val fq.toNat = some e → frameOf s f = some x → x.len ≤ le e.desc 0x18 2 →
      u = (instWrite fn (queueInst s fn.val fq.toNat) e.gen true (le e.desc 0x10 8) x.bytes (putDelivering k fs s)).1 →
      exec (.rxDeliver fn fq .good) s = .next (finish fn.val fq.toNat e.idx false 0 (BitVec.ofNat 32 (be x.mdata 8 4))
        (some (rxResults x)) (freeFrame f u))) ∧
  (∀ (fn : Fn) (fq : BitVec 20) (k f : Nat) (fs : List Nat) (e : Entry) (x : Frame) (s u : State), k = queueKey fn.val fq.toNat →
      deliveringOf s k = f :: fs → rxEntry s fn.val fq.toNat = some e → frameOf s f = some x → u = putDelivering k fs s →
      exec (.rxDeliver fn fq .bad) s = .next (arrayError blkTM 0x50 (freeNow u).toNat (useFree (freeFrame f u)))) ∧
  (∀ (l : BitVec 20) (f : Nat) (x : Frame) (b : Buf) (s u : State), (leafOf s l.toNat).frames.find? (inSpill s) = some f →
      u = settleReturns s → frameOf u f = some x → bufOf u x.buf = some b →
      exec (.spillReturn (l, .good)) s = .next (putBuf x.buf { b with region := .spillReturn } u)) ∧
  (∀ (l : BitVec 20) (f : Nat) (s : State), (leafOf s l.toNat).frames.find? (inSpill s) = some f →
      exec (.spillReturn (l, .corrected)) s = .next (bringBack f (settleReturns (correctable FX_CORR_DRAM s))) ∧
      exec (.spillReturn (l, .bad)) s = .next (loseSpilled l.toNat f (settleReturns s))) ∧
  (∀ (l : BitVec 20) (ecc : Ecc) (s : State), (∀ f ∈ (leafOf s l.toNat).frames, inSpill s f = false) →
      exec (.spillReturn (l, ecc)) s = .next s)

/-! ### The traffic manager (10) -/

/-- Token buckets (R293 to R295): a refill never passes sixteen times the burst; a touch brings a bucket to its tick;
new values wait for the next tick; a bucket that is off never blocks its node, and one that is on does below 0; every
bucket is debited, on or off (R291). A residue mismatch under a sweep is recomputed and counted, a second one in a row is a
device fault of cause 7 (R31). -/
def Obligations.TokenBuckets : Prop :=
  (∀ (b : TokenBucket) (n : Nat), (refill b n).tokens ≤ 16 * b.burst.toNat ∧
      (b.tokens + n * b.rate.toNat ≤ 16 * b.burst.toNat → (refill b n).tokens = b.tokens + n * b.rate.toNat)) ∧
  (∀ (b : TokenBucket) (t : BitVec 32), (touch b t).last = t ∧ (touch b t).tokens ≤ 16 * (touch b t).burst.toNat) ∧
  (∀ (b : TokenBucket) (t : BitVec 32) (en : Bool) (r u : BitVec 24), b.pending = none →
      (acceptValues b t en r u).en = b.en ∧ (acceptValues b t en r u).rate = b.rate ∧
      (acceptValues b t en r u).burst = b.burst ∧ (acceptValues b t en r u).effective = t + 1 ∧
      (touch (acceptValues b t en r u) (t + 1)).rate = r ∧ (touch (acceptValues b t en r u) (t + 1)).burst = u ∧
      (touch (acceptValues b t en r u) (t + 1)).en = en) ∧
  (∀ (b : TokenBucket) (t : BitVec 32), b.pending = none → b.en = false → shaperEligible b t = true) ∧
  (∀ (b : TokenBucket) (t : BitVec 32) (n : Nat), b.pending = none → 0 ≤ (touch b t).tokens →
      (debit b t n).tokens = (touch b t).tokens - 16 * n) ∧
  (∀ (n : BitVec 20) (s : State), exec (.bucketSweep (.leaf n, .good)) s =
      .next (putLeaf n.toNat { leafOf s n.toNat with bucket := touch (leafOf s n.toNat).bucket (tickNow s) } s)) ∧
  (∀ (n : BitVec 16) (s : State), exec (.bucketSweep (.group n, .good)) s =
      .next (putGroup n.toNat { groupOf s n.toNat with bucket := touch (groupOf s n.toNat).bucket (tickNow s) } s)) ∧
  (∀ (p : TmPort) (s : State), exec (.bucketSweep (.port p, .good)) s =
      .next (putPortBucket p.val (touch (portBucket s p.val) (tickNow s)) s)) ∧
  (∀ (n : BitVec 18) (s : State), exec (.bucketSweep (.meter n, .good)) s =
      .next (putMeter n.toNat (touchMeter (meterOf s n.toNat) (tickNow s)) s)) ∧
  (∀ (n : BitVec 9) (s : State), exec (.bucketSweep (.cls n, .good)) s =
      .next (putClass n.toNat { classOf s n.toNat with bucket := touch (classOf s n.toNat).bucket (tickNow s) } s)) ∧
  (∀ (b : Bucket) (s u : State), exec (.bucketSweep (b, .good)) s = .next u →
      exec (.bucketSweep (b, .once)) s = .next (addErr TM_RECOMPUTE 1 (correctable FX_CORR_RESIDUE u)) ∧
      exec (.bucketSweep (b, .twice)) s = .next (deviceFault 7 blkTM 0 (addErr TM_RECOMPUTE 1 (correctable FX_CORR_RESIDUE u))))

/-- SCHEDULE_CHOICE (R289 to R291): a port with no eligible leaf starts nothing; the head frame of the chosen leaf
leaves it and starts, and one of an old generation is discarded and counted. -/
def Obligations.ScheduleChoice : Prop :=
  (∀ (p : TmPort) (e : SchedErr) (c : Cyc) (s : State), portEligible s p.val = false →
      exec (.scheduleChoice p e c) s = .next s) ∧
  (∀ (p : TmPort) (e : SchedErr) (c : Cyc) (s : State), p.val < 8 →
      eligibleLeaves s p.val (clockNs (clockAt s c.val)) = [] → exec (.scheduleChoice p e c) s = .next s) ∧
  (∀ (p : TmPort) (c : Cyc) (l : Nat) (ls : List Nat) (y : Path) (f : Nat) (fs : List Nat) (x : Frame) (s u : State), p.val < 8 →
      portEligible s p.val = true → eligibleLeaves s p.val (clockNs (clockAt s c.val)) = l :: ls →
      choosePath p.val (l :: ls) s = (u, y) → (leafOf s y.leaf).frames = f :: fs → frameOf s f = some x →
      staleFrame u x = false → exec (.scheduleChoice p .none c) s = .next (startFrame p.val f x true c.val
        (debitPath p.val y (chargedLen u p.val x.len) (popLeaf y.leaf u)))) ∧
  (∀ (p : TmPort) (c : Cyc) (l : Nat) (ls : List Nat) (y : Path) (f : Nat) (fs : List Nat) (x : Frame) (s u : State), p.val < 8 →
      portEligible s p.val = true → eligibleLeaves s p.val (clockNs (clockAt s c.val)) = l :: ls →
      choosePath p.val (l :: ls) s = (u, y) → (leafOf s y.leaf).frames = f :: fs → frameOf s f = some x →
      staleFrame u x = true → exec (.scheduleChoice p .none c) s = .next
        (freeFrame f (popLeaf y.leaf (addStat TM_GEN_DISCARD 1 u)))) ∧
  (∀ (p l : Nat) (s : State), tabSorted none s.tm.leaves = true → (leafOf (popLeaf l s) l).frames = (leafOf s l).frames.drop 1)

/-- Priority flow control (R282, R283): a refresh and a return to XON send a PFC; a received PFC is counted in every
case on a port that is up, and pauses or releases the priorities it carries; a pause that runs out ends. -/
def Obligations.PriorityFlowControl : Prop :=
  (∀ (p : NPort) (k : Fin 8) (s : State), rb s (TM_PORT_C p.val) (32 + k.val) = true →
      timeReached s (tabGet (fun _ => 0) s.tm.pfcSent (8 * p.val + k.val) + 65535 * 256 / portRate s) = true →
      exec (.pfcRefresh p k) s = .next (sendPfc p none s)) ∧
  (∀ (p : NPort) (k : Fin 8) (s : State), rb s (TM_PORT_C p.val) (32 + k.val) = false →
      exec (.pfcRefresh p k) s = .next s ∧ exec (.pfcXon p k) s = .next s) ∧
  (∀ (p : NPort) (k : Fin 8) (s : State), rb s (TM_PORT_C p.val) (32 + k.val) = true → xonRoom s p.val k.val = true →
      tabSorted none s.regs = true → ∃ t, exec (.pfcXon p k) s = .next t ∧ rb t (TM_PORT_C p.val) (32 + k.val) = false ∧
        ∃ pr q, t.out = .pfcFrame p pr q :: s.out ∧ pr.getLsbD k.val = true ∧ q[k.val]? = some 0) ∧
  (∀ (p : NPort) (pr : BitVec 8) (q : List (BitVec 16)) (s : State), netUp s p.val = true → tabSorted none s.regs = true →
      ∃ t, exec (.pfcReceive p pr q) s = .next t ∧ getReg t (TM_PORT_E p.val) = getReg s (TM_PORT_E p.val) + 1) ∧
  (∀ (p : NPort) (pr : BitVec 8) (q : List (BitVec 16)) (s : State), netUp s p.val = false →
      exec (.pfcReceive p pr q) s = .next s) ∧
  (∀ (n k : Nat) (s : State), n < 8 → k < 8 → rb s (NP_PORT_CTRL n) (32 + k) = true → tabSorted none s.regs = true →
      rb (pausePrio n k 0 s) (TM_PORT_C n) (40 + k) = false ∧
      (∀ q, q ≠ 0 → rb (pausePrio n k q s) (TM_PORT_C n) (40 + k) = true)) ∧
  (∀ (p : NPort) (k : Fin 8) (s : State), rb s (TM_PORT_C p.val) (40 + k.val) = true →
      timeReached s (tabGet (fun _ => 0) s.tm.pauseEnd (8 * p.val + k.val)) = true →
      exec (.pfcPauseExpiry p k) s = .next (putB (TM_PORT_C p.val) (40 + k.val) false s))

/-- TM_LEAF_WRITE, TM_GROUP_WRITE, TM_CLASS_WRITE, TM_METER_WRITE and TM_BUF_CTRL (R300 to R302): a member fails with
0x04A0; each other entry makes its own check and takes its effect, a residue mismatch of its token operation recomputed
or, twice in a row, a device fault (R31); spill is enabled only inside its limits. -/
def Obligations.TrafficWrites : Prop :=
  (∀ (cq : BitVec 20) (op : Nat) (c : Instr) (run : Bytes → State → State × Nat) (e : Entry) (err : Residue) (s u : State),
      ((op = 0xA0 ∧ c = .tmLeafWrite (cq, err) ∧ run = leafWrite) ∨ (op = 0xA1 ∧ c = .tmGroupWrite (cq, err) ∧ run = groupWrite) ∨
       (op = 0xA2 ∧ c = .tmClassWrite (cq, err) ∧ run = classWrite) ∨ (op = 0xA3 ∧ c = .tmMeterWrite (cq, err) ∧ run = meterWrite)) →
      AdminIs s cq.toNat op e u → exec c s = .next (if groupMember e then ctlFinish cq.toNat e 0x04A0 u
        else tokenResidue err (ctlFinish cq.toNat e (run e.desc u).2 (run e.desc u).1))) ∧
  (∀ s : State, tokenResidue .good s = s) ∧
  (∀ (d : Bytes) (s : State), lef d 0x10 20 1 = 0 → fld (leWord d 0x18) 0 16 = leafGroup s (lef d 0x10 0 20) →
      tabSorted none s.tm.leaves = true → (leafWrite d s).2 = 0 ∧
        (leafOf (leafWrite d s).1 (lef d 0x10 0 20)).config = leWord d 0x18 ∧
        (leafOf (leafWrite d s).1 (lef d 0x10 0 20)).frames = (leafOf s (lef d 0x10 0 20)).frames) ∧
  (∀ (d : Bytes) (s : State), 12 < fld (leWord d 0x18) 0 4 → classWrite d s = (s, 0x04A1)) ∧
  (∀ (v : BitVec 64) (s : State), setupOpen s = true → exec (.bufCtrlWrite v) s = .next (linkBusy (bufCtrlWrite v s))) ∧
  (∀ (v : BitVec 64) (s : State), tabSorted none s.regs = true → bit v 0 = false → rb (bufCtrlWrite v s) TM_BUF_CTRL 0 = false) ∧
  (∀ (v : BitVec 64) (s : State), tabSorted none s.regs = true → bit v 0 = true → rb s TM_BUF_CTRL 0 = false →
      spillBytes s = 0 → 0 < fld v 24 4 → fld v 24 4 ≤ 8 → fld v 32 5 + fld v 24 4 ≤ 30 →
      rb (bufCtrlWrite v s) TM_BUF_CTRL 0 = true)

/-! ### The plant side (11) -/

/-- Receipt on a plant port (R306 to R308, R317): a frame of a port that does not take it changes nothing; one that
overflows is counted; the frame that ends has its FCS and time noted; a release waits for the parse; PLANT_RELEASE
takes a parsed frame whose FCS is good or not yet known out of the reorder buffer, its length written in its record, through
the plant chain or, malformed, through its action, and settles it where its last bit is in; one whose FCS is bad is freed
with no other effect; frame recovery passes a number once. -/
def Obligations.PlantReceipt : Prop :=
  (∀ (p : PPort) (b : Bytes) (o : Bool) (c : Cyc) (t : Clock) (s : State), t = clockShift (clockAt s c.val) (-(65536 * rxCorr s (8 + p.val))) →
      plantTakes s p.val (clockNs t) = false → exec (.plantFrameReceive p b o c) s = .next s) ∧
  (∀ (p : PPort) (b : Bytes) (c : Cyc) (t : Clock) (s : State), t = clockShift (clockAt s c.val) (-(65536 * rxCorr s (8 + p.val))) →
      plantTakes s p.val (clockNs t) = true → exec (.plantFrameReceive p b true c) s = .next (addErr (PP_RX_OVERFLOW p.val) 1 s)) ∧
  (∀ (p : PPort) (b : Bytes) (c : Cyc) (t : Clock) (s u v w : State) (f : Nat), t = clockShift (clockAt s c.val) (-(65536 * rxCorr s (8 + p.val))) →
      plantTakes s p.val (clockNs t) = true → u = addStat (PP_RX_OCTETS p.val) (b.length + 4) (addStat (PP_RX_FRAMES p.val) 1 s) →
      b.length + 4 ≤ maxFrame u (8 + p.val) → admitIngress (8 + p.val) b u = (v, true) →
      addFrame (rxFrame u b true 4 p.val 4 t t u.tm.nextBuf) v = (w, f) → exec (.plantFrameReceive p b false c) s =
        .next (plantDeal 8 (queueFrame 4 (plantSrc p.val) f (addRx
          { frame := f, port := p, ended := none, released := false, handoff := none, deposit := none, learns := false, recovered := none, copies := [] } w)))) ∧
  (∀ (p : PPort) (ok : Bool) (c : Cyc) (s : State), (∀ r ∈ s.plant.rx, r.port.val = p.val → r.ended ≠ none) →
      exec (.plantFrameEnd p ok c) s = .next s) ∧
  (∀ (p : PPort) (c : Cyc) (r : PlantRx) (x : Frame) (s : State), s.plant.rx.find? (fun r => r.port.val == p.val && r.ended.isNone) = some r →
      frameOf s r.frame = some x → r.released = false → exec (.plantFrameEnd p true c) s = .next
        (plantDeal 8 (mapRx r.frame (fun y => { y with ended := some true })
          (putFrame r.frame { x with fcsOk := true, endTime := clockAt s c.val } s)))) ∧
  (∀ (p : PPort) (e : Ecc) (s : State), (srcOf s 4 (plantSrc p.val)).rob = [] → exec (.plantRelease p e) s = .next s) ∧
  (∀ (p : PPort) (e : Ecc) (f : Nat) (rest : List Nat) (x : Frame) (r : PlantRx) (s : State),
      (srcOf s 4 (plantSrc p.val)).rob = f :: rest → frameOf s f = some x → s.plant.rx.find? (fun r => r.frame == f) = some r →
      x.result = .pending → exec (.plantRelease p e) s = .next s) ∧
  (∀ (p : PPort) (e : Ecc) (f : Nat) (rest : List Nat) (x : Frame) (r : PlantRx) (s : State),
      (srcOf s 4 (plantSrc p.val)).rob = f :: rest → frameOf s f = some x → s.plant.rx.find? (fun r => r.frame == f) = some r →
      x.result ≠ .pending → r.ended = some false → exec (.plantRelease p e) s = .next (plantDeal 8 (advanceRetired 4
        (dropRx f (freeFrame f (putSrc 4 (plantSrc p.val) { srcOf s 4 (plantSrc p.val) with rob := rest } s)))))) ∧
  (∀ (p : PPort) (e : Ecc) (f : Nat) (rest : List Nat) (x y : Frame) (r : PlantRx) (s u v : State),
      (srcOf s 4 (plantSrc p.val)).rob = f :: rest → frameOf s f = some x → s.plant.rx.find? (fun r => r.frame == f) = some r →
      x.result ≠ .pending → r.ended ≠ some false → y = { x with loc := .plant, record := splice x.record 0 (beBytes 2 x.len) } →
      u = mapRx f (fun z => { z with released := true }) (putFrame f y
        (putSrc 4 (plantSrc p.val) { srcOf s 4 (plantSrc p.val) with rob := rest } s)) →
      v = advanceRetired 4 (match y.result with
        | .malformed reason => malformedAction 4 f reason.toNat u
        | _ => plantChain f y e u) →
      (r.ended = none → exec (.plantRelease p e) s = .next (plantDeal 8 v)) ∧
      (∀ z, r.ended = some true → v.plant.rx.find? (fun z => z.frame == f) = some z →
        exec (.plantRelease p e) s = .next (plantDeal 8 (settleRx z true v)))) ∧
  (∀ (h seq : Nat) (s : State), tabSorted none s.plant.cb = true → (cbOf s h).takeAny = true → (cbRecover h seq s).2 = true ∧
      (cbRecover h seq (cbRecover h seq s).1).2 = false) ∧
  (∀ (h : Nat) (s : State), tabSorted none s.plant.cb = true → (cbGenerate h s).2 = (cbOf s h).genNext.toNat ∧
      (cbOf (cbGenerate h s).1 h).genNext = (cbOf s h).genNext + 1)

/-- Gate schedules and launch times (R325, R326, R328, R329): the next interval applies when one ends; a change is
refused by its size or cycle, else it becomes pending with its start; at its start the pending set becomes the oper set;
a cycle start counts, and on a port schedule brings its image boundary and, on the lower port of a pair, its watchdog; a
leaf's head becomes ready inside its lead, and late after its bound. -/
def Obligations.GatesAndLaunches : Prop :=
  (∀ (n : Fin 68) (x : Sched) (p : Nat) (e : Nat × Nat) (s : State), x = schedOf s n.val → x.pos = some p →
      (operIntervals x)[p + 1]? = some e → timeReached s x.posEnd = true → exec (.gateIntervalEnd n) s =
        .next (putSched n.val { x with pos := some (p + 1), posEnd := x.posEnd + e.2 } s)) ∧
  (∀ (n : Fin 68) (s : State), (schedOf s n.val).pos = none → exec (.gateIntervalEnd n) s = .next s) ∧
  (∀ (n : Fin 68) (c : Cyc) (s : State), setupOpen s = true → tabSorted none s.regs = true →
      (schedLimit n.val < rf s (PP_SCHED_C n.val) 0 11 ∨ (adminSet s n.val).cycle < 1000) → ∃ t,
      exec (.scheduleChange n c) s = .next t ∧ rb t (PP_SCHED_C n.val) 35 = true ∧ t.plant = s.plant) ∧
  (∀ (n : Fin 68) (c : Cyc) (s : State), setupOpen s = true → rf s (PP_SCHED_C n.val) 0 11 ≤ schedLimit n.val →
      1000 ≤ (adminSet s n.val).cycle → exec (.scheduleChange n c) s = .next (linkBusy (recheckArmed (putB (PP_SCHED_C n.val) 34 true
        (putSched n.val { schedOf s n.val with pending := some (adminSet s n.val, firstStart (adminSet s n.val)
          (max (rf s (PP_SCHED_D n.val) 0 48 * 1000000000 + rf s (PP_SCHED_E n.val) 0 30) (clockNs (clockAt s c.val) + 10000))) } s))))) ∧
  (∀ (o : SchedSet) (c : Nat), 0 < o.cycle → c ≤ firstStart o c ∧ o.base ≤ firstStart o c ∧
      (firstStart o c - o.base) % o.cycle = 0) ∧
  (∀ (n : Fin 68) (o : SchedSet) (a : Nat) (s : State), tabSorted none s.regs = true → tabSorted none s.plant.scheds = true →
      (schedOf s n.val).pending = some (o, a) → timeReached s a = true → ∃ t, exec (.scheduleSwitch n) s = .next t ∧
        (schedOf t n.val).oper = some o ∧ (schedOf t n.val).pending = none ∧ rb t (PP_SCHED_C n.val) 34 = false ∧
        rb t (PP_SCHED_C n.val) 33 = true ∧ rf t (PP_SCHED_F n.val) 0 32 = o.cycle % 2 ^ 32) ∧
  (∀ (n : Fin 68) (s : State), (schedOf s n.val).pending = none → exec (.scheduleSwitch n) s = .next s) ∧
  (∀ (n : Fin 68) (o : SchedSet) (k : BitVec 13) (ecc : Ecc) (s : State), 4 ≤ n.val → (schedOf s n.val).oper = some o → (schedOf s n.val).pending = none →
      timeReached s (schedOf s n.val).next = true → exec (.cycleStart (n, k, ecc)) s = .next (putF (PP_SCHED_F n.val) 32 32
        (rf s (PP_SCHED_F n.val) 32 32 + 1) (putSched n.val (startCycle (schedOf s n.val) o) s))) ∧
  (∀ (n : Fin 68) (o : SchedSet) (k : BitVec 13) (ecc : Ecc) (s u : State), n.val < 4 → (schedOf s n.val).oper = some o →
      (schedOf s n.val).pending = none → timeReached s (schedOf s n.val).next = true →
      u = imageBoundary n.val (schedOf s n.val).next k.toNat ecc (putF (PP_SCHED_F n.val) 32 32
        (rf s (PP_SCHED_F n.val) 32 32 + 1) (putSched n.val (startCycle (schedOf s n.val) o) s)) →
      exec (.cycleStart (n, k, ecc)) s = .next (if n.val % 2 = 0 then watchdog (n.val / 2) (schedOf s n.val).next u else u)) ∧
  (∀ (n : Fin 68) (k : BitVec 13) (ecc : Ecc) (s : State), timeReached s (schedOf s n.val).next = false →
      exec (.cycleStart (n, k, ecc)) s = .next s) ∧
  (∀ (x : Sched) (o : SchedSet), (startCycle x o).start = x.next ∧ (startCycle x o).next = x.next + o.cycle) ∧
  (∀ (l : BitVec 20) (f : Nat) (fs : List Nat) (h : Frame) (w : Word) (p now : Nat) (s : State), (leafOf s l.toNat).frames = f :: fs →
      frameOf s f = some h → h.launch = some w → p = leafPort s l.toNat → 8 ≤ p → p < 12 → now = clockNs (clockAt s 1279) →
      launchNs w now ≤ now + rf s (PP_PORT_B (p - 8)) 0 16 → exec (.launchEligible l) s =
        .next (putLeaf l.toNat { leafOf s l.toNat with launchReady := true } s)) ∧
  (∀ (l : BitVec 20) (f : Nat) (fs : List Nat) (h : Frame) (w : Word) (p now : Nat) (s : State), (leafOf s l.toNat).frames = f :: fs →
      frameOf s f = some h → h.launch = some w → p = leafPort s l.toNat → 8 ≤ p → p < 12 → now = clockNs (clockAt s 1279) →
      (leafOf s l.toNat).lateSeen = false → launchNs w now + rf s (PP_PORT_B (p - 8)) 16 16 < now →
      rb s (PP_PORT_B (p - 8)) 32 = false → tabSorted none s.regs = true → exec (.launchLate l) s = .next (putLeaf l.toNat
        { leafOf s l.toNat with launchReady := true, lateSeen := true } (addErr (PP_LAUNCH_LATE (p - 8)) 1 s)))

/-- Takeover (R331 to R333, R345): arming records the result of its checks and arms on 0; disarming and releasing act
only in their states; at T the checks are made again; a pair whose egresses are drained is in service; plant links. -/
def Obligations.Takeover : Prop :=
  (∀ (p : Fin 2) (c : Cyc) (r : Nat) (s : State), setupOpen s = true → tabSorted none s.regs = true →
      r = armResult s p.val (takeTime s p.val) (clockNs (clockAt s c.val)) → r ≠ 0 → ∃ t, exec (.arm p c) s = .next t ∧
        rf t (PP_PAIR_C p.val) 24 8 = r % 256 ∧ t.plant = s.plant) ∧
  (∀ (p : Fin 2) (c : Cyc) (s : State), setupOpen s = true → s.plant.pairs.length = 2 →
      armResult s p.val (takeTime s p.val) (clockNs (clockAt s c.val)) = 0 → ∃ t, exec (.arm p c) s = .next t ∧
        pairOf t p.val = { state := .armed, takeAt := takeTime s p.val }) ∧
  (∀ (p : Nat) (t now : Nat) (s : State), armResult s p t now = 0 → inService s = true ∧ now + 10000 ≤ t ∧ pairChecks s p t = 0) ∧
  (∀ (p : Fin 2) (s : State), setupOpen s = true → (pairOf s p.val).state = .armed → s.plant.pairs.length = 2 → ∃ t,
      exec (.disarm p) s = .next t ∧ pairOf t p.val = { state := .bypass, takeAt := 0 }) ∧
  (∀ (p : Fin 2) (s : State), setupOpen s = true → (pairOf s p.val).state ≠ .armed → exec (.disarm p) s = .next (linkBusy s)) ∧
  (∀ (p : Fin 2) (c : Cyc) (s : State), setupOpen s = true → (pairOf s p.val).state = .service → exec (.release p c) s =
      .next (linkBusy (bypassPair p.val 0x0B (clockAt s c.val) s))) ∧
  (∀ (p : Fin 2) (s : State), (pairOf s p.val).state = .armed → timeReached s (pairOf s p.val).takeAt = true →
      pairChecks s p.val (pairOf s p.val).takeAt = 0 → exec (.takeoverTime p) s = .next (putF (PP_PAIR_C p.val) 32 8 0
        (putPair p.val { pairOf s p.val with state := .taking } s))) ∧
  (∀ (p : Fin 2) (r : Nat) (s : State), (pairOf s p.val).state = .armed → timeReached s (pairOf s p.val).takeAt = true →
      r = pairChecks s p.val (pairOf s p.val).takeAt → r ≠ 0 → exec (.takeoverTime p) s = .next
        (pairResult p.val r (putPair p.val { state := .bypass, takeAt := 0 } s))) ∧
  (∀ (p : Fin 2) (c : Cyc) (s : State), (pairOf s p.val).state = .taking → exec (.pairTaken p c) s =
      .next (pairEvent 0x40 p.val 0 (clockAt s c.val) (putPair p.val { pairOf s p.val with state := .service } s))) ∧
  (∀ (q : PPort) (s : State), tabSorted none s.regs = true → inService s = true → rb s (PP_PORT_A q.val) 0 = true →
      rb s (PP_PORT_A q.val) 32 = false → ∃ t, exec (.plantLinkUp q) s = .next t ∧ rb t (PP_PORT_A q.val) 32 = true) ∧
  (∀ (q : PPort) (s : State), rb s (PP_PORT_A q.val) 32 = true → exec (.plantLinkDown q) s =
      .next (unarm (q.val / 2) 0x04 (pageChanged 3 (putB (PP_PORT_A q.val) 32 false s)))) ∧
  (∀ (q : PPort) (s : State), rb s (PP_PORT_A q.val) 32 = false → exec (.plantLinkDown q) s = .next s)

/-- The cyclic image engine (R335 to R343, R350): a TX image flips only when fresh; an RX image takes its deposits with
it; an IMG_PUT writes the back buffer and an IMG_GET returns the front one; each fails with the status of the check that
fails; every write of IG_CTRL while the engine is on keeps region_base and sets refused. -/
def Obligations.Images : Prop :=
  (∀ (p : PPort) (b : Nat) (s : State), tabFind s.plant.rxBoundary p.val = some b → depositsOwed s p.val b = false →
      exec (.rxImageFlip p) s = .next (flipRxPort p.val s)) ∧
  (∀ (p : PPort) (s : State), tabFind s.plant.rxBoundary p.val = none → exec (.rxImageFlip p) s = .next s) ∧
  (∀ (b i : Nat) (s : State), tabSorted none s.plant.images = true → imageOf (flipRx b i s) i =
      { imageOf s i with front := !(imageOf s i).front, flips := (imageOf s i).flips + 1, frontTime := time64 (clockOfNs b), depositsFront := (imageOf s i).depositsBack, depositsBack := 0, shown := true }) ∧
  (∀ (b i : Nat) (s : State), (imageOf s i).fresh = false → flipTx b i s = s) ∧
  (∀ (fq : BitVec 20) (r : Read) (x y : Word) (e : Entry) (s u : State),
      u = channelMode (imgChannel s fq.toNat) (joinWaiting 3 fq.toNat s) → imgTransfer u fq.toNat 0x60 = some e →
      imgCheck u fq.toNat e ≠ 0 → exec (.imgPut fq r x (y, .good)) s = .next (imgFail fq.toNat e (imgCheck u fq.toNat e) (imgRetries e) u)) ∧
  (∀ (fq : BitVec 20) (b : Bytes) (x y : Word) (e : Entry) (i host : Nat) (s u v : State),
      u = channelMode (imgChannel s fq.toNat) (joinWaiting 3 fq.toNat s) → imgTransfer u fq.toNat 0x60 = some e →
      imgCheck u fq.toNat e = 0 → i = lef e.desc 0x18 0 12 → host = le e.desc 0x10 8 → bit (leWord e.desc 0x18) 14 = false →
      v = imgHalf fq.toNat e (writeBack i 0 (slice b 0 (imageLen (imageOf u i))) (entryRead 3 fq.toNat e host (imageLen (imageOf u i))
        (chanMoves (imgChannel u fq.toNat) (imageLen (imageOf u i) / 64) u))) →
      exec (.imgPut fq (.data b) x (y, .good)) s = .next (imgDone fq.toNat e (imgRetries e) none (putImage i { imageOf v i with fresh := true } v))) ∧
  (∀ (fq : BitVec 20) (fl : Bool) (r : Read) (e : Entry) (s u : State),
      u = channelMode (imgChannel s fq.toNat) (joinWaiting 3 fq.toNat s) → imgTransfer u fq.toNat 0x61 = some e →
      imgCheck u fq.toNat e ≠ 0 → exec (.imgGet fq fl (r, .good)) s = .next (imgFail fq.toNat e (imgCheck u fq.toNat e) (imgRetries e) u)) ∧
  (∀ (fq : BitVec 20) (r : Read) (e : Entry) (x : Image) (b : Bytes) (host : Nat) (s u v : State),
      u = channelMode (imgChannel s fq.toNat) (joinWaiting 3 fq.toNat s) → imgTransfer u fq.toNat 0x61 = some e →
      imgCheck u fq.toNat e = 0 → x = imageOf u (lef e.desc 0x18 0 12) → v = chanMoves (imgChannel u fq.toNat) (imageLen x / 64) u →
      b = readFront v (lef e.desc 0x18 0 12) 0 (imageLen x) →
      host = le e.desc 0x10 8 → bit (leWord e.desc 0x18) 14 = false → exec (.imgGet fq false (r, .good)) s = .next
        (imgDone fq.toNat e (imgRetries e) (some (imgResults x)) (imgWrite fq.toNat e (host + imageLen x / 2) (b.drop (imageLen x / 2))
          (imgHalf fq.toNat e (imgWrite fq.toNat e host (b.take (imageLen x / 2)) v))))) ∧
  (∀ (i off : Nat) (b : Bytes) (s : State), Memory.wf s.dram = true → memRead (writeBack i off b s).dram
      (imageAddr s i (!(imageOf s i).front) off) b.length = b) ∧
  (∀ (v : BitVec 64) (s : State), setupOpen s = true → tabSorted none s.regs = true → rb s IG_CTRL 0 = true → ∃ t, exec (.igCtrlWrite v) s = .next t ∧ rf t IG_CTRL 1 6 = rf s IG_CTRL 1 6 ∧
        rb t IG_CTRL 7 = true ∧ rb t IG_CTRL 0 = bit v 0) ∧
  (∀ (v : BitVec 64) (s : State), setupOpen s = true → tabSorted none s.regs = true → rb s IG_CTRL 0 = false → fld v 1 6 ≤ 59 →
      ∃ t, exec (.igCtrlWrite v) s = .next t ∧ rf t IG_CTRL 1 6 = fld v 1 6 ∧ rb t IG_CTRL 0 = bit v 0)

/-! ### Contexts (12) -/

/-- CTX_WRITE, CTX_CLEAR, a cache fill and CX_CTRL (R356 to R358, R365, R366, R368): a context number out of range fails
with CX_INDEX; an image that passes is written; one that does not fails with its status; a miss counts, and one whose
word cannot be corrected poisons the context. -/
def Obligations.Contexts : Prop :=
  (∀ (cq : BitVec 20) (r : Read) (op : Nat) (c : Instr) (e : Entry) (s u : State),
      ((op = 0xD0 ∧ c = .ctxWrite cq r) ∨ (op = 0xD1 ∧ c = .ctxClear cq)) → NextIs s 0 cq.toNat op e u → e.group = none →
      ctlContext e.desc = none → exec c s = .next (finish 0 cq.toNat e.idx true 0x04D0 0 none u)) ∧
  (∀ (cq : BitVec 20) (b : Bytes) (e : Entry) (g : Nat) (s u v : State), NextIs s 0 cq.toNat 0xD0 e u → e.group = none →
      ctlContext e.desc = some g → v = entryRead 0 cq.toNat e (leWord e.desc 0x18).toNat 256 u → ctxCheck v (slice b 0 256) = 0 →
      exec (.ctxWrite cq (.data b)) s = .next (finish 0 cq.toNat e.idx false 0 0 none (applyCtxWrite g (some (slice b 0 256)) v))) ∧
  (∀ (cq : BitVec 20) (b : Bytes) (e : Entry) (g : Nat) (s u v : State), NextIs s 0 cq.toNat 0xD0 e u → e.group = none →
      ctlContext e.desc = some g → v = entryRead 0 cq.toNat e (leWord e.desc 0x18).toNat 256 u → ctxCheck v (slice b 0 256) ≠ 0 →
      exec (.ctxWrite cq (.data b)) s = .next (finish 0 cq.toNat e.idx true (ctxCheck v (slice b 0 256)) 0 none v)) ∧
  (∀ (cq : BitVec 20) (e : Entry) (g : Nat) (s u : State), NextIs s 0 cq.toNat 0xD1 e u → e.group = none →
      ctlContext e.desc = some g → exec (.ctxClear cq) s = .next (finish 0 cq.toNat e.idx false 0 0 none (applyCtxWrite g none u))) ∧
  (∀ (g : BitVec 20) (x : Cached) (ecc : Ecc) (s : State), tabFind s.cx.cache g.toNat = some x → exec (.contextFill g ecc) s = .next s) ∧
  (∀ (g : BitVec 20) (s : State), tabFind s.cx.cache g.toNat = none →
      exec (.contextFill g .good) s = .next (cacheInsert g.toNat true (addStat CX_CACHE_MISSES 1 s))) ∧
  (∀ (g : BitVec 20) (c : Bytes) (s u : State), tabFind s.cx.cache g.toNat = none → u = cacheInsert g.toNat true (addStat CX_CACHE_MISSES 1 s) →
      c = ctxOf u g.toNat → exec (.contextFill g .bad) s = .next (postLog logCtxPoisoned 0 blkCX (g.setWidth 64) 0
        (addErr CX_POISONED 1 (putCtx g.toNat (splice c 0 (leBytes 8 (setBit (leWord c 0) 40 true).toNat)) u)))) ∧
  (∀ (v : BitVec 64) (s : State), setupOpen s = true → tabSorted none s.regs = true → ∃ t, exec (.cxCtrlWrite v) s = .next t ∧
      rf t CX_CTRL 8 12 = fld v 8 12 ∧ rf t CX_CTRL 0 7 =
        (if fld v 0 7 ≤ 119 ∧ anyContext s = false then fld v 0 7 else rf s CX_CTRL 0 7))

/-! ### Flow-core instructions (14) -/

/-- ALU, ALUI, MOVI and LIM (R400 to R402): each writes its value to rd and completes in the turn; a residue mismatch
under a residue-checked one faults the thread instead; g0 reads 0 and discards writes; nothing else of the thread
changes but the pc. -/
def Obligations.FlowArithmetic : Prop :=
  (∀ (core : CoreHk) (t : Thr) (op w : Nat) (c : Instr) (x : Thread) (a b v : Word) (s : State), a = getG x (iRa w) → b = getG x (iRb w) →
      ((op = 0x00 ∧ c = .fcAdd core t .none ∧ v = a + b) ∨ (op = 0x01 ∧ c = .fcSub core t .none ∧ v = a - b) ∨
       (op = 0x02 ∧ c = .fcAnd core t .none ∧ v = a &&& b) ∨ (op = 0x03 ∧ c = .fcOr core t .none ∧ v = a ||| b) ∨
       (op = 0x04 ∧ c = .fcXor core t .none ∧ v = a ^^^ b) ∨ (op = 0x05 ∧ c = .fcShl core t .none ∧ v = a <<< (b.toNat % 64)) ∨
       (op = 0x06 ∧ c = .fcShr core t .none ∧ v = a >>> (b.toNat % 64)) ∨
       (op = 0x07 ∧ c = .fcSar core t .none ∧ v = a.sshiftRight (b.toNat % 64)) ∨
       (op = 0x08 ∧ c = .fcSeq core t .none ∧ v = (if a = b then 1 else 0)) ∨
       (op = 0x09 ∧ c = .fcSlt core t .none ∧ v = (if a.toInt < b.toInt then 1 else 0)) ∨
       (op = 0x0A ∧ c = .fcSltu core t .none ∧ v = (if a < b then 1 else 0)) ∨ (op = 0x0B ∧ c = .fcMul core t .none ∧ v = a * b) ∨
       (op = 0x0C ∧ c = .fcMulhu core t .none ∧ v = BitVec.ofNat 64 (a.toNat * b.toNat / 2 ^ 64)) ∨
       (op = 0x0D ∧ c = .fcDstep core t .none ∧ v = dstep a b) ∨
       (op = 0x0E ∧ c = .fcSltu128 core t .none ∧ iRa w % 2 = 0 ∧ iRb w % 2 = 0 ∧
        v = (if (getG x (iRa w + 1) ++ a) < (getG x (iRb w + 1) ++ b) then 1 else 0)) ∨
       (op = 0x10 ∧ c = .fcClz core t .none ∧ v = BitVec.ofNat 64 (clz64 a)) ∨
       (op = 0x11 ∧ c = .fcPopc core t .none ∧ v = BitVec.ofNat 64 ((List.range 64).filter (fun i => a.getLsbD i)).length) ∨
       (op = 0x12 ∧ c = .fcBswap core t .none ∧ v = BitVec.ofNat 64 (beNat (leBytes 8 a.toNat)))) →
      FcReady s core.val t.val op w x → exec c s = .next (short core.val t.val [(iRd w, v)] s)) ∧
  (∀ (core : CoreHk) (t : Thr) (sub w : Nat) (c : Instr) (x : Thread) (a v i : Word) (s : State), a = getG x (iRa w) →
      i = (BitVec.ofNat 14 (iImm14 w)).signExtend 64 →
      ((sub = 0 ∧ c = .fcAddi core t .none ∧ v = a + i) ∨
       (sub = 1 ∧ c = .fcAndi core t .none ∧ v = a &&& BitVec.ofNat 64 (iImm14 w)) ∨
       (sub = 2 ∧ c = .fcOri core t .none ∧ v = a ||| BitVec.ofNat 64 (iImm14 w)) ∨
       (sub = 3 ∧ c = .fcXori core t .none ∧ v = a ^^^ BitVec.ofNat 64 (iImm14 w)) ∨
       (sub = 4 ∧ c = .fcShli core t .none ∧ v = a <<< (iImm14 w % 64)) ∨ (sub = 5 ∧ c = .fcShri core t .none ∧ v = a >>> (iImm14 w % 64)) ∨
       (sub = 6 ∧ c = .fcSari core t .none ∧ v = a.sshiftRight (iImm14 w % 64)) ∨
       (sub = 7 ∧ c = .fcSeqi core t .none ∧ v = (if a = i then 1 else 0)) ∨
       (sub = 8 ∧ c = .fcSlti core t .none ∧ v = (if a.toInt < i.toInt then 1 else 0)) ∨
       (sub = 9 ∧ c = .fcSltui core t .none ∧ v = (if a < i then 1 else 0)) ∨
       (sub = 10 ∧ c = .fcExtu core t .none ∧
        v = (a >>> (iImm14 w % 64)) &&& BitVec.ofNat 64 (2 ^ (iImm14 w / 64 % 64 + 1) - 1))) →
      FcReady s core.val t.val (0x100 + sub) w x → exec c s = .next (short core.val t.val [(iRd w, v)] s)) ∧
  (∀ (core : CoreHk) (t : Thr) (w : Nat) (x : Thread) (s : State), FcReady s core.val t.val 0x200 w x →
      exec (.fcMovi core t .none) s = .next (short core.val t.val [(iRd w, (BitVec.ofNat 20 (iImm20 w)).signExtend 64)] s)) ∧
  (∀ (core : CoreHk) (t : Thr) (w : Nat) (x : Thread) (s : State), FcReady s core.val t.val 0x300 w x →
      exec (.fcLim core t .none) s = .next (short core.val t.val
        [(iRd w, (getG x (iRd w) <<< 20) ||| BitVec.ofNat 64 (iImm20 w))] s)) ∧
  (∀ (core : CoreHk) (t : Thr) (w : Nat) (x : Thread) (s : State), FcReady s core.val t.val 0x00 w x →
      exec (.fcAdd core t .residue) s = .next (faultFree core.val t.val 0x01 s)) ∧
  (∀ (c t n : Nat) (v : Word) (x : Thread) (s : State), tabSorted none s.fc.threads = true → threadOf s c t = x → x.stepping = false →
      threadOf (short c t [(n, v)] s) c t = { setG x n v with pc := pcAdd c x.pc 1, state := .running, stepping := false, passBp := false } ∧
      (∀ d u, 8 * d + u ≠ 8 * c + t → threadOf (short c t [(n, v)] s) d u = threadOf s d u)) ∧
  (∀ (c t : Nat) (l : List (Nat × Word)) (s : State), (short c t l s).fc.slices = s.fc.slices ∧ (short c t l s).fc.cluster = s.fc.cluster ∧
      (short c t l s).fc.hkMem = s.fc.hkMem ∧ (short c t l s).dram = s.dram ∧ (short c t l s).life = s.life ∧
      (short c t l s).q = s.q ∧ (short c t l s).pipe = s.pipe ∧ (short c t l s).tm = s.tm ∧ (short c t l s).st = s.st ∧
      (short c t l s).cg = s.cg ∧ (short c t l s).out = s.out) ∧
  (∀ (x : Thread) (n m : Nat) (v : Word), x.regs.length = 15 → n < 16 → getG (setG x n v) 0 = 0 ∧ (n ≠ 0 → getG (setG x n v) n = v) ∧
      (m ≠ n → getG (setG x n v) m = getG x m))

/-- DSTEP (R401): from a dividend in the low half, 32 steps leave the quotient in the low half and the remainder in the
high half; a divisor of 0 leaves all ones and the dividend. -/
def Obligations.DivideSteps : Prop :=
  (∀ n d : Nat, n < 2 ^ 32 → 0 < d → d < 2 ^ 32 →
      (fun a => dstep a (BitVec.ofNat 64 d))^[32] (BitVec.ofNat 64 n) = BitVec.ofNat 64 (n % d * 2 ^ 32 + n / d)) ∧
  (∀ n : Nat, n < 2 ^ 32 → (fun a => dstep a 0)^[32] (BitVec.ofNat 64 n) = BitVec.ofNat 64 (n * 2 ^ 32 + 0xFFFFFFFF))

/-- LD, ST, SWAP, FADD, CAS, BC, JAL and JR (R400, R403 to R405): an access outside the address space is BAD_ADDR and
one not naturally aligned is MISALIGN; a store changes only its bytes; branches and jumps set the pc. -/
def Obligations.FlowMemory : Prop :=
  (∀ (core : CoreHk) (t : Thr) (w n a : Nat) (x : Thread) (p : Place) (s : State), FcReady s core.val t.val 0x400 w x →
      n = 2 ^ iw w 14 2 → a = memAddr w x → place s core.val t.val a n = p → p ≠ .bad → a % n = 0 → iw w 16 1 = 0 →
      exec (.fcLd core t .none) s = .next (accessEnds core.val t.val p [(iRd w, BitVec.ofNat 64 (leNat (placeRead s p n)))] s)) ∧
  (∀ (core : CoreHk) (t : Thr) (w n a : Nat) (x : Thread) (p : Place) (s : State), FcReady s core.val t.val 0x400 w x →
      n = 2 ^ iw w 14 2 → a = memAddr w x → place s core.val t.val a n = p → p ≠ .bad → a % n = 0 → iw w 16 1 = 1 →
      exec (.fcLd core t .none) s = .next (accessEnds core.val t.val p
        [(iRd w, (BitVec.ofNat (8 * n) (leNat (placeRead s p n))).signExtend 64)] s)) ∧
  (∀ (core : CoreHk) (t : Thr) (w n a : Nat) (x : Thread) (p : Place) (s : State), FcReady s core.val t.val 0x500 w x →
      n = 2 ^ iw w 14 2 → a = memAddr w x → place s core.val t.val a n = p → p ≠ .bad → a % n = 0 →
      exec (.fcSt core t .none) s = .next (accessEnds core.val t.val p [] (placeWrite p (leBytes n (getG x (iRd w)).toNat) s))) ∧
  (∀ (c : Instr) (core : CoreHk) (t : Thr) (op w n a : Nat) (x : Thread) (s : State),
      ((op = 0x400 ∧ c = .fcLd core t .none) ∨ (op = 0x500 ∧ c = .fcSt core t .none) ∨ (op = 0x600 ∧ c = .fcSwap core t .none) ∨
       (op = 0x601 ∧ c = .fcFadd core t .none)) → FcReady s core.val t.val op w x → n = 2 ^ iw w 14 2 → a = memAddr w x →
      (place s core.val t.val a 1 = .bad → exec c s = .next (threadFault core.val t.val 0x11 (a % 2 ^ 32) s)) ∧
      (place s core.val t.val a 1 ≠ .bad → a % n ≠ 0 → exec c s = .next (threadFault core.val t.val 0x12 (a % 2 ^ 32) s))) ∧
  (∀ (core : CoreHk) (t : Thr) (w n a m : Nat) (x : Thread) (p : Place) (s : State), FcReady s core.val t.val 0x600 w x →
      n = 2 ^ iw w 14 2 → a = memAddr w x → place s core.val t.val a n = p → p ≠ .bad → a % n = 0 → m = leNat (placeRead s p n) →
      exec (.fcSwap core t .none) s = .next (accessEnds core.val t.val p [(iRd w, BitVec.ofNat 64 m)]
        (placeWrite p (leBytes n ((getG x (iRd w)).toNat % 2 ^ (8 * n))) s))) ∧
  (∀ (core : CoreHk) (t : Thr) (w n a m : Nat) (x : Thread) (p : Place) (s : State), FcReady s core.val t.val 0x601 w x →
      n = 2 ^ iw w 14 2 → a = memAddr w x → place s core.val t.val a n = p → p ≠ .bad → a % n = 0 → m = leNat (placeRead s p n) →
      exec (.fcFadd core t .none) s = .next (accessEnds core.val t.val p [(iRd w, BitVec.ofNat 64 m)]
        (placeWrite p (leBytes n ((m + (getG x (iRd w)).toNat) % 2 ^ (8 * n))) s))) ∧
  (∀ (core : CoreHk) (t : Thr) (w n a m : Nat) (x : Thread) (p : Place) (s : State), FcReady s core.val t.val 0x602 w x →
      n = 2 ^ iw w 14 2 → a = memAddr w x → place s core.val t.val a n = p → p ≠ .bad → a % n = 0 → m = leNat (placeRead s p n) →
      iRd w ≠ 15 → exec (.fcCas core t .none) s = .next (accessEnds core.val t.val p [(iRd w, BitVec.ofNat 64 m)]
        (if m = (getG x (iRd w)).toNat % 2 ^ (8 * n) then placeWrite p (leBytes n ((getG x (iRd w + 1)).toNat % 2 ^ (8 * n))) s else s))) ∧
  (∀ (k : Nat) (b : Bytes) (s : State), Memory.wf s.fc.slices = true → memRead (placeWrite (.slice k) b s).fc.slices k b.length = b ∧
      (∀ i, (i < k ∨ k + b.length ≤ i) → memByte (placeWrite (.slice k) b s).fc.slices i = memByte s.fc.slices i) ∧
      (placeWrite (.slice k) b s).fc.cluster = s.fc.cluster ∧ (placeWrite (.slice k) b s).dram = s.dram) ∧
  (∀ (core : CoreHk) (t : Thr) (w : Nat) (x : Thread) (r : Word) (s : State), FcReady s core.val t.val 0x800 w x → r = getG x (iRd w) →
      exec (.fcBc core t .none) s = .next (jumpTo core.val t.val [] (pcAdd core.val x.pc
        (if (iw w 10 2 = 0 ∧ r = 0) ∨ (iw w 10 2 = 1 ∧ r ≠ 0) ∨ (iw w 10 2 = 2 ∧ r.toInt < 0) ∨ (iw w 10 2 = 3 ∧ 0 ≤ r.toInt)
         then signed 20 (iImm20 w) else 1)) s)) ∧
  (∀ (core : CoreHk) (t : Thr) (w : Nat) (x : Thread) (s : State), FcReady s core.val t.val 0x900 w x → exec (.fcJal core t .none) s =
      .next (jumpTo core.val t.val [(iRd w, (pcAdd core.val x.pc 1).setWidth 64)] (pcAdd core.val x.pc (signed 20 (iImm20 w))) s)) ∧
  (∀ (core : CoreHk) (t : Thr) (w : Nat) (x : Thread) (s : State), FcReady s core.val t.val 0xA00 w x → exec (.fcJr core t .none) s =
      .next (jumpTo core.val t.val [(iRd w, (pcAdd core.val x.pc 1).setWidth 64)] (BitVec.ofNat 20
        ((getG x (iRa w) + (BitVec.ofNat 14 (iImm14 w)).signExtend 64).toNat % pcMod core.val)) s))

/-- Channel and thread operations (R376, R377, R406 to R408): CLAIM reserves a free slot; PUT stores a word of the
claim; SEND publishes; RECV takes the oldest message or waits; POLL counts; and HALT, WAIT, TIME, TICK, TID, YIELD,
BKPT, FAULT. -/
def Obligations.FlowChannels : Prop :=
  (∀ (core : CoreHk) (t : Thr) (w : Nat) (x : Thread) (k : Chn) (s : State), FcReady s core.val t.val 0xC00 w x → x.claim = none →
      claimChan core.val (chTarget w x) = some k → hkDelivers core.val k = false → (chanOf s k).holder = none →
      slotFree k (chanOf s k) = true → (chanOf s k).posts = [] → k.core = core.val → exec (.fcClaim core t .none) s =
        .next (short core.val t.val [] (putThreadRaw core.val t.val { x with claim := some k, put := [] }
          (putChan k { chanOf s k with holder := some (tid core.val t.val) } s)))) ∧
  (∀ (core : CoreHk) (t : Thr) (w : Nat) (x : Thread) (k : Chn) (s : State), FcReady s core.val t.val 0xC00 w x → x.claim = none →
      claimChan core.val (chTarget w x) = some k → hkDelivers core.val k = false → (chanOf s k).holder ≠ none →
      exec (.fcClaim core t .none) s = .next (stall core.val t.val (.claim k) false []
        (putChan k { chanOf s k with claimers := (chanOf s k).claimers ++ [tid core.val t.val] } s))) ∧
  (∀ (core : CoreHk) (t : Thr) (w : Nat) (x : Thread) (s : State), FcReady s core.val t.val 0xC00 w x → x.claim ≠ none →
      exec (.fcClaim core t .none) s = .next (threadFault core.val t.val 0x14 (targetWord (chTarget w x)) s)) ∧
  (∀ (core : CoreHk) (t : Thr) (w : Nat) (x : Thread) (s : State), FcReady s core.val t.val 0xC01 w x → x.claim ≠ none →
      exec (.fcPut core t .none) s = .next (short core.val t.val [] (putThreadRaw core.val t.val
        { x with put := ((List.range 4).map (fun i => x.put.getD i 0)).set (iw w 18 2) (getG x (iRa w)) } s))) ∧
  (∀ (core : CoreHk) (t : Thr) (w : Nat) (c : Instr) (op : Nat) (x : Thread) (s : State),
      ((op = 0xC01 ∧ c = .fcPut core t .none) ∨ (op = 0xC02 ∧ c = .fcSend core t .none)) → FcReady s core.val t.val op w x →
      x.claim = none → exec c s = .next (threadFault core.val t.val 0x15 w s)) ∧
  (∀ (core : CoreHk) (t : Thr) (w : Nat) (x : Thread) (k : Chn) (s : State), FcReady s core.val t.val 0xC02 w x → x.claim = some k →
      iw w 18 3 ≤ 4 → hkDelivers core.val k = false → k.core = core.val → exec (.fcSend core t .none) s =
        .next (short core.val t.val [] (sendMsg k (threadMsg core.val t.val k x (iw w 18 3)) (endClaim core.val t.val s)))) ∧
  (∀ (core : CoreHk) (t : Thr) (w : Nat) (x : Thread) (k : Chn) (m : Msg) (s u : State), FcReady s core.val t.val 0xC03 w x →
      iRd w ≠ 0 → iRd w ≤ 11 → ownChan core.val (chTarget w x) = some k → takeMsg k s = (u, some m) →
      exec (.fcRecv core t .none) s = .next (serve k (short core.val t.val (recvWrites (iRd w) m) u))) ∧
  (∀ (core : CoreHk) (t : Thr) (w : Nat) (x : Thread) (k : Chn) (s u : State), FcReady s core.val t.val 0xC03 w x →
      iRd w ≠ 0 → iRd w ≤ 11 → ownChan core.val (chTarget w x) = some k → takeMsg k s = (u, none) →
      exec (.fcRecv core t .none) s = .next (serve k (stall core.val t.val (.recv k (iRd w)) false []
        (putChan k { chanOf u k with receivers := (chanOf u k).receivers ++ [tid core.val t.val] } u)))) ∧
  (∀ (core : CoreHk) (t : Thr) (w : Nat) (x : Thread) (k : Chn) (s : State), FcReady s core.val t.val 0xC04 w x →
      ownChan core.val (chTarget w x) = some k → exec (.fcPoll core t .none) s =
        .next (short core.val t.val [(iRd w, BitVec.ofNat 64 (chanOf s k).msgs.length)] s)) ∧
  (∀ (k : Chn) (m : Msg) (ms : List Msg) (s : State), tabSorted none s.fc.chans = true → tabSorted none s.fc.mboxes = true →
      (chanOf s k).msgs = m :: ms → msgStale s m = false → (takeMsg k s).2 = some m ∧ (chanOf (takeMsg k s).1 k).msgs = ms) ∧
  (∀ (core : CoreHk) (t : Thr) (w : Nat) (x : Thread) (s : State), FcReady s core.val t.val 0xE00 w x →
      exec (.fcHalt core t .none) s = .next (endThread core.val t.val .halted (short core.val t.val [] s))) ∧
  (∀ (core : CoreHk) (t : Thr) (w n : Nat) (x : Thread) (s : State), FcReady s core.val t.val 0xE01 w x →
      n = (getG x (iRa w) + BitVec.ofNat 64 (iImm14 w)).toNat → exec (.fcWait core t .none) s =
        .next (if n = 0 then short core.val t.val [] s else stall core.val t.val (.timer (s.ticks + n)) false [] s)) ∧
  (∀ (core : CoreHk) (t : Thr) (w : Nat) (x : Thread) (s : State), FcReady s core.val t.val 0xE02 w x → ∃ v,
      exec (.fcTime core t .none) s = .next (short core.val t.val [(iRd w, v)] (useFree s)) ∧
      ∃ n, n < 1280 ∧ v = time64 (clockAt s n)) ∧
  (∀ (core : CoreHk) (t : Thr) (w : Nat) (x : Thread) (s : State), FcReady s core.val t.val 0xE03 w x →
      exec (.fcTick core t .none) s = .next (short core.val t.val [(iRd w, BitVec.ofNat 64 (s.ticks % 2 ^ 32))] s)) ∧
  (∀ (core : CoreHk) (t : Thr) (w : Nat) (x : Thread) (s : State), FcReady s core.val t.val 0xE04 w x →
      exec (.fcTid core t .none) s = .next (short core.val t.val [(iRd w, BitVec.ofNat 64 (8 * core.val + t.val))] s)) ∧
  (∀ (core : CoreHk) (t : Thr) (w : Nat) (x : Thread) (s : State), FcReady s core.val t.val 0xE05 w x →
      exec (.fcYield core t .none) s = .next (endTurn core.val t.val (short core.val t.val [] s))) ∧
  (∀ (core : CoreHk) (t : Thr) (w : Nat) (x : Thread) (s : State), FcReady s core.val t.val 0xE06 w x → debugLocked s = false →
      x.passBp = false → exec (.fcBkpt core t .none) s = .next (putThread core.val t.val { x with state := .stopped, stepping := false } s)) ∧
  (∀ (core : CoreHk) (t : Thr) (w : Nat) (x : Thread) (s : State), FcReady s core.val t.val 0xE06 w x → debugLocked s = true →
      exec (.fcBkpt core t .none) s = .next (threadFault core.val t.val 0x1A 0 s)) ∧
  (∀ (core : CoreHk) (t : Thr) (w : Nat) (x : Thread) (s : State), FcReady s core.val t.val 0xE07 w x →
      exec (.fcFault core t .none) s = .next (threadFault core.val t.val 0x3F (iImm14 w) s))

/-- Engine calls (R409 to R419): a misaligned block is BAD_BLOCK; a call that completes stalls its thread with the
status owed to rd; each call has its effect when its checks pass. -/
def Obligations.EngineCalls : Prop :=
  (∀ (core : CoreHk) (t : Thr) (w st : Nat) (s : State), tabSorted none s.fc.threads = true →
      threadOf (callStatus core.val t.val w st s) core.val t.val = { threadOf s core.val t.val with
        state := .stalled, wait := .call, done := true, owed := [(iRd w, BitVec.ofNat 64 st)], stopReq := (threadOf s core.val t.val).stopReq || (threadOf s core.val t.val).stepping, stepping := false, passBp := false }) ∧
  (∀ (core : CoreHk) (t : Thr) (w a : Nat) (x : Thread) (s : State), FcReady s core.val t.val 0x100B w x → a = (getG x (iRa w)).toNat →
      a % 8 ≠ 0 → exec (.pktFree core t .none) s = .next (threadFault core.val t.val 0x18 (a % 2 ^ 32) s)) ∧
  (∀ (core : CoreHk) (t : Thr) (w a len : Nat) (b d : Bytes) (p : Place) (s : State), CallReady s core.val t.val 0x00 24 w a b →
      len = lef b 0x10 0 13 → place s core.val t.val (leWord b 8).toNat len = p → p ≠ .bad → dmaCheck s b = 0 →
      exec (.dmaRd core t (.data d) .none) s = .next (callOwes core.val t.val w 0 [(p, slice d 0 len)]
        (instRead (dmaFn b) (lef b 0x10 16 10) (le b 0 8) len (.flowCore core t) s))) ∧
  (∀ (core : CoreHk) (t : Thr) (w a len : Nat) (b : Bytes) (p : Place) (s : State), CallReady s core.val t.val 0x01 24 w a b →
      len = lef b 0x10 0 13 → place s core.val t.val (leWord b 8).toNat len = p → p ≠ .bad → dmaCheck s b = 0 →
      exec (.dmaWr core t .none) s = .next (callStatus core.val t.val w 0 (instWrite (dmaFn b) (lef b 0x10 16 10)
        (BitVec.ofNat 8 (lef b 0x10 26 8)) (lef b 0x10 34 1 == 0) (le b 0 8) (placeRead s p len) s).1)) ∧
  (∀ (core : CoreHk) (t : Thr) (w a off len f : Nat) (b : Bytes) (p : Place) (x : Frame) (s : State), CallReady s core.val t.val 0x08 24 w a b →
      off = le b 4 2 → len = le b 6 2 → place s core.val t.val (leWord b 8).toNat len = p → p ≠ .bad →
      heldFrame s core.val (lef b 0 0 18) = some f → frameOf s f = some x → iw w 24 1 = 0 → 1 ≤ len → len ≤ 4096 → off + len ≤ x.len →
      exec (.pktRead core t .none) s = .next (callOwes core.val t.val w 0 [(p, slice x.bytes off len)] s)) ∧
  (∀ (core : CoreHk) (t : Thr) (w a off len f : Nat) (b : Bytes) (p : Place) (x : Frame) (s : State), CallReady s core.val t.val 0x09 24 w a b →
      off = le b 4 2 → len = le b 6 2 → place s core.val t.val (leWord b 8).toNat len = p → p ≠ .bad →
      heldFrame s core.val (lef b 0 0 18) = some f → frameOf s f = some x → iw w 24 1 = 0 → 1 ≤ len → len ≤ 4096 → off + len ≤ x.len →
      exec (.pktWrite core t .none) s = .next (callStatus core.val t.val w 0 (putFrame f { x with bytes := splice x.bytes off (placeRead s p len) } s))) ∧
  (∀ (core : CoreHk) (t : Thr) (w a f l : Nat) (b y : Bytes) (x : Frame) (s u : State), CallReady s core.val t.val 0x0A 24 w a b →
      heldFrame s core.val (lef b 0 0 18) = some f → frameOf s f = some x → l = lef b 0x10 0 20 →
      editHeld l (lef b 0x10 20 12) x s = .ok y → enqueueFrame l f (putFrame f { x with bytes := y } (spendHandle core.val f s)) = (u, true) →
      exec (.pktSend core t .none) s = .next (callStatus core.val t.val w 0 u)) ∧
  (∀ (core : CoreHk) (t : Thr) (w a f : Nat) (b : Bytes) (x : Frame) (s : State), CallReady s core.val t.val 0x0B 8 w a b →
      heldFrame s core.val (lef b 0 0 18) = some f → frameOf s f = some x →
      exec (.pktFree core t .none) s = .next (callStatus core.val t.val w 0 (freeFrame f (spendHandle core.val f s)))) ∧
  (∀ (core : CoreHk) (t : Thr) (w a : Nat) (b : Bytes) (s : State), CallReady s core.val t.val 0x0B 8 w a b →
      heldFrame s core.val (lef b 0 0 18) = none → exec (.pktFree core t .none) s = .next (callStatus core.val t.val w 0x0613 s)) ∧
  (∀ (core : CoreHk) (t : Thr) (w a len : Nat) (b : Bytes) (p : Place) (s : State), CallReady s core.val t.val 0x0C 24 w a b →
      len = le b 6 2 → place s core.val t.val (leWord b 8).toNat len = p → p ≠ .bad → 14 ≤ len → len ≤ 9212 →
      sharedUsed s + cellsFor len + 1 ≤ sharedSize s → (coreOf s core.val).punts.length < 1024 → (handlesHeld s).length < 2 ^ 18 → ∃ u, exec (.pktNew core t .none) s =
        .next (callEnd core.val t.val w a 0 0 (leBytes 4 (newHandle s)) u) ∧
        heldFrame u core.val (newHandle s) = some s.pipe.nextFrame ∧ (∀ y, frameOf u s.pipe.nextFrame = some y → y.bytes = placeRead s p len) ∧ frameOf u s.pipe.nextFrame ≠ none) ∧
  (∀ (core : CoreHk) (t : Thr) (w a pl kind : Nat) (b : Bytes) (h : Hit) (e : BitVec 32) (s : State), CallReady s core.val t.val 0x10 80 w a b →
      pl = lef b 0 0 3 → kind = lef b 0 3 3 → pl < 4 → 1 ≤ kind → kind ≤ 4 → iw w 24 1 = 0 → e = epochCurrent s pl →
      lookupKey s pl kind (lef b 0 6 6) (lef b 0 6 6) (slice b 0x10 48) e = .result h → exec (.lookup core t .none) s =
        .next (callOwes core.val t.val w 0 [blockPlace s core.val t.val a 8 (leBytes 4 e.toNat),
          blockPlace s core.val t.val a 0x40 (lookupBytes h)] s)) ∧
  (∀ (core : CoreHk) (t : Thr) (w a op len : Nat) (b : Bytes) (p q : Place) (s : State), CallReady s core.val t.val 0x18 104 w a b →
      op = lef b 0 0 4 → op ≤ 2 → len = le b 4 4 → 0 < len → len ≤ 2 ^ 24 → place s core.val t.val (leWord b 8).toNat len = p → p ≠ .bad →
      place s core.val t.val (leWord b 0x10).toNat (digestLen op) = q → q ≠ .bad → exec (.crypt core t .none) s =
        .next (callOwes core.val t.val w 0 [(q, digest op (placeRead s p len))] s)) ∧
  (∀ (core : CoreHk) (t : Thr) (w a : Nat) (b : Bytes) (s : State), CallReady s core.val t.val 0x20 24 w a b →
      exec (.count core t .none) s = .next (callStatus core.val t.val w 0
        (addPair (lef b 0 0 2) (lef b 0 2 18) (leWord b 8) (leWord b 0x10) s))) ∧
  (∀ (core : CoreHk) (t : Thr) (w a g fn i : Nat) (b : Bytes) (s : State), CallReady s core.val t.val 0x28 24 w a b →
      fn = lef b 8 0 2 → i = lef b 8 2 10 → rb s CG_CTRL 0 = true → fld (leWord b 0) 0 60 ≠ 0 →
      gateOpen s fn i (BitVec.ofNat 8 (lef b 8 12 8)) = true → freeSlot s = some g → ∃ x u, exec (.gopen core t .none) s =
        .next (callEnd core.val t.val w a 0 0x10 (leBytes 8 g) (putCg g x u)) ∧ x.state = .opened ∧ x.token = leWord b 0 ∧
        x.domain = domainOf s fn i ∧ x.core = some (BitVec.ofNat 6 core.val, BitVec.ofNat 3 t.val) ∧ u.cg = s.cg) ∧
  (∀ (core : CoreHk) (t : Thr) (w a g : Nat) (x : Group) (y : Thread) (b : Bytes) (src : Place) (s : State), CallReady s core.val t.val 0x29 72 w a b →
      y = threadOf s core.val t.val → g = (getG y (iRb w)).toNat % 2 ^ 16 → iw w 24 1 = 0 → ownGroup s core.val t.val g = some x →
      x.state = .opened → x.members.length < 16 → src = place s core.val t.val (leWord b 0x18).toNat 256 →
      (src ≠ .bad ∨ lef b 0 4 8 ≠ 0xD0) → ∃ p, (lef b 0 4 8 = 0xD0 → p = src) ∧
        exec (.gjoin core t .none) s = .next (joinDescriptor core.val t.val w g x b p s)) ∧
  (∀ (core : CoreHk) (t : Thr) (w a g : Nat) (x : Group) (y : Thread) (b : Bytes) (s : State), CallReady s core.val t.val 0x29 24 w a b →
      y = threadOf s core.val t.val → g = (getG y (iRb w)).toNat % 2 ^ 16 → iw w 24 1 = 1 → ownGroup s core.val t.val g = some x →
      x.state = .opened → x.members.length < 16 → exec (.gjoin core t .none) s = .next (joinFrame core.val t.val w g x b s)) ∧
  (∀ (core : CoreHk) (t : Thr) (w a g : Nat) (x : Group) (y : Thread) (b : Bytes) (s : State), CallReady s core.val t.val 0x2A 32 w a b →
      y = threadOf s core.val t.val → g = (getG y (iRb w)).toNat % 2 ^ 16 → ownGroup s core.val t.val g = some x →
      x.state = .opened → exec (.gclose core t .none) s = .next (stall core.val t.val .call false []
        (putCg g { x with state := .closed, n := x.members.length, gclose := some (iRd w, a) } s)))

/-! ### Threads and mailboxes (13) -/

/-- Turns, stalls and thread control (R373, R374, R383 to R387): a thread's turn ends at its limit; the next READY
thread takes it; a stall that ends makes its owed writes, to
registers and to memory; kill, start, halt, thaw and debug act only on the states they
name. CORE_MSG delivery (R378, R382): MSG_POST with too many words or to a mailbox that is not enabled fails with its
status; one that a slot takes completes and is visible; a mailbox that has a slot again serves the oldest that waits. -/
def Obligations.ThreadsAndMailboxes : Prop :=
  (∀ (core : CoreHk) (t : Nat) (s : State), runningThread s core.val = some t → 64 ≤ (coreOf s core.val).turn →
      exec (.turnLimit core) s = .next (putThread core.val t { threadOf s core.val t with state := .ready } s)) ∧
  (∀ (core : CoreHk) (s : State), (runningThread s core.val = none ∨ (coreOf s core.val).turn < 64) → exec (.turnLimit core) s = .next s) ∧
  (∀ (core : CoreHk) (t : Nat) (s : State), runningThread s core.val = none →
      ((List.range 8).map (fun k => ((coreOf s core.val).last + 1 + k) % 8)).find?
        (fun t => (threadsOf core.val).contains t && (threadOf s core.val t).state == .ready) = some t → ∃ u,
      exec (.threadSwitch core) s = .next (putCore core.val { coreOf u core.val with last := t, turn := 0 } u) ∧
      u = putThread core.val t { threadOf s core.val t with state := .running } s) ∧
  (∀ (core : CoreHk) (t : Thr) (x : Thread) (s : State), x = threadOf s core.val t.val → x.state = .stalled → x.done = true →
      exec (.longStallEnd core t) s = .next (countRetired core.val (putThread core.val t.val { setGs x x.owed with
        pc := pcAdd core.val x.pc 1, state := if x.stopReq then .stopped else .ready, wait := .none, done := false, owed := [], owedMem := [], stopReq := false }
        (x.owedMem.foldl (fun s m => placeWrite m.1 m.2 s) s)))) ∧
  (∀ (core : CoreHk) (t : Thr) (s : State), (threadOf s core.val t.val).state ≠ .stalled → (threadOf s core.val t.val).wait = .none →
      exec (.longStallEnd core t) s = .next s) ∧
  (∀ (core : Core) (t : Thr) (s : State), setupOpen s = true → (threadOf s core.val t.val).state ≠ .halted →
      exec (.kill core t) s = .next (linkBusy (endThread core.val t.val .halted s))) ∧
  (∀ (core : Core) (t : Thr) (s : State), setupOpen s = true → (threadOf s core.val t.val).state = .halted →
      rb s (FC_THR_B (8 * core.val + t.val)) 2 = true → exec (.start core t) s = .next (linkBusy (putThread core.val t.val
        { threadOf s core.val t.val with state := .ready, pc := BitVec.ofNat 20 (rf s (FC_THR_B (8 * core.val + t.val)) 16 15) } s))) ∧
  (∀ (core : Core) (t : Thr) (s : State), setupOpen s = true → (threadOf s core.val t.val).state ≠ .halted →
      exec (.start core t) s = .next (linkBusy s)) ∧
  (∀ (core : Core) (s : State), setupOpen s = true → exec (.coreHalt core) s = .next (linkBusy ((List.range 64).foldl
      (fun s n => putChan (.local core.val n) { chanOf s (.local core.val n) with msgs := [] } s) (killAll core.val s)))) ∧
  (∀ (core : Core) (s : State), setupOpen s = true → (∀ t < 8, (threadOf s core.val t).state ≠ .frozen) →
      exec (.thaw core) s = .next (linkBusy s)) ∧
  (∀ (core : Core) (ts : List Nat) (u s : State), setupOpen s = true → ts = (List.range 8).filter (fun t => (threadOf s core.val t).state == .frozen) →
      u = ts.foldl (fun s t => putThread core.val t { threadOf s core.val t with state := .stalled } s) s → exec (.thaw core) s = .next
        (linkBusy (ts.foldl (fun s t => match waitChan (threadOf s core.val t) with | some k => serve k s | none => s) u))) ∧
  (∀ (core : Core) (t : Thr) (x : Thread) (s : State), setupOpen s = true → debugLocked s = false → x = threadOf s core.val t.val →
      ((x.state = .running ∨ x.state = .ready) → exec (.stop core.castSucc t) s = .next (linkBusy (putThread core.val t.val { x with state := .stopped } s))) ∧
      (x.state = .stalled → exec (.stop core.castSucc t) s = .next (linkBusy (putThread core.val t.val { x with stopReq := true } s))) ∧
      (x.state = .stopped → exec (.resume core.castSucc t) s = .next (linkBusy (putThread core.val t.val { x with state := .ready, passBp := true } s))) ∧
      (x.state = .stopped → exec (.debugStep core.castSucc t) s = .next (linkBusy (putThread core.val t.val { x with state := .ready, passBp := true, stepping := true } s)))) ∧
  (∀ (core : CoreHk) (t : Thr) (s : State), setupOpen s = true → debugLocked s = true → exec (.stop core t) s = .next (linkBusy s) ∧
      exec (.resume core t) s = .next (linkBusy s) ∧ exec (.debugStep core t) s = .next (linkBusy s)) ∧
  (∀ (core : Core) (s : State), coreClosed s core.val = false → exec (.closedWait core) s = .next s) ∧
  (∀ (core : Core) (ts : List Nat) (u s : State), coreClosed s core.val = true → 9 ≤ (coreOf s core.val).quiet →
      ts = (List.range 8).filter (fun t => (threadOf s core.val t).state == .stalled && waitsLocal (threadOf s core.val t)) →
      u = ts.foldl (fun s t => putThreadRaw core.val t { threadOf s core.val t with state := .frozen } s) s → ∃ v, exec (.closedWait core) s =
        .next (postLog 8 0 blkFC (BitVec.ofNat 64 core.val) (BitVec.ofNat 64 ((ts.map (fun t => 2 ^ t)).sum)) (addErr (FC_CLOSED_WAITS core.val) 1 v)) ∧
        v.fc.threads = u.fc.threads) ∧
  (∀ (fn : Fn) (fq : BitVec 20) (e : Entry) (s u : State), NextIs s fn.val fq.toNat 0x50 e u → 4 < lef e.desc 0x30 0 3 →
      exec (.msgPost fn fq) s = .next (finish fn.val fq.toNat e.idx true 0x0601 0 none u)) ∧
  (∀ (fn : Fn) (fq : BitVec 20) (e : Entry) (tg : Nat × Nat) (s u : State), NextIs s fn.val fq.toNat 0x50 e u → lef e.desc 0x30 0 3 ≤ 4 →
      tg = msgTarget (queueOf u fn.val fq.toNat) → mboxEnabled u tg.1 tg.2 = false →
      exec (.msgPost fn fq) s = .next (finish fn.val fq.toNat e.idx true 0x0600 0 none u)) ∧
  (∀ (fn : Fn) (fq : BitVec 20) (e : Entry) (tg : Nat × Nat) (n : Nat) (s u : State), NextIs s fn.val fq.toNat 0x50 e u → e.group = none →
      n = lef e.desc 0x30 0 3 → n ≤ 4 → tg = msgTarget (queueOf u fn.val fq.toNat) → mboxEnabled u tg.1 tg.2 = true →
      slotFree (.mbox tg.1 tg.2) (chanOf u (.mbox tg.1 tg.2)) = true → exec (.msgPost fn fq) s = .next
        (finish fn.val fq.toNat e.idx false 0 0 none (publish (.mbox tg.1 tg.2) { header := msgHeader u fn.val fq.toNat e n, words := msgWords e.desc n } u))) ∧
  (∀ (fn : Fn) (fq : BitVec 20) (e : Entry) (tg : Nat × Nat) (k : Chn) (s u : State), NextIs s fn.val fq.toNat 0x50 e u → e.group = none →
      lef e.desc 0x30 0 3 ≤ 4 → tg = msgTarget (queueOf u fn.val fq.toNat) → k = .mbox tg.1 tg.2 → mboxEnabled u tg.1 tg.2 = true →
      slotFree k (chanOf u k) = false → exec (.msgPost fn fq) s = .next (setPhase fn.val fq.toNat e.idx .started
        (putChan k { chanOf u k with posts := (chanOf u k).posts ++ [(BitVec.ofNat 2 fn.val, fq, e.idx)] } u))) ∧
  (∀ (core : CoreHk) (m : Fin 32) (k : Chn) (s u : State), k = .mbox core.val m.val → (chanOf s k).posts = [] →
      u = putChan k (chanOf s k) s → exec (.mailboxDelivery core m) s = .next (serve k (advanceGroups u))) ∧
  (∀ (core : CoreHk) (m : Fin 32) (k : Chn) (p : BitVec 2 × BitVec 20 × BitVec 32) (ps : List (BitVec 2 × BitVec 20 × BitVec 32)) (e : Entry)
      (s u v : State), k = .mbox core.val m.val → (chanOf s k).posts.filter (postLive s) = p :: ps → u = putChan k { chanOf s k with posts := p :: ps } s →
      entryIdx u p.1.toNat p.2.1.toNat p.2.2 = some e → postMessage p.1.toNat p.2.1.toNat e u = (v, true) → exec (.mailboxDelivery core m) s =
        .next (serve k (putChan k { chanOf v k with posts := ps } v)))

/-! ### Storage (15) -/

/-- Storage commands (R430 to R437): the arbiter admits one entry, which fails its check or takes its lock; a command
whose lists and data are in hand is issued, or staged for its group; a lock is granted once nothing earlier conflicts; a
pack's answer settles the command that waits for it, and an answer nothing waits for changes nothing. -/
def Obligations.StorageCommands : Prop :=
  (∀ s : State, arbiterPick s = none → exec .admission s = .next s) ∧
  (∀ (fq fns : Nat) (e : Entry) (s u : State), arbiterPick s = some (fq, e) → e.met = .good → e.group = none →
      u = { s with st := { s.st with lastQueue := fq } } → fns = stNs u (queueInst u 2 fq) e.desc → admitCheck u fns e ≠ 0 →
      exec .admission s = .next (failStorage (newCmd u fq fns e) (admitCheck u fns e) none u)) ∧
  (∀ (fq fns n : Nat) (e : Entry) (c : StCmd) (s u v : State), arbiterPick s = some (fq, e) → e.met = .good → e.group = none →
      u = { s with st := { s.st with lastQueue := fq } } → fns = stNs u (queueInst u 2 fq) e.desc → admitCheck u fns e = 0 →
      n = s.st.nextCmd → c = newCmd u fq fns e → grantable u n c = true → v = { u with st := { u.st with nextCmd := n + 1 } } →
      exec .admission s = .next (setPhase 2 fq e.idx .started (putCmd n { c with granted := true } v))) ∧
  (∀ (s : State) (n : Nat) (c : StCmd), c.op ≠ 0x32 → (grantable s n c = true ↔
      ∀ e ∈ s.st.cmds, n ≤ e.1 ∨ e.2.held = false ∨ overlaps c e.2 = false ∨ (c.op = 0x30 ∧ e.2.op = 0x30))) ∧
  (∀ (fq : BitVec 20) (idx : BitVec 32) (r : Read) (n : Nat) (c : StCmd) (e : Entry) (s : State), StReady s 0x30 fq.toNat idx n c e →
      bit (leWord e.desc 0x24) 16 = false → exec (.stRead fq idx r) s = .next (cmdReady n
        { c with segs := [(le e.desc 0x10 8, c.nblocks * 2 ^ (nsOf s c.fns.toNat).bshift)] } s)) ∧
  (∀ (fq : BitVec 20) (idx : BitVec 32) (x : Read) (b : Bytes) (n len : Nat) (c : StCmd) (e : Entry) (s : State), StReady s 0x31 fq.toNat idx n c e →
      c.group = none → bit (leWord e.desc 0x24) 16 = false → len = c.nblocks * 2 ^ (nsOf s c.fns.toNat).bshift →
      exec (.stWrite fq idx x (.data b)) s = .next (cmdReady n { c with segs := [(le e.desc 0x10 8, len)], data := slice b 0 len }
        (entryRead 2 fq.toNat e (le e.desc 0x10 8) len s))) ∧
  (∀ (fq : BitVec 20) (idx : BitVec 32) (op n : Nat) (i : Instr) (c : StCmd) (e : Entry) (s : State),
      ((op = 0x32 ∧ i = .stFlush fq idx) ∨ (op = 0x33 ∧ i = .stZero fq idx) ∨ (op = 0x34 ∧ i = .stTrim fq idx)) →
      StReady s op fq.toNat idx n c e → exec i s = .next (cmdReady n c s)) ∧
  (∀ (fq : BitVec 20) (idx : BitVec 32) (b d : Bytes) (n len : Nat) (c : StCmd) (e : Entry) (s : State), StReady s 0x35 fq.toNat idx n c e →
      len = c.nblocks * 2 ^ (nsOf s c.fns.toNat).bshift → exec (.stCmpwrite fq idx (.data b) (.data d)) s = .next (cmdReady n
        { c with cmpData := slice b 0 len, data := slice d 0 len }
        (entryRead 2 fq.toNat e (le e.desc 0x10 8) len (entryRead 2 fq.toNat e (le e.desc 0x28 8) len s)))) ∧
  (∀ (n : Nat) (c : StCmd) (s : State), c.group = none → cmdReady n c s = issueCmd n (putCmd n { c with ready := true } s)) ∧
  (∀ (n : Nat) (c : StCmd) (s : State), cmdOf s n = some c → c.granted = false → grantable s n c = true →
      exec (.lockGrant (n, .good)) s = .next (issueCmd n (putCmd n { c with granted := true } s))) ∧
  (∀ (n : Nat) (c : StCmd) (s : State), cmdOf s n = some c → c.granted = false → grantable s n c = true →
      exec (.lockGrant (n, .bad)) s = .next (deviceFault 5 blkST (freeNow s).toNat (useFree s))) ∧
  (∀ (n : Nat) (c : StCmd) (ecc : Ecc) (s : State), cmdOf s n = some c → grantable s n c = false → exec (.lockGrant (n, ecc)) s = .next s) ∧
  (∀ (b : Bay) (cid : Nat) (sf : BitVec 15) (d : Bytes) (l : Option (BitVec 64)) (s : State), packUse s b.val cid = none →
      exec (.packCompletion b cid sf d l) s = .next s) ∧
  (∀ (b : Bay) (cid n off : Nat) (onB : Bool) (d : Bytes) (l : Option (BitVec 64)) (s : State), packUse s b.val cid = some (.cmd n onB off) →
      exec (.packCompletion b cid 0 d l) s = .next (cmdAnswer n onB off none d (dropPackCmd b.val cid s))) ∧
  (∀ (n : Nat) (c : StCmd) (s : State), c.failA = none → c.failB = none → settleChange n c s = stDone n c s)

/-- Namespaces, error logs and rebuilds (R424, R425, R443, R465 to R467): a configuration passes its checks and acts, or
completes with the first status that fails; a chunk copied no faster than its rate (1 to 14,000 bytes
a microsecond) advances the rebuild, and the last one ends it with the namespace ONLINE; a chunk that fails leaves it degraded. -/
def Obligations.Namespaces : Prop :=
  (∀ (cq : BitVec 20) (e : Entry) (s u : State), NextIs s 0 cq.toNat 0xC8 e u → adminQueue u cq.toNat = true → nsCheck u e.desc ≠ 0 →
      exec (.nsConfig cq) s = .next (finish 0 cq.toNat e.idx true (nsCheck u e.desc) 0 none u)) ∧
  (∀ (cq : BitVec 20) (e : Entry) (n : Ns) (r : Nat × Bool) (s u : State), NextIs s 0 cq.toNat 0xC8 e u → adminQueue u cq.toNat = true →
      nsCheck u e.desc = 0 → bit (leWord e.desc 0x10) 16 = true → n = { Ns.empty with conf := slice e.desc 0x10 40 } → r = nsResults u n →
      exec (.nsConfig cq) s = .next (finish 0 cq.toNat e.idx false 0 (BitVec.ofNat 32 (r.1 + 65536 * b2n r.2)) none
        (putNs (lef e.desc 0x10 0 16) { n with state := .online, cmpwMax := BitVec.ofNat 16 r.1, trimZeroes := r.2 } u))) ∧
  (∀ (cq : BitVec 20) (e : Entry) (s u : State), NextIs s 0 cq.toNat 0xC8 e u → adminQueue u cq.toNat = false →
      exec (.nsConfig cq) s = .next (finish 0 cq.toNat e.idx true 0x0121 0 none u)) ∧
  (∀ (cq : BitVec 20) (e : Entry) (i lg : Nat) (s u : State), NextIs s 0 cq.toNat 0xC9 e u → adminQueue u cq.toNat = true →
      i = lef e.desc 0x10 0 10 → lg = lef e.desc 0x18 0 5 → i < instCount u 2 → (lg = 0 ∨ (4 ≤ lg ∧ lg ≤ 16)) →
      exec (.stElogConfig cq) s = .next (finish 0 cq.toNat e.idx false 0 0 none
        (putElog i { sizeLog2 := BitVec.ofNat 5 lg, base := leWord e.desc 0x18, nextSeq := 1 } u))) ∧
  (∀ (cq : BitVec 20) (e : Entry) (fns k : Nat) (tg : Bool) (s u : State), NextIs s 0 cq.toNat 0xCA e u → adminQueue u cq.toNat = true →
      fns = lef e.desc 0x10 0 16 → tg = bit (leWord e.desc 0x10) 17 → bit (leWord e.desc 0x10) 16 = false →
      rebuildCheck u e.desc = 0 → rebuildSlot u = some k → exec (.nsRebuild cq) s = .next (finish 0 cq.toNat e.idx false 0 0 none
        (putRebuild k { fns := BitVec.ofNat 16 fns, target := tg, next := 0, rate := BitVec.ofNat 16 (max 1 (min 14000 (lef e.desc 0x20 0 16))), start := u.ticks }
          (putNs fns { rebuildMap (nsOf u fns) e.desc with state := .rebuilding } u)))) ∧
  (∀ (cq : BitVec 20) (e : Entry) (r : Rebuild) (fns : Nat) (s u : State), NextIs s 0 cq.toNat 0xCA e u → adminQueue u cq.toNat = true →
      fns = lef e.desc 0x10 0 16 → bit (leWord e.desc 0x10) 16 = true → (nsOf u fns).state = .rebuilding → rebuildOf u fns = some r →
      exec (.nsRebuild cq) s = .next (finish 0 cq.toNat e.idx false 0 0 none
        (endRebuild fns 0x0322 (putNsState fns (if r.target then .degradedB else .degradedA) u)))) ∧
  (∀ (k : Fin 8) (r : Rebuild) (x : ChunkResult) (s : State), tabFind s.st.rebuilds k.val = some r → chunkLock s r = false →
      exec (.rebuildChunk k x) s = .next s) ∧
  (∀ (k : Fin 8) (r : Rebuild) (n : Ns) (m : Nat) (d : Bytes) (s : State), tabFind s.st.rebuilds k.val = some r → chunkLock s r = true →
      n = nsOf s r.fns.toNat → m = r.next + min (2 ^ 20 / 2 ^ n.bshift) (n.size - r.next) →
      r.rate.toNat * (1024 * (s.ticks - r.start)) < m * 2 ^ n.bshift * 1000 → exec (.rebuildChunk k (.copied d)) s = .next s) ∧
  (∀ (k : Fin 8) (r : Rebuild) (n : Ns) (m : Nat) (d : Bytes) (s : State), tabFind s.st.rebuilds k.val = some r → chunkLock s r = true →
      n = nsOf s r.fns.toNat → m = r.next + min (2 ^ 20 / 2 ^ n.bshift) (n.size - r.next) → m < n.size →
      m * 2 ^ n.bshift * 1000 ≤ r.rate.toNat * (1024 * (s.ticks - r.start)) → exec (.rebuildChunk k (.copied d)) s =
        .next (putRebuild k.val { r with next := m } (chunkSend r r.target nvWrite d (chunkSend r (!r.target) nvRead [] s)))) ∧
  (∀ (k : Fin 8) (r : Rebuild) (s u : State), tabFind s.st.rebuilds k.val = some r → chunkLock s r = true →
      u = chunkSend r (!r.target) nvRead [] s → exec (.rebuildChunk k .sourceFailed) s = .next (endRebuild r.fns.toNat 0x0303
        (putNsState r.fns.toNat (if r.target then .degradedB else .degradedA) u))) ∧
  (∀ (k : Fin 8) (r : Rebuild) (d : Bytes) (s u : State), tabFind s.st.rebuilds k.val = some r → chunkLock s r = true →
      u = chunkSend r r.target nvWrite d (chunkSend r (!r.target) nvRead [] s) →
      exec (.rebuildChunk k (.targetFailed d)) s = .next (endRebuild r.fns.toNat 0x0303
        (putNsState r.fns.toNat (if r.target then .degradedB else .degradedA) u)))

/-! ### Media bays (16) -/

/-- Bay states (R454 to R463): power on, settle, link, INIT and READY in turn; the timeouts fail the bay with their
cause; power off is refused while data depends on the pack; presence, buttons, polls and thresholds. -/
def Obligations.Bays : Prop :=
  (∀ (b : Bay) (s : State), setupOpen s = true → s.life.stage = 3 → bayEnabled s b.val = true →
      ((bayOf s b.val).state = .off ∨ (bayOf s b.val).state = .failed) → exec (.bayPowerOn b) s = .next (linkBusy
        (emit (.bayPin b true false) (putBayState b.val .powering (putB (MB_BAY_A b.val) 0 true s))))) ∧
  (∀ (b : Bay) (s : State), setupOpen s = true → bayEnabled s b.val = false → exec (.bayPowerOn b) s = .next (linkBusy s) ∧
      exec (.bayPowerOff b true) s = .next (linkBusy s)) ∧
  (∀ (b : Bay) (s : State), setupOpen s = true → s.life.stage = 3 → bayEnabled s b.val = true → offRefused s b.val = true →
      exec (.bayPowerOff b false) s = .next (linkBusy (putB (MB_BAY_B b.val) 3 true s))) ∧
  (∀ (b : Bay) (s u : State), setupOpen s = true → s.life.stage = 3 → bayEnabled s b.val = true → offRefused s b.val = false →
      u = failOutstanding b.val (putB (MB_BAY_A b.val) 0 false s) → (bayOf u b.val).state = .ready →
      exec (.bayPowerOff b false) s = .next (linkBusy (putBayState b.val .stopping u))) ∧
  (∀ (b : Bay) (s : State), (bayOf s b.val).state = .powering → exec (.powerSettle b) s =
      .next (emit (.bayPin b true true) (putBayState b.val .training s))) ∧
  (∀ (b : Bay) (sp : BitVec 3) (wd : BitVec 4) (s : State), (bayOf s b.val).state = .training → exec (.bayLinkUp b sp wd) s =
      .next (putBay b.val { bayOf s b.val with state := .init, linkSpeed := sp, linkWidth := wd } s)) ∧
  (∀ (b : Bay) (s : State), ((bayOf s b.val).state = .training → exec (.bayTrainingTimeout b) s = .next (failBay b.val 1 s)) ∧
      ((bayOf s b.val).state = .init → exec (.bayReadyTimeout b) s = .next (failBay b.val 2 s)) ∧
      ((bayOf s b.val).state = .init → exec (.bayInitDone b none) s = .next (failBay b.val 5 s)) ∧
      ((bayOf s b.val).state = .stopping → exec (.shutdownComplete b) s = .next (stateEvent b.val .off (powerOff b.val .off s)))) ∧
  (∀ (b : Bay) (p : PackIdent) (s u : State), (bayOf s b.val).state = .init → p.ioQueues ≠ 0 → u = emit (.lifePoll b) (putIdentity b.val p s) →
      exec (.bayInitDone b (some p)) s = .next (stateEvent b.val .ready (loadLife b.val p.pct p.crit
        (putBay b.val { bayOf u b.val with state := .ready, ident := some p, pollDue := tickNs u + pollPeriod u } u)))) ∧
  (∀ (b : Bay) (c : Bool) (s : State), (bayOf s b.val).state = .ready → exec (.packFailure b c) s =
      .next (failBay b.val (if c then 3 else 4) (removePack b.val 0 (addErr (MB_BAY_REMOVALS b.val) 1 s)))) ∧
  (∀ (b : Bay) (s : State), (bayOf s b.val).state ≠ .ready → exec (.packFailure b true) s = .next s ∧ exec (.packFailure b false) s = .next s) ∧
  (∀ (b : Bay) (s : State), (bayOf s b.val).present = false → bayEnabled s b.val = true → s.life.stage ≠ 0 →
      exec (.presenceChange b true) s = .next (packSeated b.val s)) ∧
  (∀ (b : Bay) (s : State), (bayOf s b.val).present = true → bayEnabled s b.val = true → s.life.stage ≠ 0 →
      exec (.presenceChange b false) s = .next (packPulled b.val s)) ∧
  (∀ (b : Bay) (p : Bool) (s : State), (bayOf s b.val).present = p → exec (.presenceChange b p) s = .next s) ∧
  (∀ (b : Bay) (s : State), bayEnabled s b.val = true → s.life.stage ≠ 0 → exec (.attentionButton b) s =
      .next (bayEvent 0x71 0 b.val 0 0 (putB (MB_BAY_B b.val) 2 true s))) ∧
  (∀ s : State, s.life.hkLoaded = false → exec .lifePoll s = .next s) ∧
  (∀ (b : Bay) (s : State), tabSorted none s.st.bays = true → s.life.hkLoaded = true → (bayOf s b.val).state = .ready →
      (bayOf s b.val).pollDue < 1024 * (s.ticks + 1) → ∃ t, exec .lifePoll s = .next t ∧ (bayOf t b.val).polling = true ∧
        (bayOf t b.val).pollDue = (bayOf s b.val).pollDue + pollPeriod s) ∧
  (∀ s : State, (∀ b < 4, pollIsDue s b = false) → exec .lifePoll s = .next s) ∧
  (∀ (b : Bay) (ok : Bool) (x y : BitVec 8) (s u : State), (bayOf s b.val).polling = true → (bayOf s b.val).state = .ready →
      u = putBay b.val { bayOf s b.val with polling := false } s → exec (.pollAnswer b ok x y) s =
        .next (if ok then loadLife b.val x y u else addErr (MB_BAY_POLL_ERRORS b.val) 1 u)) ∧
  (∀ (b : Bay) (w r : BitVec 8) (s : State), setupOpen s = true → bayEnabled s b.val = true → exec (.lifeThresholdWrite b w r) s =
      .next (linkBusy (evalLife b.val (putF (MB_BAY_C b.val) 16 16 (w.toNat + 256 * r.toNat) s)))) ∧
  (∀ (b : Nat) (st : BayState) (s : State), tabSorted none s.st.bays = true → (bayOf (putBayState b st s) b) = { bayOf s b with state := st })

/-! ### Commit groups and the journal (17) -/

/-- The commit point, discards and the unit's control register (R477, R479, R494, R499): a group that is not ready
stays; one that is enters its token, ends its members and commits, or, where its staged data cannot be read, aborts (a
device fault with storage members: R506); an aborted record is discarded, another is not; the
unit is disabled only with no group in use and the journal CLOSED. The journal (R486 to R490): a closed group with
storage members, all staged and granted, submits its record when the log has room; a record whose home writes are
durable is retired; opening and closing complete with the status of the check that fails, and closing waits for what
storage holds. -/
def Obligations.CommitGroups : Prop :=
  (∀ (g : BitVec 16) (err : CgErr) (s : State), cgOf s g.toNat = none → exec (.commitPoint (g, err)) s = .next s) ∧
  (∀ (g : BitVec 16) (x : Group) (err : CgErr) (s : State), cgOf s g.toNat = some x → commitReady s g.toNat x = false →
      exec (.commitPoint (g, err)) s = .next s) ∧
  (∀ (g : BitVec 16) (x : Group) (s : State), cgOf s g.toNat = some x → commitReady s g.toNat x = true → exec (.commitPoint (g, .bad)) s =
      .next (if x.reissue = false ∧ holdsStorage x = true then deviceFault 8 blkCG (freeNow s).toNat (useFree s) else abortGroup g.toNat [] 0x0502 s)) ∧
  (∀ (g : BitVec 16) (x : Group) (u v s : State), cgOf s g.toNat = some x → commitReady s g.toNat x = true → x.reissue = false →
      groupPls s g.toNat = [] → (∀ y ∈ s.tab.shadows, y.group ≠ some g.toNat) → u = addToken x.domain x.token s →
      v = x.members.foldl (fun s m => match m.entry with | none => s | some (fn, fq, idx) => setPhase fn.toNat fq.toNat idx .past s) u →
      exec (.commitPoint (g, .good)) s = .next (advanceGroup g.toNat (addStat CG_COMMITS 1 (putCg g.toNat { x with state := .committing, flips := [] } v)))) ∧
  (∀ (d : Nat) (t : Word) (s : State), tabSorted none s.cg.tokens = true → (tokenRing (addToken d t s) d).head? = some t ∧
      (tokenRing (addToken d t s) d).length ≤ 65536) ∧
  (∀ (cq : BitVec 20) (e : Entry) (s u : State), NextIs s 0 cq.toNat 0xEA e u → adminQueue u cq.toNat = true →
      groupSlot u (lef e.desc 0x10 0 13) (leWord e.desc 0x18) = none → exec (.cgDiscard cq) s =
        .next (finish 0 cq.toNat e.idx false 0x050D 0 none u)) ∧
  (∀ (cq : BitVec 20) (e : Entry) (g : Nat) (x : Group) (s u : State), NextIs s 0 cq.toNat 0xEA e u → adminQueue u cq.toNat = true →
      groupSlot u (lef e.desc 0x10 0 13) (leWord e.desc 0x18) = some (g, x) → x.state ≠ .aborted → exec (.cgDiscard cq) s =
        .next (finish 0 cq.toNat e.idx true 0x050C 0 none u)) ∧
  (∀ (cq : BitVec 20) (e : Entry) (g : Nat) (x : Group) (s u : State), NextIs s 0 cq.toNat 0xEA e u → adminQueue u cq.toNat = true →
      groupSlot u (lef e.desc 0x10 0 13) (leWord e.desc 0x18) = some (g, x) → x.state = .aborted → x.core = none → x.cancelling = none →
      exec (.cgDiscard cq) s = .next (finish 0 cq.toNat e.idx false 0 0 none (freeCg g u))) ∧
  (∀ (v : BitVec 64) (s : State), setupOpen s = true → tabSorted none s.regs = true → rb s CG_CTRL 0 = true → bit v 0 = false →
      (s.cg.groups ≠ [] ∨ s.cg.jstate ≠ .closed) → ∃ t, exec (.cgCtrlWrite v) s = .next t ∧ rb t CG_CTRL 0 = true ∧ rb t CG_CTRL 28 = true) ∧
  (∀ (v : BitVec 64) (s : State), setupOpen s = true → tabSorted none s.regs = true → rb s CG_CTRL 0 = false → fld v 8 5 ≤ 26 →
      ∃ t, exec (.cgCtrlWrite v) s = .next t ∧ rb t CG_CTRL 0 = bit v 0 ∧ rf t CG_CTRL 8 5 = fld v 8 5 ∧ rf t CG_CTRL 16 12 = fld v 16 12) ∧
  (∀ (g : BitVec 16) (x : Group) (s u : State), cgOf s g.toNat = some x → x.state = .closed → x.reissue = false → holdsStorage x = true →
      s.cg.jstate = .opened → (∀ m ∈ x.members, m.staged = true) →
      (∀ c ∈ groupCmds x, ∃ y, cmdOf s c = some y ∧ y.granted = true) → logRoom s (groupRecord s x).length = true →
      u = putCg g.toNat { x with state := .journal, seq := some s.cg.nextSeq } s → exec (.journalSubmit g) s = .next
        (appendLog (groupRecord s x) (.record g.toNat) { seq := s.cg.nextSeq, slot := g.toNat, domain := x.domain, token := x.token, home := groupCmds x, cmds := groupCmds x, bytes := 0, lost := false, retired := false } u)) ∧
  (∀ (g : BitVec 16) (x : Group) (s : State), cgOf s g.toNat = some x → x.state ≠ .closed → exec (.journalSubmit g) s = .next s) ∧
  (∀ (g : BitVec 16) (r : JRecord) (s : State), s.cg.records.find? (fun r => r.slot == g.toNat && liveRecord r && r.home.isEmpty && !r.lost && !retiring s r.seq) = some r →
      s.cg.jstate = .opened → logRoom s 4096 = true → exec (.retireAppend g) s = .next
        (appendLog (namingEntry 2 s.cg.nextSeq.toNat [r.seq]) (.retire g.toNat r.seq) (namingRecord s.cg.nextSeq) s)) ∧
  (∀ (g : BitVec 16) (s : State), s.cg.records = [] → exec (.retireAppend g) s = .next s) ∧
  (∀ (cq : BitVec 20) (m : JournalMedia) (e : Entry) (s u : State), NextIs s 0 cq.toNat 0xE8 e u → adminQueue u cq.toNat = true →
      journalCheck u e.desc m ≠ 0 → exec (.journalOpen cq m) s = .next (finish 0 cq.toNat e.idx true (journalCheck u e.desc m) 0 none u)) ∧
  (∀ (cq : BitVec 20) (m : JournalMedia) (e : Entry) (s u : State), NextIs s 0 cq.toNat 0xE8 e u → adminQueue u cq.toNat = true →
      journalCheck u e.desc m = 0 → exec (.journalOpen cq m) s = .next (openJournal cq.toNat e m u)) ∧
  (∀ (cq : Nat) (e : Entry) (m : JournalMedia) (s : State), (openJournal cq e m s).cg.jstate = .opened) ∧
  (∀ (cq : BitVec 20) (e : Entry) (s u : State), s.cg.closing = none → NextIs s 0 cq.toNat 0xE9 e u → adminQueue u cq.toNat = true →
      u.cg.jstate ≠ .opened → exec (.journalClose cq) s = .next (finish 0 cq.toNat e.idx true 0x0509 0 none u)) ∧
  (∀ (cq : BitVec 20) (e : Entry) (s u v : State), s.cg.closing = none → NextIs s 0 cq.toNat 0xE9 e u → adminQueue u cq.toNat = true →
      u.cg.jstate = .opened → v = { u with cg := { u.cg with jstate := .closing, closing := some (cq, e.idx) } } →
      exec (.journalClose cq) s = .next (tryClose (setPhase 0 cq.toNat e.idx .started v))) ∧
  (∀ s : State, s.cg.jstate = .closing → (∃ r ∈ s.cg.records, liveRecord r = true) → tryClose s = s)

/-! ### Statements of single rules -/

/-- Stages advance only in the order 0, 1, 2, 3, every return leads to stage 0 or stage 1, and the device never moves
from stage 3 back to stage 2 (R35): over every step of every state. -/
def Obligations.StagesInOrder : Prop :=
  ∀ s t : State, step s = .next t → t.life.stage = s.life.stage ∨ t.life.stage.val = s.life.stage.val + 1 ∨ t.life.stage.val ≤ 1

/-- A DL_Down of the host link acts as a hot reset (R95): in every state both have the one effect, and outside stage 0
it is the return to stage 1 with reset cause 3, the fuses kept. -/
def Obligations.DlDownActsAsHotReset : Prop :=
  (∀ s : State, exec .dlDown s = exec .hotReset s) ∧
  (∀ s : State, s.life.stage ≠ 0 → ∃ t, exec .dlDown s = .next t ∧ t.life.stage = 1 ∧ t.life.resetCause = 3 ∧ t.cleared ∧
      t.life.fuses = s.life.fuses)

/-- While Memory Space Enable is 0 in a function, the function drops writes to its BARs and completes reads with
Unsupported Request (R84): register writes, hints and accesses of a wrong shape in BAR0, reads of BAR0 and BAR2, peer accesses in
BAR4, and the writes of setup space that have a command of their own. A dropped write only restarts the link's idle time. -/
def Obligations.MemorySpaceOff : Prop :=
  (∀ (fn : Fn) (off : BitVec 26) (four : Bool) (v : BitVec 64) (s : State), (cfgOf s fn.val).memSpace = false →
      exec (.registerWrite fn off four v) s = .next s ∨ exec (.registerWrite fn off four v) s = .next (linkBusy s)) ∧
  (∀ (fn : Fn) (p : BitVec 10) (c : BitVec 64) (n : Nat) (full : Bool) (s : State), (cfgOf s fn.val).memSpace = false →
      exec (.hint fn p c n full) s = .next (tlpDropped s)) ∧
  (∀ (fn : Fn) (off : BitVec 26) (s : State), (cfgOf s fn.val).memSpace = false → linkUp s = true → fnPresent s fn.val = true →
      exec (.badShapeAccess fn off .write) s = .next (linkBusy s)) ∧
  (∀ (fn : Fn) (off : BitVec 26) (len : BitVec 13) (s : State), (cfgOf s fn.val).memSpace = false → linkUp s = true →
      fnPresent s fn.val = true →
      exec (.badShapeAccess fn off (.read0 len)) s = .next (linkBusy (emit (.readUnsupported fn) s)) ∧
      exec (.badShapeAccess fn off (.read2 len)) s = .next (linkBusy (emit (.readUnsupported fn) s))) ∧
  (∀ (off : BitVec 30) (d : Bytes) (x : TlpErr) (s : State), (cfgOf s 3).memSpace = false → ∃ t, exec (.peerWrite off d x) s = .next t ∧
      t.regs = s.regs ∧ t.dram = s.dram ∧ t.plant = s.plant) ∧
  (∀ (off : BitVec 30) (s : State), (cfgOf s 3).memSpace = false → linkUp s = true →
      exec (.peerRead off) s = .next (linkBusy (emit (.readUnsupported 3) s))) ∧
  (∀ (f : State → State) (s : State), (cfgOf s 0).memSpace = false → setupWrite s f = tlpDropped s) ∧
  (∀ s : State, (linkUp s = true → tlpDropped s = linkBusy s) ∧ (linkUp s = false → tlpDropped s = s))

/-- Protection fuses are sensed as the bitwise majority of their three copies; each bit on which the copies disagree
adds one to FS_SENSE_DISAGREE and is a correctable fault (R50). -/
def Obligations.FuseSensing : Prop :=
  (∀ s : State, s.life.stage = 1 → s.life.fusesSensed = false → tabSorted none s.regs = true → ∃ t,
      exec .fuseSenseDone s = .next t ∧ t.life.sensed = protMajority s.life.fuses ∧
      rf t FS_SENSE_DISAGREE 0 32 = min 0xFFFFFFFF (rf s FS_SENSE_DISAGREE 0 32 + fuseDisagree s.life.fuses) ∧
      (cfgOf t 0).aerCorStatus = (cfgOf s 0).aerCorStatus ||| (if fuseDisagree s.life.fuses = 0 then 0 else aerCorBit .correctedInternal)) ∧
  (∀ (n : Nat) (a b c : BitVec n) (i : Nat), (majority a b c).getLsbD i =
      ((a.getLsbD i && b.getLsbD i) || (a.getLsbD i && c.getLsbD i) || (b.getLsbD i && c.getLsbD i))) ∧
  (∀ (n : Nat) (a b c : BitVec n), disagree a b c =
      ((List.range n).filter (fun i => !(a.getLsbD i == b.getLsbD i && a.getLsbD i == c.getLsbD i))).length) ∧
  (∀ f : Fuses, (protMajority f).setup = majority f.copyA.setup f.copyB.setup f.copyC.setup ∧
      (protMajority f).arb = majority f.copyA.arb f.copyB.arb f.copyC.arb ∧
      (protMajority f).key0 = majority f.copyA.key0 f.copyB.key0 f.copyC.key0 ∧ (protMajority f).key1 = majority f.copyA.key1 f.copyB.key1 f.copyC.key1 ∧
      (protMajority f).key2 = majority f.copyA.key2 f.copyB.key2 f.copyC.key2 ∧ (protMajority f).key3 = majority f.copyA.key3 f.copyB.key3 f.copyC.key3)

/-- HL_L1_CTRL (R108): l1_idle is 8 after stage 1, a write sets it and nothing else of the register, and the link
requests L1 once no TLP has crossed it for that many Clove ticks, 0 acting as 1. -/
def Obligations.L1IdleTime : Prop :=
  fld (regDefault HL_L1_CTRL) 0 16 = 8 ∧
  (∀ (v : BitVec 64) (s : State), setupOpen s = true → tabSorted none s.regs = true → ∃ t,
      exec (.registerWrite 0 (BitVec.ofNat 26 HL_L1_CTRL) false v) s = .next t ∧ rf t HL_L1_CTRL 0 16 = fld v 0 16 ∧
      rf t HL_L1_CTRL 16 48 = rf s HL_L1_CTRL 16 48 ∧ ∀ o, o ≠ HL_L1_CTRL → getReg t o = getReg s o) ∧
  (∀ s : State, l1Idle s = if rf s HL_L1_CTRL 0 16 = 0 then 1 else rf s HL_L1_CTRL 0 16) ∧
  (∀ s : State, s.link.idleTicks < l1Idle s → exec .l1Entry s = .next s)

/-! ### The invariant -/

/-- The machine after reset is legal: its memories and its register table are in canonical form, and its stage agrees
with its supplies and start steps. -/
def Obligations.ResetLegal : Prop := State.reset.legal

/-- Every step keeps a legal state legal: each memory and the register table stay in canonical form, nothing runs
without VDD_AON (R34), PERST# holds stage 0 (R65), and stages 2 and 3 have stage1_done 1 and bist_fail 0 (R37). -/
def Obligations.StepKeepsLegal : Prop := ∀ s t : State, s.legal → step s = .next t → t.legal
end

