-- ==== Sys2Proof/Laws/Memory.lean ====
section
/-! SUPPORT. Laws of the sparse tables and byte memories: read after write, writes elsewhere, the canonical form. -/
set_option Elab.async false
namespace Sys2Proof.Machine

variable {α : Type}

/-! ### The keys of a sorted table lie above its lower bound -/

theorem tabSorted_some_of_none {t : Tab α} {lo : Nat} (h : tabSorted (some lo) t = true) : tabSorted none t = true := by
  cases t with
  | nil => rfl
  | cons e t => obtain ⟨k, v⟩ := e; simp [tabSorted] at h ⊢; exact h.2

theorem tabSorted_weaken {t : Tab α} {a b : Nat} (hab : a ≤ b) (h : tabSorted (some b) t = true) :
    tabSorted (some a) t = true := by
  cases t with
  | nil => rfl
  | cons e t => obtain ⟨k, v⟩ := e; simp [tabSorted] at h ⊢; exact ⟨by omega, h.2⟩

/-- A key at or below the bound is not listed. -/
theorem tabFind_below {t : Tab α} {lo n : Nat} (h : tabSorted (some lo) t = true) (hn : n ≤ lo) : tabFind t n = none := by
  cases t with
  | nil => rfl
  | cons e t =>
    obtain ⟨k, v⟩ := e
    simp [tabSorted] at h
    have h1 : n ≠ k := by omega
    have h2 : n < k := by omega
    simp [tabFind, h1, h2]

/-! ### Read after write -/

theorem tabFind_insert_same (t : Tab α) (n : Nat) (x : α) : tabFind (tabInsert t n x) n = some x := by
  induction t with
  | nil => simp [tabInsert, tabFind]
  | cons e t ih =>
    obtain ⟨k, v⟩ := e
    by_cases h1 : n = k
    · simp [tabInsert, tabFind, h1]
    · by_cases h2 : n < k
      · simp [tabInsert, tabFind, h1, h2]
      · simp [tabInsert, tabFind, h1, h2, ih]

theorem tabFind_insert_other (t : Tab α) {n m : Nat} (x : α) (h : m ≠ n) : tabFind (tabInsert t n x) m = tabFind t m := by
  induction t with
  | nil =>
    by_cases hm : m < n <;> simp [tabInsert, tabFind, h]
  | cons e t ih =>
    obtain ⟨k, v⟩ := e
    by_cases h1 : n = k
    · subst h1; simp [tabInsert, tabFind, h]
    · by_cases h2 : n < k
      · by_cases h3 : m < n
        · have h4 : m ≠ k := by omega
          have h5 : m < k := by omega
          simp [tabInsert, tabFind, h, h1, h2, h3, h4, h5]
        · simp [tabInsert, tabFind, h, h1, h2, h3]
      · simp only [tabInsert, if_neg h1, if_neg h2, tabFind, ih]

theorem tabFind_erase_same {t : Tab α} {n : Nat} (hs : tabSorted none t = true) : tabFind (tabErase t n) n = none := by
  induction t with
  | nil => rfl
  | cons e t ih =>
    obtain ⟨k, v⟩ := e
    simp [tabSorted] at hs
    by_cases h1 : n = k
    · subst h1; simp [tabErase]; exact tabFind_below hs (Nat.le_refl _)
    · by_cases h2 : n < k
      · simp [tabErase, tabFind, h1, h2]
      · simp only [tabErase, if_neg h1, if_neg h2, tabFind]
        exact ih (tabSorted_some_of_none hs)

theorem tabFind_erase_other {t : Tab α} {n m : Nat} (hs : tabSorted none t = true) (h : m ≠ n) :
    tabFind (tabErase t n) m = tabFind t m := by
  induction t with
  | nil => rfl
  | cons e t ih =>
    obtain ⟨k, v⟩ := e
    simp [tabSorted] at hs
    by_cases h1 : n = k
    · subst h1
      simp only [tabErase, if_true, tabFind, if_neg h]
      by_cases h3 : m < n
      · rw [if_pos h3]; exact tabFind_below hs (by omega)
      · rw [if_neg h3]
    · by_cases h2 : n < k
      · simp only [tabErase, if_neg h1, if_pos h2]
      · simp only [tabErase, if_neg h1, if_neg h2, tabFind]
        rw [ih (tabSorted_some_of_none hs)]

variable [DecidableEq α]

/-- Reading an entry just written gives it. -/
theorem tabGet_set_same {d : Nat → α} {t : Tab α} (hs : tabSorted none t = true) (n : Nat) (x : α) :
    tabGet d (tabSet d t n x) n = x := by
  unfold tabGet tabSet
  split
  · rename_i h; rw [tabFind_erase_same hs]; simp [h]
  · rw [tabFind_insert_same]; rfl

/-- Reading an entry just written with anything but what an unlisted key reads as gives it, sorted or not. -/
theorem tabGet_set_ne {d : Nat → α} (t : Tab α) (n : Nat) {x : α} (hx : x ≠ d n) : tabGet d (tabSet d t n x) n = x := by
  unfold tabGet tabSet
  rw [if_neg hx, tabFind_insert_same]; rfl

/-- Writing an entry leaves every other. -/
theorem tabGet_set_other {d : Nat → α} {t : Tab α} (hs : tabSorted none t = true) {n m : Nat} (x : α) (h : m ≠ n) :
    tabGet d (tabSet d t n x) m = tabGet d t m := by
  unfold tabGet tabSet
  split
  · rw [tabFind_erase_other hs h]
  · rw [tabFind_insert_other t x h]

/-! ### The canonical form -/

omit [DecidableEq α] in
theorem tabSorted_insert {lo : Option Nat} {t : Tab α} (hs : tabSorted lo t = true) {n : Nat} (x : α)
    (hn : ∀ l, lo = some l → l < n) : tabSorted lo (tabInsert t n x) = true := by
  induction t generalizing lo with
  | nil => cases lo <;> simp [tabInsert, tabSorted, hn]
  | cons e t ih =>
    obtain ⟨k, v⟩ := e
    have hk : tabSorted (some k) t = true := by cases lo <;> simp [tabSorted] at hs <;> tauto
    have hlo : ∀ l, lo = some l → l < k := by
      intro l hl; subst hl; simp [tabSorted] at hs; exact hs.1
    by_cases h1 : n = k
    · subst h1
      cases lo <;> simp [tabInsert, tabSorted, hk, hlo]
    · by_cases h2 : n < k
      · cases lo <;> simp [tabInsert, tabSorted, hk, h1, h2, hn]
      · have := ih hk (by intro l hl; injection hl with hl; omega)
        cases lo <;> simp [tabInsert, tabSorted, h1, h2, this, hlo]

omit [DecidableEq α] in
theorem tabSorted_erase {lo : Option Nat} {t : Tab α} (hs : tabSorted lo t = true) (n : Nat) :
    tabSorted lo (tabErase t n) = true := by
  induction t generalizing lo with
  | nil => cases lo <;> rfl
  | cons e t ih =>
    obtain ⟨k, v⟩ := e
    have hk : tabSorted (some k) t = true := by cases lo <;> simp [tabSorted] at hs <;> tauto
    have hlo : ∀ l, lo = some l → l < k := by
      intro l hl; subst hl; simp [tabSorted] at hs; exact hs.1
    by_cases h1 : n = k
    · subst h1
      simp only [tabErase, if_true]
      cases lo with
      | none => exact tabSorted_some_of_none hk
      | some l => exact tabSorted_weaken (Nat.le_of_lt (hlo l rfl)) hk
    · by_cases h2 : n < k
      · simpa [tabErase, h1, h2] using hs
      · have := ih hk
        cases lo <;> simp [tabErase, tabSorted, h1, h2, this, hlo]

omit [DecidableEq α] in
theorem mem_tabErase {t : Tab α} {n : Nat} {e : Nat × α} (h : e ∈ tabErase t n) : e ∈ t := by
  induction t with
  | nil => exact h
  | cons a t ih =>
    obtain ⟨k, v⟩ := a
    unfold tabErase at h
    split at h
    · exact List.mem_cons_of_mem _ h
    · split at h
      · exact h
      · rcases List.mem_cons.mp h with h | h
        · exact h ▸ List.mem_cons_self
        · exact List.mem_cons_of_mem _ (ih h)

omit [DecidableEq α] in
theorem mem_tabInsert {t : Tab α} {n : Nat} {x : α} {e : Nat × α} (h : e ∈ tabInsert t n x) : e = (n, x) ∨ e ∈ t := by
  induction t with
  | nil => simpa [tabInsert] using h
  | cons a t ih =>
    obtain ⟨k, v⟩ := a
    unfold tabInsert at h
    split at h
    · rcases List.mem_cons.mp h with h | h
      · exact .inl h
      · exact .inr (List.mem_cons_of_mem _ h)
    · split at h
      · rcases List.mem_cons.mp h with h | h
        · exact .inl h
        · exact .inr h
      · rcases List.mem_cons.mp h with h | h
        · exact .inr (h ▸ List.mem_cons_self)
        · rcases ih h with h | h
          · exact .inl h
          · exact .inr (List.mem_cons_of_mem _ h)

/-- Every write keeps the canonical form. -/
theorem tabWf_set {d : Nat → α} {t : Tab α} (h : tabWf d t = true) (n : Nat) (x : α) : tabWf d (tabSet d t n x) = true := by
  simp only [tabWf, Bool.and_eq_true, List.all_eq_true] at h ⊢
  unfold tabSet
  split
  · exact ⟨tabSorted_erase h.1 n, fun e he => h.2 e (mem_tabErase he)⟩
  · rename_i hx
    refine ⟨tabSorted_insert h.1 x (by simp), fun e he => ?_⟩
    rcases mem_tabInsert he with he | he
    · subst he; simpa using hx
    · exact h.2 e he

/-- A table in canonical form is sorted. -/
theorem tabWf_sorted {d : Nat → α} {t : Tab α} (h : tabWf d t = true) : tabSorted none t = true := by
  simp only [tabWf, Bool.and_eq_true] at h
  exact h.1

/-! ### Memories -/

theorem memByte_set_same {m : Memory} (h : Memory.wf m = true) (a : Nat) (b : BitVec 8) :
    memByte (memSetByte m a b) a = b := tabGet_set_same (tabWf_sorted h) a b

theorem memByte_set_other {m : Memory} (h : Memory.wf m = true) {a c : Nat} (b : BitVec 8) (hc : c ≠ a) :
    memByte (memSetByte m a b) c = memByte m c := tabGet_set_other (tabWf_sorted h) b hc

theorem memSetByte_wf {m : Memory} (h : Memory.wf m = true) (a : Nat) (b : BitVec 8) :
    Memory.wf (memSetByte m a b) = true := tabWf_set h a b

theorem memWrite_wf {m : Memory} (h : Memory.wf m = true) (a : Nat) (bs : Bytes) : Memory.wf (memWrite m a bs) = true := by
  induction bs generalizing m a with
  | nil => exact h
  | cons b bs ih => exact ih (memSetByte_wf h a b) (a + 1)

/-- A write leaves every byte outside the written run. -/
theorem memByte_write_other {m : Memory} (h : Memory.wf m = true) (a : Nat) (bs : Bytes) {c : Nat}
    (hc : c < a ∨ a + bs.length ≤ c) : memByte (memWrite m a bs) c = memByte m c := by
  induction bs generalizing m a with
  | nil => rfl
  | cons b bs ih =>
    simp only [List.length_cons] at hc
    rw [memWrite, ih (memSetByte_wf h a b) (a + 1) (by omega), memByte_set_other h b (by omega)]

/-- Reading a run just written gives it. -/
theorem memRead_write_same {m : Memory} (h : Memory.wf m = true) (a : Nat) (bs : Bytes) :
    memRead (memWrite m a bs) a bs.length = bs := by
  induction bs generalizing m a with
  | nil => rfl
  | cons b bs ih =>
    simp only [memWrite, List.length_cons, memRead]
    rw [ih (memSetByte_wf h a b) (a + 1), memByte_write_other (memSetByte_wf h a b) (a + 1) bs (.inl (by omega)),
      memByte_set_same h]

/-! ### Registers -/

theorem getReg_put_same {s : State} (h : tabSorted none s.regs = true) (off : Nat) (v : Word) :
    getReg (putReg off v s) off = v := tabGet_set_same h off v

theorem getReg_put_other {s : State} (h : tabSorted none s.regs = true) {off o : Nat} (v : Word) (ho : o ≠ off) :
    getReg (putReg off v s) o = getReg s o := tabGet_set_other h v ho

end Sys2Proof.Machine
end

