-- ==== Sys2Proof/Laws/Bits.lean ====
section
/-! SUPPORT. What a set field or bit reads as, in a word and in a register. -/
set_option Elab.async false
namespace Sys2Proof.Machine

/-- Bit `i` of a word with a field set: the field's bit inside it, the old bit outside. -/
theorem bit_setFld {w : Word} {lo len v i : Nat} (h : lo + len ≤ 64) :
    bit (setFld w lo len v) i = if lo ≤ i ∧ i < lo + len then v.testBit (i - lo) else bit w i := by
  simp only [bit, setFld, mask, BitVec.getLsbD_or, BitVec.getLsbD_and, BitVec.getLsbD_not, BitVec.getLsbD_ofNat,
    Nat.testBit_mul_two_pow, Nat.testBit_two_pow_sub_one, Nat.testBit_mod_two_pow]
  by_cases hi : i < 64
  · by_cases h1 : lo ≤ i
    · by_cases h2 : i < lo + len
      · simp [hi, h1, h2, show i - lo < len by omega]
      · simp [hi, h1, h2, show ¬ i - lo < len by omega]
    · simp [hi, h1]
  · have : w.getLsbD i = false := BitVec.getLsbD_of_ge w i (by omega)
    simp only [this, hi]
    rw [if_neg (by omega)]; simp

/-- Bits of a field. -/
theorem testBit_fld (w : Word) (lo len i : Nat) : (fld w lo len).testBit i = (decide (i < len) && bit w (lo + i)) := by
  simp [fld, bit, Nat.testBit_mod_two_pow, Nat.testBit_shiftRight, BitVec.getLsbD]

/-- A field that was set reads as its value. -/
theorem fld_setFld_same {w : Word} {lo len v : Nat} (h : lo + len ≤ 64) : fld (setFld w lo len v) lo len = v % 2 ^ len := by
  apply Nat.eq_of_testBit_eq; intro i
  rw [testBit_fld, bit_setFld h, Nat.testBit_mod_two_pow]
  by_cases hi : i < len <;> simp [hi]

/-- A field apart from one that was set reads as before. -/
theorem fld_setFld_other {w : Word} {lo len v a n : Nat} (h : lo + len ≤ 64) (hd : a + n ≤ lo ∨ lo + len ≤ a) :
    fld (setFld w lo len v) a n = fld w a n := by
  apply Nat.eq_of_testBit_eq; intro i
  rw [testBit_fld, testBit_fld, bit_setFld h]
  by_cases hi : i < n
  · rw [if_neg (by omega)]
  · simp [hi]

/-- A bit that was set reads as its value. -/
theorem bit_setBit_same {w : Word} {i : Nat} {b : Bool} (h : i < 64) : bit (setBit w i b) i = b := by
  rw [setBit, bit_setFld (by omega), if_pos (by omega)]
  cases b <;> simp

/-- A bit apart from one that was set reads as before. -/
theorem bit_setBit_other {w : Word} {i j : Nat} {b : Bool} (h : i < 64) (hj : j ≠ i) : bit (setBit w i b) j = bit w j := by
  rw [setBit, bit_setFld (by omega), if_neg (by omega)]

/-- A field apart from a bit that was set reads as before. -/
theorem fld_setBit_other {w : Word} {i a n : Nat} {b : Bool} (h : i < 64) (hd : a + n ≤ i ∨ i + 1 ≤ a) :
    fld (setBit w i b) a n = fld w a n := fld_setFld_other (by omega) hd

/-- A register's field that was set reads as its value. -/
theorem rf_putF_same {s : State} (hs : tabSorted none s.regs = true) {o lo len v : Nat} (h : lo + len ≤ 64) :
    rf (putF o lo len v s) o lo len = v % 2 ^ len := by
  simp only [rf, putF, getReg_put_same hs, fld_setFld_same h]

/-- Other fields of the register read as before. -/
theorem rf_putF_field {s : State} (hs : tabSorted none s.regs = true) {o lo len v a n : Nat} (h : lo + len ≤ 64)
    (hd : a + n ≤ lo ∨ lo + len ≤ a) : rf (putF o lo len v s) o a n = rf s o a n := by
  simp only [rf, putF, getReg_put_same hs, fld_setFld_other h hd]

/-- Other registers read as before. -/
theorem rf_putF_other {s : State} (hs : tabSorted none s.regs = true) {o p lo len v a n : Nat} (h : p ≠ o) :
    rf (putF o lo len v s) p a n = rf s p a n := by simp only [rf, putF, getReg_put_other hs _ h]

/-- A bit of the register outside the field reads as before. -/
theorem rb_putF_field {s : State} (hs : tabSorted none s.regs = true) {o lo len v i : Nat} (h : lo + len ≤ 64)
    (hi : i < lo ∨ lo + len ≤ i) : rb (putF o lo len v s) o i = rb s o i := by
  simp only [rb, putF, getReg_put_same hs, bit_setFld h]; rw [if_neg (by omega)]

/-- A bit of another register reads as before. -/
theorem rb_putF_other {s : State} (hs : tabSorted none s.regs = true) {o p lo len v i : Nat} (h : p ≠ o) :
    rb (putF o lo len v s) p i = rb s p i := by simp only [rb, putF, getReg_put_other hs _ h]

/-- A register's bit that was set reads as its value. -/
theorem rb_putB_same {s : State} (hs : tabSorted none s.regs = true) {o i : Nat} {b : Bool} (h : i < 64) :
    rb (putB o i b s) o i = b := by simp only [rb, putB, getReg_put_same hs, bit_setBit_same h]

/-- Other bits of the register read as before. -/
theorem rb_putB_bit {s : State} (hs : tabSorted none s.regs = true) {o i j : Nat} {b : Bool} (h : i < 64) (hj : j ≠ i) :
    rb (putB o i b s) o j = rb s o j := by simp only [rb, putB, getReg_put_same hs, bit_setBit_other h hj]

/-- Other registers' bits read as before. -/
theorem rb_putB_other {s : State} (hs : tabSorted none s.regs = true) {o p i j : Nat} {b : Bool} (h : p ≠ o) :
    rb (putB o i b s) p j = rb s p j := by simp only [rb, putB, getReg_put_other hs _ h]

/-- A field apart from a bit that was set reads as before. -/
theorem rf_putB_field {s : State} (hs : tabSorted none s.regs = true) {o i a n : Nat} {b : Bool} (h : i < 64)
    (hd : a + n ≤ i ∨ i + 1 ≤ a) : rf (putB o i b s) o a n = rf s o a n := by
  simp only [rf, putB, getReg_put_same hs, fld_setBit_other h hd]

/-- A field of another register reads as before. -/
theorem rf_putB_other {s : State} (hs : tabSorted none s.regs = true) {o p i a n : Nat} {b : Bool} (h : p ≠ o) :
    rf (putB o i b s) p a n = rf s p a n := by simp only [rf, putB, getReg_put_other hs _ h]

/-- The registers stay in rising order. -/
theorem sorted_putReg {s : State} (hs : tabSorted none s.regs = true) (o : Nat) (v : Word) :
    tabSorted none (putReg o v s).regs = true := by
  simp only [putReg, tabSet]; split
  · exact tabSorted_erase hs o
  · exact tabSorted_insert hs v (by simp)

/-- The registers stay in rising order when a field is set. -/
theorem sorted_putF {s : State} (hs : tabSorted none s.regs = true) (o lo len v : Nat) :
    tabSorted none (putF o lo len v s).regs = true := sorted_putReg hs o _

/-- The registers stay in rising order when a bit is set. -/
theorem sorted_putB {s : State} (hs : tabSorted none s.regs = true) (o i : Nat) (b : Bool) :
    tabSorted none (putB o i b s).regs = true := sorted_putReg hs o _

end Sys2Proof.Machine
end

