-- ==== Sys2Proof/Laws/Flow.lean ====
section
/-! SUPPORT. What running one flow-core instruction or engine call does, and what its shared ends leave. -/
set_option Elab.async false
namespace Sys2Proof.Machine

/-- A ready instruction has its own effect, once a corrected code word is counted. -/
theorem fcRun_ready {s : State} {c t op w : Nat} {x : Thread} (h : FcReady s c t op w x) {err : FcErr} (he : err ≠ .codeEcc)
    (eff : Nat → Thread → State → State) : fcRun op c t err eff s = eff w x (fcCorrected err .bad s) := by
  obtain ⟨h1, h2, h3, h4, h5, h6, h7⟩ := h
  subst h2
  simp only [fcRun, h1, h3, h6, h7, Nat.not_le.mpr h4]
  rcases h5 with h5 | h5 | h5 <;> simp [h5, he]

/-- A ready call whose code word needed no correction has the effect of its body. -/
theorem xcall_ready {s : State} {c t call n w a : Nat} {b : Bytes} (h : CallReady s c t call n w a b) {err : FcErr}
    (he : err ≠ .codeEcc) (hm : err ≠ .memEcc) (hc : fcCorrected err .bad s = s) {size : Nat → Nat} (hn : size w = n) (body : Nat → Nat → Bytes → State → State) :
    xcall call size c t err body s = body w a b s := by
  obtain ⟨⟨x, hx, rfl⟩, h1, h2, rfl⟩ := h
  rw [xcall, fcRun_ready hx he, hc]
  simp only [hn, h1, Nat.not_lt.mpr h2, hm]
  simp

/-- A thread that was set reads as set. -/
theorem threadOf_put_same {s : State} (hs : tabSorted none s.fc.threads = true) (c t : Nat) (x : Thread) :
    threadOf (putThreadRaw c t x s) c t = x := tabGet_set_same hs _ _

/-- Setting a thread leaves every other. -/
theorem threadOf_put_other {s : State} (hs : tabSorted none s.fc.threads = true) {c t d u : Nat} (x : Thread)
    (h : 8 * d + u ≠ 8 * c + t) : threadOf (putThreadRaw c t x s) d u = threadOf s d u := tabGet_set_other hs _ h

/-- Restarting the count of a closed wait leaves the threads. -/
theorem requiet_threads (c : Nat) (s : State) : (requiet c s).fc.threads = s.fc.threads := by
  unfold requiet; split <;> rfl

theorem requiet_threadOf (c d u : Nat) (s : State) : threadOf (requiet c s) d u = threadOf s d u := by
  simp only [threadOf, requiet_threads]

theorem countRetired_threadOf (c d u : Nat) (s : State) : threadOf (countRetired c s) d u = threadOf s d u := by
  unfold countRetired; split <;> rfl

/-- The thread after an instruction that completes in its turn. -/
theorem completeTo_thread {s : State} (hs : tabSorted none s.fc.threads = true) (c t : Nat) (x : Thread) :
    threadOf (completeTo c t x s) c t =
      { x with state := if x.stepping then .stopped else .running, stepping := false, passBp := false } := by
  simp only [completeTo, countRetired_threadOf]
  show threadOf (putThread c t _ s) c t = _
  rw [putThread, requiet_threadOf, threadOf_put_same hs]

/-- The thread in a long stall. -/
theorem stall_thread {s : State} (hs : tabSorted none s.fc.threads = true) (c t : Nat) (w : Wait) (d : Bool) (o : List (Nat × Word)) :
    threadOf (stall c t w d o s) c t = { threadOf s c t with
      state := .stalled, wait := w, done := d, owed := o, stopReq := (threadOf s c t).stopReq || (threadOf s c t).stepping, stepping := false, passBp := false } := by
  rw [stall, putThread, requiet_threadOf, threadOf_put_same hs]

/-- Reading a register after writing one. -/
theorem getG_setG {x : Thread} {n m : Nat} (v : Word) (hx : x.regs.length = 15) (hn : n < 16) :
    getG (setG x n v) m = if m = n ∧ n ≠ 0 then v else getG x m := by
  unfold getG setG
  by_cases h0 : n = 0
  · simp [h0]
  · by_cases hm : m = 0
    · simp [hm, h0]; omega
    · by_cases hmn : m = n
      · subst hmn; simp [h0, show m - 1 < x.regs.length by omega]
      · simp only [h0, hm, if_false, List.getD_eq_getElem?_getD]
        rw [List.getElem?_set_ne (by omega)]; simp [hmn]

end Sys2Proof.Machine
end

