-- ==== Sys2Proof/Laws/Keeps.lean ====
section
/-! SUPPORT. What every operation of the block keeps and which parts of the state it may change, said once for all of them:
the relation `Keeps`, how it composes, and the operations that write a register or an addressed memory. -/
set_option Elab.async false
namespace Sys2Proof.Machine

/-- The place of a part in a mask of parts. -/
def Part.idx : Part → Nat
  | .freeCtr => 0
  | .ticks => 1
  | .regs => 2
  | .life => 3
  | .fuses => 4
  | .cfg => 5
  | .msix => 6
  | .link => 7
  | .queues => 8
  | .evqs => 9
  | .im => 10
  | .mon => 11
  | .clk => 12
  | .frames => 13
  | .pipe => 14
  | .tab => 15
  | .tm => 16
  | .plant => 17
  | .cx => 18
  | .threads => 19
  | .channels => 20
  | .code => 21
  | .slices => 22
  | .cluster => 23
  | .hkMem => 24
  | .st => 25
  | .bays => 26
  | .cg => 27
  | .dram => 28

/-- Every part of the mask `m` is one of the mask `M`. -/
def Within (m M : Nat) : Prop := m &&& M = m

theorem Within.sub {a b M : Nat} (h : Within b M) (d : a &&& b = a := by rfl) : Within a M := by
  unfold Within at *
  rw [← d, Nat.and_assoc, h]

theorem Within.bit {i M : Nat} (h : Within (2 ^ i) M) : M.testBit i = true := by
  unfold Within at h
  have := congrArg (·.testBit i) h
  simpa using this

theorem not_within {i M : Nat} (h : M.testBit i = false) : ¬ Within (2 ^ i) M := fun k => by
  rw [k.bit] at h; cases h

/-- The parts outside a mask are the same. -/
def sameBut (M : Nat) (s t : State) : Prop := s.out <:+ t.out ∧ ∀ p : Part, M.testBit p.idx = false → samePart s t p

theorem samePart.refl (s : State) (p : Part) : samePart s s p := by cases p <;> rfl

theorem samePart.trans {r s t : State} {p : Part} (h : samePart r s p) (k : samePart s t p) : samePart r t p := by
  cases p <;> simp only [samePart, Prod.mk.injEq] at * <;> first
    | exact k.trans h
    | exact ⟨k.1.trans h.1, k.2.trans h.2⟩
    | exact ⟨k.1.trans h.1, k.2.1.trans h.2.1, k.2.2.trans h.2.2⟩
    | exact ⟨k.1.trans h.1, k.2.1.trans h.2.1, k.2.2.1.trans h.2.2.1, k.2.2.2.trans h.2.2.2⟩
    | rw [← h, ← k]

theorem sameBut.refl (M : Nat) (s : State) : sameBut M s s := ⟨List.suffix_rfl, fun p _ => .refl s p⟩

theorem sameBut.trans {M : Nat} {r s t : State} (h : sameBut M r s) (k : sameBut M s t) : sameBut M r t :=
  ⟨h.1.trans k.1, fun p hp => (h.2 p hp).trans (k.2 p hp)⟩

/-- From `s` to `t` nothing but the commands' own work happened: the queue of commands and the identity fuses are as they
were, the stage is the same or the block returned to stage 0 or 1 (R35), a legal state stayed legal, and unless the block
is left in stage 0 or 1, only the parts of `M` changed. -/
structure Keeps (M : Nat) (s t : State) : Prop where
  pending : t.pending = s.pending
  identity : t.life.fuses.identity = s.life.fuses.identity
  stage : t.life.stage = s.life.stage ∨ t.life.stage.val ≤ 1
  legal : s.legal → t.legal
  frame : t.life.stage.val ≤ 1 ∨ sameBut M s t

theorem Keeps.refl (M : Nat) (s : State) : Keeps M s s := ⟨rfl, rfl, .inl rfl, id, .inr (.refl M s)⟩

theorem Keeps.trans {M : Nat} {r s t : State} (h : Keeps M r s) (k : Keeps M s t) : Keeps M r t :=
  ⟨k.pending.trans h.pending, k.identity.trans h.identity,
   k.stage.elim (fun e => h.stage.elim (fun f => .inl (e.trans f)) (fun f => .inr (by rw [e]; exact f))) .inr,
   fun l => k.legal (h.legal l),
   k.frame.elim .inl fun b => k.stage.elim (fun e => h.frame.elim (fun f => .inl (by rw [e]; exact f)) fun a => .inr (a.trans b)) .inl⟩

/-- A return to stage 0 or 1. -/
theorem Keeps.low {M : Nat} {r s t : State} (h : Keeps M r s) (h1 : t.pending = s.pending)
    (h2 : t.life.fuses.identity = s.life.fuses.identity) (h3 : t.life.stage.val ≤ 1) (h4 : s.legal → t.legal) : Keeps M r t :=
  ⟨h1.trans h.pending, h2.trans h.identity, .inr h3, fun l => h4 (h.legal l), .inl h3⟩

/-- The mask of all parts. -/
def anyPart : Nat := 0x1FFFFFFF

theorem Keeps.any {M : Nat} {r s : State} (h : Keeps M r s) : Keeps anyPart r s :=
  ⟨h.pending, h.identity, h.stage, h.legal, h.frame.imp id fun f => ⟨f.1, fun p hp => by cases p <;> exact absurd hp (by decide)⟩⟩

/-- In stage 0 or 1 the frame says nothing. -/
theorem Keeps.mask {M N : Nat} {r s : State} (h : Keeps M r s) (k : s.life.stage.val ≤ 1) : Keeps N r s :=
  ⟨h.pending, h.identity, h.stage, h.legal, .inl k⟩

/-- An update that leaves the stage. -/
theorem Keeps.here {M : Nat} {r s t : State} (h : Keeps M r s) (h1 : t.pending = s.pending)
    (h2 : t.life.fuses.identity = s.life.fuses.identity) (h3 : t.life.stage = s.life.stage) (h4 : s.legal → t.legal)
    (h5 : sameBut M s t) : Keeps M r t :=
  h.trans ⟨h1, h2, .inl h3, h4, .inr h5⟩

/-- An update of nothing that a legal state speaks of. -/
theorem Keeps.upd {M : Nat} {r s : State} {freeCtr ticks : Nat} {life : Life} {link : Link} {q : QueueEngine}
    {im : InstanceMgr} {mon : Monitors} {clk : Clock} {pipe : Pipes} {tab : Tables} {tm : Tm} {plant : Plant} {cx : Crypto}
    {fc : FlowCores} {st : Storage} {cg : Commit} (h : Keeps M r s) (h4 : fc.slices = s.fc.slices)
    (h5 : fc.cluster = s.fc.cluster) (h6 : fc.hkMem = s.fc.hkMem) (h7 : life.stage = s.life.stage)
    (h8 : life.aonGood = s.life.aonGood) (h9 : life.perst = s.life.perst) (h10 : life.stage1Done = s.life.stage1Done)
    (h11 : life.bistFail = s.life.bistFail) (h12 : life.fuses.identity = s.life.fuses.identity)
    (f0 : Within 1 M ∨ freeCtr = s.freeCtr) (f1 : Within 2 M ∨ ticks = s.ticks)
    (f3 : Within 8 M ∨ { life with fuses := s.life.fuses } = s.life) (f4 : Within 16 M ∨ life.fuses = s.life.fuses)
    (f5 : Within 32 M ∨ link.cfg = s.link.cfg)
    (f6 : Within 64 M ∨ (link.msixTable, link.msixPending, link.logSignalled, link.logOwed) = (s.link.msixTable, s.link.msixPending, s.link.logSignalled, s.link.logOwed))
    (f7 : Within 128 M ∨ { link with cfg := s.link.cfg, msixTable := s.link.msixTable, msixPending := s.link.msixPending, logSignalled := s.link.logSignalled, logOwed := s.link.logOwed } = s.link)
    (f8 : Within 256 M ∨ q.queues = s.q.queues) (f9 : Within 512 M ∨ { q with queues := s.q.queues } = s.q)
    (f10 : Within 1024 M ∨ im = s.im) (f11 : Within 2048 M ∨ mon = s.mon) (f12 : Within 4096 M ∨ clk = s.clk)
    (f13 : Within 8192 M ∨ (pipe.frames, pipe.nextFrame) = (s.pipe.frames, s.pipe.nextFrame))
    (f14 : Within 16384 M ∨ { pipe with frames := s.pipe.frames, nextFrame := s.pipe.nextFrame } = s.pipe)
    (f15 : Within 32768 M ∨ tab = s.tab) (f16 : Within 65536 M ∨ tm = s.tm) (f17 : Within 131072 M ∨ plant = s.plant)
    (f18 : Within 262144 M ∨ cx = s.cx)
    (f19 : Within 524288 M ∨ (fc.threads, fc.cores, fc.hkBeat) = (s.fc.threads, s.fc.cores, s.fc.hkBeat))
    (f20 : Within 1048576 M ∨ (fc.chans, fc.mboxes) = (s.fc.chans, s.fc.mboxes))
    (f21 : Within 2097152 M ∨ fc.code = s.fc.code) (f25 : Within 33554432 M ∨ { st with bays := s.st.bays } = s.st)
    (f26 : Within 67108864 M ∨ st.bays = s.st.bays) (f27 : Within 134217728 M ∨ cg = s.cg) :
    Keeps M r ⟨s.pending, freeCtr, s.out, ticks, s.regs, life, link, q, im, mon, clk, pipe, tab, tm, plant, cx, fc, st, cg, s.dram⟩ :=
  h.here rfl h12 h7 (fun l => by
    simpa only [State.legal, State.memsWf, State.stageLegal, h4, h5, h6, h7, h8, h9, h10, h11] using l) ⟨List.suffix_rfl, fun p hp => by
    cases p with
    | freeCtr => exact f0.resolve_left (not_within hp)
    | ticks => exact f1.resolve_left (not_within hp)
    | regs => rfl
    | life => exact f3.resolve_left (not_within hp)
    | fuses => exact f4.resolve_left (not_within hp)
    | cfg => exact f5.resolve_left (not_within hp)
    | msix => exact f6.resolve_left (not_within hp)
    | link => exact f7.resolve_left (not_within hp)
    | queues => exact f8.resolve_left (not_within hp)
    | evqs => exact f9.resolve_left (not_within hp)
    | im => exact f10.resolve_left (not_within hp)
    | mon => exact f11.resolve_left (not_within hp)
    | clk => exact f12.resolve_left (not_within hp)
    | frames => exact f13.resolve_left (not_within hp)
    | pipe => exact f14.resolve_left (not_within hp)
    | tab => exact f15.resolve_left (not_within hp)
    | tm => exact f16.resolve_left (not_within hp)
    | plant => exact f17.resolve_left (not_within hp)
    | cx => exact f18.resolve_left (not_within hp)
    | threads => exact f19.resolve_left (not_within hp)
    | channels => exact f20.resolve_left (not_within hp)
    | code => exact f21.resolve_left (not_within hp)
    | slices => exact h4
    | cluster => exact h5
    | hkMem => exact h6
    | st => exact f25.resolve_left (not_within hp)
    | bays => exact f26.resolve_left (not_within hp)
    | cg => exact f27.resolve_left (not_within hp)
    | dram => rfl⟩

/-- The state of a pair taken apart. -/
theorem Keeps.fst_eq {α : Type} {M : Nat} {r a : State} {b : α} {p : State × α} (e : p = (a, b)) (h : Keeps M r p.1) :
    Keeps M r a := by
  subst e; exact h

theorem Keeps.foldl {α : Type} {M : Nat} {r s : State} {f : State → α → State} {l : List α}
    (hf : ∀ (u : State) (x : α), Keeps M r u → Keeps M r (f u x)) (h : Keeps M r s) : Keeps M r (l.foldl f s) := by
  induction l generalizing s with
  | nil => exact h
  | cons x l ih => exact ih (hf s x h)

theorem Keeps.foldl_fst {α β : Type} {M : Nat} {r : State} {p : State × β} {f : State × β → α → State × β} {l : List α}
    (hf : ∀ (u : State × β) (x : α), Keeps M r u.1 → Keeps M r (f u x).1) (h : Keeps M r p.1) : Keeps M r (l.foldl f p).1 := by
  induction l generalizing p with
  | nil => exact h
  | cons x l ih => exact ih (hf p x h)

/-- The same, but the stage may also have risen by one (R35, R37). -/
structure Advances (M : Nat) (s t : State) : Prop where
  pending : t.pending = s.pending
  identity : t.life.fuses.identity = s.life.fuses.identity
  stage : t.life.stage = s.life.stage ∨ t.life.stage.val = s.life.stage.val + 1 ∨ t.life.stage.val ≤ 1
  legal : s.legal → t.legal
  frame : t.life.stage.val ≤ 1 ∨ sameBut M s t

theorem Keeps.advances {M : Nat} {s t : State} (h : Keeps M s t) : Advances M s t :=
  ⟨h.pending, h.identity, h.stage.imp id .inr, h.legal, h.frame⟩

theorem Advances.keeps {M : Nat} {r s t : State} (h : Advances M r s) (k : Keeps M s t) : Advances M r t :=
  ⟨k.pending.trans h.pending, k.identity.trans h.identity,
   k.stage.elim (fun e => by rw [e]; exact h.stage) (fun e => .inr (.inr e)), fun l => k.legal (h.legal l),
   k.frame.elim .inl fun b => k.stage.elim (fun e => h.frame.elim (fun f => .inl (by rw [e]; exact f)) fun a => .inr (a.trans b)) .inl⟩

theorem Keeps.then_advances {M : Nat} {r s t : State} (h : Keeps M r s) (e : s.life.stage = r.life.stage)
    (b : sameBut M r s) (k : Advances M s t) : Advances M r t :=
  ⟨k.pending.trans h.pending, k.identity.trans h.identity, by rw [← e]; exact k.stage, fun l => k.legal (h.legal l),
   k.frame.imp id b.trans⟩

theorem ite_keeps {M : Nat} {s0 s t : State} {c : Prop} [Decidable c] (h : Keeps M s0 s) (k : Keeps M s0 t) :
    Keeps M s0 (if c then s else t) := by
  split
  · exact h
  · exact k

/-- Writes of the addressed memories. -/
theorem Keeps.slices {M : Nat} {r s : State} {a : Nat} {b : Bytes} (h : Keeps M r s) (hM : Within (2 ^ Part.slices.idx) M) :
    Keeps M r { s with fc := { s.fc with slices := memWrite s.fc.slices a b } } :=
  h.here rfl rfl rfl (fun l => ⟨⟨memWrite_wf l.1.1 _ _, l.1.2⟩, l.2⟩)
    ⟨List.suffix_rfl, fun p hp => by cases p <;> first | rfl | exact absurd hM (not_within hp)⟩

theorem Keeps.cluster {M : Nat} {r s : State} {a : Nat} {b : Bytes} (h : Keeps M r s) (hM : Within (2 ^ Part.cluster.idx) M) :
    Keeps M r { s with fc := { s.fc with cluster := memWrite s.fc.cluster a b } } :=
  h.here rfl rfl rfl (fun l => ⟨⟨l.1.1, memWrite_wf l.1.2.1 _ _, l.1.2.2⟩, l.2⟩)
    ⟨List.suffix_rfl, fun p hp => by cases p <;> first | rfl | exact absurd hM (not_within hp)⟩

theorem Keeps.hkMem {M : Nat} {r s : State} {a : Nat} {b : Bytes} (h : Keeps M r s) (hM : Within (2 ^ Part.hkMem.idx) M) :
    Keeps M r { s with fc := { s.fc with hkMem := memWrite s.fc.hkMem a b } } :=
  h.here rfl rfl rfl (fun l => ⟨⟨l.1.1, l.1.2.1, memWrite_wf l.1.2.2.1 _ _, l.1.2.2.2⟩, l.2⟩)
    ⟨List.suffix_rfl, fun p hp => by cases p <;> first | rfl | exact absurd hM (not_within hp)⟩

theorem Keeps.dram {M : Nat} {r s : State} {a : Nat} {b : Bytes} (h : Keeps M r s) (hM : Within (2 ^ Part.dram.idx) M) :
    Keeps M r { s with dram := memWrite s.dram a b } :=
  h.here rfl rfl rfl (fun l => ⟨⟨l.1.1, l.1.2.1, l.1.2.2.1, memWrite_wf l.1.2.2.2.1 _ _, l.1.2.2.2.2⟩, l.2⟩)
    ⟨List.suffix_rfl, fun p hp => by cases p <;> first | rfl | exact absurd hM (not_within hp)⟩

/-- A command answers a next state that its state keeps. -/
def KeepsRes (M : Nat) (r : State) (x : Res) : Prop := ∃ t, x = .next t ∧ Keeps M r t

theorem KeepsRes.next {M : Nat} {r t : State} (h : Keeps M r t) : KeepsRes M r (.next t) := ⟨t, rfl, h⟩

/-- The same for a command that may raise the stage. -/
def AdvancesRes (M : Nat) (r : State) (x : Res) : Prop := ∃ t, x = .next t ∧ Advances M r t

theorem KeepsRes.advances {M : Nat} {r : State} {x : Res} (h : KeepsRes M r x) : AdvancesRes M r x := by
  obtain ⟨t, e, h⟩ := h; exact ⟨t, e, h.advances⟩

theorem AdvancesRes.next {M : Nat} {r t : State} (h : Advances M r t) : AdvancesRes M r (.next t) := ⟨t, rfl, h⟩

/-- What a command answers, in the words of the statements. -/
theorem AdvancesRes.changes {M : Nat} {s : State} {x : Res} (h : AdvancesRes M s x) (ps : List Part)
    (hp : ∀ p : Part, p ∉ ps → M.testBit p.idx = false) : ∃ t, x = .next t ∧ t.pending = s.pending ∧
    t.life.fuses.identity = s.life.fuses.identity ∧ (2 ≤ t.life.stage.val → changesOnly ps s t) := by
  obtain ⟨t, e, h⟩ := h
  exact ⟨t, e, h.pending, h.identity, fun k => h.frame.elim (fun f => by omega) fun f => ⟨f.1, fun p q => f.2 p (hp p q)⟩⟩

theorem nextOf_advances {M : Nat} {r s : State} {x : Res} (h : AdvancesRes M r x) : Advances M r (nextOf x s) := by
  obtain ⟨t, rfl, h⟩ := h; exact h

theorem AdvancesRes.ite {M : Nat} {r : State} {x y : Res} {c : Prop} [Decidable c] (h : AdvancesRes M r x)
    (k : AdvancesRes M r y) : AdvancesRes M r (if c then x else y) := by
  split
  · exact h
  · exact k

theorem nextOf_keeps {M : Nat} {r s : State} {x : Res} (h : KeepsRes M r x) : Keeps M r (nextOf x s) := by
  obtain ⟨t, rfl, h⟩ := h; exact h

theorem putReg_keeps {M : Nat} {r s : State} (off : Nat) (v : Word) (h : Keeps M r s) (hM : Within (2 ^ Part.regs.idx) M) :
    Keeps M r (putReg off v s) :=
  h.here rfl rfl rfl (fun l => ⟨⟨l.1.1, l.1.2.1, l.1.2.2.1, l.1.2.2.2.1, tabWf_set l.1.2.2.2.2 _ _⟩, l.2⟩)
    ⟨List.suffix_rfl, fun p hp => by cases p <;> first | rfl | exact absurd hM (not_within hp)⟩

theorem emit_keeps {M : Nat} {r s : State} (o : Out) (h : Keeps M r s) : Keeps M r (emit o s) :=
  h.here rfl rfl rfl id ⟨List.suffix_cons _ _, fun p _ => by cases p <;> rfl⟩

end Sys2Proof.Machine
end

