-- ==== Sys2Proof/Laws/State.lean ====
section
/-! SUPPORT. The frame of each named update of the state: the parts it leaves, one equation for each part, all true by
unfolding the update. A conjunction of equations is as many rewrite rules. -/
set_option Elab.async false
namespace Sys2Proof.Machine

/-- What `emit` leaves. -/
@[simp] theorem emit_leaves (o : Out) (s : State) :
    (emit o s).pending = s.pending ∧ (emit o s).freeCtr = s.freeCtr ∧ (emit o s).ticks = s.ticks ∧
    (emit o s).regs = s.regs ∧ (emit o s).life = s.life ∧ (emit o s).link = s.link ∧ (emit o s).q = s.q ∧
    (emit o s).im = s.im ∧ (emit o s).mon = s.mon ∧ (emit o s).clk = s.clk ∧ (emit o s).pipe = s.pipe ∧
    (emit o s).tab = s.tab ∧ (emit o s).tm = s.tm ∧ (emit o s).plant = s.plant ∧ (emit o s).cx = s.cx ∧
    (emit o s).fc = s.fc ∧ (emit o s).st = s.st ∧ (emit o s).cg = s.cg ∧ (emit o s).dram = s.dram :=
  ⟨rfl, rfl, rfl, rfl, rfl, rfl, rfl, rfl, rfl, rfl, rfl, rfl, rfl, rfl, rfl, rfl, rfl, rfl, rfl⟩

/-- What `useFree` leaves. -/
@[simp] theorem useFree_leaves (s : State) :
    (useFree s).pending = s.pending ∧ (useFree s).out = s.out ∧ (useFree s).ticks = s.ticks ∧
    (useFree s).regs = s.regs ∧ (useFree s).life = s.life ∧ (useFree s).link = s.link ∧ (useFree s).q = s.q ∧
    (useFree s).im = s.im ∧ (useFree s).mon = s.mon ∧ (useFree s).clk = s.clk ∧ (useFree s).pipe = s.pipe ∧
    (useFree s).tab = s.tab ∧ (useFree s).tm = s.tm ∧ (useFree s).plant = s.plant ∧ (useFree s).cx = s.cx ∧
    (useFree s).fc = s.fc ∧ (useFree s).st = s.st ∧ (useFree s).cg = s.cg ∧ (useFree s).dram = s.dram :=
  ⟨rfl, rfl, rfl, rfl, rfl, rfl, rfl, rfl, rfl, rfl, rfl, rfl, rfl, rfl, rfl, rfl, rfl, rfl, rfl⟩

/-- What `putReg` leaves. -/
@[simp] theorem putReg_leaves (off : Nat) (v : Word) (s : State) :
    (putReg off v s).pending = s.pending ∧ (putReg off v s).freeCtr = s.freeCtr ∧ (putReg off v s).out = s.out ∧
    (putReg off v s).ticks = s.ticks ∧ (putReg off v s).life = s.life ∧ (putReg off v s).link = s.link ∧
    (putReg off v s).q = s.q ∧ (putReg off v s).im = s.im ∧ (putReg off v s).mon = s.mon ∧
    (putReg off v s).clk = s.clk ∧ (putReg off v s).pipe = s.pipe ∧ (putReg off v s).tab = s.tab ∧
    (putReg off v s).tm = s.tm ∧ (putReg off v s).plant = s.plant ∧ (putReg off v s).cx = s.cx ∧
    (putReg off v s).fc = s.fc ∧ (putReg off v s).st = s.st ∧ (putReg off v s).cg = s.cg ∧
    (putReg off v s).dram = s.dram :=
  ⟨rfl, rfl, rfl, rfl, rfl, rfl, rfl, rfl, rfl, rfl, rfl, rfl, rfl, rfl, rfl, rfl, rfl, rfl, rfl⟩

/-- What `putF` leaves. -/
@[simp] theorem putF_leaves (off lo len v : Nat) (s : State) :
    (putF off lo len v s).pending = s.pending ∧ (putF off lo len v s).freeCtr = s.freeCtr ∧
    (putF off lo len v s).out = s.out ∧ (putF off lo len v s).ticks = s.ticks ∧ (putF off lo len v s).life = s.life ∧
    (putF off lo len v s).link = s.link ∧ (putF off lo len v s).q = s.q ∧ (putF off lo len v s).im = s.im ∧
    (putF off lo len v s).mon = s.mon ∧ (putF off lo len v s).clk = s.clk ∧ (putF off lo len v s).pipe = s.pipe ∧
    (putF off lo len v s).tab = s.tab ∧ (putF off lo len v s).tm = s.tm ∧ (putF off lo len v s).plant = s.plant ∧
    (putF off lo len v s).cx = s.cx ∧ (putF off lo len v s).fc = s.fc ∧ (putF off lo len v s).st = s.st ∧
    (putF off lo len v s).cg = s.cg ∧ (putF off lo len v s).dram = s.dram :=
  ⟨rfl, rfl, rfl, rfl, rfl, rfl, rfl, rfl, rfl, rfl, rfl, rfl, rfl, rfl, rfl, rfl, rfl, rfl, rfl⟩

/-- What `putB` leaves. -/
@[simp] theorem putB_leaves (off i : Nat) (b : Bool) (s : State) :
    (putB off i b s).pending = s.pending ∧ (putB off i b s).freeCtr = s.freeCtr ∧ (putB off i b s).out = s.out ∧
    (putB off i b s).ticks = s.ticks ∧ (putB off i b s).life = s.life ∧ (putB off i b s).link = s.link ∧
    (putB off i b s).q = s.q ∧ (putB off i b s).im = s.im ∧ (putB off i b s).mon = s.mon ∧
    (putB off i b s).clk = s.clk ∧ (putB off i b s).pipe = s.pipe ∧ (putB off i b s).tab = s.tab ∧
    (putB off i b s).tm = s.tm ∧ (putB off i b s).plant = s.plant ∧ (putB off i b s).cx = s.cx ∧
    (putB off i b s).fc = s.fc ∧ (putB off i b s).st = s.st ∧ (putB off i b s).cg = s.cg ∧
    (putB off i b s).dram = s.dram :=
  ⟨rfl, rfl, rfl, rfl, rfl, rfl, rfl, rfl, rfl, rfl, rfl, rfl, rfl, rfl, rfl, rfl, rfl, rfl, rfl⟩

/-- What `putCfg` leaves. -/
@[simp] theorem putCfg_leaves (fn : Nat) (c : FnCfg) (s : State) :
    (putCfg fn c s).pending = s.pending ∧ (putCfg fn c s).freeCtr = s.freeCtr ∧ (putCfg fn c s).out = s.out ∧
    (putCfg fn c s).ticks = s.ticks ∧ (putCfg fn c s).regs = s.regs ∧ (putCfg fn c s).life = s.life ∧
    (putCfg fn c s).q = s.q ∧ (putCfg fn c s).im = s.im ∧ (putCfg fn c s).mon = s.mon ∧ (putCfg fn c s).clk = s.clk ∧
    (putCfg fn c s).pipe = s.pipe ∧ (putCfg fn c s).tab = s.tab ∧ (putCfg fn c s).tm = s.tm ∧
    (putCfg fn c s).plant = s.plant ∧ (putCfg fn c s).cx = s.cx ∧ (putCfg fn c s).fc = s.fc ∧
    (putCfg fn c s).st = s.st ∧ (putCfg fn c s).cg = s.cg ∧ (putCfg fn c s).dram = s.dram :=
  ⟨rfl, rfl, rfl, rfl, rfl, rfl, rfl, rfl, rfl, rfl, rfl, rfl, rfl, rfl, rfl, rfl, rfl, rfl, rfl⟩

/-- What `linkBusy` leaves. -/
@[simp] theorem linkBusy_leaves (s : State) :
    (linkBusy s).pending = s.pending ∧ (linkBusy s).freeCtr = s.freeCtr ∧ (linkBusy s).out = s.out ∧
    (linkBusy s).ticks = s.ticks ∧ (linkBusy s).regs = s.regs ∧ (linkBusy s).life = s.life ∧ (linkBusy s).q = s.q ∧
    (linkBusy s).im = s.im ∧ (linkBusy s).mon = s.mon ∧ (linkBusy s).clk = s.clk ∧ (linkBusy s).pipe = s.pipe ∧
    (linkBusy s).tab = s.tab ∧ (linkBusy s).tm = s.tm ∧ (linkBusy s).plant = s.plant ∧ (linkBusy s).cx = s.cx ∧
    (linkBusy s).fc = s.fc ∧ (linkBusy s).st = s.st ∧ (linkBusy s).cg = s.cg ∧ (linkBusy s).dram = s.dram :=
  ⟨rfl, rfl, rfl, rfl, rfl, rfl, rfl, rfl, rfl, rfl, rfl, rfl, rfl, rfl, rfl, rfl, rfl, rfl, rfl⟩

/-- What `putMsixPending` leaves. -/
@[simp] theorem putMsixPending_leaves (fn v : Nat) (b : Bool) (s : State) :
    (putMsixPending fn v b s).pending = s.pending ∧ (putMsixPending fn v b s).freeCtr = s.freeCtr ∧
    (putMsixPending fn v b s).out = s.out ∧ (putMsixPending fn v b s).ticks = s.ticks ∧
    (putMsixPending fn v b s).regs = s.regs ∧ (putMsixPending fn v b s).life = s.life ∧
    (putMsixPending fn v b s).q = s.q ∧ (putMsixPending fn v b s).im = s.im ∧ (putMsixPending fn v b s).mon = s.mon ∧
    (putMsixPending fn v b s).clk = s.clk ∧ (putMsixPending fn v b s).pipe = s.pipe ∧
    (putMsixPending fn v b s).tab = s.tab ∧ (putMsixPending fn v b s).tm = s.tm ∧
    (putMsixPending fn v b s).plant = s.plant ∧ (putMsixPending fn v b s).cx = s.cx ∧
    (putMsixPending fn v b s).fc = s.fc ∧ (putMsixPending fn v b s).st = s.st ∧ (putMsixPending fn v b s).cg = s.cg ∧
    (putMsixPending fn v b s).dram = s.dram :=
  ⟨rfl, rfl, rfl, rfl, rfl, rfl, rfl, rfl, rfl, rfl, rfl, rfl, rfl, rfl, rfl, rfl, rfl, rfl, rfl⟩

/-- What `putPipe` leaves. -/
@[simp] theorem putPipe_leaves (pl : Nat) (p : Pipe) (s : State) :
    (putPipe pl p s).pending = s.pending ∧ (putPipe pl p s).freeCtr = s.freeCtr ∧ (putPipe pl p s).out = s.out ∧
    (putPipe pl p s).ticks = s.ticks ∧ (putPipe pl p s).regs = s.regs ∧ (putPipe pl p s).life = s.life ∧
    (putPipe pl p s).link = s.link ∧ (putPipe pl p s).q = s.q ∧ (putPipe pl p s).im = s.im ∧
    (putPipe pl p s).mon = s.mon ∧ (putPipe pl p s).clk = s.clk ∧ (putPipe pl p s).tab = s.tab ∧
    (putPipe pl p s).tm = s.tm ∧ (putPipe pl p s).plant = s.plant ∧ (putPipe pl p s).cx = s.cx ∧
    (putPipe pl p s).fc = s.fc ∧ (putPipe pl p s).st = s.st ∧ (putPipe pl p s).cg = s.cg ∧
    (putPipe pl p s).dram = s.dram :=
  ⟨rfl, rfl, rfl, rfl, rfl, rfl, rfl, rfl, rfl, rfl, rfl, rfl, rfl, rfl, rfl, rfl, rfl, rfl, rfl⟩

/-- What `putFrame` leaves. -/
@[simp] theorem putFrame_leaves (f : Nat) (x : Frame) (s : State) :
    (putFrame f x s).pending = s.pending ∧ (putFrame f x s).freeCtr = s.freeCtr ∧ (putFrame f x s).out = s.out ∧
    (putFrame f x s).ticks = s.ticks ∧ (putFrame f x s).regs = s.regs ∧ (putFrame f x s).life = s.life ∧
    (putFrame f x s).link = s.link ∧ (putFrame f x s).q = s.q ∧ (putFrame f x s).im = s.im ∧
    (putFrame f x s).mon = s.mon ∧ (putFrame f x s).clk = s.clk ∧ (putFrame f x s).tab = s.tab ∧
    (putFrame f x s).tm = s.tm ∧ (putFrame f x s).plant = s.plant ∧ (putFrame f x s).cx = s.cx ∧
    (putFrame f x s).fc = s.fc ∧ (putFrame f x s).st = s.st ∧ (putFrame f x s).cg = s.cg ∧
    (putFrame f x s).dram = s.dram :=
  ⟨rfl, rfl, rfl, rfl, rfl, rfl, rfl, rfl, rfl, rfl, rfl, rfl, rfl, rfl, rfl, rfl, rfl, rfl, rfl⟩

/-- What `dropFrameRec` leaves. -/
@[simp] theorem dropFrameRec_leaves (f : Nat) (s : State) :
    (dropFrameRec f s).pending = s.pending ∧ (dropFrameRec f s).freeCtr = s.freeCtr ∧
    (dropFrameRec f s).out = s.out ∧ (dropFrameRec f s).ticks = s.ticks ∧ (dropFrameRec f s).regs = s.regs ∧
    (dropFrameRec f s).life = s.life ∧ (dropFrameRec f s).link = s.link ∧ (dropFrameRec f s).q = s.q ∧
    (dropFrameRec f s).im = s.im ∧ (dropFrameRec f s).mon = s.mon ∧ (dropFrameRec f s).clk = s.clk ∧
    (dropFrameRec f s).tab = s.tab ∧ (dropFrameRec f s).tm = s.tm ∧ (dropFrameRec f s).plant = s.plant ∧
    (dropFrameRec f s).cx = s.cx ∧ (dropFrameRec f s).fc = s.fc ∧ (dropFrameRec f s).st = s.st ∧
    (dropFrameRec f s).cg = s.cg ∧ (dropFrameRec f s).dram = s.dram :=
  ⟨rfl, rfl, rfl, rfl, rfl, rfl, rfl, rfl, rfl, rfl, rfl, rfl, rfl, rfl, rfl, rfl, rfl, rfl, rfl⟩

/-- What `putMain` leaves. -/
@[simp] theorem putMain_leaves (k : TabKind) (pl key : Nat) (v : Bytes) (s : State) :
    (putMain k pl key v s).pending = s.pending ∧ (putMain k pl key v s).freeCtr = s.freeCtr ∧
    (putMain k pl key v s).out = s.out ∧ (putMain k pl key v s).ticks = s.ticks ∧
    (putMain k pl key v s).regs = s.regs ∧ (putMain k pl key v s).life = s.life ∧
    (putMain k pl key v s).link = s.link ∧ (putMain k pl key v s).q = s.q ∧ (putMain k pl key v s).im = s.im ∧
    (putMain k pl key v s).mon = s.mon ∧ (putMain k pl key v s).clk = s.clk ∧ (putMain k pl key v s).pipe = s.pipe ∧
    (putMain k pl key v s).tm = s.tm ∧ (putMain k pl key v s).plant = s.plant ∧ (putMain k pl key v s).cx = s.cx ∧
    (putMain k pl key v s).fc = s.fc ∧ (putMain k pl key v s).st = s.st ∧ (putMain k pl key v s).cg = s.cg ∧
    (putMain k pl key v s).dram = s.dram :=
  ⟨rfl, rfl, rfl, rfl, rfl, rfl, rfl, rfl, rfl, rfl, rfl, rfl, rfl, rfl, rfl, rfl, rfl, rfl, rfl⟩

/-- What `putBuf` leaves. -/
@[simp] theorem putBuf_leaves (b : Nat) (x : Buf) (s : State) :
    (putBuf b x s).pending = s.pending ∧ (putBuf b x s).freeCtr = s.freeCtr ∧ (putBuf b x s).out = s.out ∧
    (putBuf b x s).ticks = s.ticks ∧ (putBuf b x s).regs = s.regs ∧ (putBuf b x s).life = s.life ∧
    (putBuf b x s).link = s.link ∧ (putBuf b x s).q = s.q ∧ (putBuf b x s).im = s.im ∧ (putBuf b x s).mon = s.mon ∧
    (putBuf b x s).clk = s.clk ∧ (putBuf b x s).pipe = s.pipe ∧ (putBuf b x s).tab = s.tab ∧
    (putBuf b x s).plant = s.plant ∧ (putBuf b x s).cx = s.cx ∧ (putBuf b x s).fc = s.fc ∧ (putBuf b x s).st = s.st ∧
    (putBuf b x s).cg = s.cg ∧ (putBuf b x s).dram = s.dram :=
  ⟨rfl, rfl, rfl, rfl, rfl, rfl, rfl, rfl, rfl, rfl, rfl, rfl, rfl, rfl, rfl, rfl, rfl, rfl, rfl⟩

/-- What `newBuf` leaves. -/
@[simp] theorem newBuf_leaves (x : Buf) (s : State) :
    (newBuf x s).pending = s.pending ∧ (newBuf x s).freeCtr = s.freeCtr ∧ (newBuf x s).out = s.out ∧
    (newBuf x s).ticks = s.ticks ∧ (newBuf x s).regs = s.regs ∧ (newBuf x s).life = s.life ∧
    (newBuf x s).link = s.link ∧ (newBuf x s).q = s.q ∧ (newBuf x s).im = s.im ∧ (newBuf x s).mon = s.mon ∧
    (newBuf x s).clk = s.clk ∧ (newBuf x s).pipe = s.pipe ∧ (newBuf x s).tab = s.tab ∧ (newBuf x s).plant = s.plant ∧
    (newBuf x s).cx = s.cx ∧ (newBuf x s).fc = s.fc ∧ (newBuf x s).st = s.st ∧ (newBuf x s).cg = s.cg ∧
    (newBuf x s).dram = s.dram :=
  ⟨rfl, rfl, rfl, rfl, rfl, rfl, rfl, rfl, rfl, rfl, rfl, rfl, rfl, rfl, rfl, rfl, rfl, rfl, rfl⟩

/-- What `putMeter` leaves. -/
@[simp] theorem putMeter_leaves (m : Nat) (x : Meter) (s : State) :
    (putMeter m x s).pending = s.pending ∧ (putMeter m x s).freeCtr = s.freeCtr ∧ (putMeter m x s).out = s.out ∧
    (putMeter m x s).ticks = s.ticks ∧ (putMeter m x s).regs = s.regs ∧ (putMeter m x s).life = s.life ∧
    (putMeter m x s).link = s.link ∧ (putMeter m x s).q = s.q ∧ (putMeter m x s).im = s.im ∧
    (putMeter m x s).mon = s.mon ∧ (putMeter m x s).clk = s.clk ∧ (putMeter m x s).pipe = s.pipe ∧
    (putMeter m x s).tab = s.tab ∧ (putMeter m x s).plant = s.plant ∧ (putMeter m x s).cx = s.cx ∧
    (putMeter m x s).fc = s.fc ∧ (putMeter m x s).st = s.st ∧ (putMeter m x s).cg = s.cg ∧
    (putMeter m x s).dram = s.dram :=
  ⟨rfl, rfl, rfl, rfl, rfl, rfl, rfl, rfl, rfl, rfl, rfl, rfl, rfl, rfl, rfl, rfl, rfl, rfl, rfl⟩

/-- What `putDwrr` leaves. -/
@[simp] theorem putDwrr_leaves (k : Nat) (x : Dwrr) (s : State) :
    (putDwrr k x s).pending = s.pending ∧ (putDwrr k x s).freeCtr = s.freeCtr ∧ (putDwrr k x s).out = s.out ∧
    (putDwrr k x s).ticks = s.ticks ∧ (putDwrr k x s).regs = s.regs ∧ (putDwrr k x s).life = s.life ∧
    (putDwrr k x s).link = s.link ∧ (putDwrr k x s).q = s.q ∧ (putDwrr k x s).im = s.im ∧
    (putDwrr k x s).mon = s.mon ∧ (putDwrr k x s).clk = s.clk ∧ (putDwrr k x s).pipe = s.pipe ∧
    (putDwrr k x s).tab = s.tab ∧ (putDwrr k x s).plant = s.plant ∧ (putDwrr k x s).cx = s.cx ∧
    (putDwrr k x s).fc = s.fc ∧ (putDwrr k x s).st = s.st ∧ (putDwrr k x s).cg = s.cg ∧
    (putDwrr k x s).dram = s.dram :=
  ⟨rfl, rfl, rfl, rfl, rfl, rfl, rfl, rfl, rfl, rfl, rfl, rfl, rfl, rfl, rfl, rfl, rfl, rfl, rfl⟩

/-- What `putLeaf` leaves. -/
@[simp] theorem putLeaf_leaves (l : Nat) (x : Leaf) (s : State) :
    (putLeaf l x s).pending = s.pending ∧ (putLeaf l x s).freeCtr = s.freeCtr ∧ (putLeaf l x s).out = s.out ∧
    (putLeaf l x s).ticks = s.ticks ∧ (putLeaf l x s).regs = s.regs ∧ (putLeaf l x s).life = s.life ∧
    (putLeaf l x s).link = s.link ∧ (putLeaf l x s).q = s.q ∧ (putLeaf l x s).im = s.im ∧
    (putLeaf l x s).mon = s.mon ∧ (putLeaf l x s).clk = s.clk ∧ (putLeaf l x s).pipe = s.pipe ∧
    (putLeaf l x s).tab = s.tab ∧ (putLeaf l x s).plant = s.plant ∧ (putLeaf l x s).cx = s.cx ∧
    (putLeaf l x s).fc = s.fc ∧ (putLeaf l x s).st = s.st ∧ (putLeaf l x s).cg = s.cg ∧
    (putLeaf l x s).dram = s.dram :=
  ⟨rfl, rfl, rfl, rfl, rfl, rfl, rfl, rfl, rfl, rfl, rfl, rfl, rfl, rfl, rfl, rfl, rfl, rfl, rfl⟩

/-- What `putGroup` leaves. -/
@[simp] theorem putGroup_leaves (g : Nat) (x : TmNode) (s : State) :
    (putGroup g x s).pending = s.pending ∧ (putGroup g x s).freeCtr = s.freeCtr ∧ (putGroup g x s).out = s.out ∧
    (putGroup g x s).ticks = s.ticks ∧ (putGroup g x s).regs = s.regs ∧ (putGroup g x s).life = s.life ∧
    (putGroup g x s).link = s.link ∧ (putGroup g x s).q = s.q ∧ (putGroup g x s).im = s.im ∧
    (putGroup g x s).mon = s.mon ∧ (putGroup g x s).clk = s.clk ∧ (putGroup g x s).pipe = s.pipe ∧
    (putGroup g x s).tab = s.tab ∧ (putGroup g x s).plant = s.plant ∧ (putGroup g x s).cx = s.cx ∧
    (putGroup g x s).fc = s.fc ∧ (putGroup g x s).st = s.st ∧ (putGroup g x s).cg = s.cg ∧
    (putGroup g x s).dram = s.dram :=
  ⟨rfl, rfl, rfl, rfl, rfl, rfl, rfl, rfl, rfl, rfl, rfl, rfl, rfl, rfl, rfl, rfl, rfl, rfl, rfl⟩

/-- What `putLearner` leaves. -/
@[simp] theorem putLearner_leaves (pl : Nat) (x : Learner) (s : State) :
    (putLearner pl x s).pending = s.pending ∧ (putLearner pl x s).freeCtr = s.freeCtr ∧
    (putLearner pl x s).out = s.out ∧ (putLearner pl x s).ticks = s.ticks ∧ (putLearner pl x s).regs = s.regs ∧
    (putLearner pl x s).life = s.life ∧ (putLearner pl x s).link = s.link ∧ (putLearner pl x s).q = s.q ∧
    (putLearner pl x s).im = s.im ∧ (putLearner pl x s).mon = s.mon ∧ (putLearner pl x s).clk = s.clk ∧
    (putLearner pl x s).pipe = s.pipe ∧ (putLearner pl x s).tm = s.tm ∧ (putLearner pl x s).plant = s.plant ∧
    (putLearner pl x s).cx = s.cx ∧ (putLearner pl x s).fc = s.fc ∧ (putLearner pl x s).st = s.st ∧
    (putLearner pl x s).cg = s.cg ∧ (putLearner pl x s).dram = s.dram :=
  ⟨rfl, rfl, rfl, rfl, rfl, rfl, rfl, rfl, rfl, rfl, rfl, rfl, rfl, rfl, rfl, rfl, rfl, rfl, rfl⟩

/-- What `putNs` leaves. -/
@[simp] theorem putNs_leaves (fns : Nat) (x : Ns) (s : State) :
    (putNs fns x s).pending = s.pending ∧ (putNs fns x s).freeCtr = s.freeCtr ∧ (putNs fns x s).out = s.out ∧
    (putNs fns x s).ticks = s.ticks ∧ (putNs fns x s).regs = s.regs ∧ (putNs fns x s).life = s.life ∧
    (putNs fns x s).link = s.link ∧ (putNs fns x s).q = s.q ∧ (putNs fns x s).im = s.im ∧
    (putNs fns x s).mon = s.mon ∧ (putNs fns x s).clk = s.clk ∧ (putNs fns x s).pipe = s.pipe ∧
    (putNs fns x s).tab = s.tab ∧ (putNs fns x s).tm = s.tm ∧ (putNs fns x s).plant = s.plant ∧
    (putNs fns x s).cx = s.cx ∧ (putNs fns x s).fc = s.fc ∧ (putNs fns x s).cg = s.cg ∧
    (putNs fns x s).dram = s.dram :=
  ⟨rfl, rfl, rfl, rfl, rfl, rfl, rfl, rfl, rfl, rfl, rfl, rfl, rfl, rfl, rfl, rfl, rfl, rfl, rfl⟩

/-- What `putCmd` leaves. -/
@[simp] theorem putCmd_leaves (c : Nat) (x : StCmd) (s : State) :
    (putCmd c x s).pending = s.pending ∧ (putCmd c x s).freeCtr = s.freeCtr ∧ (putCmd c x s).out = s.out ∧
    (putCmd c x s).ticks = s.ticks ∧ (putCmd c x s).regs = s.regs ∧ (putCmd c x s).life = s.life ∧
    (putCmd c x s).link = s.link ∧ (putCmd c x s).q = s.q ∧ (putCmd c x s).im = s.im ∧ (putCmd c x s).mon = s.mon ∧
    (putCmd c x s).clk = s.clk ∧ (putCmd c x s).pipe = s.pipe ∧ (putCmd c x s).tab = s.tab ∧
    (putCmd c x s).tm = s.tm ∧ (putCmd c x s).plant = s.plant ∧ (putCmd c x s).cx = s.cx ∧ (putCmd c x s).fc = s.fc ∧
    (putCmd c x s).cg = s.cg ∧ (putCmd c x s).dram = s.dram :=
  ⟨rfl, rfl, rfl, rfl, rfl, rfl, rfl, rfl, rfl, rfl, rfl, rfl, rfl, rfl, rfl, rfl, rfl, rfl, rfl⟩

/-- What `dropCmd` leaves. -/
@[simp] theorem dropCmd_leaves (c : Nat) (s : State) :
    (dropCmd c s).pending = s.pending ∧ (dropCmd c s).freeCtr = s.freeCtr ∧ (dropCmd c s).out = s.out ∧
    (dropCmd c s).ticks = s.ticks ∧ (dropCmd c s).regs = s.regs ∧ (dropCmd c s).life = s.life ∧
    (dropCmd c s).link = s.link ∧ (dropCmd c s).q = s.q ∧ (dropCmd c s).im = s.im ∧ (dropCmd c s).mon = s.mon ∧
    (dropCmd c s).clk = s.clk ∧ (dropCmd c s).pipe = s.pipe ∧ (dropCmd c s).tab = s.tab ∧ (dropCmd c s).tm = s.tm ∧
    (dropCmd c s).plant = s.plant ∧ (dropCmd c s).cx = s.cx ∧ (dropCmd c s).fc = s.fc ∧ (dropCmd c s).cg = s.cg ∧
    (dropCmd c s).dram = s.dram :=
  ⟨rfl, rfl, rfl, rfl, rfl, rfl, rfl, rfl, rfl, rfl, rfl, rfl, rfl, rfl, rfl, rfl, rfl, rfl, rfl⟩

/-- What `dropPackCmd` leaves. -/
@[simp] theorem dropPackCmd_leaves (b cid : Nat) (s : State) :
    (dropPackCmd b cid s).pending = s.pending ∧ (dropPackCmd b cid s).freeCtr = s.freeCtr ∧
    (dropPackCmd b cid s).out = s.out ∧ (dropPackCmd b cid s).ticks = s.ticks ∧ (dropPackCmd b cid s).regs = s.regs ∧
    (dropPackCmd b cid s).life = s.life ∧ (dropPackCmd b cid s).link = s.link ∧ (dropPackCmd b cid s).q = s.q ∧
    (dropPackCmd b cid s).im = s.im ∧ (dropPackCmd b cid s).mon = s.mon ∧ (dropPackCmd b cid s).clk = s.clk ∧
    (dropPackCmd b cid s).pipe = s.pipe ∧ (dropPackCmd b cid s).tab = s.tab ∧ (dropPackCmd b cid s).tm = s.tm ∧
    (dropPackCmd b cid s).plant = s.plant ∧ (dropPackCmd b cid s).cx = s.cx ∧ (dropPackCmd b cid s).fc = s.fc ∧
    (dropPackCmd b cid s).cg = s.cg ∧ (dropPackCmd b cid s).dram = s.dram :=
  ⟨rfl, rfl, rfl, rfl, rfl, rfl, rfl, rfl, rfl, rfl, rfl, rfl, rfl, rfl, rfl, rfl, rfl, rfl, rfl⟩

/-- What `putThreadRaw` leaves. -/
@[simp] theorem putThreadRaw_leaves (c t : Nat) (x : Thread) (s : State) :
    (putThreadRaw c t x s).pending = s.pending ∧ (putThreadRaw c t x s).freeCtr = s.freeCtr ∧
    (putThreadRaw c t x s).out = s.out ∧ (putThreadRaw c t x s).ticks = s.ticks ∧
    (putThreadRaw c t x s).regs = s.regs ∧ (putThreadRaw c t x s).life = s.life ∧
    (putThreadRaw c t x s).link = s.link ∧ (putThreadRaw c t x s).q = s.q ∧ (putThreadRaw c t x s).im = s.im ∧
    (putThreadRaw c t x s).mon = s.mon ∧ (putThreadRaw c t x s).clk = s.clk ∧ (putThreadRaw c t x s).pipe = s.pipe ∧
    (putThreadRaw c t x s).tab = s.tab ∧ (putThreadRaw c t x s).tm = s.tm ∧ (putThreadRaw c t x s).plant = s.plant ∧
    (putThreadRaw c t x s).cx = s.cx ∧ (putThreadRaw c t x s).st = s.st ∧ (putThreadRaw c t x s).cg = s.cg ∧
    (putThreadRaw c t x s).dram = s.dram :=
  ⟨rfl, rfl, rfl, rfl, rfl, rfl, rfl, rfl, rfl, rfl, rfl, rfl, rfl, rfl, rfl, rfl, rfl, rfl, rfl⟩

/-- What `putCg` leaves. -/
@[simp] theorem putCg_leaves (g : Nat) (x : Group) (s : State) :
    (putCg g x s).pending = s.pending ∧ (putCg g x s).freeCtr = s.freeCtr ∧ (putCg g x s).out = s.out ∧
    (putCg g x s).ticks = s.ticks ∧ (putCg g x s).regs = s.regs ∧ (putCg g x s).life = s.life ∧
    (putCg g x s).link = s.link ∧ (putCg g x s).q = s.q ∧ (putCg g x s).im = s.im ∧ (putCg g x s).mon = s.mon ∧
    (putCg g x s).clk = s.clk ∧ (putCg g x s).pipe = s.pipe ∧ (putCg g x s).tab = s.tab ∧ (putCg g x s).tm = s.tm ∧
    (putCg g x s).plant = s.plant ∧ (putCg g x s).cx = s.cx ∧ (putCg g x s).fc = s.fc ∧ (putCg g x s).st = s.st ∧
    (putCg g x s).dram = s.dram :=
  ⟨rfl, rfl, rfl, rfl, rfl, rfl, rfl, rfl, rfl, rfl, rfl, rfl, rfl, rfl, rfl, rfl, rfl, rfl, rfl⟩

/-- What `freeCg` leaves. -/
@[simp] theorem freeCg_leaves (g : Nat) (s : State) :
    (freeCg g s).pending = s.pending ∧ (freeCg g s).freeCtr = s.freeCtr ∧ (freeCg g s).out = s.out ∧
    (freeCg g s).ticks = s.ticks ∧ (freeCg g s).regs = s.regs ∧ (freeCg g s).life = s.life ∧
    (freeCg g s).link = s.link ∧ (freeCg g s).q = s.q ∧ (freeCg g s).im = s.im ∧ (freeCg g s).mon = s.mon ∧
    (freeCg g s).clk = s.clk ∧ (freeCg g s).pipe = s.pipe ∧ (freeCg g s).tab = s.tab ∧ (freeCg g s).tm = s.tm ∧
    (freeCg g s).plant = s.plant ∧ (freeCg g s).cx = s.cx ∧ (freeCg g s).fc = s.fc ∧ (freeCg g s).st = s.st ∧
    (freeCg g s).dram = s.dram :=
  ⟨rfl, rfl, rfl, rfl, rfl, rfl, rfl, rfl, rfl, rfl, rfl, rfl, rfl, rfl, rfl, rfl, rfl, rfl, rfl⟩

/-- What `putQueue` leaves. -/
@[simp] theorem putQueue_leaves (fn fq : Nat) (x : Queue) (s : State) :
    (putQueue fn fq x s).pending = s.pending ∧ (putQueue fn fq x s).freeCtr = s.freeCtr ∧
    (putQueue fn fq x s).out = s.out ∧ (putQueue fn fq x s).ticks = s.ticks ∧ (putQueue fn fq x s).regs = s.regs ∧
    (putQueue fn fq x s).life = s.life ∧ (putQueue fn fq x s).link = s.link ∧ (putQueue fn fq x s).mon = s.mon ∧
    (putQueue fn fq x s).clk = s.clk ∧ (putQueue fn fq x s).pipe = s.pipe ∧ (putQueue fn fq x s).tab = s.tab ∧
    (putQueue fn fq x s).tm = s.tm ∧ (putQueue fn fq x s).plant = s.plant ∧ (putQueue fn fq x s).cx = s.cx ∧
    (putQueue fn fq x s).fc = s.fc ∧ (putQueue fn fq x s).st = s.st ∧ (putQueue fn fq x s).cg = s.cg ∧
    (putQueue fn fq x s).dram = s.dram :=
  ⟨rfl, rfl, rfl, rfl, rfl, rfl, rfl, rfl, rfl, rfl, rfl, rfl, rfl, rfl, rfl, rfl, rfl, rfl⟩

/-- What `putEvq` leaves. -/
@[simp] theorem putEvq_leaves (fn n : Nat) (x : Evq) (s : State) :
    (putEvq fn n x s).pending = s.pending ∧ (putEvq fn n x s).freeCtr = s.freeCtr ∧ (putEvq fn n x s).out = s.out ∧
    (putEvq fn n x s).ticks = s.ticks ∧ (putEvq fn n x s).regs = s.regs ∧ (putEvq fn n x s).life = s.life ∧
    (putEvq fn n x s).link = s.link ∧ (putEvq fn n x s).mon = s.mon ∧ (putEvq fn n x s).clk = s.clk ∧
    (putEvq fn n x s).pipe = s.pipe ∧ (putEvq fn n x s).tab = s.tab ∧ (putEvq fn n x s).tm = s.tm ∧
    (putEvq fn n x s).plant = s.plant ∧ (putEvq fn n x s).cx = s.cx ∧ (putEvq fn n x s).fc = s.fc ∧
    (putEvq fn n x s).st = s.st ∧ (putEvq fn n x s).cg = s.cg ∧ (putEvq fn n x s).dram = s.dram :=
  ⟨rfl, rfl, rfl, rfl, rfl, rfl, rfl, rfl, rfl, rfl, rfl, rfl, rfl, rfl, rfl, rfl, rfl, rfl⟩

/-- What `addToken` leaves. -/
@[simp] theorem addToken_leaves (d : Nat) (t : Word) (s : State) :
    (addToken d t s).pending = s.pending ∧ (addToken d t s).freeCtr = s.freeCtr ∧ (addToken d t s).out = s.out ∧
    (addToken d t s).ticks = s.ticks ∧ (addToken d t s).regs = s.regs ∧ (addToken d t s).life = s.life ∧
    (addToken d t s).link = s.link ∧ (addToken d t s).q = s.q ∧ (addToken d t s).im = s.im ∧
    (addToken d t s).mon = s.mon ∧ (addToken d t s).clk = s.clk ∧ (addToken d t s).pipe = s.pipe ∧
    (addToken d t s).tab = s.tab ∧ (addToken d t s).tm = s.tm ∧ (addToken d t s).plant = s.plant ∧
    (addToken d t s).cx = s.cx ∧ (addToken d t s).fc = s.fc ∧ (addToken d t s).st = s.st ∧
    (addToken d t s).dram = s.dram :=
  ⟨rfl, rfl, rfl, rfl, rfl, rfl, rfl, rfl, rfl, rfl, rfl, rfl, rfl, rfl, rfl, rfl, rfl, rfl, rfl⟩

/-- What `dropWaiting` leaves. -/
@[simp] theorem dropWaiting_leaves (fn fq : Nat) (idx : BitVec 32) (s : State) :
    (dropWaiting fn fq idx s).pending = s.pending ∧ (dropWaiting fn fq idx s).freeCtr = s.freeCtr ∧
    (dropWaiting fn fq idx s).out = s.out ∧ (dropWaiting fn fq idx s).ticks = s.ticks ∧
    (dropWaiting fn fq idx s).regs = s.regs ∧ (dropWaiting fn fq idx s).life = s.life ∧
    (dropWaiting fn fq idx s).link = s.link ∧ (dropWaiting fn fq idx s).q = s.q ∧
    (dropWaiting fn fq idx s).im = s.im ∧ (dropWaiting fn fq idx s).mon = s.mon ∧
    (dropWaiting fn fq idx s).clk = s.clk ∧ (dropWaiting fn fq idx s).pipe = s.pipe ∧
    (dropWaiting fn fq idx s).tab = s.tab ∧ (dropWaiting fn fq idx s).tm = s.tm ∧
    (dropWaiting fn fq idx s).plant = s.plant ∧ (dropWaiting fn fq idx s).cx = s.cx ∧
    (dropWaiting fn fq idx s).fc = s.fc ∧ (dropWaiting fn fq idx s).st = s.st ∧
    (dropWaiting fn fq idx s).dram = s.dram :=
  ⟨rfl, rfl, rfl, rfl, rfl, rfl, rfl, rfl, rfl, rfl, rfl, rfl, rfl, rfl, rfl, rfl, rfl, rfl, rfl⟩

/-- What `putCore` leaves. -/
@[simp] theorem putCore_leaves (c : Nat) (x : CoreSt) (s : State) :
    (putCore c x s).pending = s.pending ∧ (putCore c x s).freeCtr = s.freeCtr ∧ (putCore c x s).out = s.out ∧
    (putCore c x s).ticks = s.ticks ∧ (putCore c x s).regs = s.regs ∧ (putCore c x s).life = s.life ∧
    (putCore c x s).link = s.link ∧ (putCore c x s).q = s.q ∧ (putCore c x s).im = s.im ∧
    (putCore c x s).mon = s.mon ∧ (putCore c x s).clk = s.clk ∧ (putCore c x s).pipe = s.pipe ∧
    (putCore c x s).tab = s.tab ∧ (putCore c x s).tm = s.tm ∧ (putCore c x s).plant = s.plant ∧
    (putCore c x s).cx = s.cx ∧ (putCore c x s).st = s.st ∧ (putCore c x s).cg = s.cg ∧
    (putCore c x s).dram = s.dram :=
  ⟨rfl, rfl, rfl, rfl, rfl, rfl, rfl, rfl, rfl, rfl, rfl, rfl, rfl, rfl, rfl, rfl, rfl, rfl, rfl⟩

/-- What `putElog` leaves. -/
@[simp] theorem putElog_leaves (i : Nat) (x : ELog) (s : State) :
    (putElog i x s).pending = s.pending ∧ (putElog i x s).freeCtr = s.freeCtr ∧ (putElog i x s).out = s.out ∧
    (putElog i x s).ticks = s.ticks ∧ (putElog i x s).regs = s.regs ∧ (putElog i x s).life = s.life ∧
    (putElog i x s).link = s.link ∧ (putElog i x s).q = s.q ∧ (putElog i x s).im = s.im ∧
    (putElog i x s).mon = s.mon ∧ (putElog i x s).clk = s.clk ∧ (putElog i x s).pipe = s.pipe ∧
    (putElog i x s).tab = s.tab ∧ (putElog i x s).tm = s.tm ∧ (putElog i x s).plant = s.plant ∧
    (putElog i x s).cx = s.cx ∧ (putElog i x s).fc = s.fc ∧ (putElog i x s).cg = s.cg ∧
    (putElog i x s).dram = s.dram :=
  ⟨rfl, rfl, rfl, rfl, rfl, rfl, rfl, rfl, rfl, rfl, rfl, rfl, rfl, rfl, rfl, rfl, rfl, rfl, rfl⟩

/-- What `putSweepDue` leaves. -/
@[simp] theorem putSweepDue_leaves (k t : Nat) (s : State) :
    (putSweepDue k t s).pending = s.pending ∧ (putSweepDue k t s).freeCtr = s.freeCtr ∧
    (putSweepDue k t s).out = s.out ∧ (putSweepDue k t s).ticks = s.ticks ∧ (putSweepDue k t s).regs = s.regs ∧
    (putSweepDue k t s).life = s.life ∧ (putSweepDue k t s).link = s.link ∧ (putSweepDue k t s).im = s.im ∧
    (putSweepDue k t s).mon = s.mon ∧ (putSweepDue k t s).clk = s.clk ∧ (putSweepDue k t s).pipe = s.pipe ∧
    (putSweepDue k t s).tab = s.tab ∧ (putSweepDue k t s).tm = s.tm ∧ (putSweepDue k t s).plant = s.plant ∧
    (putSweepDue k t s).cx = s.cx ∧ (putSweepDue k t s).fc = s.fc ∧ (putSweepDue k t s).st = s.st ∧
    (putSweepDue k t s).cg = s.cg ∧ (putSweepDue k t s).dram = s.dram :=
  ⟨rfl, rfl, rfl, rfl, rfl, rfl, rfl, rfl, rfl, rfl, rfl, rfl, rfl, rfl, rfl, rfl, rfl, rfl, rfl⟩

/-- What `putSched` leaves. -/
@[simp] theorem putSched_leaves (n : Nat) (x : Sched) (s : State) :
    (putSched n x s).pending = s.pending ∧ (putSched n x s).freeCtr = s.freeCtr ∧ (putSched n x s).out = s.out ∧
    (putSched n x s).ticks = s.ticks ∧ (putSched n x s).regs = s.regs ∧ (putSched n x s).life = s.life ∧
    (putSched n x s).link = s.link ∧ (putSched n x s).q = s.q ∧ (putSched n x s).im = s.im ∧
    (putSched n x s).mon = s.mon ∧ (putSched n x s).clk = s.clk ∧ (putSched n x s).pipe = s.pipe ∧
    (putSched n x s).tab = s.tab ∧ (putSched n x s).tm = s.tm ∧ (putSched n x s).cx = s.cx ∧
    (putSched n x s).fc = s.fc ∧ (putSched n x s).st = s.st ∧ (putSched n x s).cg = s.cg ∧
    (putSched n x s).dram = s.dram :=
  ⟨rfl, rfl, rfl, rfl, rfl, rfl, rfl, rfl, rfl, rfl, rfl, rfl, rfl, rfl, rfl, rfl, rfl, rfl, rfl⟩

/-- What `putImage` leaves. -/
@[simp] theorem putImage_leaves (i : Nat) (x : Image) (s : State) :
    (putImage i x s).pending = s.pending ∧ (putImage i x s).freeCtr = s.freeCtr ∧ (putImage i x s).out = s.out ∧
    (putImage i x s).ticks = s.ticks ∧ (putImage i x s).regs = s.regs ∧ (putImage i x s).life = s.life ∧
    (putImage i x s).link = s.link ∧ (putImage i x s).q = s.q ∧ (putImage i x s).im = s.im ∧
    (putImage i x s).mon = s.mon ∧ (putImage i x s).clk = s.clk ∧ (putImage i x s).pipe = s.pipe ∧
    (putImage i x s).tab = s.tab ∧ (putImage i x s).tm = s.tm ∧ (putImage i x s).cx = s.cx ∧
    (putImage i x s).fc = s.fc ∧ (putImage i x s).st = s.st ∧ (putImage i x s).cg = s.cg ∧
    (putImage i x s).dram = s.dram :=
  ⟨rfl, rfl, rfl, rfl, rfl, rfl, rfl, rfl, rfl, rfl, rfl, rfl, rfl, rfl, rfl, rfl, rfl, rfl, rfl⟩

/-- What `writeBack` leaves. -/
@[simp] theorem writeBack_leaves (i off : Nat) (b : Bytes) (s : State) :
    (writeBack i off b s).pending = s.pending ∧ (writeBack i off b s).freeCtr = s.freeCtr ∧
    (writeBack i off b s).out = s.out ∧ (writeBack i off b s).ticks = s.ticks ∧ (writeBack i off b s).regs = s.regs ∧
    (writeBack i off b s).life = s.life ∧ (writeBack i off b s).link = s.link ∧ (writeBack i off b s).q = s.q ∧
    (writeBack i off b s).im = s.im ∧ (writeBack i off b s).mon = s.mon ∧ (writeBack i off b s).clk = s.clk ∧
    (writeBack i off b s).pipe = s.pipe ∧ (writeBack i off b s).tab = s.tab ∧ (writeBack i off b s).tm = s.tm ∧
    (writeBack i off b s).plant = s.plant ∧ (writeBack i off b s).cx = s.cx ∧ (writeBack i off b s).fc = s.fc ∧
    (writeBack i off b s).st = s.st ∧ (writeBack i off b s).cg = s.cg :=
  ⟨rfl, rfl, rfl, rfl, rfl, rfl, rfl, rfl, rfl, rfl, rfl, rfl, rfl, rfl, rfl, rfl, rfl, rfl, rfl⟩

/-- What `putDelivering` leaves. -/
@[simp] theorem putDelivering_leaves (k : Nat) (l : List Nat) (s : State) :
    (putDelivering k l s).pending = s.pending ∧ (putDelivering k l s).freeCtr = s.freeCtr ∧
    (putDelivering k l s).out = s.out ∧ (putDelivering k l s).ticks = s.ticks ∧ (putDelivering k l s).regs = s.regs ∧
    (putDelivering k l s).life = s.life ∧ (putDelivering k l s).link = s.link ∧ (putDelivering k l s).q = s.q ∧
    (putDelivering k l s).im = s.im ∧ (putDelivering k l s).mon = s.mon ∧ (putDelivering k l s).clk = s.clk ∧
    (putDelivering k l s).pipe = s.pipe ∧ (putDelivering k l s).tab = s.tab ∧ (putDelivering k l s).plant = s.plant ∧
    (putDelivering k l s).cx = s.cx ∧ (putDelivering k l s).fc = s.fc ∧ (putDelivering k l s).st = s.st ∧
    (putDelivering k l s).cg = s.cg ∧ (putDelivering k l s).dram = s.dram :=
  ⟨rfl, rfl, rfl, rfl, rfl, rfl, rfl, rfl, rfl, rfl, rfl, rfl, rfl, rfl, rfl, rfl, rfl, rfl, rfl⟩

/-- What `addRx` leaves. -/
@[simp] theorem addRx_leaves (r : PlantRx) (s : State) :
    (addRx r s).pending = s.pending ∧ (addRx r s).freeCtr = s.freeCtr ∧ (addRx r s).out = s.out ∧
    (addRx r s).ticks = s.ticks ∧ (addRx r s).regs = s.regs ∧ (addRx r s).life = s.life ∧ (addRx r s).link = s.link ∧
    (addRx r s).q = s.q ∧ (addRx r s).im = s.im ∧ (addRx r s).mon = s.mon ∧ (addRx r s).clk = s.clk ∧
    (addRx r s).pipe = s.pipe ∧ (addRx r s).tab = s.tab ∧ (addRx r s).tm = s.tm ∧ (addRx r s).cx = s.cx ∧
    (addRx r s).fc = s.fc ∧ (addRx r s).st = s.st ∧ (addRx r s).cg = s.cg ∧ (addRx r s).dram = s.dram :=
  ⟨rfl, rfl, rfl, rfl, rfl, rfl, rfl, rfl, rfl, rfl, rfl, rfl, rfl, rfl, rfl, rfl, rfl, rfl, rfl⟩

/-- What `putCb` leaves. -/
@[simp] theorem putCb_leaves (h : Nat) (x : CbFn) (s : State) :
    (putCb h x s).pending = s.pending ∧ (putCb h x s).freeCtr = s.freeCtr ∧ (putCb h x s).out = s.out ∧
    (putCb h x s).ticks = s.ticks ∧ (putCb h x s).regs = s.regs ∧ (putCb h x s).life = s.life ∧
    (putCb h x s).link = s.link ∧ (putCb h x s).q = s.q ∧ (putCb h x s).im = s.im ∧ (putCb h x s).mon = s.mon ∧
    (putCb h x s).clk = s.clk ∧ (putCb h x s).pipe = s.pipe ∧ (putCb h x s).tab = s.tab ∧ (putCb h x s).tm = s.tm ∧
    (putCb h x s).cx = s.cx ∧ (putCb h x s).fc = s.fc ∧ (putCb h x s).st = s.st ∧ (putCb h x s).cg = s.cg ∧
    (putCb h x s).dram = s.dram :=
  ⟨rfl, rfl, rfl, rfl, rfl, rfl, rfl, rfl, rfl, rfl, rfl, rfl, rfl, rfl, rfl, rfl, rfl, rfl, rfl⟩

/-- What `mapRx` leaves. -/
@[simp] theorem mapRx_leaves (f : Nat) (g : PlantRx → PlantRx) (s : State) :
    (mapRx f g s).pending = s.pending ∧ (mapRx f g s).freeCtr = s.freeCtr ∧ (mapRx f g s).out = s.out ∧
    (mapRx f g s).ticks = s.ticks ∧ (mapRx f g s).regs = s.regs ∧ (mapRx f g s).life = s.life ∧
    (mapRx f g s).link = s.link ∧ (mapRx f g s).q = s.q ∧ (mapRx f g s).im = s.im ∧ (mapRx f g s).mon = s.mon ∧
    (mapRx f g s).clk = s.clk ∧ (mapRx f g s).pipe = s.pipe ∧ (mapRx f g s).tab = s.tab ∧ (mapRx f g s).tm = s.tm ∧
    (mapRx f g s).cx = s.cx ∧ (mapRx f g s).fc = s.fc ∧ (mapRx f g s).st = s.st ∧ (mapRx f g s).cg = s.cg ∧
    (mapRx f g s).dram = s.dram :=
  ⟨rfl, rfl, rfl, rfl, rfl, rfl, rfl, rfl, rfl, rfl, rfl, rfl, rfl, rfl, rfl, rfl, rfl, rfl, rfl⟩

/-- What `dropRx` leaves. -/
@[simp] theorem dropRx_leaves (f : Nat) (s : State) :
    (dropRx f s).pending = s.pending ∧ (dropRx f s).freeCtr = s.freeCtr ∧ (dropRx f s).out = s.out ∧
    (dropRx f s).ticks = s.ticks ∧ (dropRx f s).regs = s.regs ∧ (dropRx f s).life = s.life ∧
    (dropRx f s).link = s.link ∧ (dropRx f s).q = s.q ∧ (dropRx f s).im = s.im ∧ (dropRx f s).mon = s.mon ∧
    (dropRx f s).clk = s.clk ∧ (dropRx f s).pipe = s.pipe ∧ (dropRx f s).tab = s.tab ∧ (dropRx f s).tm = s.tm ∧
    (dropRx f s).cx = s.cx ∧ (dropRx f s).fc = s.fc ∧ (dropRx f s).st = s.st ∧ (dropRx f s).cg = s.cg ∧
    (dropRx f s).dram = s.dram :=
  ⟨rfl, rfl, rfl, rfl, rfl, rfl, rfl, rfl, rfl, rfl, rfl, rfl, rfl, rfl, rfl, rfl, rfl, rfl, rfl⟩

end Sys2Proof.Machine
end

