-- ==== Sys2Proof/Laws/Start.lean ====
section
/-! SUPPORT. Laws of the entries to stage 0 and 1, of the event log and of the outputs. -/
set_option Elab.async false
namespace Sys2Proof.Machine

/-- An entry to stage 0 or 1, with its outputs made first. -/
theorem enterStage1_eq (l : Life) (k : Link) (s : State) :
    enterStage1 l k s = (fun u => pairsReset l
      { State.darkWith l.fuses with
        pending := u.pending, freeCtr := u.freeCtr, out := u.out, life := l, link := k,
        fc := { FlowCores.reset with threads := keptThreads u.fc.threads },
        st := { Storage.reset with bays := baysReset u } }) (dropBays (cutPair 1 (cutPair 0 s))) := rfl

@[simp] theorem enterStage1_life (l : Life) (k : Link) (s : State) : (enterStage1 l k s).life = l := rfl
@[simp] theorem enterStage1_link (l : Life) (k : Link) (s : State) : (enterStage1 l k s).link = k := rfl

/-- The threads kept over an entry to stage 1 hold nothing but their registers. -/
theorem keptThreads_regs (ts : Tab Thread) : ∀ e ∈ keptThreads ts, e.2 = { Thread.reset with regs := e.2.regs } := by
  intro e h
  simp only [keptThreads, List.mem_filter, List.mem_map] at h
  obtain ⟨⟨x, _, rfl⟩, _⟩ := h
  rfl

/-- An entry to stage 0 or 1 leaves the block cleared. -/
theorem enterStage1_cleared (l : Life) (k : Link) (s : State) : (enterStage1 l k s).cleared := by
  rw [enterStage1_eq]
  generalize dropBays (cutPair 1 (cutPair 0 s)) = u
  exact ⟨rfl, rfl, rfl, rfl, rfl, rfl, rfl, rfl, rfl, keptThreads_regs _, rfl, rfl, rfl, rfl⟩

@[simp] theorem cutEgress_pending (p : PPort) (s : State) : (cutEgress p s).pending = s.pending := by
  unfold cutEgress; split <;> rfl

@[simp] theorem cutPair_pending (p : Nat) (s : State) : (cutPair p s).pending = s.pending := by
  unfold cutPair; split <;> simp

theorem foldl_pending {α : Type} (f : State → α → State) (h : ∀ u x, (f u x).pending = u.pending) (l : List α) (s : State) :
    (l.foldl f s).pending = s.pending := by
  induction l generalizing s with
  | nil => rfl
  | cons x xs ih => rw [List.foldl_cons, ih, h]

@[simp] theorem dropBays_pending (s : State) : (dropBays s).pending = s.pending := by
  unfold dropBays
  apply foldl_pending
  intro u x; split <;> rfl

@[simp] theorem enterStage1_pending (l : Life) (k : Link) (s : State) : (enterStage1 l k s).pending = s.pending := by
  rw [enterStage1_eq]
  have h : (dropBays (cutPair 1 (cutPair 0 s))).pending = s.pending := by simp
  generalize dropBays (cutPair 1 (cutPair 0 s)) = u at h ⊢
  exact h

/-- Posting an entry changes no start state. -/
@[simp] theorem signalMsix_life (fn : Fn) (v : Nat) (s : State) : (signalMsix fn v s).life = s.life := by
  unfold signalMsix; split
  · split <;> rfl
  · rfl

@[simp] theorem signalLog_life (s : State) : (signalLog s).life = s.life := by
  unfold signalLog
  cases s.link.logSignalled with
  | none => exact signalMsix_life ..
  | some t => simp only; split
              · exact signalMsix_life ..
              · rfl

@[simp] theorem postLogAt_life (c k b : Nat) (x y z : Word) (s : State) : (postLogAt c k b x y z s).life = s.life := by
  unfold postLogAt; simp only [signalLog_life, putReg_leaves]

@[simp] theorem postLog_life (c k b : Nat) (x y : Word) (s : State) : (postLog c k b x y s).life = s.life :=
  postLogAt_life ..

@[simp] theorem addErrAt_life (o l n : Nat) (s : State) : (addErrAt o l n s).life = s.life := by
  unfold addErrAt; simp only; split <;> simp

@[simp] theorem aerHeaderLog_life (fn : Fn) (a : Aer) (s : State) : (aerHeaderLog fn a s).life = s.life := by
  unfold aerHeaderLog; simp only; split <;> simp

@[simp] theorem aerRecord_life (a : Aer) (fn : Fn) (s : State) : (aerRecord a fn s).life = s.life :=
  aerHeaderLog_life ..

@[simp] theorem aerReport_life (fn : Fn) (a : Aer) (s : State) : (aerReport fn a s).life = s.life := by
  unfold aerReport; simp only; split <;> simp

@[simp] theorem pageChanged_life (fn : Nat) (s : State) : (pageChanged fn s).life = s.life := by
  unfold pageChanged; split <;> simp

@[simp] theorem readFailure_life (fn : Fn) (a : Nat) (r : Read) (s : State) : (readFailure fn a r s).life = s.life := by
  cases r <;> simp [readFailure]

@[simp] theorem dmaFailEntry_life (fn : Fn) (a : Nat) (r : Read) (s : State) : (dmaFailEntry fn a r s).life = s.life := by
  cases r <;> simp [dmaFailEntry]

/-- A signalled vector changes no register. -/
@[simp] theorem signalMsix_regs (fn : Fn) (v : Nat) (s : State) : (signalMsix fn v s).regs = s.regs := by
  unfold signalMsix; split
  · split <;> rfl
  · rfl

@[simp] theorem pageChanged_regs (fn : Nat) (s : State) : (pageChanged fn s).regs = s.regs := by
  unfold pageChanged; split <;> simp

end Sys2Proof.Machine
end

