-- ==== Sys2Proof/Laws/KeepsOps.lean ====
section
/-! SUPPORT. The operations and commands of the shared operations, tables, queues, resets and the start: each keeps what `Keeps` says. -/
set_option Elab.async false
namespace Sys2Proof.Machine

/-! ### Machine/Ops.lean -/

theorem useFree_keeps {M : Nat} {s0 s : State} (hs : Keeps M s0 s) (hM : Within 0x1 M) : Keeps M s0 (useFree s) := by
  unfold useFree
  with_reducible repeat' first
          | assumption | exact hM.sub rfl | apply Keeps.upd | rfl | exact .inr rfl | exact .inl (hM.sub rfl)

theorem putF_keeps {M : Nat} {s0 s : State} (off lo len v : Nat) (hs : Keeps M s0 s) (hM : Within 0x4 M) :
    Keeps M s0 (putF off lo len v s) := by
  unfold putF
  with_reducible repeat' first | assumption | exact hM.sub rfl | apply putReg_keeps

theorem putB_keeps {M : Nat} {s0 s : State} (off i : Nat) (b : Bool) (hs : Keeps M s0 s) (hM : Within 0x4 M) :
    Keeps M s0 (putB off i b s) := by
  unfold putB
  with_reducible repeat' first | assumption | exact hM.sub rfl | apply putReg_keeps

theorem putCfg_keeps {M : Nat} {s0 s : State} (fn : Nat) (c : FnCfg) (hs : Keeps M s0 s) (hM : Within 0x20 M) :
    Keeps M s0 (putCfg fn c s) := by
  unfold putCfg
  try dsimp only
  with_reducible repeat' first
          | assumption | exact hM.sub rfl | dsimp only | apply Keeps.upd | rfl | exact .inr rfl | exact .inl (hM.sub rfl)

theorem linkBusy_keeps {M : Nat} {s0 s : State} (hs : Keeps M s0 s) (hM : Within 0x80 M) : Keeps M s0 (linkBusy s) := by
  unfold linkBusy
  with_reducible repeat' first
          | assumption | exact hM.sub rfl | apply Keeps.upd | rfl | exact .inr rfl | exact .inl (hM.sub rfl)

theorem tlpDropped_keeps {M : Nat} {s0 s : State} (hs : Keeps M s0 s) (hM : Within 0x80 M) : Keeps M s0 (tlpDropped s) := by
  unfold tlpDropped
  with_reducible repeat' first | assumption | exact hM.sub rfl | apply linkBusy_keeps | split

theorem setupWrite_keeps {M : Nat} {s0 s : State} (f : State → State) (hf : ∀ u, Keeps M s0 u → Keeps M s0 (f u)) (hs : Keeps M s0 s) (hM : Within 0x80 M) :
    Keeps M s0 (setupWrite s f) := by
  unfold setupWrite
  with_reducible repeat' first
          | assumption | exact hM.sub rfl | apply hf | apply linkBusy_keeps | apply tlpDropped_keeps | split

theorem putMsixPending_keeps {M : Nat} {s0 s : State} (fn v : Nat) (b : Bool) (hs : Keeps M s0 s) (hM : Within 0x40 M) :
    Keeps M s0 (putMsixPending fn v b s) := by
  unfold putMsixPending
  with_reducible repeat' first
          | assumption | exact hM.sub rfl | apply Keeps.upd | rfl | exact .inr rfl | exact .inl (hM.sub rfl)

theorem signalMsix_keeps {M : Nat} {s0 s : State} (fn : Fn) (v : Nat) (hs : Keeps M s0 s) (hM : Within 0xc0 M) :
    Keeps M s0 (signalMsix fn v s) := by
  unfold signalMsix
  with_reducible repeat' first
          | assumption | exact hM.sub rfl | apply emit_keeps | apply linkBusy_keeps | apply putMsixPending_keeps | split

theorem flushMsix_keeps {M : Nat} {s0 s : State} (fn : Fn) (hs : Keeps M s0 s) (hM : Within 0xc0 M) :
    Keeps M s0 (flushMsix fn s) := by
  unfold flushMsix
  try dsimp only
  with_reducible repeat' first
          | assumption | exact hM.sub rfl | intro _ | apply putMsixPending_keeps | apply signalMsix_keeps | dsimp only
          | apply Keeps.foldl | split

theorem pageChanged_keeps {M : Nat} {s0 s : State} (fn : Nat) (hs : Keeps M s0 s) (hM : Within 0xc0 M) :
    Keeps M s0 (pageChanged fn s) := by
  unfold pageChanged
  try dsimp only
  with_reducible repeat' first
          | assumption | exact hM.sub rfl | apply signalMsix_keeps | dsimp only | split | apply Keeps.upd | rfl
          | exact .inr rfl | exact .inl (hM.sub rfl)

theorem pageIf_keeps {M : Nat} {s0 s : State} (changed : Bool) (fn : Nat) (hs : Keeps M s0 s) (hM : Within 0xc0 M) :
    Keeps M s0 (pageIf changed fn s) := by
  unfold pageIf
  with_reducible repeat' first | assumption | exact hM.sub rfl | apply pageChanged_keeps | split

theorem signalLog_keeps {M : Nat} {s0 s : State} (hs : Keeps M s0 s) (hM : Within 0xc0 M) : Keeps M s0 (signalLog s) := by
  unfold signalLog
  try dsimp only
  with_reducible repeat' first
          | assumption | exact hM.sub rfl | apply signalMsix_keeps | dsimp only | split | apply Keeps.upd | rfl
          | exact .inr rfl | exact .inl (hM.sub rfl)

theorem postLogAt_keeps {M : Nat} {s0 s : State} (code cls block : Nat) (arg0 arg1 time : Word) (hs : Keeps M s0 s) (hM : Within 0xc4 M) :
    Keeps M s0 (postLogAt code cls block arg0 arg1 time s) := by
  unfold postLogAt
  try dsimp only
  with_reducible repeat' first
          | assumption | exact hM.sub rfl | apply putReg_keeps | apply signalLog_keeps | dsimp only

theorem postLog_keeps {M : Nat} {s0 s : State} (code cls block : Nat) (arg0 arg1 : Word) (hs : Keeps M s0 s) (hM : Within 0xc4 M) :
    Keeps M s0 (postLog code cls block arg0 arg1 s) := by
  unfold postLog
  with_reducible repeat' first | assumption | exact hM.sub rfl | apply postLogAt_keeps

theorem addStat_keeps {M : Nat} {s0 s : State} (off n : Nat) (hs : Keeps M s0 s) (hM : Within 0x4 M) :
    Keeps M s0 (addStat off n s) := by
  unfold addStat
  with_reducible repeat' first | assumption | exact hM.sub rfl | apply putReg_keeps

theorem addErrAt_keeps {M : Nat} {s0 s : State} (off lo n : Nat) (hs : Keeps M s0 s) (hM : Within 0xc4 M) :
    Keeps M s0 (addErrAt off lo n s) := by
  unfold addErrAt
  try dsimp only
  with_reducible repeat' first
          | assumption | exact hM.sub rfl | apply putF_keeps | apply postLog_keeps | dsimp only | split

theorem addErr_keeps {M : Nat} {s0 s : State} (off n : Nat) (hs : Keeps M s0 s) (hM : Within 0xc4 M) :
    Keeps M s0 (addErr off n s) := by
  unfold addErr
  with_reducible repeat' first | assumption | exact hM.sub rfl | apply addErrAt_keeps

theorem countUnmapped_keeps {M : Nat} {s0 s : State} (off : Nat) (hs : Keeps M s0 s) (hM : Within 0xc4 M) :
    Keeps M s0 (countUnmapped off s) := by
  unfold countUnmapped
  with_reducible repeat' first | assumption | exact hM.sub rfl | apply addErr_keeps | split

theorem aerBits_keeps {M : Nat} {s0 s : State} (fn : Fn) (unc cor : BitVec 32) (hs : Keeps M s0 s) (hM : Within 0x20 M) :
    Keeps M s0 (aerBits fn unc cor s) := by
  unfold aerBits
  try dsimp only
  with_reducible repeat' first | assumption | exact hM.sub rfl | apply putCfg_keeps | dsimp only

theorem aerHeaderLog_keeps {M : Nat} {s0 s : State} (fn : Fn) (a : Aer) (hs : Keeps M s0 s) (hM : Within 0x21 M) :
    Keeps M s0 (aerHeaderLog fn a s) := by
  unfold aerHeaderLog
  try dsimp only
  with_reducible repeat' first
          | assumption | exact hM.sub rfl | apply useFree_keeps | apply putCfg_keeps | dsimp only | split

theorem aerRecord_keeps {M : Nat} {s0 s : State} (a : Aer) (fn : Fn) (hs : Keeps M s0 s) (hM : Within 0x21 M) :
    Keeps M s0 (aerRecord a fn s) := by
  unfold aerRecord
  with_reducible repeat' first | assumption | exact hM.sub rfl | apply aerBits_keeps | apply aerHeaderLog_keeps

theorem aerReport_keeps {M : Nat} {s0 s : State} (fn : Fn) (a : Aer) (hs : Keeps M s0 s) (hM : Within 0xa1 M) :
    Keeps M s0 (aerReport fn a s) := by
  unfold aerReport
  try dsimp only
  with_reducible repeat' first
          | assumption | exact hM.sub rfl | apply emit_keeps | apply linkBusy_keeps | apply aerRecord_keeps | dsimp only | split

theorem aerLink_keeps {M : Nat} {s0 s : State} (a : Aer) (hs : Keeps M s0 s) (hM : Within 0xa1 M) :
    Keeps M s0 (aerLink a s) := by
  unfold aerLink
  try dsimp only
  with_reducible repeat' first
          | assumption | exact hM.sub rfl | intro _ | apply emit_keeps | apply linkBusy_keeps | apply aerRecord_keeps
          | dsimp only | apply Keeps.foldl | split

theorem correctable_keeps {M : Nat} {s0 s : State} (off : Nat) (hs : Keeps M s0 s) (hM : Within 0xe5 M) :
    Keeps M s0 (correctable off s) := by
  unfold correctable
  with_reducible repeat' first | assumption | exact hM.sub rfl | apply addErr_keeps | apply aerReport_keeps

theorem eccCount_keeps {M : Nat} {s0 s : State} (dram : Bool) (e : Ecc) (hs : Keeps M s0 s) (hM : Within 0xe5 M) :
    Keeps M s0 (eccCount dram e s) := by
  unfold eccCount
  with_reducible repeat' first | assumption | exact hM.sub rfl | apply correctable_keeps | split

theorem arrayError_keeps {M : Nat} {s0 s : State} (block structure_ : Nat) (offset : Nat) (hs : Keeps M s0 s) (hM : Within 0xc4 M) :
    Keeps M s0 (arrayError block structure_ offset s) := by
  unfold arrayError
  with_reducible repeat' first
          | assumption | exact hM.sub rfl | apply postLog_keeps | apply addErrAt_keeps | apply addErr_keeps

theorem readFailure_keeps {M : Nat} {s0 s : State} (fn : Fn) (addr : Nat) (r : Read) (hs : Keeps M s0 s) (hM : Within 0xe5 M) :
    Keeps M s0 (readFailure fn addr r s) := by
  unfold readFailure
  with_reducible repeat' first
          | assumption | exact hM.sub rfl | apply postLog_keeps | apply aerReport_keeps | split

theorem dmaFailEntry_keeps {M : Nat} {s0 s : State} (fn : Fn) (addr : Nat) (r : Read) (hs : Keeps M s0 s) (hM : Within 0xc4 M) :
    Keeps M s0 (dmaFailEntry fn addr r s) := by
  unfold dmaFailEntry
  with_reducible repeat' first | assumption | exact hM.sub rfl | apply postLog_keeps | split

theorem issueTagged_keeps {M : Nat} {s0 s : State} (fn : Fn) (pasid : Option (BitVec 20)) (addr len : Nat) (w : ReadWork) (tag : BitVec 14) (hs : Keeps M s0 s) (hM : Within 0x80 M) :
    Keeps M s0 (issueTagged fn pasid addr len w tag s) := by
  unfold issueTagged
  try dsimp only
  with_reducible repeat' first
          | assumption | exact hM.sub rfl | apply emit_keeps | apply linkBusy_keeps | apply hostRead_keeps | dsimp only
          | split | apply Keeps.upd | rfl | exact .inr rfl | exact .inl (hM.sub rfl)

theorem hostRead_keeps {M : Nat} {s0 s : State} (fn : Fn) (pasid : Option (BitVec 20)) (addr len : Nat) (w : ReadWork) (hs : Keeps M s0 s) (hM : Within 0x80 M) :
    Keeps M s0 (hostRead fn pasid addr len w s) := by
  unfold hostRead
  with_reducible repeat' first
          | assumption | exact hM.sub rfl | apply issueTagged_keeps | split | apply Keeps.upd | rfl | exact .inr rfl
          | exact .inl (hM.sub rfl)

theorem issueWaiting_keeps {M : Nat} {s0 s : State} (fn : Fn) (hs : Keeps M s0 s) (hM : Within 0x80 M) :
    Keeps M s0 (issueWaiting fn s) := by
  unfold issueWaiting
  try dsimp only
  with_reducible repeat' first
          | assumption | exact hM.sub rfl | apply issueTagged_keeps | dsimp only | split | apply Keeps.upd | rfl
          | exact .inr rfl | exact .inl (hM.sub rfl)

theorem hostReadDone_keeps {M : Nat} {s0 s : State} (fn : Fn) (w : ReadWork) (hs : Keeps M s0 s) (hM : Within 0x80 M) :
    Keeps M s0 (hostReadDone fn w s) := by
  unfold hostReadDone
  try dsimp only
  with_reducible repeat' first
          | assumption | exact hM.sub rfl | apply issueWaiting_keeps | dsimp only | apply Keeps.upd | rfl | exact .inr rfl
          | exact .inl (hM.sub rfl)

theorem dropTagWaits_keeps {M : Nat} {s0 s : State} (fn : Fn) (hs : Keeps M s0 s) (hM : Within 0x80 M) :
    Keeps M s0 (dropTagWaits fn s) := by
  unfold dropTagWaits
  try dsimp only
  with_reducible repeat' first
          | assumption | exact hM.sub rfl | dsimp only | apply Keeps.upd | rfl | exact .inr rfl | exact .inl (hM.sub rfl)

theorem hostWrite_keeps {M : Nat} {s0 s : State} (fn : Fn) (pasid : Option (BitVec 20)) (ro : Bool) (addr : Nat) (data : Bytes) (hs : Keeps M s0 s) (hM : Within 0x80 M) :
    Keeps M s0 (hostWrite fn pasid ro addr data s) := by
  unfold hostWrite
  with_reducible repeat' first | assumption | exact hM.sub rfl | apply emit_keeps | apply linkBusy_keeps

/-! ### Machine/Frames.lean -/

theorem putPipe_keeps {M : Nat} {s0 s : State} (pl : Nat) (p : Pipe) (hs : Keeps M s0 s) (hM : Within 0x4000 M) :
    Keeps M s0 (putPipe pl p s) := by
  unfold putPipe
  try dsimp only
  with_reducible repeat' first
          | assumption | exact hM.sub rfl | dsimp only | apply Keeps.upd | rfl | exact .inr rfl | exact .inl (hM.sub rfl)

theorem putFrame_keeps {M : Nat} {s0 s : State} (f : Nat) (x : Frame) (hs : Keeps M s0 s) (hM : Within 0x2000 M) :
    Keeps M s0 (putFrame f x s) := by
  unfold putFrame
  with_reducible repeat' first
          | assumption | exact hM.sub rfl | apply Keeps.upd | rfl | exact .inr rfl | exact .inl (hM.sub rfl)

theorem dropFrameRec_keeps {M : Nat} {s0 s : State} (f : Nat) (hs : Keeps M s0 s) (hM : Within 0x2000 M) :
    Keeps M s0 (dropFrameRec f s) := by
  unfold dropFrameRec
  with_reducible repeat' first
          | assumption | exact hM.sub rfl | apply Keeps.upd | rfl | exact .inr rfl | exact .inl (hM.sub rfl)

theorem putUnit_keeps {M : Nat} {s0 s : State} (pl u : Nat) (x : ParseUnit) (hs : Keeps M s0 s) (hM : Within 0x4000 M) :
    Keeps M s0 (putUnit pl u x s) := by
  unfold putUnit
  try dsimp only
  with_reducible repeat' first | assumption | exact hM.sub rfl | apply putPipe_keeps | dsimp only

theorem putSrc_keeps {M : Nat} {s0 s : State} (pl src : Nat) (x : SourceQ) (hs : Keeps M s0 s) (hM : Within 0x4000 M) :
    Keeps M s0 (putSrc pl src x s) := by
  unfold putSrc
  try dsimp only
  with_reducible repeat' first | assumption | exact hM.sub rfl | apply putPipe_keeps | dsimp only

/-! ### Machine/Parse.lean -/

theorem unitMalformed_keeps {M : Nat} {s0 s : State} (pl unit fid : Nat) (f : Frame) (reason : BitVec 7) (hs : Keeps M s0 s) (hM : Within 0x6000 M) :
    Keeps M s0 (unitMalformed pl unit fid f reason s) := by
  unfold unitMalformed
  with_reducible repeat' first | assumption | exact hM.sub rfl | apply putFrame_keeps | apply putUnit_keeps

theorem abandonRun_keeps {M : Nat} {s0 s : State} (pl unit fid : Nat) (f : Frame) (u : ParseUnit) (reason : BitVec 7) (hs : Keeps M s0 s) (hM : Within 0x60c4 M) :
    Keeps M s0 (abandonRun pl unit fid f u reason s) := by
  unfold abandonRun
  try dsimp only
  with_reducible repeat' first
          | assumption | exact hM.sub rfl | apply addErr_keeps | apply putUnit_keeps | apply unitMalformed_keeps | dsimp only
          | split

theorem csError_keeps {M : Nat} {s0 s : State} (pl a : Nat) (hs : Keeps M s0 s) (hM : Within 0x40c4 M) :
    Keeps M s0 (csError pl a s) := by
  unfold csError
  try dsimp only
  with_reducible repeat' first
          | assumption | exact hM.sub rfl | apply putF_keeps | apply postLog_keeps | apply addErrAt_keeps
          | apply addErr_keeps | dsimp only | split | apply Keeps.upd | rfl | exact .inr rfl | exact .inl (hM.sub rfl)

theorem endWord_keeps {M : Nat} {s0 s : State} (pl unit fid : Nat) (f : Frame) (w : WordEnd) (hs : Keeps M s0 s) (hM : Within 0x6000 M) :
    Keeps M s0 (endWord pl unit fid f w s) := by
  unfold endWord
  with_reducible repeat' first
          | assumption | exact hM.sub rfl | apply putFrame_keeps | apply putUnit_keeps | apply unitMalformed_keeps | split

theorem wordActs_keeps {M : Nat} {s0 s : State} (op pl unit fid : Nat) (f : Frame) (u : ParseUnit) (m : MicroWord) (err : ParseErr) (hs : Keeps M s0 s) (hM : Within 0x60e5 M) :
    Keeps M s0 (wordActs op pl unit fid f u m err s) := by
  unfold wordActs
  try dsimp only
  with_reducible repeat' first
          | assumption | exact hM.sub rfl | apply putF_keeps | apply addErr_keeps | apply correctable_keeps
          | apply abandonRun_keeps | apply endWord_keeps | dsimp only | split

theorem parseWord_keeps {M : Nat} {s0 s : State} (op pl unit : Nat) (err : ParseErr) (hs : Keeps M s0 s) (hM : Within 0x60e5 M) :
    Keeps M s0 (parseWord op pl unit err s) := by
  unfold parseWord
  try dsimp only
  with_reducible repeat' first
          | assumption | exact hM.sub rfl | apply correctable_keeps | apply abandonRun_keeps | apply csError_keeps
          | apply wordActs_keeps | dsimp only | split

theorem execParseNop_keeps {M : Nat} {s0 s : State} (pl : Pl) (unit : Fin 32) (err : ParseErr) (hs : Keeps M s0 s) (hM : Within 0x60e5 M) :
    KeepsRes M s0 (execParseNop pl unit err s) := by
  unfold execParseNop
  with_reducible repeat' first | assumption | exact hM.sub rfl | apply KeepsRes.next | apply parseWord_keeps

theorem execParseMov_keeps {M : Nat} {s0 s : State} (pl : Pl) (unit : Fin 32) (err : ParseErr) (hs : Keeps M s0 s) (hM : Within 0x60e5 M) :
    KeepsRes M s0 (execParseMov pl unit err s) := by
  unfold execParseMov
  with_reducible repeat' first | assumption | exact hM.sub rfl | apply KeepsRes.next | apply parseWord_keeps

theorem execParseAdd_keeps {M : Nat} {s0 s : State} (pl : Pl) (unit : Fin 32) (err : ParseErr) (hs : Keeps M s0 s) (hM : Within 0x60e5 M) :
    KeepsRes M s0 (execParseAdd pl unit err s) := by
  unfold execParseAdd
  with_reducible repeat' first | assumption | exact hM.sub rfl | apply KeepsRes.next | apply parseWord_keeps

theorem execParseSub_keeps {M : Nat} {s0 s : State} (pl : Pl) (unit : Fin 32) (err : ParseErr) (hs : Keeps M s0 s) (hM : Within 0x60e5 M) :
    KeepsRes M s0 (execParseSub pl unit err s) := by
  unfold execParseSub
  with_reducible repeat' first | assumption | exact hM.sub rfl | apply KeepsRes.next | apply parseWord_keeps

theorem execParseAnd_keeps {M : Nat} {s0 s : State} (pl : Pl) (unit : Fin 32) (err : ParseErr) (hs : Keeps M s0 s) (hM : Within 0x60e5 M) :
    KeepsRes M s0 (execParseAnd pl unit err s) := by
  unfold execParseAnd
  with_reducible repeat' first | assumption | exact hM.sub rfl | apply KeepsRes.next | apply parseWord_keeps

theorem execParseOr_keeps {M : Nat} {s0 s : State} (pl : Pl) (unit : Fin 32) (err : ParseErr) (hs : Keeps M s0 s) (hM : Within 0x60e5 M) :
    KeepsRes M s0 (execParseOr pl unit err s) := by
  unfold execParseOr
  with_reducible repeat' first | assumption | exact hM.sub rfl | apply KeepsRes.next | apply parseWord_keeps

theorem execParseXor_keeps {M : Nat} {s0 s : State} (pl : Pl) (unit : Fin 32) (err : ParseErr) (hs : Keeps M s0 s) (hM : Within 0x60e5 M) :
    KeepsRes M s0 (execParseXor pl unit err s) := by
  unfold execParseXor
  with_reducible repeat' first | assumption | exact hM.sub rfl | apply KeepsRes.next | apply parseWord_keeps

theorem execParseShl_keeps {M : Nat} {s0 s : State} (pl : Pl) (unit : Fin 32) (err : ParseErr) (hs : Keeps M s0 s) (hM : Within 0x60e5 M) :
    KeepsRes M s0 (execParseShl pl unit err s) := by
  unfold execParseShl
  with_reducible repeat' first | assumption | exact hM.sub rfl | apply KeepsRes.next | apply parseWord_keeps

theorem execParseShr_keeps {M : Nat} {s0 s : State} (pl : Pl) (unit : Fin 32) (err : ParseErr) (hs : Keeps M s0 s) (hM : Within 0x60e5 M) :
    KeepsRes M s0 (execParseShr pl unit err s) := by
  unfold execParseShr
  with_reducible repeat' first | assumption | exact hM.sub rfl | apply KeepsRes.next | apply parseWord_keeps

theorem execParseCmpeq_keeps {M : Nat} {s0 s : State} (pl : Pl) (unit : Fin 32) (err : ParseErr) (hs : Keeps M s0 s) (hM : Within 0x60e5 M) :
    KeepsRes M s0 (execParseCmpeq pl unit err s) := by
  unfold execParseCmpeq
  with_reducible repeat' first | assumption | exact hM.sub rfl | apply KeepsRes.next | apply parseWord_keeps

theorem execParseCmplt_keeps {M : Nat} {s0 s : State} (pl : Pl) (unit : Fin 32) (err : ParseErr) (hs : Keeps M s0 s) (hM : Within 0x60e5 M) :
    KeepsRes M s0 (execParseCmplt pl unit err s) := by
  unfold execParseCmplt
  with_reducible repeat' first | assumption | exact hM.sub rfl | apply KeepsRes.next | apply parseWord_keeps

theorem execParseTest_keeps {M : Nat} {s0 s : State} (pl : Pl) (unit : Fin 32) (err : ParseErr) (hs : Keeps M s0 s) (hM : Within 0x60e5 M) :
    KeepsRes M s0 (execParseTest pl unit err s) := by
  unfold execParseTest
  with_reducible repeat' first | assumption | exact hM.sub rfl | apply KeepsRes.next | apply parseWord_keeps

theorem execParseRange_keeps {M : Nat} {s0 s : State} (pl : Pl) (unit : Fin 32) (err : ParseErr) (hs : Keeps M s0 s) (hM : Within 0x60e5 M) :
    KeepsRes M s0 (execParseRange pl unit err s) := by
  unfold execParseRange
  with_reducible repeat' first | assumption | exact hM.sub rfl | apply KeepsRes.next | apply parseWord_keeps

theorem execParseAdvance_keeps {M : Nat} {s0 s : State} (pl : Pl) (unit : Fin 32) (err : ParseErr) (hs : Keeps M s0 s) (hM : Within 0x60e5 M) :
    KeepsRes M s0 (execParseAdvance pl unit err s) := by
  unfold execParseAdvance
  with_reducible repeat' first | assumption | exact hM.sub rfl | apply KeepsRes.next | apply parseWord_keeps

theorem execParseSetcur_keeps {M : Nat} {s0 s : State} (pl : Pl) (unit : Fin 32) (err : ParseErr) (hs : Keeps M s0 s) (hM : Within 0x60e5 M) :
    KeepsRes M s0 (execParseSetcur pl unit err s) := by
  unfold execParseSetcur
  with_reducible repeat' first | assumption | exact hM.sub rfl | apply KeepsRes.next | apply parseWord_keeps

theorem execParseMark_keeps {M : Nat} {s0 s : State} (pl : Pl) (unit : Fin 32) (err : ParseErr) (hs : Keeps M s0 s) (hM : Within 0x60e5 M) :
    KeepsRes M s0 (execParseMark pl unit err s) := by
  unfold execParseMark
  with_reducible repeat' first | assumption | exact hM.sub rfl | apply KeepsRes.next | apply parseWord_keeps

theorem execParseTag_keeps {M : Nat} {s0 s : State} (pl : Pl) (unit : Fin 32) (err : ParseErr) (hs : Keeps M s0 s) (hM : Within 0x60e5 M) :
    KeepsRes M s0 (execParseTag pl unit err s) := by
  unfold execParseTag
  with_reducible repeat' first | assumption | exact hM.sub rfl | apply KeepsRes.next | apply parseWord_keeps

theorem execParseTunnel_keeps {M : Nat} {s0 s : State} (pl : Pl) (unit : Fin 32) (err : ParseErr) (hs : Keeps M s0 s) (hM : Within 0x60e5 M) :
    KeepsRes M s0 (execParseTunnel pl unit err s) := by
  unfold execParseTunnel
  with_reducible repeat' first | assumption | exact hM.sub rfl | apply KeepsRes.next | apply parseWord_keeps

theorem execParseEmit_keeps {M : Nat} {s0 s : State} (pl : Pl) (unit : Fin 32) (err : ParseErr) (hs : Keeps M s0 s) (hM : Within 0x60e5 M) :
    KeepsRes M s0 (execParseEmit pl unit err s) := by
  unfold execParseEmit
  with_reducible repeat' first | assumption | exact hM.sub rfl | apply KeepsRes.next | apply parseWord_keeps

theorem execParseSetf_keeps {M : Nat} {s0 s : State} (pl : Pl) (unit : Fin 32) (err : ParseErr) (hs : Keeps M s0 s) (hM : Within 0x60e5 M) :
    KeepsRes M s0 (execParseSetf pl unit err s) := by
  unfold execParseSetf
  with_reducible repeat' first | assumption | exact hM.sub rfl | apply KeepsRes.next | apply parseWord_keeps

theorem execParseCsum_keeps {M : Nat} {s0 s : State} (pl : Pl) (unit : Fin 32) (err : ParseErr) (hs : Keeps M s0 s) (hM : Within 0x60e5 M) :
    KeepsRes M s0 (execParseCsum pl unit err s) := by
  unfold execParseCsum
  with_reducible repeat' first | assumption | exact hM.sub rfl | apply KeepsRes.next | apply parseWord_keeps

theorem execParseHash_keeps {M : Nat} {s0 s : State} (pl : Pl) (unit : Fin 32) (err : ParseErr) (hs : Keeps M s0 s) (hM : Within 0x60e5 M) :
    KeepsRes M s0 (execParseHash pl unit err s) := by
  unfold execParseHash
  with_reducible repeat' first | assumption | exact hM.sub rfl | apply KeepsRes.next | apply parseWord_keeps

theorem execParseMalf_keeps {M : Nat} {s0 s : State} (pl : Pl) (unit : Fin 32) (err : ParseErr) (hs : Keeps M s0 s) (hM : Within 0x60e5 M) :
    KeepsRes M s0 (execParseMalf pl unit err s) := by
  unfold execParseMalf
  with_reducible repeat' first | assumption | exact hM.sub rfl | apply KeepsRes.next | apply parseWord_keeps

theorem execStepLimit_keeps {M : Nat} {s0 s : State} (pl : Pl) (unit : Fin 32) (hs : Keeps M s0 s) (hM : Within 0x6000 M) :
    KeepsRes M s0 (execStepLimit pl unit s) := by
  unfold execStepLimit
  try dsimp only
  with_reducible repeat' first
          | assumption | exact hM.sub rfl | apply KeepsRes.next | apply unitMalformed_keeps | dsimp only | split

/-! ### Machine/Tables.lean -/

theorem putMain_keeps {M : Nat} {s0 s : State} (k : TabKind) (pl key : Nat) (v : Bytes) (hs : Keeps M s0 s) (hM : Within 0x8000 M) :
    Keeps M s0 (putMain k pl key v s) := by
  unfold putMain
  try dsimp only
  with_reducible repeat' first
          | assumption | exact hM.sub rfl | dsimp only | apply Keeps.upd | rfl | exact .inr rfl | exact .inl (hM.sub rfl)

theorem putEpoch_keeps {M : Nat} {s0 s : State} (pl : Nat) (cur ret : BitVec 32) (hs : Keeps M s0 s) (hM : Within 0x4 M) :
    Keeps M s0 (putEpoch pl cur ret s) := by
  unfold putEpoch
  try dsimp only
  with_reducible repeat' first
          | assumption | exact hM.sub rfl | intro _ | apply putReg_keeps | dsimp only | apply Keeps.foldl

theorem foldShadow_keeps {M : Nat} {s0 s : State} (rest : List Shadow) (x : Shadow) (hs : Keeps M s0 s) (hM : Within 0x8000 M) :
    Keeps M s0 (foldShadow rest x s) := by
  unfold foldShadow
  with_reducible repeat' first | assumption | exact hM.sub rfl | apply putMain_keeps | split

theorem advanceRetired_keeps {M : Nat} {s0 s : State} (pl : Nat) (hs : Keeps M s0 s) (hM : Within 0x8004 M) :
    Keeps M s0 (advanceRetired pl s) := by
  unfold advanceRetired
  try dsimp only
  with_reducible repeat' first
          | assumption | exact hM.sub rfl | intro _ | apply putEpoch_keeps | apply foldShadow_keeps | dsimp only
          | apply Keeps.foldl | split | apply Keeps.upd | rfl | exact .inr rfl | exact .inl (hM.sub rfl)

/-! ### Machine/TmOps.lean -/

theorem putBuf_keeps {M : Nat} {s0 s : State} (b : Nat) (x : Buf) (hs : Keeps M s0 s) (hM : Within 0x10000 M) :
    Keeps M s0 (putBuf b x s) := by
  unfold putBuf
  with_reducible repeat' first
          | assumption | exact hM.sub rfl | apply Keeps.upd | rfl | exact .inr rfl | exact .inl (hM.sub rfl)

theorem newBuf_keeps {M : Nat} {s0 s : State} (x : Buf) (hs : Keeps M s0 s) (hM : Within 0x10000 M) :
    Keeps M s0 (newBuf x s) := by
  unfold newBuf
  with_reducible repeat' first
          | assumption | exact hM.sub rfl | apply Keeps.upd | rfl | exact .inr rfl | exact .inl (hM.sub rfl)

theorem releaseBuf_keeps {M : Nat} {s0 s : State} (b : Nat) (hs : Keeps M s0 s) (hM : Within 0x10000 M) :
    Keeps M s0 (releaseBuf b s) := by
  unfold releaseBuf
  with_reducible repeat' first
          | assumption | exact hM.sub rfl | apply putBuf_keeps | split | apply Keeps.upd | rfl | exact .inr rfl
          | exact .inl (hM.sub rfl)

theorem freeFrame_keeps {M : Nat} {s0 s : State} (f : Nat) (hs : Keeps M s0 s) (hM : Within 0x12000 M) :
    Keeps M s0 (freeFrame f s) := by
  unfold freeFrame
  with_reducible repeat' first
          | assumption | exact hM.sub rfl | apply dropFrameRec_keeps | apply releaseBuf_keeps | split

theorem sendPfc_keeps {M : Nat} {s0 s : State} (port : NPort) (xon : Option Nat) (hs : Keeps M s0 s) (hM : Within 0x10004 M) :
    Keeps M s0 (sendPfc port xon s) := by
  unfold sendPfc
  try dsimp only
  with_reducible repeat' first
          | assumption | exact hM.sub rfl | intro _ | apply emit_keeps | apply addStat_keeps | dsimp only | apply Keeps.foldl
          | split | apply Keeps.upd | rfl | exact .inr rfl | exact .inl (hM.sub rfl)

theorem enterXoff_keeps {M : Nat} {s0 s : State} (port prio : Nat) (hs : Keeps M s0 s) (hM : Within 0x10004 M) :
    Keeps M s0 (enterXoff port prio s) := by
  unfold enterXoff
  with_reducible repeat' first
          | assumption | exact hM.sub rfl | apply putB_keeps | apply sendPfc_keeps | split

theorem admitIngress_keeps {M : Nat} {s0 s : State} (node : Nat) (frame : Bytes) (hs : Keeps M s0 s) (hM : Within 0x100c4 M) :
    Keeps M s0 (admitIngress node frame s).1 := by
  unfold admitIngress
  try dsimp only
  with_reducible repeat' first
          | assumption | exact hM.sub rfl | apply addErr_keeps | apply newBuf_keeps | apply enterXoff_keeps | dsimp only
          | split

theorem putLeaf_keeps {M : Nat} {s0 s : State} (l : Nat) (x : Leaf) (hs : Keeps M s0 s) (hM : Within 0x10000 M) :
    Keeps M s0 (putLeaf l x s) := by
  unfold putLeaf
  try dsimp only
  with_reducible repeat' first
          | assumption | exact hM.sub rfl | dsimp only | apply Keeps.upd | rfl | exact .inr rfl | exact .inl (hM.sub rfl)

theorem putGroup_keeps {M : Nat} {s0 s : State} (g : Nat) (x : TmNode) (hs : Keeps M s0 s) (hM : Within 0x10000 M) :
    Keeps M s0 (putGroup g x s) := by
  unfold putGroup
  try dsimp only
  with_reducible repeat' first
          | assumption | exact hM.sub rfl | dsimp only | apply Keeps.upd | rfl | exact .inr rfl | exact .inl (hM.sub rfl)

theorem putClass_keeps {M : Nat} {s0 s : State} (c : Nat) (x : TmNode) (hs : Keeps M s0 s) (hM : Within 0x10000 M) :
    Keeps M s0 (putClass c x s) := by
  unfold putClass
  try dsimp only
  with_reducible repeat' first
          | assumption | exact hM.sub rfl | dsimp only | apply Keeps.upd | rfl | exact .inr rfl | exact .inl (hM.sub rfl)

theorem putPortBucket_keeps {M : Nat} {s0 s : State} (p : Nat) (x : TokenBucket) (hs : Keeps M s0 s) (hM : Within 0x10000 M) :
    Keeps M s0 (putPortBucket p x s) := by
  unfold putPortBucket
  try dsimp only
  with_reducible repeat' first
          | assumption | exact hM.sub rfl | dsimp only | apply Keeps.upd | rfl | exact .inr rfl | exact .inl (hM.sub rfl)

theorem putMeter_keeps {M : Nat} {s0 s : State} (m : Nat) (x : Meter) (hs : Keeps M s0 s) (hM : Within 0x10000 M) :
    Keeps M s0 (putMeter m x s) := by
  unfold putMeter
  try dsimp only
  with_reducible repeat' first
          | assumption | exact hM.sub rfl | dsimp only | apply Keeps.upd | rfl | exact .inr rfl | exact .inl (hM.sub rfl)

theorem putDwrr_keeps {M : Nat} {s0 s : State} (k : Nat) (x : Dwrr) (hs : Keeps M s0 s) (hM : Within 0x10000 M) :
    Keeps M s0 (putDwrr k x s) := by
  unfold putDwrr
  try dsimp only
  with_reducible repeat' first
          | assumption | exact hM.sub rfl | dsimp only | apply Keeps.upd | rfl | exact .inr rfl | exact .inl (hM.sub rfl)

theorem loseDeficit_keeps {M : Nat} {s0 s : State} (k c : Nat) (backlogged : Bool) (hs : Keeps M s0 s) (hM : Within 0x10000 M) :
    Keeps M s0 (loseDeficit k c backlogged s) := by
  unfold loseDeficit
  with_reducible repeat' first | assumption | exact hM.sub rfl | apply putDwrr_keeps | split

theorem settleEmpty_keeps {M : Nat} {s0 s : State} (l : Nat) (hs : Keeps M s0 s) (hM : Within 0x10000 M) :
    Keeps M s0 (settleEmpty l s) := by
  unfold settleEmpty
  try dsimp only
  with_reducible repeat' first | assumption | exact hM.sub rfl | apply loseDeficit_keeps | dsimp only

theorem keepFrames_keeps {M : Nat} {s0 s : State} (l : Nat) (fs : List Nat) (hs : Keeps M s0 s) (hM : Within 0x10000 M) :
    Keeps M s0 (keepFrames l fs s) := by
  unfold keepFrames
  try dsimp only
  with_reducible repeat' first
          | assumption | exact hM.sub rfl | apply putLeaf_keeps | apply settleEmpty_keeps | dsimp only | split

theorem appendLeaf_keeps {M : Nat} {s0 s : State} (l f : Nat) (hs : Keeps M s0 s) (hM : Within 0x12000 M) :
    Keeps M s0 (appendLeaf l f s) := by
  unfold appendLeaf
  try dsimp only
  with_reducible repeat' first
          | assumption | exact hM.sub rfl | apply putFrame_keeps | apply putLeaf_keeps | dsimp only | split

theorem toGuaranteed_keeps {M : Nat} {s0 s : State} (b fn inst : Nat) (hs : Keeps M s0 s) (hM : Within 0x10000 M) :
    Keeps M s0 (toGuaranteed b fn inst s) := by
  unfold toGuaranteed
  with_reducible repeat' first | assumption | exact hM.sub rfl | apply putBuf_keeps | split

theorem spillFrame_keeps {M : Nat} {s0 s : State} (f : Nat) (hs : Keeps M s0 s) (hM : Within 0x12000 M) :
    Keeps M s0 (spillFrame f s) := by
  unfold spillFrame
  try dsimp only
  with_reducible repeat' first
          | assumption | exact hM.sub rfl | apply putFrame_keeps | apply newBuf_keeps | apply releaseBuf_keeps | dsimp only
          | split

theorem recount_keeps {M : Nat} {s0 s : State} (f : Nat) (hs : Keeps M s0 s) (hM : Within 0x10000 M) :
    Keeps M s0 (recount f s) := by
  unfold recount
  try dsimp only
  with_reducible repeat' first
          | assumption | exact hM.sub rfl | intro _ | apply putBuf_keeps | dsimp only | apply Keeps.foldl | split

theorem bypassDrop_keeps {M : Nat} {s0 s : State} (l f : Nat) (hs : Keeps M s0 s) (hM : Within 0x12004 M) :
    Keeps M s0 (bypassDrop l f s) := by
  unfold bypassDrop
  with_reducible repeat' first | assumption | exact hM.sub rfl | apply addStat_keeps | apply freeFrame_keeps

theorem placeOnLeaf_keeps {M : Nat} {s0 s : State} (l f : Nat) (hs : Keeps M s0 s) (hM : Within 0x12004 M) :
    Keeps M s0 (placeOnLeaf l f s) := by
  unfold placeOnLeaf
  with_reducible repeat' first
          | assumption | exact hM.sub rfl | apply addStat_keeps | apply appendLeaf_keeps | apply bypassDrop_keeps | split

theorem enqueueFrame_keeps {M : Nat} {s0 s : State} (l f : Nat) (hs : Keeps M s0 s) (hM : Within 0x12005 M) :
    Keeps M s0 (enqueueFrame l f s).1 := by
  unfold enqueueFrame
  try dsimp only
  with_reducible repeat' first
          | assumption | exact hM.sub rfl | apply useFree_keeps | apply addStat_keeps | apply appendLeaf_keeps
          | apply toGuaranteed_keeps | apply spillFrame_keeps | apply recount_keeps | apply bypassDrop_keeps | dsimp only
          | split

theorem admitMember_keeps {M : Nat} {s0 s : State} (l f : Nat) (hs : Keeps M s0 s) (hM : Within 0x10004 M) :
    Keeps M s0 (admitMember l f s).1 := by
  unfold admitMember
  try dsimp only
  with_reducible repeat' first
          | assumption | exact hM.sub rfl | apply addStat_keeps | apply toGuaranteed_keeps | apply recount_keeps | dsimp only
          | split

theorem enqueueOrDrop_keeps {M : Nat} {s0 s : State} (l f : Nat) (hs : Keeps M s0 s) (hM : Within 0x12005 M) :
    Keeps M s0 (enqueueOrDrop l f s) := by
  unfold enqueueOrDrop
  try dsimp only
  with_reducible repeat' first
          | assumption | exact hM.sub rfl | apply freeFrame_keeps | apply enqueueFrame_keeps | dsimp only | split

theorem enqueueCopy_keeps {M : Nat} {s0 s : State} (l f : Nat) (bytes : Bytes) (hs : Keeps M s0 s) (hM : Within 0x12005 M) :
    Keeps M s0 (enqueueCopy l f bytes s) := by
  unfold enqueueCopy
  try dsimp only
  with_reducible repeat' first
          | assumption | exact hM.sub rfl | apply putFrame_keeps | apply putBuf_keeps | apply enqueueOrDrop_keeps
          | dsimp only | split | apply Keeps.upd | rfl | exact .inr rfl | exact .inl (hM.sub rfl)

theorem useMeter_keeps {M : Nat} {s0 s : State} (n frameLen colour : Nat) (hs : Keeps M s0 s) (hM : Within 0x10000 M) :
    Keeps M s0 (useMeter n frameLen colour s).1 := by
  unfold useMeter
  try dsimp only
  with_reducible repeat' first | assumption | exact hM.sub rfl | apply putMeter_keeps | dsimp only

theorem creditMeter_keeps {M : Nat} {s0 s : State} (d : Debit) (hs : Keeps M s0 s) (hM : Within 0x10000 M) :
    Keeps M s0 (creditMeter d s) := by
  unfold creditMeter
  try dsimp only
  with_reducible repeat' first | assumption | exact hM.sub rfl | apply putMeter_keeps | dsimp only

/-! ### Machine/Chain.lean -/

theorem juniperFault_keeps {M : Nat} {s0 s : State} (pl tree node : Nat) (hs : Keeps M s0 s) (hM : Within 0xc4 M) :
    Keeps M s0 (juniperFault pl tree node s) := by
  unfold juniperFault
  with_reducible repeat' first | assumption | exact hM.sub rfl | apply putReg_keeps | apply addErr_keeps

theorem actMeter_keeps {M : Nat} {s0 s : State} (a : Bytes) (f : Frame) (hs : Keeps M s0 s) (hM : Within 0x10000 M) :
    Keeps M s0 (actMeter a f s).1 := by
  unfold actMeter
  try dsimp only
  with_reducible repeat' first | assumption | exact hM.sub rfl | apply useMeter_keeps | dsimp only | split

theorem actMirror_keeps {M : Nat} {s0 s : State} (a : Bytes) (pl : Nat) (f : Frame) (hs : Keeps M s0 s) (hM : Within 0xc4 M) :
    Keeps M s0 (actMirror a pl f s).1 := by
  unfold actMirror
  with_reducible repeat' first | assumption | exact hM.sub rfl | apply addErr_keeps | split

theorem applyAction_keeps {M : Nat} {s0 s : State} (a result : Bytes) (pl st : Nat) (f : Frame) (hs : Keeps M s0 s) (hM : Within 0x100c4 M) :
    Keeps M s0 (applyAction a result pl st f s).1 := by
  unfold applyAction
  try dsimp only
  with_reducible repeat' first
          | assumption | exact hM.sub rfl | apply actMeter_keeps | apply actMirror_keeps | dsimp only | split

theorem applyCounts_keeps {M : Nat} {s0 s : State} (f : Frame) (hs : Keeps M s0 s) (hM : Within 0x8000 M) :
    Keeps M s0 (applyCounts f s) := by
  unfold applyCounts
  try dsimp only
  with_reducible repeat' first
          | assumption | exact hM.sub rfl | intro _ | dsimp only | apply Keeps.foldl | apply Keeps.foldl_fst
          | apply Keeps.upd | rfl | exact .inr rfl | exact .inl (hM.sub rfl)

theorem withdrawDebits_keeps {M : Nat} {s0 s : State} (f : Frame) (hs : Keeps M s0 s) (hM : Within 0x10000 M) :
    Keeps M s0 (withdrawDebits f s) := by
  unfold withdrawDebits
  try dsimp only
  with_reducible repeat' first
          | assumption | exact hM.sub rfl | intro _ | apply creditMeter_keeps | dsimp only | apply Keeps.foldl

theorem mirrorCopies_keeps {M : Nat} {s0 s : State} (fid : Nat) (f : Frame) (hs : Keeps M s0 s) (hM : Within 0x12005 M) :
    Keeps M s0 (mirrorCopies fid f s) := by
  unfold mirrorCopies
  try dsimp only
  with_reducible repeat' first
          | assumption | exact hM.sub rfl | intro _ | apply enqueueCopy_keeps | dsimp only | apply Keeps.foldl

theorem putLearner_keeps {M : Nat} {s0 s : State} (pl : Nat) (x : Learner) (hs : Keeps M s0 s) (hM : Within 0x8000 M) :
    Keeps M s0 (putLearner pl x s) := by
  unfold putLearner
  try dsimp only
  with_reducible repeat' first
          | assumption | exact hM.sub rfl | dsimp only | apply Keeps.upd | rfl | exact .inr rfl | exact .inl (hM.sub rfl)

theorem requestLearn_keeps {M : Nat} {s0 s : State} (f : Frame) (hs : Keeps M s0 s) (hM : Within 0x8000 M) :
    Keeps M s0 (requestLearn f s) := by
  unfold requestLearn
  try dsimp only
  with_reducible repeat' first | assumption | exact hM.sub rfl | apply putLearner_keeps | dsimp only | split

theorem leaveChain_keeps {M : Nat} {s0 s : State} (pl fid : Nat) (hs : Keeps M s0 s) (hM : Within 0x4000 M) :
    Keeps M s0 (leaveChain pl fid s) := by
  unfold leaveChain
  try dsimp only
  with_reducible repeat' first | assumption | exact hM.sub rfl | apply putPipe_keeps | dsimp only | split

/-! ### Machine/PackOps.lean -/

theorem putBay_keeps {M : Nat} {s0 s : State} (b : Nat) (x : BaySt) (hs : Keeps M s0 s) (hM : Within 0x40000c0 M) :
    Keeps M s0 (putBay b x s) := by
  unfold putBay
  try dsimp only
  with_reducible repeat' first
          | assumption | exact hM.sub rfl | apply pageIf_keeps | dsimp only | apply Keeps.upd | rfl | exact .inr rfl
          | exact .inl (hM.sub rfl)

theorem putNs_keeps {M : Nat} {s0 s : State} (fns : Nat) (x : Ns) (hs : Keeps M s0 s) (hM : Within 0x2000000 M) :
    Keeps M s0 (putNs fns x s) := by
  unfold putNs
  try dsimp only
  with_reducible repeat' first
          | assumption | exact hM.sub rfl | dsimp only | apply Keeps.upd | rfl | exact .inr rfl | exact .inl (hM.sub rfl)

theorem putCmd_keeps {M : Nat} {s0 s : State} (c : Nat) (x : StCmd) (hs : Keeps M s0 s) (hM : Within 0x2000000 M) :
    Keeps M s0 (putCmd c x s) := by
  unfold putCmd
  with_reducible repeat' first
          | assumption | exact hM.sub rfl | apply Keeps.upd | rfl | exact .inr rfl | exact .inl (hM.sub rfl)

theorem dropCmd_keeps {M : Nat} {s0 s : State} (c : Nat) (hs : Keeps M s0 s) (hM : Within 0x2000000 M) :
    Keeps M s0 (dropCmd c s) := by
  unfold dropCmd
  with_reducible repeat' first
          | assumption | exact hM.sub rfl | apply Keeps.upd | rfl | exact .inr rfl | exact .inl (hM.sub rfl)

theorem packSend_keeps {M : Nat} {s0 s : State} (b opcode : Nat) (nsid : BitVec 32) (lba blocks : Nat) (data : Bytes) (hs : Keeps M s0 s) (hM : Within 0x2000000 M) :
    Keeps M s0 (packSend b opcode nsid lba blocks data s) := by
  unfold packSend
  with_reducible repeat' first
          | assumption | exact hM.sub rfl | apply emit_keeps | apply Keeps.upd | rfl | exact .inr rfl
          | exact .inl (hM.sub rfl)

theorem packIssue_keeps {M : Nat} {s0 s : State} (b : Nat) (use : PackUse) (opcode : Nat) (nsid : BitVec 32) (lba blocks : Nat) (data : Bytes) (hs : Keeps M s0 s) (hM : Within 0x2000000 M) :
    Keeps M s0 (packIssue b use opcode nsid lba blocks data s) := by
  unfold packIssue
  try dsimp only
  with_reducible repeat' first
          | assumption | exact hM.sub rfl | apply packSend_keeps | dsimp only | apply Keeps.upd | rfl | exact .inr rfl
          | exact .inl (hM.sub rfl)

theorem dropPackCmd_keeps {M : Nat} {s0 s : State} (b cid : Nat) (hs : Keeps M s0 s) (hM : Within 0x2000000 M) :
    Keeps M s0 (dropPackCmd b cid s) := by
  unfold dropPackCmd
  with_reducible repeat' first
          | assumption | exact hM.sub rfl | apply Keeps.upd | rfl | exact .inr rfl | exact .inl (hM.sub rfl)

theorem journalWrite_keeps {M : Nat} {s0 s : State} (off : Nat) (data : Bytes) (use : PackUse) (hs : Keeps M s0 s) (hM : Within 0x2000000 M) :
    Keeps M s0 (journalWrite off data use s) := by
  unfold journalWrite
  try dsimp only
  with_reducible repeat' first
          | assumption | exact hM.sub rfl | intro _ | apply packIssue_keeps | dsimp only | apply Keeps.foldl
          | apply Keeps.foldl_fst

theorem appendLog_keeps {M : Nat} {s0 s : State} (data : Bytes) (use : PackUse) (r : JRecord) (hs : Keeps M s0 s) (hM : Within 0xa000000 M) :
    Keeps M s0 (appendLog data use r s) := by
  unfold appendLog
  try dsimp only
  with_reducible repeat' first
          | assumption | exact hM.sub rfl | apply journalWrite_keeps | dsimp only | split | apply Keeps.upd | rfl
          | exact .inr rfl | exact .inl (hM.sub rfl)

/-! ### Machine/QueueOps.lean -/

theorem putQueue_keeps {M : Nat} {s0 s : State} (fn fq : Nat) (x : Queue) (hs : Keeps M s0 s) (hM : Within 0x100 M) :
    Keeps M s0 (putQueue fn fq x s) := by
  unfold putQueue
  try dsimp only
  with_reducible repeat' first
          | assumption | exact hM.sub rfl | dsimp only | apply Keeps.upd | rfl | exact .inr rfl | exact .inl (hM.sub rfl)

theorem putEvq_keeps {M : Nat} {s0 s : State} (fn n : Nat) (x : Evq) (hs : Keeps M s0 s) (hM : Within 0x200 M) :
    Keeps M s0 (putEvq fn n x s) := by
  unfold putEvq
  try dsimp only
  with_reducible repeat' first
          | assumption | exact hM.sub rfl | dsimp only | apply Keeps.upd | rfl | exact .inr rfl | exact .inl (hM.sub rfl)

theorem putInst_keeps {M : Nat} {s0 s : State} (fn i : Nat) (x : Inst) (hs : Keeps M s0 s) (hM : Within 0x4c0 M) :
    Keeps M s0 (putInst fn i x s) := by
  unfold putInst
  try dsimp only
  with_reducible repeat' first
          | assumption | exact hM.sub rfl | apply pageIf_keeps | dsimp only | apply Keeps.upd | rfl | exact .inr rfl
          | exact .inl (hM.sub rfl)

theorem logPage_keeps {M : Nat} {s0 s : State} (fn : Fn) (i addr : Nat) (hs : Keeps M s0 s) (hM : Within 0x4c0 M) :
    Keeps M s0 (logPage fn i addr s) := by
  unfold logPage
  try dsimp only
  with_reducible repeat' first
          | assumption | exact hM.sub rfl | apply hostWrite_keeps | apply putInst_keeps | dsimp only | split
          | apply Keeps.upd | rfl | exact .inr rfl | exact .inl (hM.sub rfl)

theorem instWrite_keeps {M : Nat} {s0 s : State} (fn : Fn) (i : Nat) (gen : BitVec 8) (ro : Bool) (addr : Nat) (data : Bytes) (hs : Keeps M s0 s) (hM : Within 0x4c4 M) :
    Keeps M s0 (instWrite fn i gen ro addr data s).1 := by
  unfold instWrite
  try dsimp only
  with_reducible repeat' first
          | assumption | exact hM.sub rfl | intro _ | apply addStat_keeps | apply hostWrite_keeps | apply logPage_keeps
          | dsimp only | apply Keeps.foldl | apply Keeps.foldl_fst | split

theorem instRead_keeps {M : Nat} {s0 s : State} (fn : Fn) (i : Nat) (addr len : Nat) (w : ReadWork) (hs : Keeps M s0 s) (hM : Within 0x80 M) :
    Keeps M s0 (instRead fn i addr len w s) := by
  unfold instRead
  try dsimp only
  with_reducible repeat' first
          | assumption | exact hM.sub rfl | intro _ | apply hostRead_keeps | dsimp only | apply Keeps.foldl
          | apply Keeps.foldl_fst

theorem publishHead_keeps {M : Nat} {s0 s : State} (fn : Fn) (fq : Nat) (evLost : Bool) (hs : Keeps M s0 s) (hM : Within 0x5c4 M) :
    Keeps M s0 (publishHead fn fq evLost s) := by
  unfold publishHead
  try dsimp only
  with_reducible repeat' first
          | assumption | exact hM.sub rfl | apply putQueue_keeps | apply instWrite_keeps | dsimp only | split

theorem discardEvent_keeps {M : Nat} {s0 s : State} (hs : Keeps M s0 s) (hM : Within 0xc4 M) :
    Keeps M s0 (discardEvent s) := by
  unfold discardEvent
  with_reducible repeat' first | assumption | exact hM.sub rfl | apply addErr_keeps

theorem oweMessage_keeps {M : Nat} {s0 s : State} (g : Nat) (hs : Keeps M s0 s) (hM : Within 0x4 M) :
    Keeps M s0 (oweMessage g s) := by
  unfold oweMessage
  with_reducible repeat' first | assumption | exact hM.sub rfl | apply putB_keeps | split

theorem writeEvent_keeps {M : Nat} {s0 s : State} (fn : Fn) (n : Nat) (ev : Event) (hs : Keeps M s0 s) (hM : Within 0x6c4 M) :
    Keeps M s0 (writeEvent fn n ev s) := by
  unfold writeEvent
  try dsimp only
  with_reducible repeat' first
          | assumption | exact hM.sub rfl | apply putEvq_keeps | apply instWrite_keeps | apply discardEvent_keeps
          | apply oweMessage_keeps | dsimp only | split

theorem markPending_keeps {M : Nat} {s0 s : State} (src : Option Nat) (hs : Keeps M s0 s) (hM : Within 0x100 M) :
    Keeps M s0 (markPending src s) := by
  unfold markPending
  try dsimp only
  with_reducible repeat' first | assumption | exact hM.sub rfl | apply putQueue_keeps | dsimp only | split

theorem suppressEvent_keeps {M : Nat} {s0 s : State} (fn : Fn) (n : Nat) (ev : Event) (hs : Keeps M s0 s) (hM : Within 0x3c5 M) :
    Keeps M s0 (suppressEvent fn n ev s) := by
  unfold suppressEvent
  try dsimp only
  with_reducible repeat' first
          | assumption | exact hM.sub rfl | apply useFree_keeps | apply postLog_keeps | apply putEvq_keeps
          | apply markPending_keeps | dsimp only | split

theorem readConsumer_keeps {M : Nat} {s0 s : State} (fn : Fn) (n : Nat) (hs : Keeps M s0 s) (hM : Within 0x280 M) :
    Keeps M s0 (readConsumer fn n s) := by
  unfold readConsumer
  try dsimp only
  with_reducible repeat' first
          | assumption | exact hM.sub rfl | apply putEvq_keeps | apply instRead_keeps | dsimp only | split

theorem postEvent_keeps {M : Nat} {s0 s : State} (fn : Fn) (n : Nat) (ev : Event) (hs : Keeps M s0 s) (hM : Within 0x7c5 M) :
    Keeps M s0 (postEvent fn n ev s) := by
  unfold postEvent
  try dsimp only
  with_reducible repeat' first
          | assumption | exact hM.sub rfl | apply putEvq_keeps | apply discardEvent_keeps | apply writeEvent_keeps
          | apply suppressEvent_keeps | apply readConsumer_keeps | dsimp only | split

theorem postQueueEvent_keeps {M : Nat} {s0 s : State} (fn : Fn) (fq : Nat) (code status arg0 arg1 : Nat) (hs : Keeps M s0 s) (hM : Within 0x7c5 M) :
    Keeps M s0 (postQueueEvent fn fq code status arg0 arg1 s) := by
  unfold postQueueEvent
  with_reducible repeat' first | assumption | exact hM.sub rfl | apply postEvent_keeps

theorem mapEntry_keeps {M : Nat} {s0 s : State} (fn fq : Nat) (idx : BitVec 32) (g : Entry → Entry) (hs : Keeps M s0 s) (hM : Within 0x100 M) :
    Keeps M s0 (mapEntry fn fq idx g s) := by
  unfold mapEntry
  try dsimp only
  with_reducible repeat' first | assumption | exact hM.sub rfl | apply putQueue_keeps | dsimp only | split

theorem setPhase_keeps {M : Nat} {s0 s : State} (fn fq : Nat) (idx : BitVec 32) (p : Phase) (hs : Keeps M s0 s) (hM : Within 0x100 M) :
    Keeps M s0 (setPhase fn fq idx p s) := by
  unfold setPhase
  try dsimp only
  with_reducible repeat' first | assumption | exact hM.sub rfl | apply mapEntry_keeps | dsimp only

theorem entryRead_keeps {M : Nat} {s0 s : State} (fn : Fn) (fq : Nat) (e : Entry) (addr len : Nat) (hs : Keeps M s0 s) (hM : Within 0x80 M) :
    Keeps M s0 (entryRead fn fq e addr len s) := by
  unfold entryRead
  with_reducible repeat' first | assumption | exact hM.sub rfl | apply instRead_keeps

theorem putThreadRaw_keeps {M : Nat} {s0 s : State} (c t : Nat) (x : Thread) (hs : Keeps M s0 s) (hM : Within 0x80000 M) :
    Keeps M s0 (putThreadRaw c t x s) := by
  unfold putThreadRaw
  try dsimp only
  with_reducible repeat' first
          | assumption | exact hM.sub rfl | dsimp only | apply Keeps.upd | rfl | exact .inr rfl | exact .inl (hM.sub rfl)

theorem wakeThread_keeps {M : Nat} {s0 s : State} (c t : Nat) (owed : List (Nat × Word)) (mem : List (Place × Bytes)) (hs : Keeps M s0 s) (hM : Within 0x80000 M) :
    Keeps M s0 (wakeThread c t owed mem s) := by
  unfold wakeThread
  try dsimp only
  with_reducible repeat' first | assumption | exact hM.sub rfl | apply putThreadRaw_keeps | dsimp only

theorem putCg_keeps {M : Nat} {s0 s : State} (g : Nat) (x : Group) (hs : Keeps M s0 s) (hM : Within 0x8000000 M) :
    Keeps M s0 (putCg g x s) := by
  unfold putCg
  with_reducible repeat' first
          | assumption | exact hM.sub rfl | apply Keeps.upd | rfl | exact .inr rfl | exact .inl (hM.sub rfl)

theorem freeCg_keeps {M : Nat} {s0 s : State} (g : Nat) (hs : Keeps M s0 s) (hM : Within 0x8000000 M) :
    Keeps M s0 (freeCg g s) := by
  unfold freeCg
  with_reducible repeat' first
          | assumption | exact hM.sub rfl | apply Keeps.upd | rfl | exact .inr rfl | exact .inl (hM.sub rfl)

theorem markDone_keeps {M : Nat} {s0 s : State} (fn fq : Nat) (idx : BitVec 32) (failed : Bool) (status : Nat) (aux : BitVec 32) (results : Option Bytes) (hs : Keeps M s0 s) (hM : Within 0x100 M) :
    Keeps M s0 (markDone fn fq idx failed status aux results s) := by
  unfold markDone
  try dsimp only
  with_reducible repeat' first | assumption | exact hM.sub rfl | apply mapEntry_keeps | dsimp only

theorem unstage_keeps {M : Nat} {s0 s : State} (m : Member) (hs : Keeps M s0 s) (hM : Within 0x2012000 M) :
    Keeps M s0 (unstage m s) := by
  unfold unstage
  with_reducible repeat' first
          | assumption | exact hM.sub rfl | apply freeFrame_keeps | apply dropCmd_keeps | split

theorem dropShadows_keeps {M : Nat} {s0 s : State} (p : Shadow → Bool) (hs : Keeps M s0 s) (hM : Within 0x8000 M) :
    Keeps M s0 (dropShadows p s) := by
  unfold dropShadows
  try dsimp only
  with_reducible repeat' first
          | assumption | exact hM.sub rfl | intro _ | apply putMain_keeps | dsimp only | apply Keeps.foldl | split
          | apply Keeps.upd | rfl | exact .inr rfl | exact .inl (hM.sub rfl)

theorem unstageTables_keeps {M : Nat} {s0 s : State} (g : Nat) (hs : Keeps M s0 s) (hM : Within 0x8000 M) :
    Keeps M s0 (unstageTables g s) := by
  unfold unstageTables
  try dsimp only
  with_reducible repeat' first | assumption | exact hM.sub rfl | apply dropShadows_keeps | dsimp only

theorem cancelWrite_keeps {M : Nat} {s0 s : State} (fq : Nat) (idx : BitVec 32) (hs : Keeps M s0 s) (hM : Within 0x8000 M) :
    Keeps M s0 (cancelWrite fq idx s) := by
  unfold cancelWrite
  try dsimp only
  with_reducible repeat' first
          | assumption | exact hM.sub rfl | apply dropShadows_keeps | dsimp only | apply Keeps.upd | rfl | exact .inr rfl
          | exact .inl (hM.sub rfl)

theorem failMembers_keeps {M : Nat} {s0 s : State} (ms : List Member) (quiet : List Nat) (storage : Nat) (hs : Keeps M s0 s) (hM : Within 0x100 M) :
    Keeps M s0 (failMembers ms quiet storage s) := by
  unfold failMembers
  try dsimp only
  with_reducible repeat' first
          | assumption | exact hM.sub rfl | intro _ | apply markDone_keeps | dsimp only | apply Keeps.foldl | split

theorem endCoreGroup_keeps {M : Nat} {s0 s : State} (x : Group) (rdStatus : Nat) (memberStatus : Member → Nat) (hs : Keeps M s0 s) (hM : Within 0x80000 M) :
    Keeps M s0 (endCoreGroup x rdStatus memberStatus s) := by
  unfold endCoreGroup
  try dsimp only
  with_reducible repeat' first | assumption | exact hM.sub rfl | apply wakeThread_keeps | dsimp only | split

theorem settleAborted_keeps {M : Nat} {s0 s : State} (g : Nat) (x : Group) (hs : Keeps M s0 s) (hM : Within 0x8000000 M) :
    Keeps M s0 (settleAborted g x s) := by
  unfold settleAborted
  with_reducible repeat' first
          | assumption | exact hM.sub rfl | apply putCg_keeps | apply freeCg_keeps | split

theorem abortGroup_keeps {M : Nat} {s0 s : State} (g : Nat) (quiet : List Nat) (storage : Nat) (hs : Keeps M s0 s) (hM : Within 0xa09a1c4 M) :
    Keeps M s0 (abortGroup g quiet storage s) := by
  unfold abortGroup
  try dsimp only
  with_reducible repeat' first
          | assumption | exact hM.sub rfl | intro _ | apply addErr_keeps | apply freeFrame_keeps | apply dropCmd_keeps
          | apply appendLog_keeps | apply putCg_keeps | apply unstage_keeps | apply unstageTables_keeps
          | apply failMembers_keeps | apply endCoreGroup_keeps | apply settleAborted_keeps | dsimp only | apply Keeps.foldl
          | split | apply Keeps.upd | rfl | exact .inr rfl | exact .inl (hM.sub rfl)

theorem abortOf_keeps {M : Nat} {s0 s : State} (group : Option Nat) (hs : Keeps M s0 s) (hM : Within 0xa09a1c4 M) :
    Keeps M s0 (abortOf group s) := by
  unfold abortOf
  with_reducible repeat' first | assumption | exact hM.sub rfl | apply abortGroup_keeps | split

theorem finish_keeps {M : Nat} {s0 s : State} (fn fq : Nat) (idx : BitVec 32) (failed : Bool) (status : Nat) (aux : BitVec 32) (results : Option Bytes) (hs : Keeps M s0 s) (hM : Within 0xa09a1c4 M) :
    Keeps M s0 (finish fn fq idx failed status aux results s) := by
  unfold finish
  try dsimp only
  with_reducible repeat' first
          | assumption | exact hM.sub rfl | apply markDone_keeps | apply abortOf_keeps | dsimp only | split

theorem stageMember_keeps {M : Nat} {s0 s : State} (g fn fq : Nat) (idx : BitVec 32) (eff : Effect) (hs : Keeps M s0 s) (hM : Within 0x8000100 M) :
    Keeps M s0 (stageMember g fn fq idx eff s) := by
  unfold stageMember
  try dsimp only
  with_reducible repeat' first
          | assumption | exact hM.sub rfl | apply setPhase_keeps | apply putCg_keeps | dsimp only | split

theorem moveHead_keeps {M : Nat} {s0 s : State} (fn fq : Nat) (hs : Keeps M s0 s) (hM : Within 0x100 M) :
    Keeps M s0 (moveHead fn fq s).1 := by
  unfold moveHead
  try dsimp only
  with_reducible repeat' first | assumption | exact hM.sub rfl | apply putQueue_keeps | dsimp only

theorem settleStop_keeps {M : Nat} {s0 s : State} (fn : Fn) (fq : Nat) (hs : Keeps M s0 s) (hM : Within 0x7c5 M) :
    Keeps M s0 (settleStop fn fq s) := by
  unfold settleStop
  try dsimp only
  with_reducible repeat' first
          | assumption | exact hM.sub rfl | apply putQueue_keeps | apply publishHead_keeps | apply postQueueEvent_keeps
          | apply moveHead_keeps | dsimp only | split

theorem stopQueue_keeps {M : Nat} {s0 s : State} (fn : Fn) (fq : Nat) (latched : BitVec 32) (status : Nat) (desc : Bytes) (hs : Keeps M s0 s) (hM : Within 0xa09a7c5 M) :
    Keeps M s0 (stopQueue fn fq latched status desc s) := by
  unfold stopQueue
  try dsimp only
  with_reducible repeat' first
          | assumption | exact hM.sub rfl | intro _ | apply putReg_keeps | apply addErr_keeps | apply putQueue_keeps
          | apply postQueueEvent_keeps | apply abortGroup_keeps | apply settleStop_keeps | dsimp only | apply Keeps.foldl

theorem readRecord_keeps {M : Nat} {s0 s : State} (fn : Fn) (fq : Nat) (hs : Keeps M s0 s) (hM : Within 0x180 M) :
    Keeps M s0 (readRecord fn fq s) := by
  unfold readRecord
  try dsimp only
  with_reducible repeat' first
          | assumption | exact hM.sub rfl | apply putQueue_keeps | apply instRead_keeps | dsimp only

theorem pokeQueue_keeps {M : Nat} {s0 s : State} (fn : Fn) (fq : Nat) (hs : Keeps M s0 s) (hM : Within 0x180 M) :
    Keeps M s0 (pokeQueue fn fq s) := by
  unfold pokeQueue
  try dsimp only
  with_reducible repeat' first
          | assumption | exact hM.sub rfl | apply putQueue_keeps | apply readRecord_keeps | dsimp only | split

theorem writeCompletion_keeps {M : Nat} {s0 s : State} (fn : Fn) (fq : Nat) (e : Entry) (hs : Keeps M s0 s) (hM : Within 0x7c5 M) :
    Keeps M s0 (writeCompletion fn fq e s) := by
  unfold writeCompletion
  try dsimp only
  with_reducible repeat' first
          | assumption | exact hM.sub rfl | apply instWrite_keeps | apply postEvent_keeps | apply postQueueEvent_keeps
          | apply setPhase_keeps | dsimp only | split

theorem writeReady_keeps {M : Nat} {s0 s : State} (fn : Fn) (fq n : Nat) (hs : Keeps M s0 s) (hM : Within 0x7c5 M) :
    Keeps M s0 (writeReady fn fq n s) := by
  unfold writeReady
  try dsimp only
  with_reducible repeat' first
          | assumption | exact hM.sub rfl | intro _ | apply writeCompletion_keeps | dsimp only | apply Keeps.foldl

/-! ### Machine/Reset.lean -/

theorem pairsReset_keeps {M : Nat} {s0 s : State} (l : Life) (hs : Keeps M s0 s) (hM : Within 0x20000 M) :
    Keeps M s0 (pairsReset l s) := by
  unfold pairsReset
  try dsimp only
  with_reducible repeat' first
          | assumption | exact hM.sub rfl | dsimp only | split | apply Keeps.upd | rfl | exact .inr rfl
          | exact .inl (hM.sub rfl)

theorem cutEgress_keeps {M : Nat} {s0 s : State} (port : PPort) (hs : Keeps M s0 s) (hM : Within 0x20000 M) :
    Keeps M s0 (cutEgress port s) := by
  unfold cutEgress
  with_reducible repeat' first
          | assumption | exact hM.sub rfl | apply emit_keeps | split | apply Keeps.upd | rfl | exact .inr rfl
          | exact .inl (hM.sub rfl)

theorem cutPair_keeps {M : Nat} {s0 s : State} (p : Nat) (hs : Keeps M s0 s) (hM : Within 0x20000 M) :
    Keeps M s0 (cutPair p s) := by
  unfold cutPair
  with_reducible repeat' first | assumption | exact hM.sub rfl | apply cutEgress_keeps | split

theorem dropBays_keeps {M : Nat} {s0 s : State} (hs : Keeps M s0 s) (hM : Within 0x0 M) : Keeps M s0 (dropBays s) := by
  unfold dropBays
  try dsimp only
  with_reducible repeat' first
          | assumption | intro _ | apply emit_keeps | dsimp only | apply Keeps.foldl | split

theorem enterStage1_from_keeps {M : Nat} {s0 u s : State} (life : Life) (link : Link) (h : Keeps M s0 u) (hp : s.pending = u.pending)
    (h1 : life.stage.val ≤ 1) (h2 : life.stage ≠ 0 → life.aonGood = true) (h3 : life.perst = true → life.stage = 0)
    (h4 : life.fuses.identity = u.life.fuses.identity) : Keeps M s0 (enterStage1 life link s) :=
  h.low ((enterStage1_pending life link s).trans hp) (by simpa using h4) (by simpa using h1) fun _ =>
    ⟨⟨rfl, rfl, rfl, rfl, rfl⟩, by simpa using h2, by simpa using h3, fun k => by
      have : (2 : Nat) ≤ life.stage.val := by simpa using k
      omega⟩

theorem enterStage1_keeps {M : Nat} {s0 s : State} (life : Life) (link : Link) (h : Keeps M s0 s)
    (h1 : life.stage.val ≤ 1) (h2 : life.stage ≠ 0 → life.aonGood = true) (h3 : life.perst = true → life.stage = 0)
    (h4 : life.fuses.identity = s.life.fuses.identity) : Keeps M s0 (enterStage1 life link s) :=
  enterStage1_from_keeps life link h rfl h1 h2 h3 h4

theorem stage1Full_keeps {M : Nat} {s0 s : State} (cause : BitVec 8) (h : Keeps M s0 s) : Keeps M s0 (stage1Full cause s) :=
  enterStage1_keeps _ _ h (by simp [lifeStage1]) (fun _ => rfl) (fun k => by simp [lifeStage1] at k) rfl

theorem stage1Flr_keeps {M : Nat} {s0 s : State} (h : Keeps M s0 s) : Keeps M s0 (stage1Flr s) :=
  enterStage1_keeps _ _ h (by simp [lifeStage1]) (fun _ => rfl) (fun k => by simp [lifeStage1] at k) rfl

theorem postFaultEntry_keeps {M : Nat} {s0 s : State} (hs : Keeps M s0 s) (hM : Within 0xc4 M) :
    Keeps M s0 (postFaultEntry s) := by
  unfold postFaultEntry
  with_reducible repeat' first | assumption | exact hM.sub rfl | apply postLogAt_keeps | split

theorem recordFault_fuses_keeps (r : FaultRec) (l : Life) : (recordFault r l).fuses = l.fuses := by
  unfold recordFault; split <;> rfl

theorem deviceFault_keeps {M : Nat} {s0 s : State} (cause block detail : Nat) (h : Keeps M s0 s) :
    Keeps M s0 (deviceFault cause block detail s) := by
  unfold deviceFault
  dsimp only
  have hM : Within anyPart anyPart := rfl
  have k : ∀ (x : FaultRec) (u : State), Keeps anyPart s0 u → Keeps anyPart s0 (postFaultEntry
      (enterStage1 (lifeStage1 (recordFault x u.life) 5 (recordFault x u.life).rrs) (linkLive u.link)
        { u with life := recordFault x u.life })) := fun x u hu =>
    postFaultEntry_keeps (enterStage1_from_keeps _ _ hu rfl (by simp [lifeStage1]) (fun _ => rfl)
      (fun k => by simp [lifeStage1] at k) (by simp [lifeStage1, Life.dark, recordFault_fuses_keeps])) hM.sub
  have e : ∀ (l : Life) (p : Link) (u : State), (postFaultEntry (enterStage1 (lifeStage1 l 5 l.rrs) p u)).life.stage.val ≤ 1 :=
    fun l p u => by unfold postFaultEntry; split <;> simp [lifeStage1]
  split
  · exact h
  · have j := k { cause := BitVec.ofNat 8 cause, block := BitVec.ofNat 5 block, detail := BitVec.ofNat 32 detail, time := now64 s } _
      (aerReport_keeps 0 .internalFatal h.any hM.sub)
    split
    · exact (postLog_keeps _ _ _ _ _ j hM.sub).mask (by rw [postLog_life]; exact e _ _ _)
    · exact j.mask (e _ _ _)

theorem tokenResidue_keeps {M : Nat} {s0 s : State} (e : Residue) (hs : Keeps M s0 s) (hM : Within 0xe5 M) :
    Keeps M s0 (tokenResidue e s) := by
  unfold tokenResidue
  with_reducible repeat' first
          | assumption | exact hM.sub rfl | apply addErr_keeps | apply correctable_keeps | apply deviceFault_keeps | split

/-! ### Machine/Start.lean -/

theorem Life_upd_keeps {M : Nat} {s0 s : State} (l : Life) (h : Keeps M s0 s) (hM : Within 0x8 M) (hf : l.fuses = s.life.fuses)
    (hst : l.stage = s.life.stage) (hl : s.stageLegal → State.stageLegal { s with life := l }) :
    Keeps M s0 { s with life := l } :=
  h.here rfl (congrArg Fuses.identity hf) hst (fun k => ⟨k.1, hl k.2⟩) ⟨List.suffix_rfl, fun p hp => by
    cases p <;> first | rfl | exact hf | exact absurd hM (not_within hp)⟩

theorem execVddAonGood_keeps {M : Nat} {s0 s : State} (pb01 pb23 : BitVec 2) (h : Keeps M s0 s) (hM : Within 0x20000 M) :
    KeepsRes M s0 (execVddAonGood pb01 pb23 s) := by
  unfold execVddAonGood
  split
  · exact .next h
  · exact .next (pairsReset_keeps _ (h.low (t := { s with life := { Life.dark s.life.fuses with aonGood := true, strap0 := pb01, strap1 := pb23, refStable := s.life.refStable, vppOk := s.life.vppOk } }) rfl rfl (by simp [Life.dark])
      fun l => ⟨l.1, fun _ => rfl, fun _ => rfl, fun k => by simp [Life.dark] at k⟩) hM.sub)

theorem execPlantReferenceStable_keeps {M : Nat} {s0 s : State} (hs : Keeps M s0 s) (hM : Within 0x8 M) :
    KeepsRes M s0 (execPlantReferenceStable s) := by
  unfold execPlantReferenceStable
  with_reducible repeat' first
          | assumption | exact hM.sub rfl | apply KeepsRes.next | apply Keeps.upd | rfl | exact .inr rfl
          | exact .inl (hM.sub rfl)

theorem execPlantReferenceLoss_keeps {M : Nat} {s0 s : State} (hs : Keeps M s0 s) (hM : Within 0x8 M) :
    KeepsRes M s0 (execPlantReferenceLoss s) := by
  unfold execPlantReferenceLoss
  with_reducible repeat' first
          | assumption | exact hM.sub rfl | apply KeepsRes.next | apply Keeps.upd | rfl | exact .inr rfl
          | exact .inl (hM.sub rfl)

theorem execBypassStart_keeps {M : Nat} {s0 s : State} (hs : Keeps M s0 s) (hM : Within 0x8 M) :
    KeepsRes M s0 (execBypassStart s) := by
  unfold execBypassStart
  with_reducible repeat' first
          | assumption | exact hM.sub rfl | apply KeepsRes.next | split | apply Keeps.upd | rfl | exact .inr rfl
          | exact .inl (hM.sub rfl)

theorem execBypassFrame_keeps {M : Nat} {s0 s : State} (port : PPort) (frame : Bytes) (fcsOk : Bool) (hs : Keeps M s0 s) (hM : Within 0x0 M) :
    KeepsRes M s0 (execBypassFrame port frame fcsOk s) := by
  unfold execBypassFrame
  with_reducible repeat' first | assumption | apply emit_keeps | apply KeepsRes.next | split

theorem execVddAonLoss_keeps {M : Nat} {s0 s : State} (h : Keeps M s0 s) : KeepsRes M s0 (execVddAonLoss s) :=
  .next (h.low rfl rfl (by simp [Life.dark]) fun _ => ⟨⟨rfl, rfl, rfl, rfl, rfl⟩, fun k => absurd rfl k,
    fun _ => rfl, fun k => by simp [Life.dark] at k⟩)

theorem execPerstAssert_keeps {M : Nat} {s0 s : State} (h : Keeps M s0 s) : KeepsRes M s0 (execPerstAssert s) := by
  unfold execPerstAssert
  split
  · exact .next h
  · exact .next (enterStage1_keeps _ _ h (by simp) (fun _ => rfl) (fun _ => rfl) rfl)

theorem execPerstRelease_keeps {M : Nat} {s0 s : State} (hs : Keeps M s0 s) (hM : Within 0x0 M) :
    KeepsRes M s0 (execPerstRelease s) := by
  unfold execPerstRelease
  with_reducible repeat' first | assumption | apply stage1Full_keeps | apply KeepsRes.next | split

theorem execFuseSenseDone_keeps {M : Nat} {s0 s : State} (hs : Keeps M s0 s) (hM : Within 0xed M) :
    KeepsRes M s0 (execFuseSenseDone s) := by
  unfold execFuseSenseDone
  try dsimp only
  with_reducible repeat' first
          | assumption | exact hM.sub rfl | apply KeepsRes.next | apply addErr_keeps | apply aerReport_keeps | dsimp only
          | split | apply Keeps.upd | rfl | exact .inr rfl | exact .inl (hM.sub rfl)

theorem execBistDone_keeps {M : Nat} {s0 s : State} (fail : Option BistFail) (h : Keeps M s0 s) (hM : Within 0xcc M) :
    KeepsRes M s0 (execBistDone fail s) := by
  unfold execBistDone
  split
  · rename_i c
    dsimp only
    split
    · exact .next (Life_upd_keeps _ h hM.sub rfl rfl id)
    · exact .next (postLog_keeps _ _ _ _ _ (Life_upd_keeps _ h hM.sub rfl rfl
        fun k => ⟨k.1, k.2.1, fun j => by simp [c.1] at j⟩) hM.sub)
  · exact .next h

theorem execDramTrainDone_keeps {M : Nat} {s0 s : State} (failed : Bool) (h : Keeps M s0 s) (hM : Within 0xcd M) :
    KeepsRes M s0 (execDramTrainDone failed s) := by
  unfold execDramTrainDone
  split
  · rename_i c
    dsimp only
    split
    · exact .next (postLog_keeps _ _ _ _ _ (useFree_keeps (useFree_keeps (Life_upd_keeps _ h hM.sub rfl rfl
        fun k => ⟨k.1, k.2.1, fun j => by simp [c.1] at j⟩) hM.sub) hM.sub) hM.sub)
    · exact .next (Life_upd_keeps _ h hM.sub rfl rfl id)
  · exact .next h

theorem execStage1Done_keeps {M : Nat} {s0 s : State} (h : Keeps M s0 s) (hM : Within 0x8 M) :
    KeepsRes M s0 (execStage1Done s) := by
  unfold execStage1Done
  split
  · rename_i c
    exact .next (Life_upd_keeps _ h hM.sub rfl rfl fun k => ⟨k.1, k.2.1, fun j => by simp [c.1] at j⟩)
  · exact .next h

theorem execRrsPeriodEnd_keeps {M : Nat} {s0 s : State} (hs : Keeps M s0 s) (hM : Within 0x8 M) :
    KeepsRes M s0 (execRrsPeriodEnd s) := by
  unfold execRrsPeriodEnd
  with_reducible repeat' first
          | assumption | exact hM.sub rfl | apply KeepsRes.next | apply Keeps.upd | rfl | exact .inr rfl
          | exact .inl (hM.sub rfl)

theorem execConfigurationRequest_keeps {M : Nat} {s0 s : State} (fn : Fn) (off : BitVec 12) (hs : Keeps M s0 s) (hM : Within 0xa09e7e5 M) :
    KeepsRes M s0 (execConfigurationRequest fn off s) := by
  unfold execConfigurationRequest
  with_reducible repeat' first
          | assumption | exact hM.sub rfl | apply KeepsRes.next | apply emit_keeps | apply linkBusy_keeps | apply flr_keeps
          | split

theorem putMargin_keeps {M : Nat} {s0 s : State} (fn : Fn) (field : CfgField) (v : BitVec 32) (hs : Keeps M s0 s) (hM : Within 0x80 M) :
    Keeps M s0 (putMargin fn field v s) := by
  unfold putMargin
  try dsimp only
  with_reducible repeat' first
          | assumption | exact hM.sub rfl | dsimp only | split | apply Keeps.upd | rfl | exact .inr rfl
          | exact .inl (hM.sub rfl)

theorem execConfigWrite_keeps {M : Nat} {s0 s : State} (fn : Fn) (field : CfgField) (v : BitVec 32) (hs : Keeps M s0 s) (hM : Within 0xe0 M) :
    KeepsRes M s0 (execConfigWrite fn field v s) := by
  unfold execConfigWrite
  with_reducible repeat' first
          | assumption | exact hM.sub rfl | apply KeepsRes.next | apply putCfg_keeps | apply linkBusy_keeps
          | apply tlpDropped_keeps | apply flushMsix_keeps | apply putMargin_keeps | split

theorem pagesStage_keeps {M : Nat} {s0 s : State} (hs : Keeps M s0 s) (hM : Within 0xc0 M) : Keeps M s0 (pagesStage s) := by
  unfold pagesStage
  with_reducible repeat' first | assumption | exact hM.sub rfl | apply pageChanged_keeps

theorem execBootEnable_advances {M : Nat} (s : State) (hM : Within 0xcc M) : AdvancesRes M s (execBootEnable s) := by
  unfold execBootEnable
  split
  · rename_i c
    split
    · rename_i d
      refine .next (Advances.keeps (s := { s with life := { s.life with stage := 2 } })
        ⟨rfl, rfl, .inr (.inl (by simp [c.1])), fun l => ⟨l.1, fun _ => l.2.1 (by simp [c.1]), fun k => ?_, fun _ => ?_⟩,
          .inr ⟨List.suffix_rfl, fun p hp => ?_⟩⟩
        (linkBusy_keeps (pagesStage_keeps (Keeps.refl _ _) hM.sub) hM.sub))
      · have := l.2.2.1 k; simp [c.1] at this
      · simpa using d
      · cases p <;> first | rfl | exact absurd hM.sub (not_within hp)
    · exact .next (linkBusy_keeps (putB_keeps _ _ _ (Keeps.refl _ s) hM.sub) hM.sub).advances
  · exact .next (tlpDropped_keeps (Keeps.refl _ s) hM.sub).advances

theorem execGoService_keeps {M : Nat} {s0 s : State} (hs : Keeps M s0 s) (hM : Within 0x88 M) :
    KeepsRes M s0 (execGoService s) := by
  unfold execGoService
  with_reducible repeat' first
          | assumption | exact hM.sub rfl | apply KeepsRes.next | apply linkBusy_keeps | apply tlpDropped_keeps | split
          | apply Keeps.upd | rfl | exact .inr rfl | exact .inl (hM.sub rfl)

theorem execHotReset_keeps {M : Nat} {s0 s : State} (hs : Keeps M s0 s) (hM : Within 0x0 M) :
    KeepsRes M s0 (execHotReset s) := by
  unfold execHotReset
  with_reducible repeat' first | assumption | apply stage1Full_keeps | apply KeepsRes.next | split

theorem execDlDown_keeps {M : Nat} {s0 s : State} (hs : Keeps M s0 s) (hM : Within 0x0 M) :
    KeepsRes M s0 (execDlDown s) := by
  unfold execDlDown
  with_reducible repeat' first | assumption | apply stage1Full_keeps | apply KeepsRes.next | split

theorem execFlrPf0_keeps {M : Nat} {s0 s : State} (hs : Keeps M s0 s) (hM : Within 0x0 M) :
    KeepsRes M s0 (execFlrPf0 s) := by
  unfold execFlrPf0
  with_reducible repeat' first | assumption | apply stage1Flr_keeps | apply KeepsRes.next | split

theorem execVppFuseChange_keeps {M : Nat} {s0 s : State} (inWindow : Bool) (hs : Keeps M s0 s) (hM : Within 0x8 M) :
    KeepsRes M s0 (execVppFuseChange inWindow s) := by
  unfold execVppFuseChange
  with_reducible repeat' first
          | assumption | exact hM.sub rfl | apply KeepsRes.next | apply Keeps.upd | rfl | exact .inr rfl
          | exact .inl (hM.sub rfl)

theorem execTemp_keeps {M : Nat} {s0 s : State} (sensor : BitVec 4) (hs : Keeps M s0 s) (hM : Within 0x0 M) :
    KeepsRes M s0 (execTemp sensor s) := by
  unfold execTemp
  with_reducible repeat' first | assumption | apply deviceFault_keeps | apply KeepsRes.next

theorem execVcore_keeps {M : Nat} {s0 s : State} (hs : Keeps M s0 s) (hM : Within 0x0 M) : KeepsRes M s0 (execVcore s) := by
  unfold execVcore
  with_reducible repeat' first | assumption | apply deviceFault_keeps | apply KeepsRes.next

theorem execThermTrip_keeps {M : Nat} {s0 s : State} (hs : Keeps M s0 s) (hM : Within 0x8 M) :
    KeepsRes M s0 (execThermTrip s) := by
  unfold execThermTrip
  with_reducible repeat' first
          | assumption | exact hM.sub rfl | apply KeepsRes.next | apply emit_keeps | split | apply Keeps.upd | rfl
          | exact .inr rfl | exact .inl (hM.sub rfl)

theorem execMctpMessage_keeps {M : Nat} {s0 s : State} (kind : MctpKind) (body : Bytes) (hs : Keeps M s0 s) (hM : Within 0x0 M) :
    KeepsRes M s0 (execMctpMessage kind body s) := by
  unfold execMctpMessage
  with_reducible repeat' first | assumption | apply emit_keeps | apply KeepsRes.next | split

theorem execJtagInstruction_keeps {M : Nat} {s0 s : State} (i : JtagInstr) (hs : Keeps M s0 s) (hM : Within 0x8 M) :
    KeepsRes M s0 (execJtagInstruction i s) := by
  unfold execJtagInstruction
  try dsimp only
  with_reducible repeat' first
          | assumption | exact hM.sub rfl | apply KeepsRes.next | apply emit_keeps | dsimp only | split | apply Keeps.upd
          | rfl | exact .inr rfl | exact .inl (hM.sub rfl)

theorem execTempSensorRead_keeps {M : Nat} {s0 s : State} (die : List (BitVec 8)) (stack0 stack1 : BitVec 8) (hs : Keeps M s0 s) (hM : Within 0x804 M) :
    KeepsRes M s0 (execTempSensorRead die stack0 stack1 s) := by
  unfold execTempSensorRead
  try dsimp only
  with_reducible repeat' first
          | assumption | exact hM.sub rfl | apply KeepsRes.next | apply putReg_keeps | dsimp only | split | apply Keeps.upd
          | rfl | exact .inr rfl | exact .inl (hM.sub rfl)

theorem putPaceMons_keeps {M : Nat} {s0 s : State} (w : Nat) (cs : List (BitVec 32)) (n : Nat) (h : Keeps M s0 s) (hM : Within 0x4 M) :
    Keeps M s0 (putPaceMons w cs n s) := by
  induction cs generalizing n s with
  | nil => exact h
  | cons c cs ih => exact ih _ (putReg_keeps _ _ h hM.sub)

theorem paceAlarm_keeps {M : Nat} {s0 s : State} (cur : Nat) (hs : Keeps M s0 s) (hM : Within 0xc4 M) :
    Keeps M s0 (paceAlarm cur s) := by
  unfold paceAlarm
  try dsimp only
  with_reducible repeat' first
          | assumption | exact hM.sub rfl | apply putB_keeps | apply postLog_keeps | dsimp only | split

theorem paceWindow_keeps {M : Nat} {s0 s : State} (comps : List (BitVec 32)) (hs : Keeps M s0 s) (hM : Within 0x8c4 M) :
    Keeps M s0 (paceWindow comps s) := by
  unfold paceWindow
  try dsimp only
  with_reducible repeat' first
          | assumption | exact hM.sub rfl | intro _ | apply putReg_keeps | apply putPaceMons_keeps | apply paceAlarm_keeps
          | dsimp only | apply Keeps.foldl | apply Keeps.upd | rfl | exact .inr rfl | exact .inl (hM.sub rfl)

theorem execPaceWindow_keeps {M : Nat} {s0 s : State} (comps : List (BitVec 32)) (hs : Keeps M s0 s) (hM : Within 0x8c4 M) :
    KeepsRes M s0 (execPaceWindow comps s) := by
  unfold execPaceWindow
  with_reducible repeat' first
          | assumption | exact hM.sub rfl | apply KeepsRes.next | apply paceWindow_keeps | split

theorem execClearExtremes_keeps {M : Nat} {s0 s : State} (hs : Keeps M s0 s) (hM : Within 0x84 M) :
    KeepsRes M s0 (execClearExtremes s) := by
  unfold execClearExtremes
  try dsimp only
  with_reducible repeat' first
          | assumption | exact hM.sub rfl | apply KeepsRes.next | intro _ | apply putF_keeps | apply setupWrite_keeps
          | dsimp only

theorem paceEnabled_keeps {M : Nat} {s0 s : State} (wasOn : Bool) (hs : Keeps M s0 s) (hM : Within 0x8c4 M) :
    Keeps M s0 (paceEnabled wasOn s) := by
  unfold paceEnabled
  with_reducible repeat' first
          | assumption | exact hM.sub rfl | apply putF_keeps | apply paceWindow_keeps | split | apply Keeps.upd | rfl
          | exact .inr rfl | exact .inl (hM.sub rfl)

/-! ### Machine/Groups.lean -/

theorem addToken_keeps {M : Nat} {s0 s : State} (d : Nat) (t : Word) (hs : Keeps M s0 s) (hM : Within 0x8000000 M) :
    Keeps M s0 (addToken d t s) := by
  unfold addToken
  try dsimp only
  with_reducible repeat' first
          | assumption | exact hM.sub rfl | dsimp only | apply Keeps.upd | rfl | exact .inr rfl | exact .inl (hM.sub rfl)

theorem dropWaiting_keeps {M : Nat} {s0 s : State} (fn fq : Nat) (idx : BitVec 32) (hs : Keeps M s0 s) (hM : Within 0x8000000 M) :
    Keeps M s0 (dropWaiting fn fq idx s) := by
  unfold dropWaiting
  with_reducible repeat' first
          | assumption | exact hM.sub rfl | apply Keeps.upd | rfl | exact .inr rfl | exact .inl (hM.sub rfl)

theorem holdMember_keeps {M : Nat} {s0 s : State} (fn fq : Nat) (e : Entry) (hs : Keeps M s0 s) (hM : Within 0x8000000 M) :
    Keeps M s0 (holdMember fn fq e s) := by
  unfold holdMember
  with_reducible repeat' first
          | assumption | exact hM.sub rfl | split | apply Keeps.upd | rfl | exact .inr rfl | exact .inl (hM.sub rfl)

theorem joinSlot_keeps {M : Nat} {s0 s : State} (g : Nat) (x : Group) (fn fq : Nat) (e : Entry) (hs : Keeps M s0 s) (hM : Within 0xa09a1c4 M) :
    Keeps M s0 (joinSlot g x fn fq e s) := by
  unfold joinSlot
  try dsimp only
  with_reducible repeat' first
          | assumption | exact hM.sub rfl | apply mapEntry_keeps | apply putCg_keeps | apply finish_keeps | dsimp only
          | split

theorem joinGroup_keeps {M : Nat} {s0 s : State} (fn fq : Nat) (e : Entry) (hs : Keeps M s0 s) (hM : Within 0xa09a1c4 M) :
    Keeps M s0 (joinGroup fn fq e s) := by
  unfold joinGroup
  try dsimp only
  with_reducible repeat' first
          | assumption | exact hM.sub rfl | apply addStat_keeps | apply settleAborted_keeps | apply finish_keeps
          | apply dropWaiting_keeps | apply holdMember_keeps | apply joinSlot_keeps | dsimp only | split

theorem joinWaiting_keeps {M : Nat} {s0 s : State} (fn fq : Nat) (hs : Keeps M s0 s) (hM : Within 0xa09a1c4 M) :
    Keeps M s0 (joinWaiting fn fq s) := by
  unfold joinWaiting
  try dsimp only
  with_reducible repeat' first | assumption | exact hM.sub rfl | apply joinGroup_keeps | dsimp only | split

theorem nextEntry_keeps {M : Nat} {s0 s : State} (fn fq op : Nat) (run : Entry → State → State) (hrun : ∀ a' u, Keeps M s0 u → Keeps M s0 (run a' u)) (hs : Keeps M s0 s) (hM : Within 0xa09a1c4 M) :
    Keeps M s0 (nextEntry fn fq op run s) := by
  unfold nextEntry
  try dsimp only
  with_reducible repeat' first
          | assumption | exact hM.sub rfl | apply hrun | apply joinWaiting_keeps | dsimp only | split

end Sys2Proof.Machine
end

