-- ==== Sys2Proof/Laws/KeepsFlow.lean ====
section
/-! SUPPORT. The operations and commands of forwarding, the flow cores' instructions and the crypto engine: each keeps what `Keeps` says. -/
set_option Elab.async false
namespace Sys2Proof.Machine

/-! ### Machine/Forward.lean -/

theorem reserveKey_keeps {M : Nat} {s0 s : State} (k : TabKind) (x : Nat × Nat × Bytes) (hs : Keeps M s0 s) (hM : Within 0x8000 M) :
    Keeps M s0 (reserveKey k x s) := by
  unfold reserveKey
  try dsimp only
  with_reducible repeat' first | assumption | exact hM.sub rfl | apply putMain_keeps | dsimp only | split

theorem takeShadows_keeps {M : Nat} {s0 s : State} (k : TabKind) (keys : List (Nat × Nat × Bytes)) (group : Option Nat) (writer : Option (BitVec 20 × BitVec 32)) (hs : Keeps M s0 s) (hM : Within 0x8000 M) :
    Keeps M s0 (takeShadows k keys group writer s) := by
  unfold takeShadows
  try dsimp only
  with_reducible repeat' first
          | assumption | exact hM.sub rfl | intro _ | apply reserveKey_keeps | dsimp only | apply Keeps.foldl
          | apply Keeps.foldl_fst | apply Keeps.upd | rfl | exact .inr rfl | exact .inl (hM.sub rfl)

theorem addTotals_keeps {M : Nat} {s0 s : State} (g updates bytes : Nat) (hs : Keeps M s0 s) (hM : Within 0x8000000 M) :
    Keeps M s0 (addTotals g updates bytes s) := by
  unfold addTotals
  with_reducible repeat' first | assumption | exact hM.sub rfl | apply putCg_keeps | split

theorem runPlan_keeps {M : Nat} {s0 s : State} (cq : Nat) (e : Entry) (p : Plan) (hs : Keeps M s0 s) (hM : Within 0xa09a1c4 M) :
    Keeps M s0 (runPlan cq e p s) := by
  unfold runPlan
  try dsimp only
  with_reducible repeat' first
          | assumption | exact hM.sub rfl | apply setPhase_keeps | apply finish_keeps | apply stageMember_keeps
          | apply takeShadows_keeps | apply addTotals_keeps | dsimp only | split | apply Keeps.upd | rfl | exact .inr rfl
          | exact .inl (hM.sub rfl)

theorem tableWrite_keeps {M : Nat} {s0 s : State} (cq op : Nat) (plan : State → Bytes → Plan) (hs : Keeps M s0 s) (hM : Within 0xa09a1c4 M) :
    Keeps M s0 (tableWrite cq op plan s) := by
  unfold tableWrite
  try dsimp only
  with_reducible repeat' first
          | assumption | exact hM.sub rfl | intro _ | apply stageMember_keeps | apply nextEntry_keeps | apply runPlan_keeps
          | dsimp only | split

theorem completeFlip_keeps {M : Nat} {s0 s : State} (w : FlipWait) (hs : Keeps M s0 s) (hM : Within 0xa09a1c4 M) :
    Keeps M s0 (completeFlip w s) := by
  unfold completeFlip
  try dsimp only
  with_reducible repeat' first | assumption | exact hM.sub rfl | apply finish_keeps | dsimp only | split

theorem flip_keeps {M : Nat} {s0 s : State} (pl : Nat) (hs : Keeps M s0 s) (hM : Within 0xa09a1c4 M) :
    Keeps M s0 (flip pl s) := by
  unfold flip
  try dsimp only
  with_reducible repeat' first
          | assumption | exact hM.sub rfl | intro _ | apply putEpoch_keeps | apply advanceRetired_keeps
          | apply completeFlip_keeps | dsimp only | apply Keeps.foldl | apply Keeps.foldl_fst | split | apply Keeps.upd | rfl
          | exact .inr rfl | exact .inl (hM.sub rfl)

theorem execActWrite_keeps {M : Nat} {s0 s : State} (cq : BitVec 20) (hs : Keeps M s0 s) (hM : Within 0xa09a1c4 M) :
    KeepsRes M s0 (execActWrite cq s) := by
  unfold execActWrite
  with_reducible repeat' first
          | assumption | exact hM.sub rfl | apply KeepsRes.next | apply tableWrite_keeps

theorem execJtRootWrite_keeps {M : Nat} {s0 s : State} (cq : BitVec 20) (hs : Keeps M s0 s) (hM : Within 0xa09a1c4 M) :
    KeepsRes M s0 (execJtRootWrite cq s) := by
  unfold execJtRootWrite
  with_reducible repeat' first
          | assumption | exact hM.sub rfl | apply KeepsRes.next | apply tableWrite_keeps

theorem writeRun_keeps {M : Nat} {s0 s : State} (k : TabKind) (pls : List Nat) (first size : Nat) (data : Bytes) (n : Nat) (hs : Keeps M s0 s) (hM : Within 0x8000 M) :
    Keeps M s0 (writeRun k pls first size data n s) := by
  unfold writeRun
  try dsimp only
  with_reducible repeat' first
          | assumption | exact hM.sub rfl | intro _ | apply putMain_keeps | dsimp only | apply Keeps.foldl

theorem juniperWrite_keeps {M : Nat} {s0 s : State} (k : TabKind) (size limit firstBits : Nat) (cq : Nat) (e : Entry) (r : Read) (hs : Keeps M s0 s) (hM : Within 0xa09a1e5 M) :
    Keeps M s0 (juniperWrite k size limit firstBits cq e r s) := by
  unfold juniperWrite
  try dsimp only
  with_reducible repeat' first
          | assumption | exact hM.sub rfl | apply readFailure_keeps | apply entryRead_keeps | apply finish_keeps
          | apply writeRun_keeps | dsimp only | split

theorem execJtNodeWrite_keeps {M : Nat} {s0 s : State} (cq : BitVec 20) (r : Read) (hs : Keeps M s0 s) (hM : Within 0xa09a1e5 M) :
    KeepsRes M s0 (execJtNodeWrite cq r s) := by
  unfold execJtNodeWrite
  try dsimp only
  with_reducible repeat' first
          | assumption | exact hM.sub rfl | apply KeepsRes.next | intro _ | apply nextEntry_keeps | apply juniperWrite_keeps
          | dsimp only

theorem execJtRuleWrite_keeps {M : Nat} {s0 s : State} (cq : BitVec 20) (r : Read) (hs : Keeps M s0 s) (hM : Within 0xa09a1e5 M) :
    KeepsRes M s0 (execJtRuleWrite cq r s) := by
  unfold execJtRuleWrite
  try dsimp only
  with_reducible repeat' first
          | assumption | exact hM.sub rfl | apply KeepsRes.next | intro _ | apply nextEntry_keeps | apply juniperWrite_keeps
          | dsimp only

theorem execDirWrite_keeps {M : Nat} {s0 s : State} (cq : BitVec 20) (hs : Keeps M s0 s) (hM : Within 0xa09a1c4 M) :
    KeepsRes M s0 (execDirWrite cq s) := by
  unfold execDirWrite
  with_reducible repeat' first
          | assumption | exact hM.sub rfl | apply KeepsRes.next | apply tableWrite_keeps

theorem execStaWrite_keeps {M : Nat} {s0 s : State} (cq : BitVec 20) (hs : Keeps M s0 s) (hM : Within 0xa09a1c4 M) :
    KeepsRes M s0 (execStaWrite cq s) := by
  unfold execStaWrite
  with_reducible repeat' first
          | assumption | exact hM.sub rfl | apply KeepsRes.next | apply tableWrite_keeps

theorem execLpmWrite_keeps {M : Nat} {s0 s : State} (cq : BitVec 20) (hs : Keeps M s0 s) (hM : Within 0xa09a1c4 M) :
    KeepsRes M s0 (execLpmWrite cq s) := by
  unfold execLpmWrite
  with_reducible repeat' first
          | assumption | exact hM.sub rfl | apply KeepsRes.next | apply tableWrite_keeps

theorem postLearn_keeps {M : Nat} {s0 s : State} (enBit : Nat) (code pl old new_ : Nat) (mac : BitVec 48) (bd : BitVec 14) (ns : Nat) (hs : Keeps M s0 s) (hM : Within 0x7c5 M) :
    Keeps M s0 (postLearn enBit code pl old new_ mac bd ns s) := by
  unfold postLearn
  with_reducible repeat' first | assumption | exact hM.sub rfl | apply postEvent_keeps | split

theorem applyLearn_keeps {M : Nat} {s0 s : State} (pl : Nat) (q : LearnReq) (hs : Keeps M s0 s) (hM : Within 0x87c5 M) :
    Keeps M s0 (applyLearn pl q s) := by
  unfold applyLearn
  try dsimp only
  with_reducible repeat' first
          | assumption | exact hM.sub rfl | apply addStat_keeps | apply addErr_keeps | apply putMain_keeps
          | apply postLearn_keeps | dsimp only | split

theorem applyLearnAt_keeps {M : Nat} {s0 s : State} (pl : Nat) (q : LearnReq) (hs : Keeps M s0 s) (hM : Within 0x87c5 M) :
    Keeps M s0 (applyLearnAt pl q s) := by
  unfold applyLearnAt
  try dsimp only
  with_reducible repeat' first
          | assumption | exact hM.sub rfl | apply putLearner_keeps | apply applyLearn_keeps | dsimp only | split

theorem execLearnRequest_keeps {M : Nat} {s0 s : State} (pl : Pl) (hs : Keeps M s0 s) (hM : Within 0x87c5 M) :
    KeepsRes M s0 (execLearnRequest pl s) := by
  unfold execLearnRequest
  try dsimp only
  with_reducible repeat' first
          | assumption | exact hM.sub rfl | apply KeepsRes.next | apply addErr_keeps | apply putLearner_keeps
          | apply applyLearnAt_keeps | dsimp only | split

theorem execLearnApply_keeps {M : Nat} {s0 s : State} (pl : Pl) (hs : Keeps M s0 s) (hM : Within 0x87c5 M) :
    KeepsRes M s0 (execLearnApply pl s) := by
  unfold execLearnApply
  try dsimp only
  with_reducible repeat' first
          | assumption | exact hM.sub rfl | apply KeepsRes.next | apply putLearner_keeps | apply applyLearnAt_keeps
          | dsimp only | split

theorem eraseStation_keeps {M : Nat} {s0 s : State} (pl n : Nat) (e : Bytes) (hs : Keeps M s0 s) (hM : Within 0x87c5 M) :
    Keeps M s0 (eraseStation pl n e s) := by
  unfold eraseStation
  try dsimp only
  with_reducible repeat' first
          | assumption | exact hM.sub rfl | apply putMain_keeps | apply postLearn_keeps | dsimp only | split

theorem removeStation_keeps {M : Nat} {s0 s : State} (pl n : Nat) (e : Bytes) (hs : Keeps M s0 s) (hM : Within 0x87c5 M) :
    Keeps M s0 (removeStation pl n e s) := by
  unfold removeStation
  with_reducible repeat' first
          | assumption | exact hM.sub rfl | apply addStat_keeps | apply eraseStation_keeps

theorem ageTick_keeps {M : Nat} {s0 s : State} (pl : Nat) (hs : Keeps M s0 s) (hM : Within 0x87c5 M) :
    Keeps M s0 (ageTick pl s) := by
  unfold ageTick
  try dsimp only
  with_reducible repeat' first
          | assumption | exact hM.sub rfl | intro _ | apply putF_keeps | apply removeStation_keeps | dsimp only
          | apply Keeps.foldl | apply Keeps.foldl_fst | split | apply Keeps.upd | rfl | exact .inr rfl
          | exact .inl (hM.sub rfl)

theorem execAgeTick_keeps {M : Nat} {s0 s : State} (pl : Pl) (hs : Keeps M s0 s) (hM : Within 0x87c5 M) :
    KeepsRes M s0 (execAgeTick pl s) := by
  unfold execAgeTick
  with_reducible repeat' first
          | assumption | exact hM.sub rfl | apply KeepsRes.next | apply ageTick_keeps | split

theorem staFlush_keeps {M : Nat} {s0 s : State} (cq : Nat) (e : Entry) (hs : Keeps M s0 s) (hM : Within 0xa09a7c5 M) :
    Keeps M s0 (staFlush cq e s) := by
  unfold staFlush
  try dsimp only
  with_reducible repeat' first
          | assumption | exact hM.sub rfl | intro _ | apply finish_keeps | apply removeStation_keeps | dsimp only
          | apply Keeps.foldl | apply Keeps.foldl_fst | split

theorem execStaFlush_keeps {M : Nat} {s0 s : State} (cq : BitVec 20) (hs : Keeps M s0 s) (hM : Within 0xa09a7c5 M) :
    KeepsRes M s0 (execStaFlush cq s) := by
  unfold execStaFlush
  try dsimp only
  with_reducible repeat' first
          | assumption | exact hM.sub rfl | apply KeepsRes.next | intro _ | apply nextEntry_keeps | apply staFlush_keeps
          | dsimp only

theorem execHashSeedWrite_keeps {M : Nat} {s0 s : State} (pl : Pl) (v : BitVec 64) (hs : Keeps M s0 s) (hM : Within 0x84 M) :
    KeepsRes M s0 (execHashSeedWrite pl v s) := by
  unfold execHashSeedWrite
  try dsimp only
  with_reducible repeat' first
          | assumption | exact hM.sub rfl | apply KeepsRes.next | intro _ | apply putReg_keeps | apply putB_keeps
          | apply setupWrite_keeps | dsimp only | split

theorem lookupError_keeps {M : Nat} {s0 s : State} (pl kind table tree : Nat) (key : Bytes) (e : BitVec 32) (hs : Keeps M s0 s) (hM : Within 0x87c5 M) :
    Keeps M s0 (lookupError pl kind table tree key e s).1 := by
  unfold lookupError
  try dsimp only
  with_reducible repeat' first
          | assumption | exact hM.sub rfl | apply useFree_keeps | apply arrayError_keeps | apply eraseStation_keeps
          | dsimp only | split

/-! ### Machine/FlowOps.lean -/

theorem putCore_keeps {M : Nat} {s0 s : State} (c : Nat) (x : CoreSt) (hs : Keeps M s0 s) (hM : Within 0x80000 M) :
    Keeps M s0 (putCore c x s) := by
  unfold putCore
  try dsimp only
  with_reducible repeat' first
          | assumption | exact hM.sub rfl | dsimp only | apply Keeps.upd | rfl | exact .inr rfl | exact .inl (hM.sub rfl)

theorem requiet_keeps {M : Nat} {s0 s : State} (c : Nat) (hs : Keeps M s0 s) (hM : Within 0x80000 M) :
    Keeps M s0 (requiet c s) := by
  unfold requiet
  with_reducible repeat' first | assumption | exact hM.sub rfl | apply putCore_keeps | split

theorem putThread_keeps {M : Nat} {s0 s : State} (c t : Nat) (x : Thread) (hs : Keeps M s0 s) (hM : Within 0x80000 M) :
    Keeps M s0 (putThread c t x s) := by
  unfold putThread
  with_reducible repeat' first
          | assumption | exact hM.sub rfl | apply putThreadRaw_keeps | apply requiet_keeps

theorem putChan_keeps {M : Nat} {s0 s : State} (k : Chn) (x : Channel) (hs : Keeps M s0 s) (hM : Within 0x100000 M) :
    Keeps M s0 (putChan k x s) := by
  unfold putChan
  try dsimp only
  with_reducible repeat' first
          | assumption | exact hM.sub rfl | dsimp only | split | apply Keeps.upd | rfl | exact .inr rfl
          | exact .inl (hM.sub rfl)

theorem dropStale_keeps {M : Nat} {s0 s : State} (core : Nat) (ms : List Msg) (h : Keeps M s0 s) (hM : Within 0xc4 M) : Keeps M s0 (dropStale core ms s).1 := by
  induction ms generalizing s with
  | nil => exact h
  | cons m ms ih =>
    unfold dropStale
    split
    · split
      · exact ih (addErr_keeps _ _ h hM.sub)
      · exact ih h
    · exact h

theorem takeMsg_keeps {M : Nat} {s0 s : State} (k : Chn) (hs : Keeps M s0 s) (hM : Within 0x1000c4 M) :
    Keeps M s0 (takeMsg k s).1 := by
  unfold takeMsg
  try dsimp only
  with_reducible repeat' first
          | assumption | exact hM.sub rfl | apply putChan_keeps | apply dropStale_keeps | dsimp only | split

theorem serveReceiver_keeps {M : Nat} {s0 s : State} (k : Chn) (hs : Keeps M s0 s) (hM : Within 0x1800c4 M) :
    Keeps M s0 (serveReceiver k s) := by
  unfold serveReceiver
  try dsimp only
  with_reducible repeat' first
          | assumption | exact hM.sub rfl | apply putThread_keeps | apply putChan_keeps | apply takeMsg_keeps | dsimp only
          | split

theorem serveClaimer_keeps {M : Nat} {s0 s : State} (k : Chn) (hs : Keeps M s0 s) (hM : Within 0x180000 M) :
    Keeps M s0 (serveClaimer k s) := by
  unfold serveClaimer
  try dsimp only
  with_reducible repeat' first
          | assumption | exact hM.sub rfl | apply putThread_keeps | apply putChan_keeps | dsimp only | split

theorem serveFor_keeps {M : Nat} {s0 s : State} (n : Nat) (k : Chn) (h : Keeps M s0 s) (hM : Within 0x1800c4 M) : Keeps M s0 (serveFor n k s) := by
  induction n generalizing s with
  | zero => exact serveClaimer_keeps _ h hM.sub
  | succ n ih => exact ih (serveClaimer_keeps _ (serveReceiver_keeps _ h hM.sub) hM.sub)

theorem serve_keeps {M : Nat} {s0 s : State} (k : Chn) (hs : Keeps M s0 s) (hM : Within 0x1800c4 M) :
    Keeps M s0 (serve k s) := by
  unfold serve
  with_reducible repeat' first | assumption | exact hM.sub rfl | apply serveFor_keeps

theorem publish_keeps {M : Nat} {s0 s : State} (k : Chn) (m : Msg) (hs : Keeps M s0 s) (hM : Within 0x1800c4 M) :
    Keeps M s0 (publish k m s) := by
  unfold publish
  try dsimp only
  with_reducible repeat' first
          | assumption | exact hM.sub rfl | apply putChan_keeps | apply serve_keeps | dsimp only

theorem deliver_keeps {M : Nat} {s0 s : State} (k : Chn) (m : Msg) (hs : Keeps M s0 s) (hM : Within 0x1800c4 M) :
    Keeps M s0 (deliver k m s).1 := by
  unfold deliver
  with_reducible repeat' first | assumption | exact hM.sub rfl | apply publish_keeps | split

theorem releaseClaim_keeps {M : Nat} {s0 s : State} (c t : Nat) (hs : Keeps M s0 s) (hM : Within 0x1800c4 M) :
    Keeps M s0 (releaseClaim c t s) := by
  unfold releaseClaim
  try dsimp only
  with_reducible repeat' first
          | assumption | exact hM.sub rfl | apply putThread_keeps | apply putChan_keeps | apply serve_keeps | dsimp only
          | split

theorem leaveWait_keeps {M : Nat} {s0 s : State} (c t : Nat) (hs : Keeps M s0 s) (hM : Within 0x100000 M) :
    Keeps M s0 (leaveWait c t s) := by
  unfold leaveWait
  try dsimp only
  with_reducible repeat' first | assumption | exact hM.sub rfl | apply putChan_keeps | dsimp only | split

theorem abortOwnGroups_keeps {M : Nat} {s0 s : State} (c t : Nat) (hs : Keeps M s0 s) (hM : Within 0xa09a1c4 M) :
    Keeps M s0 (abortOwnGroups c t s) := by
  unfold abortOwnGroups
  try dsimp only
  with_reducible repeat' first
          | assumption | exact hM.sub rfl | intro _ | apply putCg_keeps | apply freeCg_keeps | apply abortGroup_keeps
          | dsimp only | apply Keeps.foldl | apply Keeps.foldl_fst | split

theorem endThread_keeps {M : Nat} {s0 s : State} (c t : Nat) (st : TState) (hs : Keeps M s0 s) (hM : Within 0xa19a1c4 M) :
    Keeps M s0 (endThread c t st s) := by
  unfold endThread
  try dsimp only
  with_reducible repeat' first
          | assumption | exact hM.sub rfl | apply putThread_keeps | apply releaseClaim_keeps | apply leaveWait_keeps
          | apply abortOwnGroups_keeps | dsimp only

theorem threadFault_keeps {M : Nat} {s0 s : State} (c t cause : Nat) (detail : Nat) (hs : Keeps M s0 s) (hM : Within 0xa19a1c4 M) :
    Keeps M s0 (threadFault c t cause detail s) := by
  unfold threadFault
  try dsimp only
  with_reducible repeat' first
          | assumption | exact hM.sub rfl | apply putReg_keeps | apply postLog_keeps | apply addErr_keeps
          | apply deviceFault_keeps | apply endThread_keeps | dsimp only | split

theorem placeWrite_keeps {M : Nat} {s0 s : State} (p : Place) (b : Bytes) (hs : Keeps M s0 s) (hM : Within 0x11c00000 M) :
    Keeps M s0 (placeWrite p b s) := by
  unfold placeWrite
  with_reducible repeat' first
          | assumption | exact hM.sub rfl | apply Keeps.slices | apply Keeps.cluster | apply Keeps.hkMem | apply Keeps.dram
          | split | apply Keeps.upd | rfl | exact .inr rfl | exact .inl (hM.sub rfl)

theorem holdFrame_keeps {M : Nat} {s0 s : State} (c f : Nat) (hs : Keeps M s0 s) (hM : Within 0x80001 M) :
    Keeps M s0 (holdFrame c f s).1 := by
  unfold holdFrame
  with_reducible repeat' first | assumption | exact hM.sub rfl | apply useFree_keeps | apply putCore_keeps

theorem dropPunt_keeps {M : Nat} {s0 s : State} (c f : Nat) (hs : Keeps M s0 s) (hM : Within 0x80000 M) :
    Keeps M s0 (dropPunt c f s) := by
  unfold dropPunt
  try dsimp only
  with_reducible repeat' first | assumption | exact hM.sub rfl | apply putCore_keeps | dsimp only

theorem freePunts_keeps {M : Nat} {s0 s : State} (c : Nat) (hs : Keeps M s0 s) (hM : Within 0x92000 M) :
    Keeps M s0 (freePunts c s) := by
  unfold freePunts
  try dsimp only
  with_reducible repeat' first
          | assumption | exact hM.sub rfl | intro _ | apply freeFrame_keeps | apply dropPunt_keeps | dsimp only
          | apply Keeps.foldl

theorem addMetaCell_keeps {M : Nat} {s0 s : State} (f : Nat) (hs : Keeps M s0 s) (hM : Within 0x10000 M) :
    Keeps M s0 (addMetaCell f s) := by
  unfold addMetaCell
  with_reducible repeat' first | assumption | exact hM.sub rfl | apply putBuf_keeps | split

theorem dropMetaCell_keeps {M : Nat} {s0 s : State} (f : Nat) (hs : Keeps M s0 s) (hM : Within 0x10000 M) :
    Keeps M s0 (dropMetaCell f s) := by
  unfold dropMetaCell
  with_reducible repeat' first | assumption | exact hM.sub rfl | apply putBuf_keeps | split

theorem puntFrame_keeps {M : Nat} {s0 s : State} (core mbox f : Nat) (reason : Nat) (hs : Keeps M s0 s) (hM : Within 0x1920c5 M) :
    Keeps M s0 (puntFrame core mbox f reason s).1 := by
  unfold puntFrame
  try dsimp only
  with_reducible repeat' first
          | assumption | exact hM.sub rfl | apply addErr_keeps | apply putFrame_keeps | apply deliver_keeps
          | apply holdFrame_keeps | apply addMetaCell_keeps | dsimp only | split

/-! ### Machine/CryptoOps.lean -/

theorem putCtx_keeps {M : Nat} {s0 s : State} (g : Nat) (b : Bytes) (hs : Keeps M s0 s) (hM : Within 0x10040000 M) :
    Keeps M s0 (putCtx g b s) := by
  unfold putCtx
  with_reducible repeat' first
          | assumption | exact hM.sub rfl | apply Keeps.dram | split | apply Keeps.upd | rfl | exact .inr rfl
          | exact .inl (hM.sub rfl)

theorem evictCtx_keeps {M : Nat} {s0 s : State} (g : Nat) (hs : Keeps M s0 s) (hM : Within 0x10040000 M) :
    Keeps M s0 (evictCtx g s) := by
  unfold evictCtx
  split
  · exact hs
  · refine Keeps.dram (s := { s with cx := { s.cx with cache := tabErase s.cx.cache g } }) ?_ hM.sub
    apply Keeps.upd hs <;> first | rfl | exact .inr rfl | exact .inl (hM.sub rfl)

theorem cacheInsert_keeps {M : Nat} {s0 s : State} (g : Nat) (filled : Bool) (hs : Keeps M s0 s) (hM : Within 0x10040001 M) :
    Keeps M s0 (cacheInsert g filled s) := by
  unfold cacheInsert
  try dsimp only
  with_reducible repeat' first
          | assumption | exact hM.sub rfl | apply useFree_keeps | apply evictCtx_keeps | dsimp only | split | apply Keeps.upd
          | rfl | exact .inr rfl | exact .inl (hM.sub rfl)

theorem touchCtx_keeps {M : Nat} {s0 s : State} (g : Nat) (hs : Keeps M s0 s) (hM : Within 0x10040005 M) :
    Keeps M s0 (touchCtx g s) := by
  unfold touchCtx
  with_reducible repeat' first
          | assumption | exact hM.sub rfl | apply addStat_keeps | apply cacheInsert_keeps | split | apply Keeps.upd | rfl
          | exact .inr rfl | exact .inl (hM.sub rfl)

theorem ctxCount_keeps {M : Nat} {s0 s : State} (g off : Nat) (hs : Keeps M s0 s) (hM : Within 0x100400c5 M) :
    Keeps M s0 (ctxCount g off s) := by
  unfold ctxCount
  try dsimp only
  with_reducible repeat' first
          | assumption | exact hM.sub rfl | apply useFree_keeps | apply postLog_keeps | apply putCtx_keeps | dsimp only
          | split

theorem lifetimeEvent_keeps {M : Nat} {s0 s : State} (g status : Nat) (hs : Keeps M s0 s) (hM : Within 0x7c5 M) :
    Keeps M s0 (lifetimeEvent g status s) := by
  unfold lifetimeEvent
  with_reducible repeat' first | assumption | exact hM.sub rfl | apply postEvent_keeps

theorem crossing_keeps {M : Nat} {s0 s : State} (g flag status : Nat) (hs : Keeps M s0 s) (hM : Within 0x100407c5 M) :
    Keeps M s0 (crossing g flag status s) := by
  unfold crossing
  with_reducible repeat' first
          | assumption | exact hM.sub rfl | apply putCtx_keeps | apply lifetimeEvent_keeps

theorem countTransform_keeps {M : Nat} {s0 s : State} (g octets : Nat) (hs : Keeps M s0 s) (hM : Within 0x100407c5 M) :
    Keeps M s0 (countTransform g octets s) := by
  unfold countTransform
  try dsimp only
  with_reducible repeat' first
          | assumption | exact hM.sub rfl | apply putCtx_keeps | apply crossing_keeps | dsimp only | split

theorem espIn_keeps {M : Nat} {s0 s : State} (g : Nat) (c b : Bytes) (o : Nat) (hs : Keeps M s0 s) (hM : Within 0x100407c5 M) :
    Keeps M s0 (espIn g c b o s).1 := by
  unfold espIn
  try dsimp only
  with_reducible repeat' first
          | assumption | exact hM.sub rfl | apply putCtx_keeps | apply ctxCount_keeps | apply countTransform_keeps
          | dsimp only | split

theorem macIn_keeps {M : Nat} {s0 s : State} (g : Nat) (c b : Bytes) (hs : Keeps M s0 s) (hM : Within 0x100407c5 M) :
    Keeps M s0 (macIn g c b s).1 := by
  unfold macIn
  try dsimp only
  with_reducible repeat' first
          | assumption | exact hM.sub rfl | apply putCtx_keeps | apply ctxCount_keeps | apply countTransform_keeps
          | dsimp only | split

theorem transform_keeps {M : Nat} {s0 s : State} (g : Nat) (l3 : Option Nat) (limit : Option Nat) (b : Bytes) (hs : Keeps M s0 s) (hM : Within 0x100407c5 M) :
    Keeps M s0 (transform g l3 limit b s).1 := by
  unfold transform
  try dsimp only
  with_reducible repeat' first
          | assumption | exact hM.sub rfl | apply putCtx_keeps | apply touchCtx_keeps | apply ctxCount_keeps
          | apply countTransform_keeps | apply espIn_keeps | apply macIn_keeps | dsimp only | split

theorem applyCtx_keeps {M : Nat} {s0 s : State} (g fid : Nat) (limit : Option Nat) (hs : Keeps M s0 s) (hM : Within 0x100427c5 M) :
    Keeps M s0 (applyCtx g fid limit s).1 := by
  unfold applyCtx
  try dsimp only
  with_reducible repeat' first
          | assumption | exact hM.sub rfl | apply addErr_keeps | apply putFrame_keeps | apply ctxCount_keeps
          | apply transform_keeps | dsimp only | split

/-! ### Machine/FlowInstr.lean -/

theorem countRetired_keeps {M : Nat} {s0 s : State} (c : Nat) (hs : Keeps M s0 s) (hM : Within 0x4 M) :
    Keeps M s0 (countRetired c s) := by
  unfold countRetired
  with_reducible repeat' first | assumption | exact hM.sub rfl | apply addStat_keeps | split

theorem completeTo_keeps {M : Nat} {s0 s : State} (c t : Nat) (x : Thread) (hs : Keeps M s0 s) (hM : Within 0x80004 M) :
    Keeps M s0 (completeTo c t x s) := by
  unfold completeTo
  try dsimp only
  with_reducible repeat' first
          | assumption | exact hM.sub rfl | apply putCore_keeps | apply putThread_keeps | apply countRetired_keeps
          | dsimp only | split

theorem short_keeps {M : Nat} {s0 s : State} (c t : Nat) (writes : List (Nat × Word)) (hs : Keeps M s0 s) (hM : Within 0x80004 M) :
    Keeps M s0 (short c t writes s) := by
  unfold short
  try dsimp only
  with_reducible repeat' first | assumption | exact hM.sub rfl | apply completeTo_keeps | dsimp only

theorem stall_keeps {M : Nat} {s0 s : State} (c t : Nat) (w : Wait) (done : Bool) (owed : List (Nat × Word)) (hs : Keeps M s0 s) (hM : Within 0x80000 M) :
    Keeps M s0 (stall c t w done owed s) := by
  unfold stall
  try dsimp only
  with_reducible repeat' first | assumption | exact hM.sub rfl | apply putThread_keeps | dsimp only

theorem faultFree_keeps {M : Nat} {s0 s : State} (c t cause : Nat) (hs : Keeps M s0 s) (hM : Within 0xa19a1c5 M) :
    Keeps M s0 (faultFree c t cause s) := by
  unfold faultFree
  with_reducible repeat' first
          | assumption | exact hM.sub rfl | apply useFree_keeps | apply threadFault_keeps

theorem fcCorrected_keeps {M : Nat} {s0 s : State} (err : FcErr) (p : Place) (hs : Keeps M s0 s) (hM : Within 0xe5 M) :
    Keeps M s0 (fcCorrected err p s) := by
  unfold fcCorrected
  with_reducible repeat' first | assumption | exact hM.sub rfl | apply eccCount_keeps | split

theorem fcRun_keeps {M : Nat} {s0 s : State} (op c t : Nat) (err : FcErr) (eff : Nat → Thread → State → State) (heff : ∀ a' b' u, Keeps M s0 u → Keeps M s0 (eff a' b' u)) (hs : Keeps M s0 s) (hM : Within 0xa19a1e5 M) :
    Keeps M s0 (fcRun op c t err eff s) := by
  unfold fcRun
  try dsimp only
  with_reducible repeat' first
          | assumption | exact hM.sub rfl | apply heff | apply putThread_keeps | apply threadFault_keeps
          | apply faultFree_keeps | apply fcCorrected_keeps | dsimp only | split

theorem fcAlu_keeps {M : Nat} {s0 s : State} (fn c t : Nat) (err : FcErr) (hs : Keeps M s0 s) (hM : Within 0xa19a1e5 M) :
    Keeps M s0 (fcAlu fn c t err s) := by
  unfold fcAlu
  try dsimp only
  with_reducible repeat' first
          | assumption | exact hM.sub rfl | intro _ | apply threadFault_keeps | apply short_keeps | apply faultFree_keeps
          | apply fcRun_keeps | dsimp only | split

theorem fcAlui_keeps {M : Nat} {s0 s : State} (sub c t : Nat) (err : FcErr) (hs : Keeps M s0 s) (hM : Within 0xa19a1e5 M) :
    Keeps M s0 (fcAlui sub c t err s) := by
  unfold fcAlui
  try dsimp only
  with_reducible repeat' first
          | assumption | exact hM.sub rfl | intro _ | apply short_keeps | apply faultFree_keeps | apply fcRun_keeps
          | dsimp only | split

theorem access_keeps {M : Nat} {s0 s : State} (c t a n : Nat) (go : Place → State) (hgo : ∀ a', Keeps M s0 (go a')) (hs : Keeps M s0 s) (hM : Within 0xa19a1c4 M) :
    Keeps M s0 (access c t a n s go) := by
  unfold access
  with_reducible repeat' first | assumption | exact hM.sub rfl | apply hgo | apply threadFault_keeps | split

theorem memError_keeps {M : Nat} {s0 s : State} (c t : Nat) (p : Place) (hs : Keeps M s0 s) (hM : Within 0xa19a1c5 M) :
    Keeps M s0 (memError c t p s) := by
  unfold memError
  with_reducible repeat' first
          | assumption | exact hM.sub rfl | apply useFree_keeps | apply deviceFault_keeps | apply faultFree_keeps | split

theorem accessEnds_keeps {M : Nat} {s0 s : State} (c t : Nat) (p : Place) (writes : List (Nat × Word)) (hs : Keeps M s0 s) (hM : Within 0x80004 M) :
    Keeps M s0 (accessEnds c t p writes s) := by
  unfold accessEnds
  with_reducible repeat' first
          | assumption | exact hM.sub rfl | apply short_keeps | apply stall_keeps | split

theorem fcLoad_keeps {M : Nat} {s0 s : State} (c t : Nat) (err : FcErr) (hs : Keeps M s0 s) (hM : Within 0xa19a1e5 M) :
    Keeps M s0 (fcLoad c t err s) := by
  unfold fcLoad
  try dsimp only
  with_reducible repeat' first
          | assumption | exact hM.sub rfl | intro _ | apply fcCorrected_keeps | apply fcRun_keeps | apply access_keeps
          | apply memError_keeps | apply accessEnds_keeps | dsimp only | split

theorem fcStore_keeps {M : Nat} {s0 s : State} (c t : Nat) (err : FcErr) (hs : Keeps M s0 s) (hM : Within 0x1bd9a1e5 M) :
    Keeps M s0 (fcStore c t err s) := by
  unfold fcStore
  try dsimp only
  with_reducible repeat' first
          | assumption | exact hM.sub rfl | intro _ | apply placeWrite_keeps | apply fcCorrected_keeps | apply fcRun_keeps
          | apply access_keeps | apply memError_keeps | apply accessEnds_keeps | dsimp only | split

theorem fcAmo_keeps {M : Nat} {s0 s : State} (kind c t : Nat) (err : FcErr) (hs : Keeps M s0 s) (hM : Within 0x1bd9a1e5 M) :
    Keeps M s0 (fcAmo kind c t err s) := by
  unfold fcAmo
  try dsimp only
  with_reducible repeat' first
          | assumption | exact hM.sub rfl | intro _ | apply threadFault_keeps | apply placeWrite_keeps
          | apply faultFree_keeps | apply fcCorrected_keeps | apply fcRun_keeps | apply access_keeps | apply memError_keeps
          | apply accessEnds_keeps | dsimp only | split

theorem jumpTo_keeps {M : Nat} {s0 s : State} (c t : Nat) (writes : List (Nat × Word)) (pc : BitVec 20) (hs : Keeps M s0 s) (hM : Within 0x80004 M) :
    Keeps M s0 (jumpTo c t writes pc s) := by
  unfold jumpTo
  with_reducible repeat' first | assumption | exact hM.sub rfl | apply completeTo_keeps

theorem fcClaim_keeps {M : Nat} {s0 s : State} (c t : Nat) (err : FcErr) (hs : Keeps M s0 s) (hM : Within 0xa19a1e5 M) :
    Keeps M s0 (fcClaim c t err s) := by
  unfold fcClaim
  try dsimp only
  with_reducible repeat' first
          | assumption | exact hM.sub rfl | intro _ | apply putThreadRaw_keeps | apply putChan_keeps
          | apply threadFault_keeps | apply short_keeps | apply stall_keeps | apply fcRun_keeps | dsimp only | split

theorem fcPut_keeps {M : Nat} {s0 s : State} (c t : Nat) (err : FcErr) (hs : Keeps M s0 s) (hM : Within 0xa19a1e5 M) :
    Keeps M s0 (fcPut c t err s) := by
  unfold fcPut
  try dsimp only
  with_reducible repeat' first
          | assumption | exact hM.sub rfl | intro _ | apply putThreadRaw_keeps | apply threadFault_keeps | apply short_keeps
          | apply fcRun_keeps | dsimp only | split

theorem hkDeliver_keeps {M : Nat} {s0 s : State} (k : Chn) (m : Msg) (hs : Keeps M s0 s) (hM : Within 0x1800c4 M) :
    Keeps M s0 (hkDeliver k m s).1 := by
  unfold hkDeliver
  with_reducible repeat' first | assumption | exact hM.sub rfl | apply deliver_keeps | split

theorem endClaim_keeps {M : Nat} {s0 s : State} (c t : Nat) (hs : Keeps M s0 s) (hM : Within 0x80000 M) :
    Keeps M s0 (endClaim c t s) := by
  unfold endClaim
  with_reducible repeat' first | assumption | exact hM.sub rfl | apply putThreadRaw_keeps

theorem sendMsg_keeps {M : Nat} {s0 s : State} (k : Chn) (m : Msg) (hs : Keeps M s0 s) (hM : Within 0x1800c4 M) :
    Keeps M s0 (sendMsg k m s) := by
  unfold sendMsg
  try dsimp only
  with_reducible repeat' first
          | assumption | exact hM.sub rfl | apply putChan_keeps | apply serve_keeps | apply publish_keeps | dsimp only
          | split

theorem fcSend_keeps {M : Nat} {s0 s : State} (c t : Nat) (err : FcErr) (hs : Keeps M s0 s) (hM : Within 0xa19a1e5 M) :
    Keeps M s0 (fcSend c t err s) := by
  unfold fcSend
  try dsimp only
  with_reducible repeat' first
          | assumption | exact hM.sub rfl | intro _ | apply threadFault_keeps | apply short_keeps | apply stall_keeps
          | apply fcRun_keeps | apply hkDeliver_keeps | apply endClaim_keeps | apply sendMsg_keeps | dsimp only | split

theorem fcRecv_keeps {M : Nat} {s0 s : State} (c t : Nat) (err : FcErr) (hs : Keeps M s0 s) (hM : Within 0xa19a1e5 M) :
    Keeps M s0 (fcRecv c t err s) := by
  unfold fcRecv
  try dsimp only
  with_reducible repeat' first
          | assumption | exact hM.sub rfl | intro _ | apply putChan_keeps | apply takeMsg_keeps | apply serve_keeps
          | apply threadFault_keeps | apply short_keeps | apply stall_keeps | apply fcRun_keeps | dsimp only | split

theorem fcPoll_keeps {M : Nat} {s0 s : State} (c t : Nat) (err : FcErr) (hs : Keeps M s0 s) (hM : Within 0xa19a1e5 M) :
    Keeps M s0 (fcPoll c t err s) := by
  unfold fcPoll
  try dsimp only
  with_reducible repeat' first
          | assumption | exact hM.sub rfl | intro _ | apply threadFault_keeps | apply short_keeps | apply fcRun_keeps
          | dsimp only | split

theorem endTurn_keeps {M : Nat} {s0 s : State} (c t : Nat) (hs : Keeps M s0 s) (hM : Within 0x80000 M) :
    Keeps M s0 (endTurn c t s) := by
  unfold endTurn
  try dsimp only
  with_reducible repeat' first | assumption | exact hM.sub rfl | apply putThread_keeps | dsimp only | split

theorem execFcAdd_keeps {M : Nat} {s0 s : State} (core : CoreHk) (t : Thr) (err : FcErr) (hs : Keeps M s0 s) (hM : Within 0xa19a1e5 M) :
    KeepsRes M s0 (execFcAdd core t err s) := by
  unfold execFcAdd
  with_reducible repeat' first | assumption | exact hM.sub rfl | apply KeepsRes.next | apply fcAlu_keeps

theorem execFcSub_keeps {M : Nat} {s0 s : State} (core : CoreHk) (t : Thr) (err : FcErr) (hs : Keeps M s0 s) (hM : Within 0xa19a1e5 M) :
    KeepsRes M s0 (execFcSub core t err s) := by
  unfold execFcSub
  with_reducible repeat' first | assumption | exact hM.sub rfl | apply KeepsRes.next | apply fcAlu_keeps

theorem execFcAnd_keeps {M : Nat} {s0 s : State} (core : CoreHk) (t : Thr) (err : FcErr) (hs : Keeps M s0 s) (hM : Within 0xa19a1e5 M) :
    KeepsRes M s0 (execFcAnd core t err s) := by
  unfold execFcAnd
  with_reducible repeat' first | assumption | exact hM.sub rfl | apply KeepsRes.next | apply fcAlu_keeps

theorem execFcOr_keeps {M : Nat} {s0 s : State} (core : CoreHk) (t : Thr) (err : FcErr) (hs : Keeps M s0 s) (hM : Within 0xa19a1e5 M) :
    KeepsRes M s0 (execFcOr core t err s) := by
  unfold execFcOr
  with_reducible repeat' first | assumption | exact hM.sub rfl | apply KeepsRes.next | apply fcAlu_keeps

theorem execFcXor_keeps {M : Nat} {s0 s : State} (core : CoreHk) (t : Thr) (err : FcErr) (hs : Keeps M s0 s) (hM : Within 0xa19a1e5 M) :
    KeepsRes M s0 (execFcXor core t err s) := by
  unfold execFcXor
  with_reducible repeat' first | assumption | exact hM.sub rfl | apply KeepsRes.next | apply fcAlu_keeps

theorem execFcShl_keeps {M : Nat} {s0 s : State} (core : CoreHk) (t : Thr) (err : FcErr) (hs : Keeps M s0 s) (hM : Within 0xa19a1e5 M) :
    KeepsRes M s0 (execFcShl core t err s) := by
  unfold execFcShl
  with_reducible repeat' first | assumption | exact hM.sub rfl | apply KeepsRes.next | apply fcAlu_keeps

theorem execFcShr_keeps {M : Nat} {s0 s : State} (core : CoreHk) (t : Thr) (err : FcErr) (hs : Keeps M s0 s) (hM : Within 0xa19a1e5 M) :
    KeepsRes M s0 (execFcShr core t err s) := by
  unfold execFcShr
  with_reducible repeat' first | assumption | exact hM.sub rfl | apply KeepsRes.next | apply fcAlu_keeps

theorem execFcSar_keeps {M : Nat} {s0 s : State} (core : CoreHk) (t : Thr) (err : FcErr) (hs : Keeps M s0 s) (hM : Within 0xa19a1e5 M) :
    KeepsRes M s0 (execFcSar core t err s) := by
  unfold execFcSar
  with_reducible repeat' first | assumption | exact hM.sub rfl | apply KeepsRes.next | apply fcAlu_keeps

theorem execFcSeq_keeps {M : Nat} {s0 s : State} (core : CoreHk) (t : Thr) (err : FcErr) (hs : Keeps M s0 s) (hM : Within 0xa19a1e5 M) :
    KeepsRes M s0 (execFcSeq core t err s) := by
  unfold execFcSeq
  with_reducible repeat' first | assumption | exact hM.sub rfl | apply KeepsRes.next | apply fcAlu_keeps

theorem execFcSlt_keeps {M : Nat} {s0 s : State} (core : CoreHk) (t : Thr) (err : FcErr) (hs : Keeps M s0 s) (hM : Within 0xa19a1e5 M) :
    KeepsRes M s0 (execFcSlt core t err s) := by
  unfold execFcSlt
  with_reducible repeat' first | assumption | exact hM.sub rfl | apply KeepsRes.next | apply fcAlu_keeps

theorem execFcSltu_keeps {M : Nat} {s0 s : State} (core : CoreHk) (t : Thr) (err : FcErr) (hs : Keeps M s0 s) (hM : Within 0xa19a1e5 M) :
    KeepsRes M s0 (execFcSltu core t err s) := by
  unfold execFcSltu
  with_reducible repeat' first | assumption | exact hM.sub rfl | apply KeepsRes.next | apply fcAlu_keeps

theorem execFcMul_keeps {M : Nat} {s0 s : State} (core : CoreHk) (t : Thr) (err : FcErr) (hs : Keeps M s0 s) (hM : Within 0xa19a1e5 M) :
    KeepsRes M s0 (execFcMul core t err s) := by
  unfold execFcMul
  with_reducible repeat' first | assumption | exact hM.sub rfl | apply KeepsRes.next | apply fcAlu_keeps

theorem execFcMulhu_keeps {M : Nat} {s0 s : State} (core : CoreHk) (t : Thr) (err : FcErr) (hs : Keeps M s0 s) (hM : Within 0xa19a1e5 M) :
    KeepsRes M s0 (execFcMulhu core t err s) := by
  unfold execFcMulhu
  with_reducible repeat' first | assumption | exact hM.sub rfl | apply KeepsRes.next | apply fcAlu_keeps

theorem execFcDstep_keeps {M : Nat} {s0 s : State} (core : CoreHk) (t : Thr) (err : FcErr) (hs : Keeps M s0 s) (hM : Within 0xa19a1e5 M) :
    KeepsRes M s0 (execFcDstep core t err s) := by
  unfold execFcDstep
  with_reducible repeat' first | assumption | exact hM.sub rfl | apply KeepsRes.next | apply fcAlu_keeps

theorem execFcSltu128_keeps {M : Nat} {s0 s : State} (core : CoreHk) (t : Thr) (err : FcErr) (hs : Keeps M s0 s) (hM : Within 0xa19a1e5 M) :
    KeepsRes M s0 (execFcSltu128 core t err s) := by
  unfold execFcSltu128
  with_reducible repeat' first | assumption | exact hM.sub rfl | apply KeepsRes.next | apply fcAlu_keeps

theorem execFcClz_keeps {M : Nat} {s0 s : State} (core : CoreHk) (t : Thr) (err : FcErr) (hs : Keeps M s0 s) (hM : Within 0xa19a1e5 M) :
    KeepsRes M s0 (execFcClz core t err s) := by
  unfold execFcClz
  with_reducible repeat' first | assumption | exact hM.sub rfl | apply KeepsRes.next | apply fcAlu_keeps

theorem execFcPopc_keeps {M : Nat} {s0 s : State} (core : CoreHk) (t : Thr) (err : FcErr) (hs : Keeps M s0 s) (hM : Within 0xa19a1e5 M) :
    KeepsRes M s0 (execFcPopc core t err s) := by
  unfold execFcPopc
  with_reducible repeat' first | assumption | exact hM.sub rfl | apply KeepsRes.next | apply fcAlu_keeps

theorem execFcBswap_keeps {M : Nat} {s0 s : State} (core : CoreHk) (t : Thr) (err : FcErr) (hs : Keeps M s0 s) (hM : Within 0xa19a1e5 M) :
    KeepsRes M s0 (execFcBswap core t err s) := by
  unfold execFcBswap
  with_reducible repeat' first | assumption | exact hM.sub rfl | apply KeepsRes.next | apply fcAlu_keeps

theorem execFcAddi_keeps {M : Nat} {s0 s : State} (core : CoreHk) (t : Thr) (err : FcErr) (hs : Keeps M s0 s) (hM : Within 0xa19a1e5 M) :
    KeepsRes M s0 (execFcAddi core t err s) := by
  unfold execFcAddi
  with_reducible repeat' first | assumption | exact hM.sub rfl | apply KeepsRes.next | apply fcAlui_keeps

theorem execFcAndi_keeps {M : Nat} {s0 s : State} (core : CoreHk) (t : Thr) (err : FcErr) (hs : Keeps M s0 s) (hM : Within 0xa19a1e5 M) :
    KeepsRes M s0 (execFcAndi core t err s) := by
  unfold execFcAndi
  with_reducible repeat' first | assumption | exact hM.sub rfl | apply KeepsRes.next | apply fcAlui_keeps

theorem execFcOri_keeps {M : Nat} {s0 s : State} (core : CoreHk) (t : Thr) (err : FcErr) (hs : Keeps M s0 s) (hM : Within 0xa19a1e5 M) :
    KeepsRes M s0 (execFcOri core t err s) := by
  unfold execFcOri
  with_reducible repeat' first | assumption | exact hM.sub rfl | apply KeepsRes.next | apply fcAlui_keeps

theorem execFcXori_keeps {M : Nat} {s0 s : State} (core : CoreHk) (t : Thr) (err : FcErr) (hs : Keeps M s0 s) (hM : Within 0xa19a1e5 M) :
    KeepsRes M s0 (execFcXori core t err s) := by
  unfold execFcXori
  with_reducible repeat' first | assumption | exact hM.sub rfl | apply KeepsRes.next | apply fcAlui_keeps

theorem execFcShli_keeps {M : Nat} {s0 s : State} (core : CoreHk) (t : Thr) (err : FcErr) (hs : Keeps M s0 s) (hM : Within 0xa19a1e5 M) :
    KeepsRes M s0 (execFcShli core t err s) := by
  unfold execFcShli
  with_reducible repeat' first | assumption | exact hM.sub rfl | apply KeepsRes.next | apply fcAlui_keeps

theorem execFcShri_keeps {M : Nat} {s0 s : State} (core : CoreHk) (t : Thr) (err : FcErr) (hs : Keeps M s0 s) (hM : Within 0xa19a1e5 M) :
    KeepsRes M s0 (execFcShri core t err s) := by
  unfold execFcShri
  with_reducible repeat' first | assumption | exact hM.sub rfl | apply KeepsRes.next | apply fcAlui_keeps

theorem execFcSari_keeps {M : Nat} {s0 s : State} (core : CoreHk) (t : Thr) (err : FcErr) (hs : Keeps M s0 s) (hM : Within 0xa19a1e5 M) :
    KeepsRes M s0 (execFcSari core t err s) := by
  unfold execFcSari
  with_reducible repeat' first | assumption | exact hM.sub rfl | apply KeepsRes.next | apply fcAlui_keeps

theorem execFcSeqi_keeps {M : Nat} {s0 s : State} (core : CoreHk) (t : Thr) (err : FcErr) (hs : Keeps M s0 s) (hM : Within 0xa19a1e5 M) :
    KeepsRes M s0 (execFcSeqi core t err s) := by
  unfold execFcSeqi
  with_reducible repeat' first | assumption | exact hM.sub rfl | apply KeepsRes.next | apply fcAlui_keeps

theorem execFcSlti_keeps {M : Nat} {s0 s : State} (core : CoreHk) (t : Thr) (err : FcErr) (hs : Keeps M s0 s) (hM : Within 0xa19a1e5 M) :
    KeepsRes M s0 (execFcSlti core t err s) := by
  unfold execFcSlti
  with_reducible repeat' first | assumption | exact hM.sub rfl | apply KeepsRes.next | apply fcAlui_keeps

theorem execFcSltui_keeps {M : Nat} {s0 s : State} (core : CoreHk) (t : Thr) (err : FcErr) (hs : Keeps M s0 s) (hM : Within 0xa19a1e5 M) :
    KeepsRes M s0 (execFcSltui core t err s) := by
  unfold execFcSltui
  with_reducible repeat' first | assumption | exact hM.sub rfl | apply KeepsRes.next | apply fcAlui_keeps

theorem execFcExtu_keeps {M : Nat} {s0 s : State} (core : CoreHk) (t : Thr) (err : FcErr) (hs : Keeps M s0 s) (hM : Within 0xa19a1e5 M) :
    KeepsRes M s0 (execFcExtu core t err s) := by
  unfold execFcExtu
  with_reducible repeat' first | assumption | exact hM.sub rfl | apply KeepsRes.next | apply fcAlui_keeps

theorem execFcMovi_keeps {M : Nat} {s0 s : State} (core : CoreHk) (t : Thr) (err : FcErr) (hs : Keeps M s0 s) (hM : Within 0xa19a1e5 M) :
    KeepsRes M s0 (execFcMovi core t err s) := by
  unfold execFcMovi
  try dsimp only
  with_reducible repeat' first
          | assumption | exact hM.sub rfl | apply KeepsRes.next | intro _ | apply short_keeps | apply fcRun_keeps
          | dsimp only

theorem execFcLim_keeps {M : Nat} {s0 s : State} (core : CoreHk) (t : Thr) (err : FcErr) (hs : Keeps M s0 s) (hM : Within 0xa19a1e5 M) :
    KeepsRes M s0 (execFcLim core t err s) := by
  unfold execFcLim
  try dsimp only
  with_reducible repeat' first
          | assumption | exact hM.sub rfl | apply KeepsRes.next | intro _ | apply short_keeps | apply fcRun_keeps
          | dsimp only

theorem execFcLd_keeps {M : Nat} {s0 s : State} (core : CoreHk) (t : Thr) (err : FcErr) (hs : Keeps M s0 s) (hM : Within 0xa19a1e5 M) :
    KeepsRes M s0 (execFcLd core t err s) := by
  unfold execFcLd
  with_reducible repeat' first | assumption | exact hM.sub rfl | apply KeepsRes.next | apply fcLoad_keeps

theorem execFcSt_keeps {M : Nat} {s0 s : State} (core : CoreHk) (t : Thr) (err : FcErr) (hs : Keeps M s0 s) (hM : Within 0x1bd9a1e5 M) :
    KeepsRes M s0 (execFcSt core t err s) := by
  unfold execFcSt
  with_reducible repeat' first | assumption | exact hM.sub rfl | apply KeepsRes.next | apply fcStore_keeps

theorem execFcSwap_keeps {M : Nat} {s0 s : State} (core : CoreHk) (t : Thr) (err : FcErr) (hs : Keeps M s0 s) (hM : Within 0x1bd9a1e5 M) :
    KeepsRes M s0 (execFcSwap core t err s) := by
  unfold execFcSwap
  with_reducible repeat' first | assumption | exact hM.sub rfl | apply KeepsRes.next | apply fcAmo_keeps

theorem execFcFadd_keeps {M : Nat} {s0 s : State} (core : CoreHk) (t : Thr) (err : FcErr) (hs : Keeps M s0 s) (hM : Within 0x1bd9a1e5 M) :
    KeepsRes M s0 (execFcFadd core t err s) := by
  unfold execFcFadd
  with_reducible repeat' first | assumption | exact hM.sub rfl | apply KeepsRes.next | apply fcAmo_keeps

theorem execFcCas_keeps {M : Nat} {s0 s : State} (core : CoreHk) (t : Thr) (err : FcErr) (hs : Keeps M s0 s) (hM : Within 0x1bd9a1e5 M) :
    KeepsRes M s0 (execFcCas core t err s) := by
  unfold execFcCas
  with_reducible repeat' first | assumption | exact hM.sub rfl | apply KeepsRes.next | apply fcAmo_keeps

theorem execFcBc_keeps {M : Nat} {s0 s : State} (core : CoreHk) (t : Thr) (err : FcErr) (hs : Keeps M s0 s) (hM : Within 0xa19a1e5 M) :
    KeepsRes M s0 (execFcBc core t err s) := by
  unfold execFcBc
  try dsimp only
  with_reducible repeat' first
          | assumption | exact hM.sub rfl | apply KeepsRes.next | intro _ | apply fcRun_keeps | apply jumpTo_keeps
          | dsimp only | split

theorem execFcJal_keeps {M : Nat} {s0 s : State} (core : CoreHk) (t : Thr) (err : FcErr) (hs : Keeps M s0 s) (hM : Within 0xa19a1e5 M) :
    KeepsRes M s0 (execFcJal core t err s) := by
  unfold execFcJal
  try dsimp only
  with_reducible repeat' first
          | assumption | exact hM.sub rfl | apply KeepsRes.next | intro _ | apply fcRun_keeps | apply jumpTo_keeps
          | dsimp only

theorem execFcJr_keeps {M : Nat} {s0 s : State} (core : CoreHk) (t : Thr) (err : FcErr) (hs : Keeps M s0 s) (hM : Within 0xa19a1e5 M) :
    KeepsRes M s0 (execFcJr core t err s) := by
  unfold execFcJr
  try dsimp only
  with_reducible repeat' first
          | assumption | exact hM.sub rfl | apply KeepsRes.next | intro _ | apply fcRun_keeps | apply jumpTo_keeps
          | dsimp only

theorem execFcClaim_keeps {M : Nat} {s0 s : State} (core : CoreHk) (t : Thr) (err : FcErr) (hs : Keeps M s0 s) (hM : Within 0xa19a1e5 M) :
    KeepsRes M s0 (execFcClaim core t err s) := by
  unfold execFcClaim
  with_reducible repeat' first | assumption | exact hM.sub rfl | apply KeepsRes.next | apply fcClaim_keeps

theorem execFcPut_keeps {M : Nat} {s0 s : State} (core : CoreHk) (t : Thr) (err : FcErr) (hs : Keeps M s0 s) (hM : Within 0xa19a1e5 M) :
    KeepsRes M s0 (execFcPut core t err s) := by
  unfold execFcPut
  with_reducible repeat' first | assumption | exact hM.sub rfl | apply KeepsRes.next | apply fcPut_keeps

theorem execFcSend_keeps {M : Nat} {s0 s : State} (core : CoreHk) (t : Thr) (err : FcErr) (hs : Keeps M s0 s) (hM : Within 0xa19a1e5 M) :
    KeepsRes M s0 (execFcSend core t err s) := by
  unfold execFcSend
  with_reducible repeat' first | assumption | exact hM.sub rfl | apply KeepsRes.next | apply fcSend_keeps

theorem execFcRecv_keeps {M : Nat} {s0 s : State} (core : CoreHk) (t : Thr) (err : FcErr) (hs : Keeps M s0 s) (hM : Within 0xa19a1e5 M) :
    KeepsRes M s0 (execFcRecv core t err s) := by
  unfold execFcRecv
  with_reducible repeat' first | assumption | exact hM.sub rfl | apply KeepsRes.next | apply fcRecv_keeps

theorem execFcPoll_keeps {M : Nat} {s0 s : State} (core : CoreHk) (t : Thr) (err : FcErr) (hs : Keeps M s0 s) (hM : Within 0xa19a1e5 M) :
    KeepsRes M s0 (execFcPoll core t err s) := by
  unfold execFcPoll
  with_reducible repeat' first | assumption | exact hM.sub rfl | apply KeepsRes.next | apply fcPoll_keeps

theorem execFcHalt_keeps {M : Nat} {s0 s : State} (core : CoreHk) (t : Thr) (err : FcErr) (hs : Keeps M s0 s) (hM : Within 0xa19a1e5 M) :
    KeepsRes M s0 (execFcHalt core t err s) := by
  unfold execFcHalt
  try dsimp only
  with_reducible repeat' first
          | assumption | exact hM.sub rfl | apply KeepsRes.next | intro _ | apply endThread_keeps | apply short_keeps
          | apply fcRun_keeps | dsimp only

theorem execFcWait_keeps {M : Nat} {s0 s : State} (core : CoreHk) (t : Thr) (err : FcErr) (hs : Keeps M s0 s) (hM : Within 0xa19a1e5 M) :
    KeepsRes M s0 (execFcWait core t err s) := by
  unfold execFcWait
  try dsimp only
  with_reducible repeat' first
          | assumption | exact hM.sub rfl | apply KeepsRes.next | intro _ | apply short_keeps | apply stall_keeps
          | apply fcRun_keeps | dsimp only | split

theorem execFcTime_keeps {M : Nat} {s0 s : State} (core : CoreHk) (t : Thr) (err : FcErr) (hs : Keeps M s0 s) (hM : Within 0xa19a1e5 M) :
    KeepsRes M s0 (execFcTime core t err s) := by
  unfold execFcTime
  try dsimp only
  with_reducible repeat' first
          | assumption | exact hM.sub rfl | apply KeepsRes.next | intro _ | apply useFree_keeps | apply short_keeps
          | apply fcRun_keeps | dsimp only

theorem execFcTick_keeps {M : Nat} {s0 s : State} (core : CoreHk) (t : Thr) (err : FcErr) (hs : Keeps M s0 s) (hM : Within 0xa19a1e5 M) :
    KeepsRes M s0 (execFcTick core t err s) := by
  unfold execFcTick
  try dsimp only
  with_reducible repeat' first
          | assumption | exact hM.sub rfl | apply KeepsRes.next | intro _ | apply short_keeps | apply fcRun_keeps
          | dsimp only

theorem execFcTid_keeps {M : Nat} {s0 s : State} (core : CoreHk) (t : Thr) (err : FcErr) (hs : Keeps M s0 s) (hM : Within 0xa19a1e5 M) :
    KeepsRes M s0 (execFcTid core t err s) := by
  unfold execFcTid
  try dsimp only
  with_reducible repeat' first
          | assumption | exact hM.sub rfl | apply KeepsRes.next | intro _ | apply short_keeps | apply fcRun_keeps
          | dsimp only

theorem execFcYield_keeps {M : Nat} {s0 s : State} (core : CoreHk) (t : Thr) (err : FcErr) (hs : Keeps M s0 s) (hM : Within 0xa19a1e5 M) :
    KeepsRes M s0 (execFcYield core t err s) := by
  unfold execFcYield
  try dsimp only
  with_reducible repeat' first
          | assumption | exact hM.sub rfl | apply KeepsRes.next | intro _ | apply short_keeps | apply fcRun_keeps
          | apply endTurn_keeps | dsimp only

theorem execFcBkpt_keeps {M : Nat} {s0 s : State} (core : CoreHk) (t : Thr) (err : FcErr) (hs : Keeps M s0 s) (hM : Within 0xa19a1e5 M) :
    KeepsRes M s0 (execFcBkpt core t err s) := by
  unfold execFcBkpt
  try dsimp only
  with_reducible repeat' first
          | assumption | exact hM.sub rfl | apply KeepsRes.next | intro _ | apply putThread_keeps | apply threadFault_keeps
          | apply short_keeps | apply fcRun_keeps | dsimp only | split

theorem execFcFault_keeps {M : Nat} {s0 s : State} (core : CoreHk) (t : Thr) (err : FcErr) (hs : Keeps M s0 s) (hM : Within 0xa19a1e5 M) :
    KeepsRes M s0 (execFcFault core t err s) := by
  unfold execFcFault
  try dsimp only
  with_reducible repeat' first
          | assumption | exact hM.sub rfl | apply KeepsRes.next | intro _ | apply threadFault_keeps | apply fcRun_keeps
          | dsimp only

/-! ### Machine/CryptoCmds.lean -/

theorem applyCtxWrite_keeps {M : Nat} {s0 s : State} (g : Nat) (img : Option Bytes) (hs : Keeps M s0 s) (hM : Within 0x10040000 M) :
    Keeps M s0 (applyCtxWrite g img s) := by
  unfold applyCtxWrite
  try dsimp only
  with_reducible repeat' first | assumption | exact hM.sub rfl | apply putCtx_keeps | dsimp only | split

theorem ctxCommit_keeps {M : Nat} {s0 s : State} (cq : Nat) (e : Entry) (g : Nat) (img : Option Bytes) (hs : Keeps M s0 s) (hM : Within 0x1a0da1c4 M) :
    Keeps M s0 (ctxCommit cq e g img s) := by
  unfold ctxCommit
  try dsimp only
  with_reducible repeat' first
          | assumption | exact hM.sub rfl | apply finish_keeps | apply stageMember_keeps | apply addTotals_keeps
          | apply applyCtxWrite_keeps | dsimp only | split

theorem ctxWrite_keeps {M : Nat} {s0 s : State} (cq : Nat) (e : Entry) (r : Read) (hs : Keeps M s0 s) (hM : Within 0x1a0da1e5 M) :
    Keeps M s0 (ctxWrite cq e r s) := by
  unfold ctxWrite
  try dsimp only
  with_reducible repeat' first
          | assumption | exact hM.sub rfl | apply readFailure_keeps | apply entryRead_keeps | apply finish_keeps
          | apply ctxCommit_keeps | dsimp only | split

theorem ctxEntry_keeps {M : Nat} {s0 s : State} (cq op : Nat) (run : Entry → State → State) (hrun : ∀ a' u, Keeps M s0 u → Keeps M s0 (run a' u)) (hs : Keeps M s0 s) (hM : Within 0xa09a1c4 M) :
    Keeps M s0 (ctxEntry cq op run s) := by
  unfold ctxEntry
  try dsimp only
  with_reducible repeat' first
          | assumption | exact hM.sub rfl | intro _ | apply hrun | apply stageMember_keeps | apply nextEntry_keeps
          | dsimp only | split

theorem execCtxWrite_keeps {M : Nat} {s0 s : State} (cq : BitVec 20) (r : Read) (hs : Keeps M s0 s) (hM : Within 0x1a0da1e5 M) :
    KeepsRes M s0 (execCtxWrite cq r s) := by
  unfold execCtxWrite
  try dsimp only
  with_reducible repeat' first
          | assumption | exact hM.sub rfl | apply KeepsRes.next | intro _ | apply ctxWrite_keeps | apply ctxEntry_keeps
          | dsimp only

theorem execCtxClear_keeps {M : Nat} {s0 s : State} (cq : BitVec 20) (hs : Keeps M s0 s) (hM : Within 0x1a0da1c4 M) :
    KeepsRes M s0 (execCtxClear cq s) := by
  unfold execCtxClear
  try dsimp only
  with_reducible repeat' first
          | assumption | exact hM.sub rfl | apply KeepsRes.next | intro _ | apply finish_keeps | apply ctxCommit_keeps
          | apply ctxEntry_keeps | dsimp only | split

theorem execContextFill_keeps {M : Nat} {s0 s : State} (g : BitVec 20) (ecc : Ecc) (hs : Keeps M s0 s) (hM : Within 0x100400e5 M) :
    KeepsRes M s0 (execContextFill g ecc s) := by
  unfold execContextFill
  try dsimp only
  with_reducible repeat' first
          | assumption | exact hM.sub rfl | apply KeepsRes.next | apply postLog_keeps | apply addStat_keeps
          | apply addErr_keeps | apply eccCount_keeps | apply putCtx_keeps | apply cacheInsert_keeps | dsimp only | split

theorem flushCtxs_keeps {M : Nat} {s0 s : State} (hs : Keeps M s0 s) (hM : Within 0x10040000 M) :
    Keeps M s0 (flushCtxs s) := by
  unfold flushCtxs
  try dsimp only
  with_reducible repeat' first
          | assumption | exact hM.sub rfl | intro _ | apply evictCtx_keeps | dsimp only | apply Keeps.foldl
          | apply Keeps.foldl_fst

theorem execCxCtrlWrite_keeps {M : Nat} {s0 s : State} (v : BitVec 64) (hs : Keeps M s0 s) (hM : Within 0x10040084 M) :
    KeepsRes M s0 (execCxCtrlWrite v s) := by
  unfold execCxCtrlWrite
  try dsimp only
  with_reducible repeat' first
          | assumption | exact hM.sub rfl | apply KeepsRes.next | intro _ | apply putReg_keeps | apply setupWrite_keeps
          | apply flushCtxs_keeps | dsimp only | split

end Sys2Proof.Machine
end

