-- ==== Sys2Proof/Laws/KeepsUnits.lean ====
section
/-! SUPPORT. The operations and commands of storage, commit groups, queues, engine calls, bays, instances and the boot ring: each keeps what `Keeps` says. -/
set_option Elab.async false
namespace Sys2Proof.Machine

/-! ### Machine/StorageOps.lean -/

theorem issueOn_keeps {M : Nat} {s0 s : State} (n : Nat) (c : StCmd) (onB : Bool) (opcode : Nat) (transfer : Bool) (data : Bytes) (hs : Keeps M s0 s) (hM : Within 0x2000000 M) :
    Keeps M s0 (issueOn n c onB opcode transfer data s) := by
  unfold issueOn
  try dsimp only
  with_reducible repeat' first
          | assumption | exact hM.sub rfl | intro _ | apply packIssue_keeps | dsimp only | apply Keeps.foldl
          | apply Keeps.foldl_fst | split

theorem issueChange_keeps {M : Nat} {s0 s : State} (n : Nat) (c : StCmd) (stage : StStage) (hs : Keeps M s0 s) (hM : Within 0x2000000 M) :
    Keeps M s0 (issueChange n c stage s) := by
  unfold issueChange
  try dsimp only
  with_reducible repeat' first
          | assumption | exact hM.sub rfl | intro _ | apply putCmd_keeps | apply issueOn_keeps | dsimp only
          | apply Keeps.foldl | apply Keeps.foldl_fst

theorem issueRead_keeps {M : Nat} {s0 s : State} (n : Nat) (c : StCmd) (onB : Bool) (stage : StStage) (hs : Keeps M s0 s) (hM : Within 0x2000000 M) :
    Keeps M s0 (issueRead n c onB stage s) := by
  unfold issueRead
  try dsimp only
  with_reducible repeat' first
          | assumption | exact hM.sub rfl | apply putCmd_keeps | apply issueOn_keeps | dsimp only

theorem putElog_keeps {M : Nat} {s0 s : State} (i : Nat) (x : ELog) (hs : Keeps M s0 s) (hM : Within 0x2000000 M) :
    Keeps M s0 (putElog i x s) := by
  unfold putElog
  try dsimp only
  with_reducible repeat' first
          | assumption | exact hM.sub rfl | dsimp only | apply Keeps.upd | rfl | exact .inr rfl | exact .inl (hM.sub rfl)

theorem elogWrite_keeps {M : Nat} {s0 s : State} (c : StCmd) (status : Nat) (froze degraded repaired : Bool) (rep : PackReport) (hs : Keeps M s0 s) (hM : Within 0x20004c4 M) :
    Keeps M s0 (elogWrite c status froze degraded repaired rep s) := by
  unfold elogWrite
  try dsimp only
  with_reducible repeat' first
          | assumption | exact hM.sub rfl | apply addErr_keeps | apply instWrite_keeps | apply putElog_keeps | dsimp only
          | split

theorem freezeQueue_keeps {M : Nat} {s0 s : State} (fq : Nat) (idx : BitVec 32) (status : Nat) (hs : Keeps M s0 s) (hM : Within 0xa09a1c4 M) :
    Keeps M s0 (freezeQueue fq idx status s) := by
  unfold freezeQueue
  try dsimp only
  with_reducible repeat' first
          | assumption | exact hM.sub rfl | intro _ | apply putReg_keeps | apply addErr_keeps | apply putQueue_keeps
          | apply abortGroup_keeps | dsimp only | apply Keeps.foldl | apply Keeps.foldl_fst | split

theorem failStorage_keeps {M : Nat} {s0 s : State} (c : StCmd) (status : Nat) (rep : PackReport) (hs : Keeps M s0 s) (hM : Within 0xa09a5c4 M) :
    Keeps M s0 (failStorage c status rep s) := by
  unfold failStorage
  try dsimp only
  with_reducible repeat' first
          | assumption | exact hM.sub rfl | apply markDone_keeps | apply abortOf_keeps | apply finish_keeps
          | apply elogWrite_keeps | apply freezeQueue_keeps | dsimp only | split

theorem failCmd_keeps {M : Nat} {s0 s : State} (n : Nat) (c : StCmd) (status : Nat) (rep : PackReport) (hs : Keeps M s0 s) (hM : Within 0xa09a5c4 M) :
    Keeps M s0 (failCmd n c status rep s) := by
  unfold failCmd
  with_reducible repeat' first
          | assumption | exact hM.sub rfl | apply dropCmd_keeps | apply failStorage_keeps

theorem issueCmd_keeps {M : Nat} {s0 s : State} (n : Nat) (hs : Keeps M s0 s) (hM : Within 0xa09a5c4 M) :
    Keeps M s0 (issueCmd n s) := by
  unfold issueCmd
  with_reducible repeat' first
          | assumption | exact hM.sub rfl | apply issueChange_keeps | apply issueRead_keeps | apply failCmd_keeps | split

theorem bayEvent_keeps {M : Nat} {s0 s : State} (code status qnum arg0 arg1 : Nat) (hs : Keeps M s0 s) (hM : Within 0x7c5 M) :
    Keeps M s0 (bayEvent code status qnum arg0 arg1 s) := by
  unfold bayEvent
  with_reducible repeat' first | assumption | exact hM.sub rfl | apply postEvent_keeps

theorem endRebuild_keeps {M : Nat} {s0 s : State} (fns status : Nat) (hs : Keeps M s0 s) (hM : Within 0x20007c5 M) :
    Keeps M s0 (endRebuild fns status s) := by
  unfold endRebuild
  try dsimp only
  with_reducible repeat' first
          | assumption | exact hM.sub rfl | apply putB_keeps | apply bayEvent_keeps | dsimp only | split | apply Keeps.upd
          | rfl | exact .inr rfl | exact .inl (hM.sub rfl)

theorem putNsState_keeps {M : Nat} {s0 s : State} (fns : Nat) (st : NsState) (hs : Keeps M s0 s) (hM : Within 0x2000000 M) :
    Keeps M s0 (putNsState fns st s) := by
  unfold putNsState
  with_reducible repeat' first | assumption | exact hM.sub rfl | apply putNs_keeps

theorem markExtent_keeps {M : Nat} {s0 s : State} (fns : Nat) (onB : Bool) (status : Nat) (hs : Keeps M s0 s) (hM : Within 0x20007c5 M) :
    Keeps M s0 (markExtent fns onB status s) := by
  unfold markExtent
  try dsimp only
  with_reducible repeat' first
          | assumption | exact hM.sub rfl | apply putNs_keeps | apply endRebuild_keeps | dsimp only | split

/-! ### Machine/Commit.lean -/

theorem writeSuper_keeps {M : Nat} {s0 s : State} (hs : Keeps M s0 s) (hM : Within 0xa000000 M) :
    Keeps M s0 (writeSuper s) := by
  unfold writeSuper
  try dsimp only
  with_reducible repeat' first
          | assumption | exact hM.sub rfl | apply journalWrite_keeps | dsimp only | apply Keeps.upd | rfl | exact .inr rfl
          | exact .inl (hM.sub rfl)

theorem writeToken_keeps {M : Nat} {s0 s : State} (d : Nat) (t : Word) (hs : Keeps M s0 s) (hM : Within 0xa000000 M) :
    Keeps M s0 (writeToken d t s) := by
  unfold writeToken
  try dsimp only
  with_reducible repeat' first
          | assumption | exact hM.sub rfl | apply journalWrite_keeps | dsimp only | split | apply Keeps.upd | rfl
          | exact .inr rfl | exact .inl (hM.sub rfl)

theorem advanceLog_keeps {M : Nat} {s0 s : State} (hs : Keeps M s0 s) (hM : Within 0xa000000 M) :
    Keeps M s0 (advanceLog s) := by
  unfold advanceLog
  try dsimp only
  with_reducible repeat' first
          | assumption | exact hM.sub rfl | intro _ | apply writeSuper_keeps | apply writeToken_keeps | dsimp only
          | apply Keeps.foldl | apply Keeps.foldl_fst | split | apply Keeps.upd | rfl | exact .inr rfl
          | exact .inl (hM.sub rfl)

theorem tryClose_keeps {M : Nat} {s0 s : State} (hs : Keeps M s0 s) (hM : Within 0xa09a1c4 M) :
    Keeps M s0 (tryClose s) := by
  unfold tryClose
  try dsimp only
  with_reducible repeat' first
          | assumption | exact hM.sub rfl | apply finish_keeps | apply writeSuper_keeps | dsimp only | split
          | apply Keeps.upd | rfl | exact .inr rfl | exact .inl (hM.sub rfl)

theorem postJournalLost_keeps {M : Nat} {s0 s : State} (cause : Nat) (hs : Keeps M s0 s) (hM : Within 0x7c5 M) :
    Keeps M s0 (postJournalLost cause s) := by
  unfold postJournalLost
  try dsimp only
  with_reducible repeat' first
          | assumption | exact hM.sub rfl | apply postLog_keeps | apply postEvent_keeps | dsimp only

theorem endCancelled_keeps {M : Nat} {s0 s : State} (g : Nat) (status : Nat) (hs : Keeps M s0 s) (hM : Within 0xa000100 M) :
    Keeps M s0 (endCancelled g status s) := by
  unfold endCancelled
  try dsimp only
  with_reducible repeat' first
          | assumption | exact hM.sub rfl | intro _ | apply dropCmd_keeps | apply failMembers_keeps
          | apply settleAborted_keeps | dsimp only | apply Keeps.foldl | split

theorem journalLost_keeps {M : Nat} {s0 s : State} (cause : Nat) (hs : Keeps M s0 s) (hM : Within 0xa09a7c5 M) :
    Keeps M s0 (journalLost cause s) := by
  unfold journalLost
  try dsimp only
  with_reducible repeat' first
          | assumption | exact hM.sub rfl | intro _ | apply dropCmd_keeps | apply abortGroup_keeps | apply finish_keeps
          | apply postJournalLost_keeps | apply endCancelled_keeps | dsimp only | apply Keeps.foldl | apply Keeps.foldl_fst
          | split | apply Keeps.upd | rfl | exact .inr rfl | exact .inl (hM.sub rfl)

theorem completeMember_keeps {M : Nat} {s0 s : State} (x : Group) (m : Member) (hs : Keeps M s0 s) (hM : Within 0x100 M) :
    Keeps M s0 (completeMember x m s) := by
  unfold completeMember
  try dsimp only
  with_reducible repeat' first | assumption | exact hM.sub rfl | apply markDone_keeps | dsimp only | split

theorem applySettings_keeps {M : Nat} {s0 s : State} (ms : List Member) (hs : Keeps M s0 s) (hM : Within 0x10048000 M) :
    Keeps M s0 (applySettings ms s) := by
  unfold applySettings
  try dsimp only
  with_reducible repeat' first
          | assumption | exact hM.sub rfl | intro _ | apply applyCtxWrite_keeps | dsimp only | apply Keeps.foldl
          | apply Keeps.foldl_fst | split | apply Keeps.upd | rfl | exact .inr rfl | exact .inl (hM.sub rfl)

theorem deliverMember_keeps {M : Nat} {s0 s : State} (core mbox : Nat) (m : Msg) (hs : Keeps M s0 s) (hM : Within 0x1800c4 M) :
    Keeps M s0 (deliverMember core mbox m s).1 := by
  unfold deliverMember
  try dsimp only
  with_reducible repeat' first | assumption | exact hM.sub rfl | apply deliver_keeps | dsimp only | split

theorem sendMembers_keeps {M : Nat} {s0 s : State} (ms : List Member) (h : Keeps M s0 s) (hM : Within 0x1920c4 M) : Keeps M s0 (sendMembers ms s).1 := by
  induction ms generalizing s with
  | nil => exact h
  | cons m ms ih =>
    unfold sendMembers
    split
    · exact ih (placeOnLeaf_keeps _ _ h hM.sub)
    · dsimp only; split
      · exact deliverMember_keeps _ _ _ h hM.sub
      · exact ih (deliverMember_keeps _ _ _ h hM.sub)
    · exact ih h

theorem homeDone_keeps {M : Nat} {s0 s : State} (c : Nat) (lost : Bool) (hs : Keeps M s0 s) (hM : Within 0xa000000 M) :
    Keeps M s0 (homeDone c lost s) := by
  unfold homeDone
  try dsimp only
  with_reducible repeat' first
          | assumption | exact hM.sub rfl | apply dropCmd_keeps | dsimp only | split | apply Keeps.upd | rfl | exact .inr rfl
          | exact .inl (hM.sub rfl)

theorem homeLost_keeps {M : Nat} {s0 s : State} (c : Nat) (status : Nat) (rep : PackReport) (hs : Keeps M s0 s) (hM : Within 0xa0004c4 M) :
    Keeps M s0 (homeLost c status rep s) := by
  unfold homeLost
  with_reducible repeat' first
          | assumption | exact hM.sub rfl | apply addErr_keeps | apply elogWrite_keeps | apply homeDone_keeps | split

theorem homeWrites_keeps {M : Nat} {s0 s : State} (ms : List Member) (hs : Keeps M s0 s) (hM : Within 0xa09a5c4 M) :
    Keeps M s0 (homeWrites ms s) := by
  unfold homeWrites
  try dsimp only
  with_reducible repeat' first
          | assumption | exact hM.sub rfl | intro _ | apply putCmd_keeps | apply issueCmd_keeps | apply homeLost_keeps
          | dsimp only | apply Keeps.foldl | split

theorem freeSettled_keeps {M : Nat} {s0 s : State} (hs : Keeps M s0 s) (hM : Within 0x8000000 M) :
    Keeps M s0 (freeSettled s) := by
  unfold freeSettled
  try dsimp only
  with_reducible repeat' first
          | assumption | exact hM.sub rfl | dsimp only | split | apply Keeps.upd | rfl | exact .inr rfl
          | exact .inl (hM.sub rfl)

theorem endCoreCommit_keeps {M : Nat} {s0 s : State} (x : Group) (hs : Keeps M s0 s) (hM : Within 0x80000 M) :
    Keeps M s0 (endCoreCommit x s) := by
  unfold endCoreCommit
  with_reducible repeat' first | assumption | exact hM.sub rfl | apply endCoreGroup_keeps

theorem advanceGroup_keeps {M : Nat} {s0 s : State} (g : Nat) (hs : Keeps M s0 s) (hM : Within 0x1a1da5c4 M) :
    Keeps M s0 (advanceGroup g s) := by
  unfold advanceGroup
  try dsimp only
  with_reducible repeat' first
          | assumption | exact hM.sub rfl | intro _ | apply putCg_keeps | apply completeMember_keeps
          | apply applySettings_keeps | apply sendMembers_keeps | apply homeWrites_keeps | apply freeSettled_keeps
          | apply endCoreCommit_keeps | dsimp only | apply Keeps.foldl | apply Keeps.foldl_fst | split | apply Keeps.upd
          | rfl | exact .inr rfl | exact .inl (hM.sub rfl) | refine Keeps.fst_eq (by assumption) ?_

theorem advanceGroups_keeps {M : Nat} {s0 s : State} (hs : Keeps M s0 s) (hM : Within 0x1a1da5c4 M) :
    Keeps M s0 (advanceGroups s) := by
  unfold advanceGroups
  try dsimp only
  with_reducible repeat' first
          | assumption | exact hM.sub rfl | intro _ | apply advanceGroup_keeps | dsimp only | apply Keeps.foldl
          | apply Keeps.foldl_fst

theorem commitPoint_keeps {M : Nat} {s0 s : State} (g : Nat) (hs : Keeps M s0 s) (hM : Within 0x1a1da5c4 M) :
    Keeps M s0 (commitPoint g s) := by
  unfold commitPoint
  try dsimp only
  with_reducible repeat' first
          | assumption | exact hM.sub rfl | intro _ | apply addStat_keeps | apply setPhase_keeps | apply putCg_keeps
          | apply addToken_keeps | apply advanceGroup_keeps | dsimp only | apply Keeps.foldl | split | apply Keeps.upd | rfl
          | exact .inr rfl | exact .inl (hM.sub rfl)

theorem stagedError_keeps {M : Nat} {s0 s : State} (g : Nat) (hs : Keeps M s0 s) (hM : Within 0xa09a1c5 M) :
    Keeps M s0 (stagedError g s) := by
  unfold stagedError
  with_reducible repeat' first
          | assumption | exact hM.sub rfl | apply abortGroup_keeps | apply deviceFault_keeps | apply useFree_keeps | split

theorem execCommitPoint_keeps {M : Nat} {s0 s : State} (slot : BitVec 16 × CgErr) (hs : Keeps M s0 s) (hM : Within 0x1a1da5e5 M) :
    KeepsRes M s0 (execCommitPoint slot s) := by
  unfold execCommitPoint
  try dsimp only
  with_reducible repeat' first
          | assumption | exact hM.sub rfl | apply KeepsRes.next | apply eccCount_keeps | apply commitPoint_keeps
          | apply stagedError_keeps | apply deviceFault_keeps | apply useFree_keeps | split

theorem execEpochFlip_keeps {M : Nat} {s0 s : State} (pl : Pl) (hs : Keeps M s0 s) (hM : Within 0x1a1da5c4 M) :
    KeepsRes M s0 (execEpochFlip pl s) := by
  unfold execEpochFlip
  with_reducible repeat' first
          | assumption | exact hM.sub rfl | apply KeepsRes.next | apply flip_keeps | apply advanceGroups_keeps | split

theorem journalSubmit_keeps {M : Nat} {s0 s : State} (g : Nat) (hs : Keeps M s0 s) (hM : Within 0xa000000 M) :
    Keeps M s0 (journalSubmit g s) := by
  unfold journalSubmit
  try dsimp only
  with_reducible repeat' first
          | assumption | exact hM.sub rfl | apply appendLog_keeps | apply putCg_keeps | dsimp only | split

theorem execJournalSubmit_keeps {M : Nat} {s0 s : State} (slot : BitVec 16) (hs : Keeps M s0 s) (hM : Within 0xa000000 M) :
    KeepsRes M s0 (execJournalSubmit slot s) := by
  unfold execJournalSubmit
  with_reducible repeat' first
          | assumption | exact hM.sub rfl | apply KeepsRes.next | apply journalSubmit_keeps

theorem retireAppend_keeps {M : Nat} {s0 s : State} (g : Nat) (hs : Keeps M s0 s) (hM : Within 0xa000000 M) :
    Keeps M s0 (retireAppend g s) := by
  unfold retireAppend
  try dsimp only
  with_reducible repeat' first | assumption | exact hM.sub rfl | apply appendLog_keeps | dsimp only | split

theorem execRetireAppend_keeps {M : Nat} {s0 s : State} (slot : BitVec 16) (hs : Keeps M s0 s) (hM : Within 0xa000000 M) :
    KeepsRes M s0 (execRetireAppend slot s) := by
  unfold execRetireAppend
  with_reducible repeat' first
          | assumption | exact hM.sub rfl | apply KeepsRes.next | apply retireAppend_keeps

theorem retireDurable_keeps {M : Nat} {s0 s : State} (seq : BitVec 64) (hs : Keeps M s0 s) (hM : Within 0xa09a1c4 M) :
    Keeps M s0 (retireDurable seq s) := by
  unfold retireDurable
  try dsimp only
  with_reducible repeat' first
          | assumption | exact hM.sub rfl | intro _ | apply dropCmd_keeps | apply advanceLog_keeps | apply tryClose_keeps
          | dsimp only | apply Keeps.foldl | split | apply Keeps.upd | rfl | exact .inr rfl | exact .inl (hM.sub rfl)

theorem replayMember_keeps {M : Nat} {s0 s : State} (m : MediaMember) (hs : Keeps M s0 s) (hM : Within 0x2000000 M) :
    Keeps M s0 (replayMember m s) := by
  unfold replayMember
  try dsimp only
  with_reducible repeat' first
          | assumption | exact hM.sub rfl | intro _ | apply packIssue_keeps | dsimp only | apply Keeps.foldl | split

theorem retireAll_keeps {M : Nat} {s0 s : State} (fuel : Nat) (seqs : List (BitVec 64)) (h : Keeps M s0 s) (hM : Within 0xa000000 M) :
    Keeps M s0 (retireAll fuel seqs s) := by
  induction fuel generalizing seqs s with
  | zero => exact h
  | succ n ih =>
    unfold retireAll
    split
    · exact h
    · exact ih _ (appendLog_keeps _ _ _ h hM.sub)

theorem zeroTokens_keeps {M : Nat} {s0 s : State} (hs : Keeps M s0 s) (hM : Within 0x2000000 M) :
    Keeps M s0 (zeroTokens s) := by
  unfold zeroTokens
  try dsimp only
  with_reducible repeat' first | assumption | exact hM.sub rfl | apply packIssue_keeps | dsimp only

theorem recoverJournal_keeps {M : Nat} {s0 s : State} (next : BitVec 64) (tail used : Nat) (tokens : List (BitVec 13 × BitVec 64)) (recs : List MediaRecord) (hs : Keeps M s0 s) (hM : Within 0xa000000 M) :
    Keeps M s0 (recoverJournal next tail used tokens recs s).1 := by
  unfold recoverJournal
  try dsimp only
  with_reducible repeat' first
          | assumption | exact hM.sub rfl | intro _ | apply addToken_keeps | apply writeSuper_keeps | apply writeToken_keeps
          | apply replayMember_keeps | apply retireAll_keeps | dsimp only | apply Keeps.foldl | apply Keeps.foldl_fst
          | apply Keeps.upd | rfl | exact .inr rfl | exact .inl (hM.sub rfl)

theorem openJournal_keeps {M : Nat} {s0 s : State} (cq : Nat) (e : Entry) (media : JournalMedia) (hs : Keeps M s0 s) (hM : Within 0xa09a1c4 M) :
    Keeps M s0 (openJournal cq e media s) := by
  unfold openJournal
  try dsimp only
  with_reducible repeat' first
          | assumption | exact hM.sub rfl | apply finish_keeps | apply writeSuper_keeps | apply zeroTokens_keeps
          | apply recoverJournal_keeps | dsimp only | split | apply Keeps.upd | rfl | exact .inr rfl
          | exact .inl (hM.sub rfl) | refine Keeps.fst_eq (by assumption) ?_

theorem execJournalOpen_keeps {M : Nat} {s0 s : State} (cq : BitVec 20) (media : JournalMedia) (hs : Keeps M s0 s) (hM : Within 0xa09a1c4 M) :
    KeepsRes M s0 (execJournalOpen cq media s) := by
  unfold execJournalOpen
  try dsimp only
  with_reducible repeat' first
          | assumption | exact hM.sub rfl | apply KeepsRes.next | intro _ | apply finish_keeps | apply nextEntry_keeps
          | apply openJournal_keeps | dsimp only | split

theorem execJournalClose_keeps {M : Nat} {s0 s : State} (cq : BitVec 20) (hs : Keeps M s0 s) (hM : Within 0xa09a1c4 M) :
    KeepsRes M s0 (execJournalClose cq s) := by
  unfold execJournalClose
  try dsimp only
  with_reducible repeat' first
          | assumption | exact hM.sub rfl | apply KeepsRes.next | intro _ | apply setPhase_keeps | apply finish_keeps
          | apply nextEntry_keeps | apply tryClose_keeps | dsimp only | split | apply Keeps.upd | rfl | exact .inr rfl
          | exact .inl (hM.sub rfl)

theorem execCgDiscard_keeps {M : Nat} {s0 s : State} (cq : BitVec 20) (hs : Keeps M s0 s) (hM : Within 0xa09a1c4 M) :
    KeepsRes M s0 (execCgDiscard cq s) := by
  unfold execCgDiscard
  try dsimp only
  with_reducible repeat' first
          | assumption | exact hM.sub rfl | apply KeepsRes.next | intro _ | apply settleAborted_keeps | apply finish_keeps
          | apply nextEntry_keeps | dsimp only | split

theorem execCgCtrlWrite_keeps {M : Nat} {s0 s : State} (v : BitVec 64) (hs : Keeps M s0 s) (hM : Within 0x84 M) :
    KeepsRes M s0 (execCgCtrlWrite v s) := by
  unfold execCgCtrlWrite
  try dsimp only
  with_reducible repeat' first
          | assumption | exact hM.sub rfl | apply KeepsRes.next | intro _ | apply putReg_keeps | apply setupWrite_keeps
          | dsimp only | split

/-! ### Machine/Counts.lean -/

theorem nextCounted_keeps {M : Nat} {s0 s : State} (fn fq op : Nat) (run : Entry → State → State) (hrun : ∀ a' u, Keeps M s0 u → Keeps M s0 (run a' u)) (hs : Keeps M s0 s) (hM : Within 0xa09a1c4 M) :
    Keeps M s0 (nextCounted fn fq op run s) := by
  unfold nextCounted
  with_reducible repeat' first
          | assumption | exact hM.sub rfl | intro _ | apply hrun | apply nextEntry_keeps | split

theorem runNop_keeps {M : Nat} {s0 s : State} (fn fq : Nat) (e : Entry) (hs : Keeps M s0 s) (hM : Within 0xa09a1c4 M) :
    Keeps M s0 (runNop fn fq e s) := by
  unfold runNop
  with_reducible repeat' first
          | assumption | exact hM.sub rfl | apply finish_keeps | apply stageMember_keeps | split

theorem execNop_keeps {M : Nat} {s0 s : State} (fn : Fn) (fq : BitVec 20) (hs : Keeps M s0 s) (hM : Within 0xa09a1c4 M) :
    KeepsRes M s0 (execNop fn fq s) := by
  unfold execNop
  try dsimp only
  with_reducible repeat' first
          | assumption | exact hM.sub rfl | apply KeepsRes.next | intro _ | apply nextCounted_keeps | apply runNop_keeps
          | dsimp only

theorem addPair_keeps {M : Nat} {s0 s : State} (pl pair : Nat) (frames octets : Word) (hs : Keeps M s0 s) (hM : Within 0x8000 M) :
    Keeps M s0 (addPair pl pair frames octets s) := by
  unfold addPair
  try dsimp only
  with_reducible repeat' first
          | assumption | exact hM.sub rfl | dsimp only | apply Keeps.upd | rfl | exact .inr rfl | exact .inl (hM.sub rfl)

theorem runCountDelta_keeps {M : Nat} {s0 s : State} (fn fq : Nat) (e : Entry) (hs : Keeps M s0 s) (hM : Within 0xa09a1c4 M) :
    Keeps M s0 (runCountDelta fn fq e s) := by
  unfold runCountDelta
  try dsimp only
  with_reducible repeat' first
          | assumption | exact hM.sub rfl | apply finish_keeps | apply stageMember_keeps | apply addPair_keeps | dsimp only
          | split

theorem execCountDelta_keeps {M : Nat} {s0 s : State} (fn : Fn) (fq : BitVec 20) (hs : Keeps M s0 s) (hM : Within 0xa09a1c4 M) :
    KeepsRes M s0 (execCountDelta fn fq s) := by
  unfold execCountDelta
  try dsimp only
  with_reducible repeat' first
          | assumption | exact hM.sub rfl | apply KeepsRes.next | intro _ | apply nextCounted_keeps
          | apply runCountDelta_keeps | dsimp only

theorem execStreamWrite_keeps {M : Nat} {s0 s : State} (cq : BitVec 20) (hs : Keeps M s0 s) (hM : Within 0xa09a1c4 M) :
    KeepsRes M s0 (execStreamWrite cq s) := by
  unfold execStreamWrite
  with_reducible repeat' first
          | assumption | exact hM.sub rfl | apply KeepsRes.next | apply tableWrite_keeps

/-! ### Machine/QueueLife.lean -/

theorem discardCmd_keeps {M : Nat} {s0 s : State} (fq : Nat) (idx : BitVec 32) (hs : Keeps M s0 s) (hM : Within 0x2000000 M) :
    Keeps M s0 (discardCmd fq idx s) := by
  unfold discardCmd
  try dsimp only
  with_reducible repeat' first
          | assumption | exact hM.sub rfl | apply putCmd_keeps | apply dropCmd_keeps | dsimp only | split

theorem discardWaiting_keeps {M : Nat} {s0 s : State} (fn fq : Nat) (e : Entry) (hs : Keeps M s0 s) (hM : Within 0x8000000 M) :
    Keeps M s0 (discardWaiting fn fq e s) := by
  unfold discardWaiting
  try dsimp only
  with_reducible repeat' first
          | assumption | exact hM.sub rfl | apply settleAborted_keeps | apply dropWaiting_keeps | dsimp only | split

theorem discardEntries_keeps {M : Nat} {s0 s : State} (fn fq : Nat) (p : Entry → Bool) (hs : Keeps M s0 s) (hM : Within 0xa09a1c4 M) :
    Keeps M s0 (discardEntries fn fq p s) := by
  unfold discardEntries
  try dsimp only
  with_reducible repeat' first
          | assumption | exact hM.sub rfl | intro _ | apply putQueue_keeps | apply cancelWrite_keeps | apply abortGroup_keeps
          | apply discardCmd_keeps | apply discardWaiting_keeps | dsimp only | apply Keeps.foldl | split

theorem discardWork_keeps {M : Nat} {s0 s : State} (fn fq : Nat) (hs : Keeps M s0 s) (hM : Within 0xa09a1c4 M) :
    Keeps M s0 (discardWork fn fq s) := by
  unfold discardWork
  with_reducible repeat' first | assumption | exact hM.sub rfl | apply discardEntries_keeps

theorem reportFreeze_keeps {M : Nat} {s0 s : State} (fn : Fn) (fq : Nat) (hs : Keeps M s0 s) (hM : Within 0x7c5 M) :
    Keeps M s0 (reportFreeze fn fq s) := by
  unfold reportFreeze
  try dsimp only
  with_reducible repeat' first
          | assumption | exact hM.sub rfl | apply postQueueEvent_keeps | dsimp only | split

theorem beginDisable_keeps {M : Nat} {s0 s : State} (fn : Fn) (fq : Nat) (hs : Keeps M s0 s) (hM : Within 0xa09a7c5 M) :
    Keeps M s0 (beginDisable fn fq s) := by
  unfold beginDisable
  try dsimp only
  with_reducible repeat' first
          | assumption | exact hM.sub rfl | apply putQueue_keeps | apply discardWork_keeps | apply reportFreeze_keeps
          | dsimp only

theorem ctlDone_keeps {M : Nat} {s0 s : State} (status head : Nat) (hs : Keeps M s0 s) (hM : Within 0x4 M) :
    Keeps M s0 (ctlDone status head s) := by
  unfold ctlDone
  with_reducible repeat' first | assumption | exact hM.sub rfl | apply putReg_keeps

theorem endDisableWaiters_keeps {M : Nat} {s0 s : State} (fn fq : Nat) (h : BitVec 32) (hs : Keeps M s0 s) (hM : Within 0xa09a1c4 M) :
    Keeps M s0 (endDisableWaiters fn fq h s) := by
  unfold endDisableWaiters
  try dsimp only
  with_reducible repeat' first
          | assumption | exact hM.sub rfl | intro _ | apply putQueue_keeps | apply finish_keeps | apply ctlDone_keeps
          | dsimp only | apply Keeps.foldl | apply Keeps.foldl_fst | split

theorem settleQuiesce_keeps {M : Nat} {s0 s : State} (fn : Fn) (hs : Keeps M s0 s) (hM : Within 0xc4 M) :
    Keeps M s0 (settleQuiesce fn s) := by
  unfold settleQuiesce
  try dsimp only
  with_reducible repeat' first
          | assumption | exact hM.sub rfl | apply putB_keeps | apply signalMsix_keeps | apply pageChanged_keeps | dsimp only
          | split

theorem endDisable_keeps {M : Nat} {s0 s : State} (fn : Fn) (fq : Nat) (hs : Keeps M s0 s) (hM : Within 0xa09a7c5 M) :
    Keeps M s0 (endDisable fn fq s) := by
  unfold endDisable
  try dsimp only
  with_reducible repeat' first
          | assumption | exact hM.sub rfl | apply putQueue_keeps | apply publishHead_keeps | apply postQueueEvent_keeps
          | apply moveHead_keeps | apply writeReady_keeps | apply endDisableWaiters_keeps | apply settleQuiesce_keeps
          | dsimp only | split

theorem execDisableDone_keeps {M : Nat} {s0 s : State} (fn : Fn) (fq : BitVec 20) (hs : Keeps M s0 s) (hM : Within 0xa09a7c5 M) :
    KeepsRes M s0 (execDisableDone fn fq s) := by
  unfold execDisableDone
  with_reducible repeat' first
          | assumption | exact hM.sub rfl | apply KeepsRes.next | apply endDisable_keeps | split

theorem quiesceQueue_keeps {M : Nat} {s0 s : State} (fn : Fn) (fq : Nat) (hs : Keeps M s0 s) (hM : Within 0xa09a7c5 M) :
    Keeps M s0 (quiesceQueue fn fq s) := by
  unfold quiesceQueue
  try dsimp only
  with_reducible repeat' first
          | assumption | exact hM.sub rfl | apply putQueue_keeps | apply discardWork_keeps | apply reportFreeze_keeps
          | dsimp only | split

theorem declareFull_keeps {M : Nat} {s0 s : State} (fn : Fn) (n : Nat) (hs : Keeps M s0 s) (hM : Within 0x3c5 M) :
    Keeps M s0 (declareFull fn n s) := by
  unfold declareFull
  try dsimp only
  with_reducible repeat' first
          | assumption | exact hM.sub rfl | intro _ | apply addErr_keeps | apply putEvq_keeps | apply suppressEvent_keeps
          | dsimp only | apply Keeps.foldl

theorem loseConsumerRead_keeps {M : Nat} {s0 s : State} (fn : Fn) (n : Nat) (hs : Keeps M s0 s) (hM : Within 0x3c5 M) :
    Keeps M s0 (loseConsumerRead fn n s) := by
  unfold loseConsumerRead
  try dsimp only
  with_reducible repeat' first
          | assumption | exact hM.sub rfl | apply putEvq_keeps | apply declareFull_keeps | dsimp only | split

theorem quiesceFn_keeps {M : Nat} {s0 s : State} (fn : Fn) (hs : Keeps M s0 s) (hM : Within 0xa09a7c5 M) :
    Keeps M s0 (quiesceFn fn s) := by
  unfold quiesceFn
  try dsimp only
  with_reducible repeat' first
          | assumption | exact hM.sub rfl | intro _ | apply quiesceQueue_keeps | apply loseConsumerRead_keeps | dsimp only
          | apply Keeps.foldl

theorem startQuiesce_keeps {M : Nat} {s0 s : State} (fn : Fn) (hs : Keeps M s0 s) (hM : Within 0xa09a7c5 M) :
    Keeps M s0 (startQuiesce fn s) := by
  unfold startQuiesce
  try dsimp only
  with_reducible repeat' first
          | assumption | exact hM.sub rfl | intro _ | apply beginDisable_keeps | apply settleQuiesce_keeps
          | apply endDisable_keeps | dsimp only | apply Keeps.foldl | split

theorem quiesce_keeps {M : Nat} {s0 s : State} (v : Word) (hs : Keeps M s0 s) (hM : Within 0xa09a7c5 M) :
    Keeps M s0 (quiesce v s) := by
  unfold quiesce
  try dsimp only
  with_reducible repeat' first
          | assumption | exact hM.sub rfl | intro _ | apply putB_keeps | apply pageChanged_keeps | apply startQuiesce_keeps
          | dsimp only | apply Keeps.foldl | split

/-! ### Machine/Fetch.lean -/

theorem addEntry_keeps {M : Nat} {s0 s : State} (fn fq : Nat) (e : Entry) (hs : Keeps M s0 s) (hM : Within 0x100 M) :
    Keeps M s0 (addEntry fn fq e s) := by
  unfold addEntry
  try dsimp only
  with_reducible repeat' first | assumption | exact hM.sub rfl | apply putQueue_keeps | dsimp only

theorem takeDescriptor_keeps {M : Nat} {s0 s : State} (fn : Fn) (fq : Nat) (k : BitVec 32) (d : Bytes) (hs : Keeps M s0 s) (hM : Within 0xa09a7c5 M) :
    Keeps M s0 (takeDescriptor fn fq k d s) := by
  unfold takeDescriptor
  try dsimp only
  with_reducible repeat' first
          | assumption | exact hM.sub rfl | apply stopQueue_keeps | apply joinGroup_keeps | apply addEntry_keeps | dsimp only
          | split

theorem fetchDescriptor_keeps {M : Nat} {s0 s : State} (fn : Fn) (fq : Nat) (r : Read) (hs : Keeps M s0 s) (hM : Within 0xa09a7e5 M) :
    Keeps M s0 (fetchDescriptor fn fq r s) := by
  unfold fetchDescriptor
  try dsimp only
  with_reducible repeat' first
          | assumption | exact hM.sub rfl | apply readFailure_keeps | apply putQueue_keeps | apply instRead_keeps
          | apply stopQueue_keeps | apply joinWaiting_keeps | apply takeDescriptor_keeps | dsimp only | split

/-! ### Machine/QueueCmds.lean -/

theorem dropHint_keeps {M : Nat} {s0 s : State} (hs : Keeps M s0 s) (hM : Within 0x4 M) : Keeps M s0 (dropHint s) := by
  unfold dropHint
  with_reducible repeat' first | assumption | exact hM.sub rfl | apply addStat_keeps

theorem queueHint_keeps {M : Nat} {s0 s : State} (fn : Fn) (fq adv : Nat) (hs : Keeps M s0 s) (hM : Within 0x180 M) :
    Keeps M s0 (queueHint fn fq adv s) := by
  unfold queueHint
  try dsimp only
  with_reducible repeat' first | assumption | exact hM.sub rfl | apply pokeQueue_keeps | dsimp only | split

theorem evqHint_keeps {M : Nat} {s0 s : State} (fn : Fn) (n : Nat) (arm : Bool) (hs : Keeps M s0 s) (hM : Within 0x202c4 M) :
    Keeps M s0 (evqHint fn n arm s) := by
  unfold evqHint
  try dsimp only
  with_reducible repeat' first
          | assumption | exact hM.sub rfl | apply putB_keeps | apply putEvq_keeps | apply readConsumer_keeps
          | apply arm_keeps | dsimp only | split

theorem hint_keeps {M : Nat} {s0 s : State} (fn : Fn) (i : Nat) (chunk : Word) (bytes : Nat) (full : Bool) (hs : Keeps M s0 s) (hM : Within 0x203c4 M) :
    Keeps M s0 (hint fn i chunk bytes full s) := by
  unfold hint
  try dsimp only
  with_reducible repeat' first
          | assumption | exact hM.sub rfl | apply addStat_keeps | apply dropHint_keeps | apply queueHint_keeps
          | apply evqHint_keeps | dsimp only | split

theorem execHint_keeps {M : Nat} {s0 s : State} (fn : Fn) (page : BitVec 10) (chunk : BitVec 64) (bytes : Nat) (intakeFull : Bool) (hs : Keeps M s0 s) (hM : Within 0x203c4 M) :
    KeepsRes M s0 (execHint fn page chunk bytes intakeFull s) := by
  unfold execHint
  with_reducible repeat' first
          | assumption | exact hM.sub rfl | apply KeepsRes.next | apply linkBusy_keeps | apply hint_keeps
          | apply tlpDropped_keeps | split

theorem issueOwed_keeps {M : Nat} {s0 s : State} (fn : Fn) (fq : Nat) (hs : Keeps M s0 s) (hM : Within 0x180 M) :
    Keeps M s0 (issueOwed fn fq s) := by
  unfold issueOwed
  try dsimp only
  with_reducible repeat' first
          | assumption | exact hM.sub rfl | apply putQueue_keeps | apply readRecord_keeps | dsimp only | split

theorem stopRecord_keeps {M : Nat} {s0 s : State} (fn : Fn) (fq status : Nat) (hs : Keeps M s0 s) (hM : Within 0xa09a7c5 M) :
    Keeps M s0 (stopRecord fn fq status s) := by
  unfold stopRecord
  try dsimp only
  with_reducible repeat' first
          | assumption | exact hM.sub rfl | apply putQueue_keeps | apply stopQueue_keeps | dsimp only

theorem recordReturn_keeps {M : Nat} {s0 s : State} (fn : Fn) (fq : Nat) (r : Read) (hs : Keeps M s0 s) (hM : Within 0xa09a7e5 M) :
    Keeps M s0 (recordReturn fn fq r s) := by
  unfold recordReturn
  try dsimp only
  with_reducible repeat' first
          | assumption | exact hM.sub rfl | apply readFailure_keeps | apply hostReadDone_keeps | apply putQueue_keeps
          | apply issueOwed_keeps | apply stopRecord_keeps | dsimp only | split

theorem execDoorbellRecordReturn_keeps {M : Nat} {s0 s : State} (fn : Fn) (fq : BitVec 20) (r : Read) (hs : Keeps M s0 s) (hM : Within 0xa09a7e5 M) :
    KeepsRes M s0 (execDoorbellRecordReturn fn fq r s) := by
  unfold execDoorbellRecordReturn
  with_reducible repeat' first
          | assumption | exact hM.sub rfl | apply KeepsRes.next | apply recordReturn_keeps

theorem putSweepDue_keeps {M : Nat} {s0 s : State} (k t : Nat) (hs : Keeps M s0 s) (hM : Within 0x200 M) :
    Keeps M s0 (putSweepDue k t s) := by
  unfold putSweepDue
  try dsimp only
  with_reducible repeat' first
          | assumption | exact hM.sub rfl | dsimp only | apply Keeps.upd | rfl | exact .inr rfl | exact .inl (hM.sub rfl)

theorem execSweep_keeps {M : Nat} {s0 s : State} (fn : Fn) (inst : BitVec 10) (hs : Keeps M s0 s) (hM : Within 0x380 M) :
    KeepsRes M s0 (execSweep fn inst s) := by
  unfold execSweep
  try dsimp only
  with_reducible repeat' first
          | assumption | exact hM.sub rfl | apply KeepsRes.next | intro _ | apply pokeQueue_keeps | apply putSweepDue_keeps
          | dsimp only | apply Keeps.foldl | split

theorem postInstanceFault_keeps {M : Nat} {s0 s : State} (fn : Fn) (i structure_ : Nat) (arg1 : Word) (hs : Keeps M s0 s) (hM : Within 0xc4 M) :
    Keeps M s0 (postInstanceFault fn i structure_ arg1 s) := by
  unfold postInstanceFault
  with_reducible repeat' first | assumption | exact hM.sub rfl | apply postLog_keeps | apply addErr_keeps

theorem execCompletionBatch_keeps {M : Nat} {s0 s : State} (fn : Fn) (fq : BitVec 20) (hs : Keeps M s0 s) (hM : Within 0x80007c5 M) :
    KeepsRes M s0 (execCompletionBatch fn fq s) := by
  unfold execCompletionBatch
  try dsimp only
  with_reducible repeat' first
          | assumption | exact hM.sub rfl | apply KeepsRes.next | apply publishHead_keeps | apply moveHead_keeps
          | apply settleStop_keeps | apply writeReady_keeps | apply freeSettled_keeps | dsimp only | split

theorem endPending_keeps {M : Nat} {s0 s : State} (fn : Fn) (n : Nat) (hs : Keeps M s0 s) (hM : Within 0x5c4 M) :
    Keeps M s0 (endPending fn n s) := by
  unfold endPending
  try dsimp only
  with_reducible repeat' first
          | assumption | exact hM.sub rfl | intro _ | apply putQueue_keeps | apply publishHead_keeps | dsimp only
          | apply Keeps.foldl

theorem writeHeld_keeps {M : Nat} {s0 s : State} (fn : Fn) (n : Nat) (es : List Event) (h : Keeps M s0 s) (hM : Within 0x6c4 M) :
    Keeps M s0 (writeHeld fn n es s) := by
  induction es generalizing s with
  | nil => exact putEvq_keeps _ _ _ h hM.sub
  | cons e es ih =>
    unfold writeHeld
    split
    · exact readConsumer_keeps _ _ (putEvq_keeps _ _ _ h hM.sub) hM.sub
    · exact ih (writeEvent_keeps _ _ _ h hM.sub)

theorem endOverflow_keeps {M : Nat} {s0 s : State} (fn : Fn) (n : Nat) (hs : Keeps M s0 s) (hM : Within 0x7c4 M) :
    Keeps M s0 (endOverflow fn n s) := by
  unfold endOverflow
  try dsimp only
  with_reducible repeat' first
          | assumption | exact hM.sub rfl | apply putEvq_keeps | apply writeEvent_keeps | apply endPending_keeps | dsimp only

theorem consumerSeen_keeps {M : Nat} {s0 s : State} (fn : Fn) (n : Nat) (hs : Keeps M s0 s) (hM : Within 0x7c5 M) :
    Keeps M s0 (consumerSeen fn n s) := by
  unfold consumerSeen
  try dsimp only
  with_reducible repeat' first
          | assumption | exact hM.sub rfl | apply putEvq_keeps | apply declareFull_keeps | apply writeHeld_keeps
          | apply endOverflow_keeps | dsimp only | split

theorem rereadConsumer_keeps {M : Nat} {s0 s : State} (fn : Fn) (n : Nat) (again : Option Bool) (hs : Keeps M s0 s) (hM : Within 0x202c4 M) :
    Keeps M s0 (rereadConsumer fn n again s) := by
  unfold rereadConsumer
  with_reducible repeat' first
          | assumption | exact hM.sub rfl | apply putEvq_keeps | apply readConsumer_keeps | apply arm_keeps | split

theorem consumerReturn_keeps {M : Nat} {s0 s : State} (fn : Fn) (n : Nat) (r : Read) (hs : Keeps M s0 s) (hM : Within 0x207e5 M) :
    Keeps M s0 (consumerReturn fn n r s) := by
  unfold consumerReturn
  try dsimp only
  with_reducible repeat' first
          | assumption | exact hM.sub rfl | apply putB_keeps | apply readFailure_keeps | apply dmaFailEntry_keeps
          | apply putEvq_keeps | apply declareFull_keeps | apply consumerSeen_keeps | apply rereadConsumer_keeps | dsimp only
          | split

theorem execOverflowReread_keeps {M : Nat} {s0 s : State} (fn : Fn) (fevq : BitVec 16) (hs : Keeps M s0 s) (hM : Within 0x280 M) :
    KeepsRes M s0 (execOverflowReread fn fevq s) := by
  unfold execOverflowReread
  try dsimp only
  with_reducible repeat' first
          | assumption | exact hM.sub rfl | apply KeepsRes.next | apply readConsumer_keeps | dsimp only | split

theorem sendMessage_keeps {M : Nat} {s0 s : State} (k : Nat) (hs : Keeps M s0 s) (hM : Within 0x284 M) :
    Keeps M s0 (sendMessage k s) := by
  unfold sendMessage
  try dsimp only
  with_reducible repeat' first
          | assumption | exact hM.sub rfl | apply emit_keeps | apply putReg_keeps | apply linkBusy_keeps | dsimp only | split
          | apply Keeps.upd | rfl | exact .inr rfl | exact .inl (hM.sub rfl)

theorem writeContext_keeps {M : Nat} {s0 s : State} (fn fq : Nat) (c0 c1 c2 c3 : Word) (hs : Keeps M s0 s) (hM : Within 0x10100 M) :
    Keeps M s0 (writeContext fn fq c0 c1 c2 c3 s) := by
  unfold writeContext
  try dsimp only
  with_reducible repeat' first
          | assumption | exact hM.sub rfl | apply putQueue_keeps | dsimp only | split | apply Keeps.upd | rfl
          | exact .inr rfl | exact .inl (hM.sub rfl)

theorem adminRun_keeps {M : Nat} {s0 s : State} (op : Nat) (cq : Nat) (run : Entry → State → State) (hrun : ∀ a' u, Keeps M s0 u → Keeps M s0 (run a' u)) (hs : Keeps M s0 s) (hM : Within 0xa09a1c4 M) :
    Keeps M s0 (adminRun op cq run s) := by
  unfold adminRun
  try dsimp only
  with_reducible repeat' first
          | assumption | exact hM.sub rfl | intro _ | apply hrun | apply finish_keeps | apply nextEntry_keeps | dsimp only
          | split

theorem ctlFinish_keeps {M : Nat} {s0 s : State} (cq : Nat) (e : Entry) (st : Nat) (hs : Keeps M s0 s) (hM : Within 0xa09a1c4 M) :
    Keeps M s0 (ctlFinish cq e st s) := by
  unfold ctlFinish
  with_reducible repeat' first | assumption | exact hM.sub rfl | apply finish_keeps

theorem execQueueConfig_keeps {M : Nat} {s0 s : State} (cq : BitVec 20) (hs : Keeps M s0 s) (hM : Within 0xa09a1c4 M) :
    KeepsRes M s0 (execQueueConfig cq s) := by
  unfold execQueueConfig
  try dsimp only
  with_reducible repeat' first
          | assumption | exact hM.sub rfl | apply KeepsRes.next | intro _ | apply writeContext_keeps | apply adminRun_keeps
          | apply ctlFinish_keeps | dsimp only | split

theorem enableQueue_keeps {M : Nat} {s0 s : State} (fn : Fn) (fq start : Nat) (hs : Keeps M s0 s) (hM : Within 0x180 M) :
    Keeps M s0 (enableQueue fn fq start s) := by
  unfold enableQueue
  try dsimp only
  with_reducible repeat' first
          | assumption | exact hM.sub rfl | apply putQueue_keeps | apply issueOwed_keeps | dsimp only

theorem execQueueEnable_keeps {M : Nat} {s0 s : State} (cq : BitVec 20) (hs : Keeps M s0 s) (hM : Within 0xa09a1c4 M) :
    KeepsRes M s0 (execQueueEnable cq s) := by
  unfold execQueueEnable
  try dsimp only
  with_reducible repeat' first
          | assumption | exact hM.sub rfl | apply KeepsRes.next | intro _ | apply adminRun_keeps | apply ctlFinish_keeps
          | apply enableQueue_keeps | dsimp only | split

theorem disableWait_keeps {M : Nat} {s0 s : State} (cq : Nat) (e : Entry) (fn : Fn) (fq : Nat) (hs : Keeps M s0 s) (hM : Within 0xa09a7c5 M) :
    Keeps M s0 (disableWait cq e fn fq s) := by
  unfold disableWait
  try dsimp only
  with_reducible repeat' first
          | assumption | exact hM.sub rfl | apply putQueue_keeps | apply setPhase_keeps | apply beginDisable_keeps
          | dsimp only | split

theorem execQueueDisable_keeps {M : Nat} {s0 s : State} (cq : BitVec 20) (hs : Keeps M s0 s) (hM : Within 0xa09a7c5 M) :
    KeepsRes M s0 (execQueueDisable cq s) := by
  unfold execQueueDisable
  try dsimp only
  with_reducible repeat' first
          | assumption | exact hM.sub rfl | apply KeepsRes.next | intro _ | apply finish_keeps | apply adminRun_keeps
          | apply ctlFinish_keeps | apply disableWait_keeps | dsimp only | split

theorem resumeQueue_keeps {M : Nat} {s0 s : State} (fn : Fn) (fq : Nat) (r : BitVec 32) (hs : Keeps M s0 s) (hM : Within 0x7c5 M) :
    Keeps M s0 (resumeQueue fn fq r s) := by
  unfold resumeQueue
  try dsimp only
  with_reducible repeat' first
          | assumption | exact hM.sub rfl | apply putQueue_keeps | apply reportFreeze_keeps | apply addEntry_keeps
          | apply issueOwed_keeps | dsimp only | split

theorem execQueueResume_keeps {M : Nat} {s0 s : State} (cq : BitVec 20) (hs : Keeps M s0 s) (hM : Within 0xa09a7c5 M) :
    KeepsRes M s0 (execQueueResume cq s) := by
  unfold execQueueResume
  try dsimp only
  with_reducible repeat' first
          | assumption | exact hM.sub rfl | apply KeepsRes.next | intro _ | apply adminRun_keeps | apply ctlFinish_keeps
          | apply resumeQueue_keeps | dsimp only | split

theorem stopEvq_keeps {M : Nat} {s0 s : State} (fn : Fn) (n : Nat) (hs : Keeps M s0 s) (hM : Within 0x7c4 M) :
    Keeps M s0 (stopEvq fn n s) := by
  unfold stopEvq
  try dsimp only
  with_reducible repeat' first
          | assumption | exact hM.sub rfl | apply addErr_keeps | apply putEvq_keeps | apply endPending_keeps | dsimp only

theorem execEvqConfig_keeps {M : Nat} {s0 s : State} (cq : BitVec 20) (hs : Keeps M s0 s) (hM : Within 0xa09a7c4 M) :
    KeepsRes M s0 (execEvqConfig cq s) := by
  unfold execEvqConfig
  try dsimp only
  with_reducible repeat' first
          | assumption | exact hM.sub rfl | apply KeepsRes.next | intro _ | apply putEvq_keeps | apply adminRun_keeps
          | apply ctlFinish_keeps | apply stopEvq_keeps | dsimp only | split

theorem execQeCtlEnable_keeps {M : Nat} {s0 s : State} (hs : Keeps M s0 s) (hM : Within 0x10184 M) :
    KeepsRes M s0 (execQeCtlEnable s) := by
  unfold execQeCtlEnable
  try dsimp only
  with_reducible repeat' first
          | assumption | exact hM.sub rfl | apply KeepsRes.next | intro _ | apply setupWrite_keeps | apply ctlDone_keeps
          | apply writeContext_keeps | apply enableQueue_keeps | dsimp only | split

theorem execQeCtlDisable_keeps {M : Nat} {s0 s : State} (hs : Keeps M s0 s) (hM : Within 0xa09a7c5 M) :
    KeepsRes M s0 (execQeCtlDisable s) := by
  unfold execQeCtlDisable
  try dsimp only
  with_reducible repeat' first
          | assumption | exact hM.sub rfl | apply KeepsRes.next | intro _ | apply putB_keeps | apply setupWrite_keeps
          | apply putQueue_keeps | apply beginDisable_keeps | apply ctlDone_keeps | dsimp only | split

/-! ### Machine/FlowCalls.lean -/

theorem xcall_keeps {M : Nat} {s0 s : State} (call : Nat) (size : Nat → Nat) (c t : Nat) (err : FcErr) (body : Nat → Nat → Bytes → State → State) (hbody : ∀ a' b' c' u, Keeps M s0 u → Keeps M s0 (body a' b' c' u)) (hs : Keeps M s0 s) (hM : Within 0xa19a1e5 M) :
    Keeps M s0 (xcall call size c t err body s) := by
  unfold xcall
  try dsimp only
  with_reducible repeat' first
          | assumption | exact hM.sub rfl | intro _ | apply hbody | apply threadFault_keeps | apply faultFree_keeps
          | apply fcRun_keeps | dsimp only | split

theorem withBuf_keeps {M : Nat} {s0 s : State} (c t : Nat) (a : Word) (n : Nat) (go : Place → State) (hgo : ∀ a', Keeps M s0 (go a')) (hs : Keeps M s0 s) (hM : Within 0xa19a1c4 M) :
    Keeps M s0 (withBuf c t a n s go) := by
  unfold withBuf
  with_reducible repeat' first | assumption | exact hM.sub rfl | apply hgo | apply threadFault_keeps | split

theorem oweMem_keeps {M : Nat} {s0 s : State} (c t : Nat) (mem : List (Place × Bytes)) (hs : Keeps M s0 s) (hM : Within 0x80000 M) :
    Keeps M s0 (oweMem c t mem s) := by
  unfold oweMem
  with_reducible repeat' first | assumption | exact hM.sub rfl | apply putThreadRaw_keeps

theorem callOwes_keeps {M : Nat} {s0 s : State} (c t w status : Nat) (mem : List (Place × Bytes)) (hs : Keeps M s0 s) (hM : Within 0x80000 M) :
    Keeps M s0 (callOwes c t w status mem s) := by
  unfold callOwes
  with_reducible repeat' first | assumption | exact hM.sub rfl | apply stall_keeps | apply oweMem_keeps

theorem callEnd_keeps {M : Nat} {s0 s : State} (c t w a : Nat) (status off : Nat) (results : Bytes) (hs : Keeps M s0 s) (hM : Within 0x80000 M) :
    Keeps M s0 (callEnd c t w a status off results s) := by
  unfold callEnd
  with_reducible repeat' first | assumption | exact hM.sub rfl | apply callOwes_keeps

theorem callStatus_keeps {M : Nat} {s0 s : State} (c t w status : Nat) (hs : Keeps M s0 s) (hM : Within 0x80000 M) :
    Keeps M s0 (callStatus c t w status s) := by
  unfold callStatus
  with_reducible repeat' first | assumption | exact hM.sub rfl | apply stall_keeps

theorem execDmaRd_keeps {M : Nat} {s0 s : State} (core : CoreHk) (t : Thr) (r : Read) (err : FcErr) (hs : Keeps M s0 s) (hM : Within 0xa19a1e5 M) :
    KeepsRes M s0 (execDmaRd core t r err s) := by
  unfold execDmaRd
  try dsimp only
  with_reducible repeat' first
          | assumption | exact hM.sub rfl | apply KeepsRes.next | intro _ | apply readFailure_keeps | apply instRead_keeps
          | apply xcall_keeps | apply withBuf_keeps | apply callOwes_keeps | apply callStatus_keeps | dsimp only | split

theorem execDmaWr_keeps {M : Nat} {s0 s : State} (core : CoreHk) (t : Thr) (err : FcErr) (hs : Keeps M s0 s) (hM : Within 0xa19a5e5 M) :
    KeepsRes M s0 (execDmaWr core t err s) := by
  unfold execDmaWr
  try dsimp only
  with_reducible repeat' first
          | assumption | exact hM.sub rfl | apply KeepsRes.next | intro _ | apply instWrite_keeps | apply xcall_keeps
          | apply withBuf_keeps | apply callStatus_keeps | dsimp only | split

theorem withFrame_keeps {M : Nat} {s0 s : State} (c t w : Nat) (handle : Nat) (go : Nat → Frame → State) (hgo : ∀ a' b', Keeps M s0 (go a' b')) (hs : Keeps M s0 s) (hM : Within 0x80000 M) :
    Keeps M s0 (withFrame c t w handle s go) := by
  unfold withFrame
  with_reducible repeat' first | assumption | exact hM.sub rfl | apply hgo | apply callStatus_keeps | split

theorem execPktRead_keeps {M : Nat} {s0 s : State} (core : CoreHk) (t : Thr) (err : FcErr) (hs : Keeps M s0 s) (hM : Within 0xa19a1e5 M) :
    KeepsRes M s0 (execPktRead core t err s) := by
  unfold execPktRead
  try dsimp only
  with_reducible repeat' first
          | assumption | exact hM.sub rfl | apply KeepsRes.next | intro _ | apply xcall_keeps | apply withBuf_keeps
          | apply callOwes_keeps | apply callStatus_keeps | apply withFrame_keeps | dsimp only | split

theorem execPktWrite_keeps {M : Nat} {s0 s : State} (core : CoreHk) (t : Thr) (err : FcErr) (hs : Keeps M s0 s) (hM : Within 0xa19a1e5 M) :
    KeepsRes M s0 (execPktWrite core t err s) := by
  unfold execPktWrite
  try dsimp only
  with_reducible repeat' first
          | assumption | exact hM.sub rfl | apply KeepsRes.next | intro _ | apply putFrame_keeps | apply xcall_keeps
          | apply withBuf_keeps | apply callStatus_keeps | apply withFrame_keeps | dsimp only | split

theorem spendHandle_keeps {M : Nat} {s0 s : State} (c f : Nat) (hs : Keeps M s0 s) (hM : Within 0x90000 M) :
    Keeps M s0 (spendHandle c f s) := by
  unfold spendHandle
  with_reducible repeat' first
          | assumption | exact hM.sub rfl | apply dropPunt_keeps | apply dropMetaCell_keeps

theorem execPktSend_keeps {M : Nat} {s0 s : State} (core : CoreHk) (t : Thr) (err : FcErr) (hs : Keeps M s0 s) (hM : Within 0xa19a1e5 M) :
    KeepsRes M s0 (execPktSend core t err s) := by
  unfold execPktSend
  try dsimp only
  with_reducible repeat' first
          | assumption | exact hM.sub rfl | apply KeepsRes.next | intro _ | apply putFrame_keeps | apply freeFrame_keeps
          | apply enqueueFrame_keeps | apply xcall_keeps | apply callStatus_keeps | apply withFrame_keeps
          | apply spendHandle_keeps | dsimp only | split

theorem execPktFree_keeps {M : Nat} {s0 s : State} (core : CoreHk) (t : Thr) (err : FcErr) (hs : Keeps M s0 s) (hM : Within 0xa19a1e5 M) :
    KeepsRes M s0 (execPktFree core t err s) := by
  unfold execPktFree
  try dsimp only
  with_reducible repeat' first
          | assumption | exact hM.sub rfl | apply KeepsRes.next | intro _ | apply freeFrame_keeps | apply xcall_keeps
          | apply callStatus_keeps | apply withFrame_keeps | apply spendHandle_keeps | dsimp only

theorem execPktNew_keeps {M : Nat} {s0 s : State} (core : CoreHk) (t : Thr) (err : FcErr) (hs : Keeps M s0 s) (hM : Within 0xa19a1e5 M) :
    KeepsRes M s0 (execPktNew core t err s) := by
  unfold execPktNew
  try dsimp only
  with_reducible repeat' first
          | assumption | exact hM.sub rfl | apply KeepsRes.next | intro _ | apply putFrame_keeps | apply newBuf_keeps
          | apply holdFrame_keeps | apply xcall_keeps | apply withBuf_keeps | apply callEnd_keeps | apply callStatus_keeps
          | dsimp only | split | apply Keeps.upd | rfl | exact .inr rfl | exact .inl (hM.sub rfl)

theorem execLookup_keeps {M : Nat} {s0 s : State} (core : CoreHk) (t : Thr) (err : FcErr) (hs : Keeps M s0 s) (hM : Within 0xa19a7e5 M) :
    KeepsRes M s0 (execLookup core t err s) := by
  unfold execLookup
  try dsimp only
  with_reducible repeat' first
          | assumption | exact hM.sub rfl | apply KeepsRes.next | intro _ | apply juniperFault_keeps
          | apply lookupError_keeps | apply xcall_keeps | apply callOwes_keeps | apply callStatus_keeps | dsimp only | split

theorem cryptHash_keeps {M : Nat} {s0 s : State} (c t w : Nat) (b : Bytes) (op len : Nat) (hs : Keeps M s0 s) (hM : Within 0xa19a1c4 M) :
    Keeps M s0 (cryptHash c t w b op len s) := by
  unfold cryptHash
  try dsimp only
  with_reducible repeat' first
          | assumption | exact hM.sub rfl | intro _ | apply withBuf_keeps | apply callOwes_keeps | apply callStatus_keeps
          | dsimp only | split

theorem cryptAead_keeps {M : Nat} {s0 s : State} (c t w a : Nat) (b : Bytes) (op len : Nat) (hs : Keeps M s0 s) (hM : Within 0xa19a1c4 M) :
    Keeps M s0 (cryptAead c t w a b op len s) := by
  unfold cryptAead
  try dsimp only
  with_reducible repeat' first
          | assumption | exact hM.sub rfl | intro _ | apply withBuf_keeps | apply callOwes_keeps | apply callStatus_keeps
          | dsimp only | split

theorem recountHeld_keeps {M : Nat} {s0 s : State} (f : Nat) (hs : Keeps M s0 s) (hM : Within 0x10000 M) :
    Keeps M s0 (recountHeld f s) := by
  unfold recountHeld
  with_reducible repeat' first
          | assumption | exact hM.sub rfl | apply recount_keeps | apply addMetaCell_keeps | apply dropMetaCell_keeps

theorem cryptFrame_keeps {M : Nat} {s0 s : State} (c t w : Nat) (b : Bytes) (hs : Keeps M s0 s) (hM : Within 0x100d27c5 M) :
    Keeps M s0 (cryptFrame c t w b s) := by
  unfold cryptFrame
  try dsimp only
  with_reducible repeat' first
          | assumption | exact hM.sub rfl | intro _ | apply freeFrame_keeps | apply applyCtx_keeps | apply callStatus_keeps
          | apply withFrame_keeps | apply spendHandle_keeps | apply recountHeld_keeps | dsimp only | split

theorem execCrypt_keeps {M : Nat} {s0 s : State} (core : CoreHk) (t : Thr) (err : FcErr) (hs : Keeps M s0 s) (hM : Within 0x1a1da7e5 M) :
    KeepsRes M s0 (execCrypt core t err s) := by
  unfold execCrypt
  try dsimp only
  with_reducible repeat' first
          | assumption | exact hM.sub rfl | apply KeepsRes.next | intro _ | apply useFree_keeps | apply xcall_keeps
          | apply callStatus_keeps | apply cryptHash_keeps | apply cryptAead_keeps | apply cryptFrame_keeps | dsimp only
          | split

theorem execCount_keeps {M : Nat} {s0 s : State} (core : CoreHk) (t : Thr) (err : FcErr) (hs : Keeps M s0 s) (hM : Within 0xa19a1e5 M) :
    KeepsRes M s0 (execCount core t err s) := by
  unfold execCount
  try dsimp only
  with_reducible repeat' first
          | assumption | exact hM.sub rfl | apply KeepsRes.next | intro _ | apply addPair_keeps | apply xcall_keeps
          | apply callStatus_keeps | dsimp only

theorem execGopen_keeps {M : Nat} {s0 s : State} (core : CoreHk) (t : Thr) (err : FcErr) (hs : Keeps M s0 s) (hM : Within 0xa19a1e5 M) :
    KeepsRes M s0 (execGopen core t err s) := by
  unfold execGopen
  try dsimp only
  with_reducible repeat' first
          | assumption | exact hM.sub rfl | apply KeepsRes.next | intro _ | apply addStat_keeps | apply putCg_keeps
          | apply xcall_keeps | apply callEnd_keeps | apply callStatus_keeps | dsimp only | split

theorem coreMember_keeps {M : Nat} {s0 s : State} (g : Nat) (x : Group) (eff : Effect) (updates bytes : Nat) (hs : Keeps M s0 s) (hM : Within 0x8000000 M) :
    Keeps M s0 (coreMember g x eff updates bytes s) := by
  unfold coreMember
  with_reducible repeat' first | assumption | exact hM.sub rfl | apply putCg_keeps

theorem stageTable_keeps {M : Nat} {s0 s : State} {g : Nat} {x : Group} {p : Plan} {r : State × Nat}
    (hs : Keeps M s0 s) (e : stageTable g x p s = some r) (hM : Within 0x8008000 M) : Keeps M s0 r.1 := by
  unfold stageTable at e
  split at e
  · cases e; exact hs
  · cases e; exact coreMember_keeps _ _ _ _ _ hs hM.sub
  · split at e
    · cases e; exact hs
    · split at e
      · cases e
      · cases e; exact coreMember_keeps _ _ _ _ _ (takeShadows_keeps _ _ _ _ hs hM.sub) hM.sub

theorem joinTable_keeps {M : Nat} {s0 s : State} (c t w g : Nat) (x : Group) (d : Bytes) (p : Plan) (hs : Keeps M s0 s) (hM : Within 0x8088000 M) :
    Keeps M s0 (joinTable c t w g x d p s) := by
  unfold joinTable
  try dsimp only
  with_reducible repeat' first
          | assumption | exact hM.sub rfl | apply stall_keeps | apply callStatus_keeps | apply stageTable_keeps | dsimp only
          | split

theorem joinContext_keeps {M : Nat} {s0 s : State} (c t w g : Nat) (x : Group) (ctx : Nat) (img : Option Bytes) (hs : Keeps M s0 s) (hM : Within 0x8080000 M) :
    Keeps M s0 (joinContext c t w g x ctx img s) := by
  unfold joinContext
  with_reducible repeat' first
          | assumption | exact hM.sub rfl | apply callStatus_keeps | apply coreMember_keeps | split

theorem joinDescriptor_keeps {M : Nat} {s0 s : State} (c t w g : Nat) (x : Group) (d : Bytes) (src : Place) (hs : Keeps M s0 s) (hM : Within 0x8088000 M) :
    Keeps M s0 (joinDescriptor c t w g x d src s) := by
  unfold joinDescriptor
  try dsimp only
  with_reducible repeat' first
          | assumption | exact hM.sub rfl | apply callStatus_keeps | apply coreMember_keeps | apply joinTable_keeps
          | apply joinContext_keeps | dsimp only | split

theorem joinFrame_keeps {M : Nat} {s0 s : State} (c t w g : Nat) (x : Group) (b : Bytes) (hs : Keeps M s0 s) (hM : Within 0x8092004 M) :
    Keeps M s0 (joinFrame c t w g x b s) := by
  unfold joinFrame
  try dsimp only
  with_reducible repeat' first
          | assumption | exact hM.sub rfl | intro _ | apply putFrame_keeps | apply freeFrame_keeps | apply admitMember_keeps
          | apply callStatus_keeps | apply withFrame_keeps | apply spendHandle_keeps | apply coreMember_keeps | dsimp only
          | split

theorem execGjoin_keeps {M : Nat} {s0 s : State} (core : CoreHk) (t : Thr) (err : FcErr) (hs : Keeps M s0 s) (hM : Within 0xa19a1e5 M) :
    KeepsRes M s0 (execGjoin core t err s) := by
  unfold execGjoin
  try dsimp only
  with_reducible repeat' first
          | assumption | exact hM.sub rfl | apply KeepsRes.next | intro _ | apply xcall_keeps | apply withBuf_keeps
          | apply callStatus_keeps | apply joinDescriptor_keeps | apply joinFrame_keeps | dsimp only | split

theorem retryJoin_keeps {M : Nat} {s0 s : State} (c t : Nat) (hs : Keeps M s0 s) (hM : Within 0x8088000 M) :
    Keeps M s0 (retryJoin c t s) := by
  unfold retryJoin
  try dsimp only
  with_reducible repeat' first
          | assumption | exact hM.sub rfl | apply putThread_keeps | apply stageTable_keeps | dsimp only | split
          | refine Keeps.fst_eq (by assumption) ?_

theorem execGclose_keeps {M : Nat} {s0 s : State} (core : CoreHk) (t : Thr) (err : FcErr) (hs : Keeps M s0 s) (hM : Within 0xa19a1e5 M) :
    KeepsRes M s0 (execGclose core t err s) := by
  unfold execGclose
  try dsimp only
  with_reducible repeat' first
          | assumption | exact hM.sub rfl | apply KeepsRes.next | intro _ | apply putCg_keeps | apply freeCg_keeps
          | apply stall_keeps | apply xcall_keeps | apply callEnd_keeps | apply callStatus_keeps | dsimp only | split

/-! ### Machine/FlowCtl.lean -/

theorem execTurnLimit_keeps {M : Nat} {s0 s : State} (core : CoreHk) (hs : Keeps M s0 s) (hM : Within 0x80000 M) :
    KeepsRes M s0 (execTurnLimit core s) := by
  unfold execTurnLimit
  try dsimp only
  with_reducible repeat' first
          | assumption | exact hM.sub rfl | apply KeepsRes.next | apply putThread_keeps | dsimp only | split

theorem execThreadSwitch_keeps {M : Nat} {s0 s : State} (core : CoreHk) (hs : Keeps M s0 s) (hM : Within 0x80000 M) :
    KeepsRes M s0 (execThreadSwitch core s) := by
  unfold execThreadSwitch
  try dsimp only
  with_reducible repeat' first
          | assumption | exact hM.sub rfl | apply KeepsRes.next | apply putCore_keeps | apply putThread_keeps | dsimp only
          | split

theorem retrySend_keeps {M : Nat} {s0 s : State} (c t : Nat) (hs : Keeps M s0 s) (hM : Within 0x1800c4 M) :
    Keeps M s0 (retrySend c t s) := by
  unfold retrySend
  try dsimp only
  with_reducible repeat' first
          | assumption | exact hM.sub rfl | apply putThread_keeps | apply hkDeliver_keeps | apply endClaim_keeps | dsimp only
          | split | refine Keeps.fst_eq (by assumption) ?_

theorem execLongStallEnd_keeps {M : Nat} {s0 s : State} (core : CoreHk) (t : Thr) (hs : Keeps M s0 s) (hM : Within 0x19d880c4 M) :
    KeepsRes M s0 (execLongStallEnd core t s) := by
  unfold execLongStallEnd
  try dsimp only
  with_reducible repeat' first
          | assumption | exact hM.sub rfl | apply KeepsRes.next | intro _ | apply putThread_keeps | apply placeWrite_keeps
          | apply countRetired_keeps | apply retryJoin_keeps | apply retrySend_keeps | dsimp only | apply Keeps.foldl
          | apply Keeps.foldl_fst | split

theorem execKill_keeps {M : Nat} {s0 s : State} (core : Core) (t : Thr) (hs : Keeps M s0 s) (hM : Within 0xa19a1c4 M) :
    KeepsRes M s0 (execKill core t s) := by
  unfold execKill
  try dsimp only
  with_reducible repeat' first
          | assumption | exact hM.sub rfl | apply KeepsRes.next | intro _ | apply setupWrite_keeps | apply endThread_keeps
          | dsimp only | split

theorem execStart_keeps {M : Nat} {s0 s : State} (core : Core) (t : Thr) (hs : Keeps M s0 s) (hM : Within 0x80080 M) :
    KeepsRes M s0 (execStart core t s) := by
  unfold execStart
  try dsimp only
  with_reducible repeat' first
          | assumption | exact hM.sub rfl | apply KeepsRes.next | intro _ | apply setupWrite_keeps | apply putThread_keeps
          | dsimp only | split

theorem killAll_keeps {M : Nat} {s0 s : State} (c : Nat) (hs : Keeps M s0 s) (hM : Within 0xa19a1c4 M) :
    Keeps M s0 (killAll c s) := by
  unfold killAll
  try dsimp only
  with_reducible repeat' first
          | assumption | exact hM.sub rfl | intro _ | apply endThread_keeps | dsimp only | apply Keeps.foldl | split

theorem execCoreHalt_keeps {M : Nat} {s0 s : State} (core : Core) (hs : Keeps M s0 s) (hM : Within 0xa19a1c4 M) :
    KeepsRes M s0 (execCoreHalt core s) := by
  unfold execCoreHalt
  try dsimp only
  with_reducible repeat' first
          | assumption | exact hM.sub rfl | apply KeepsRes.next | intro _ | apply setupWrite_keeps | apply putChan_keeps
          | apply killAll_keeps | dsimp only | apply Keeps.foldl

theorem execThaw_keeps {M : Nat} {s0 s : State} (core : Core) (hs : Keeps M s0 s) (hM : Within 0x1800c4 M) :
    KeepsRes M s0 (execThaw core s) := by
  unfold execThaw
  try dsimp only
  with_reducible repeat' first
          | assumption | exact hM.sub rfl | apply KeepsRes.next | intro _ | apply setupWrite_keeps | apply putThread_keeps
          | apply serve_keeps | dsimp only | apply Keeps.foldl | split

theorem debugWrite_keeps {M : Nat} {s0 s : State} (c t : Nat) (f : Thread → State → State) (hf : ∀ a' u, Keeps M s0 u → Keeps M s0 (f a' u)) (hs : Keeps M s0 s) (hM : Within 0x80 M) :
    Keeps M s0 (debugWrite c t s f) := by
  unfold debugWrite
  try dsimp only
  with_reducible repeat' first
          | assumption | exact hM.sub rfl | intro _ | apply hf | apply setupWrite_keeps | dsimp only | split

theorem execStop_keeps {M : Nat} {s0 s : State} (core : CoreHk) (t : Thr) (hs : Keeps M s0 s) (hM : Within 0x80080 M) :
    KeepsRes M s0 (execStop core t s) := by
  unfold execStop
  try dsimp only
  with_reducible repeat' first
          | assumption | exact hM.sub rfl | apply KeepsRes.next | intro _ | apply putThread_keeps | apply debugWrite_keeps
          | dsimp only | split

theorem execResume_keeps {M : Nat} {s0 s : State} (core : CoreHk) (t : Thr) (hs : Keeps M s0 s) (hM : Within 0x80080 M) :
    KeepsRes M s0 (execResume core t s) := by
  unfold execResume
  try dsimp only
  with_reducible repeat' first
          | assumption | exact hM.sub rfl | apply KeepsRes.next | intro _ | apply putThread_keeps | apply debugWrite_keeps
          | dsimp only | split

theorem execDebugStep_keeps {M : Nat} {s0 s : State} (core : CoreHk) (t : Thr) (hs : Keeps M s0 s) (hM : Within 0x80080 M) :
    KeepsRes M s0 (execDebugStep core t s) := by
  unfold execDebugStep
  try dsimp only
  with_reducible repeat' first
          | assumption | exact hM.sub rfl | apply KeepsRes.next | intro _ | apply putThread_keeps | apply debugWrite_keeps
          | dsimp only | split

theorem execClosedWait_keeps {M : Nat} {s0 s : State} (core : Core) (hs : Keeps M s0 s) (hM : Within 0x800c4 M) :
    KeepsRes M s0 (execClosedWait core s) := by
  unfold execClosedWait
  try dsimp only
  with_reducible repeat' first
          | assumption | exact hM.sub rfl | apply KeepsRes.next | intro _ | apply putB_keeps | apply postLog_keeps
          | apply addErr_keeps | apply putThreadRaw_keeps | apply putCore_keeps | dsimp only | apply Keeps.foldl | split

theorem execHkHeartbeat_keeps {M : Nat} {s0 s : State} (hs : Keeps M s0 s) (hM : Within 0x0 M) :
    KeepsRes M s0 (execHkHeartbeat s) := by
  unfold execHkHeartbeat
  with_reducible repeat' first | assumption | apply deviceFault_keeps | apply KeepsRes.next | split

theorem postMessage_keeps {M : Nat} {s0 s : State} (fn fq : Nat) (e : Entry) (hs : Keeps M s0 s) (hM : Within 0xa19a1c4 M) :
    Keeps M s0 (postMessage fn fq e s).1 := by
  unfold postMessage
  try dsimp only
  with_reducible repeat' first
          | assumption | exact hM.sub rfl | apply finish_keeps | apply deliver_keeps | dsimp only | split

theorem execMsgPost_keeps {M : Nat} {s0 s : State} (fn : Fn) (fq : BitVec 20) (hs : Keeps M s0 s) (hM : Within 0xa19a1c4 M) :
    KeepsRes M s0 (execMsgPost fn fq s) := by
  unfold execMsgPost
  try dsimp only
  with_reducible repeat' first
          | assumption | exact hM.sub rfl | apply KeepsRes.next | intro _ | apply setPhase_keeps | apply finish_keeps
          | apply stageMember_keeps | apply nextEntry_keeps | apply putChan_keeps | apply postMessage_keeps | dsimp only
          | split

theorem execMailboxDelivery_keeps {M : Nat} {s0 s : State} (core : CoreHk) (mbox : Fin 32) (hs : Keeps M s0 s) (hM : Within 0x1a1da5c4 M) :
    KeepsRes M s0 (execMailboxDelivery core mbox s) := by
  unfold execMailboxDelivery
  try dsimp only
  with_reducible repeat' first
          | assumption | exact hM.sub rfl | apply KeepsRes.next | apply putChan_keeps | apply serve_keeps
          | apply advanceGroups_keeps | apply postMessage_keeps | dsimp only | split

/-! ### Machine/Storage.lean -/

theorem admitEntry_keeps {M : Nat} {s0 s : State} (fq : Nat) (e : Entry) (hs : Keeps M s0 s) (hM : Within 0xa09a5c4 M) :
    Keeps M s0 (admitEntry fq e s) := by
  unfold admitEntry
  try dsimp only
  with_reducible repeat' first
          | assumption | exact hM.sub rfl | apply addStat_keeps | apply putCmd_keeps | apply setPhase_keeps
          | apply stageMember_keeps | apply failStorage_keeps | dsimp only | split | apply Keeps.upd | rfl | exact .inr rfl
          | exact .inl (hM.sub rfl)

theorem admission_keeps {M : Nat} {s0 s : State} (hs : Keeps M s0 s) (hM : Within 0xa09a5c4 M) :
    Keeps M s0 (admission s) := by
  unfold admission
  with_reducible repeat' first | assumption | exact hM.sub rfl | apply admitEntry_keeps | split

theorem readSegs_keeps {M : Nat} {s0 s : State} (fq : Nat) (e : Entry) (len : Nat) (sgl : Read) (hs : Keeps M s0 s) (hM : Within 0xe5 M) :
    Keeps M s0 (readSegs fq e len sgl s).1 := by
  unfold readSegs
  try dsimp only
  with_reducible repeat' first
          | assumption | exact hM.sub rfl | apply readFailure_keeps | apply entryRead_keeps | dsimp only | split

theorem readBuffer_keeps {M : Nat} {s0 s : State} (fq : Nat) (e : Entry) (segs : List (Nat × Nat)) (hs : Keeps M s0 s) (hM : Within 0x80 M) :
    Keeps M s0 (readBuffer fq e segs s) := by
  unfold readBuffer
  try dsimp only
  with_reducible repeat' first
          | assumption | exact hM.sub rfl | intro _ | apply entryRead_keeps | dsimp only | apply Keeps.foldl
          | apply Keeps.foldl_fst

theorem cmdReady_keeps {M : Nat} {s0 s : State} (n : Nat) (c : StCmd) (hs : Keeps M s0 s) (hM : Within 0xa09a5c4 M) :
    Keeps M s0 (cmdReady n c s) := by
  unfold cmdReady
  try dsimp only
  with_reducible repeat' first
          | assumption | exact hM.sub rfl | apply putCmd_keeps | apply dropCmd_keeps | apply finish_keeps
          | apply stageMember_keeps | apply addTotals_keeps | apply issueCmd_keeps | dsimp only | split

theorem stRun_keeps {M : Nat} {s0 s : State} (op : Nat) (fq : Nat) (idx : BitVec 32) (body : Nat → StCmd → Entry → State → State) (hbody : ∀ a' b' c' u, Keeps M s0 u → Keeps M s0 (body a' b' c' u)) (hs : Keeps M s0 s) (hM : Within 0x0 M) :
    Keeps M s0 (stRun op fq idx s body) := by
  unfold stRun
  with_reducible repeat' first | assumption | apply hbody | split

theorem withData_keeps {M : Nat} {s0 s : State} (fq n : Nat) (c : StCmd) (e : Entry) (segs : List (Nat × Nat)) (len : Nat) (r : Read) (go : Bytes → State → State) (hgo : ∀ a' u, Keeps M s0 u → Keeps M s0 (go a' u)) (hs : Keeps M s0 s) (hM : Within 0xa09a5e5 M) :
    Keeps M s0 (withData fq n c e segs len r s go) := by
  unfold withData
  try dsimp only
  with_reducible repeat' first
          | assumption | exact hM.sub rfl | apply hgo | apply readFailure_keeps | apply failCmd_keeps
          | apply readBuffer_keeps | dsimp only | split

theorem execStRead_keeps {M : Nat} {s0 s : State} (fq : BitVec 20) (idx : BitVec 32) (sgl : Read) (hs : Keeps M s0 s) (hM : Within 0xa09a5e5 M) :
    KeepsRes M s0 (execStRead fq idx sgl s) := by
  unfold execStRead
  try dsimp only
  with_reducible repeat' first
          | assumption | exact hM.sub rfl | apply KeepsRes.next | intro _ | apply failCmd_keeps | apply readSegs_keeps
          | apply cmdReady_keeps | apply stRun_keeps | dsimp only | split

theorem execStWrite_keeps {M : Nat} {s0 s : State} (fq : BitVec 20) (idx : BitVec 32) (sgl r : Read) (hs : Keeps M s0 s) (hM : Within 0xa09a5e5 M) :
    KeepsRes M s0 (execStWrite fq idx sgl r s) := by
  unfold execStWrite
  try dsimp only
  with_reducible repeat' first
          | assumption | exact hM.sub rfl | apply KeepsRes.next | intro _ | apply failCmd_keeps | apply readSegs_keeps
          | apply cmdReady_keeps | apply stRun_keeps | apply withData_keeps | dsimp only | split

theorem execStFlush_keeps {M : Nat} {s0 s : State} (fq : BitVec 20) (idx : BitVec 32) (hs : Keeps M s0 s) (hM : Within 0xa09a5c4 M) :
    KeepsRes M s0 (execStFlush fq idx s) := by
  unfold execStFlush
  try dsimp only
  with_reducible repeat' first
          | assumption | exact hM.sub rfl | apply KeepsRes.next | intro _ | apply cmdReady_keeps | apply stRun_keeps
          | dsimp only

theorem execStZero_keeps {M : Nat} {s0 s : State} (fq : BitVec 20) (idx : BitVec 32) (hs : Keeps M s0 s) (hM : Within 0xa09a5c4 M) :
    KeepsRes M s0 (execStZero fq idx s) := by
  unfold execStZero
  try dsimp only
  with_reducible repeat' first
          | assumption | exact hM.sub rfl | apply KeepsRes.next | intro _ | apply cmdReady_keeps | apply stRun_keeps
          | dsimp only

theorem execStTrim_keeps {M : Nat} {s0 s : State} (fq : BitVec 20) (idx : BitVec 32) (hs : Keeps M s0 s) (hM : Within 0xa09a5c4 M) :
    KeepsRes M s0 (execStTrim fq idx s) := by
  unfold execStTrim
  try dsimp only
  with_reducible repeat' first
          | assumption | exact hM.sub rfl | apply KeepsRes.next | intro _ | apply cmdReady_keeps | apply stRun_keeps
          | dsimp only

theorem execStCmpwrite_keeps {M : Nat} {s0 s : State} (fq : BitVec 20) (idx : BitVec 32) (cmp r : Read) (hs : Keeps M s0 s) (hM : Within 0xa09a5e5 M) :
    KeepsRes M s0 (execStCmpwrite fq idx cmp r s) := by
  unfold execStCmpwrite
  try dsimp only
  with_reducible repeat' first
          | assumption | exact hM.sub rfl | apply KeepsRes.next | intro _ | apply cmdReady_keeps | apply stRun_keeps
          | apply withData_keeps | dsimp only

theorem execLockGrant_keeps {M : Nat} {s0 s : State} (cmd : Nat × Ecc) (hs : Keeps M s0 s) (hM : Within 0xa09a5e5 M) :
    KeepsRes M s0 (execLockGrant cmd s) := by
  unfold execLockGrant
  with_reducible repeat' first
          | assumption | exact hM.sub rfl | apply KeepsRes.next | apply useFree_keeps | apply eccCount_keeps
          | apply putCmd_keeps | apply deviceFault_keeps | apply issueCmd_keeps | split

theorem stDone_keeps {M : Nat} {s0 s : State} (n : Nat) (c : StCmd) (hs : Keeps M s0 s) (hM : Within 0xa09a1c4 M) :
    Keeps M s0 (stDone n c s) := by
  unfold stDone
  try dsimp only
  with_reducible repeat' first
          | assumption | exact hM.sub rfl | apply addStat_keeps | apply dropCmd_keeps | apply finish_keeps
          | apply homeDone_keeps | dsimp only | split

theorem readDone_keeps {M : Nat} {s0 s : State} (n : Nat) (c : StCmd) (hs : Keeps M s0 s) (hM : Within 0xa09a5c4 M) :
    Keeps M s0 (readDone n c s) := by
  unfold readDone
  try dsimp only
  with_reducible repeat' first
          | assumption | exact hM.sub rfl | intro _ | apply addStat_keeps | apply addErr_keeps | apply dropCmd_keeps
          | apply instWrite_keeps | apply finish_keeps | apply issueChange_keeps | dsimp only | apply Keeps.foldl
          | apply Keeps.foldl_fst | split

theorem repairRead_keeps {M : Nat} {s0 s : State} (n : Nat) (c : StCmd) (bad : Bool) (f : PackFail) (hs : Keeps M s0 s) (hM : Within 0x1a09a5c4 M) :
    Keeps M s0 (repairRead n c bad f s) := by
  unfold repairRead
  with_reducible repeat' first
          | assumption | exact hM.sub rfl | apply putCmd_keeps | apply issueOn_keeps | apply elogWrite_keeps
          | apply readDone_keeps | apply writeBack_keeps | split

theorem settleRead_keeps {M : Nat} {s0 s : State} (n : Nat) (c : StCmd) (hs : Keeps M s0 s) (hM : Within 0x1a09a7c5 M) :
    Keeps M s0 (settleRead n c s) := by
  unfold settleRead
  try dsimp only
  with_reducible repeat' first
          | assumption | exact hM.sub rfl | apply addErr_keeps | apply issueRead_keeps | apply elogWrite_keeps
          | apply failCmd_keeps | apply markExtent_keeps | apply readDone_keeps | apply repairRead_keeps
          | apply writeBack_keeps | dsimp only | split

theorem settleChange_keeps {M : Nat} {s0 s : State} (n : Nat) (c : StCmd) (hs : Keeps M s0 s) (hM : Within 0xa09a7c5 M) :
    Keeps M s0 (settleChange n c s) := by
  unfold settleChange
  try dsimp only
  with_reducible repeat' first
          | assumption | exact hM.sub rfl | intro _ | apply elogWrite_keeps | apply failCmd_keeps | apply markExtent_keeps
          | apply homeLost_keeps | apply stDone_keeps | dsimp only | apply Keeps.foldl | apply Keeps.foldl_fst | split

theorem settleCmd_keeps {M : Nat} {s0 s : State} (n : Nat) (hs : Keeps M s0 s) (hM : Within 0x1a09a7c5 M) :
    Keeps M s0 (settleCmd n s) := by
  unfold settleCmd
  with_reducible repeat' first
          | assumption | exact hM.sub rfl | apply addStat_keeps | apply dropCmd_keeps | apply settleRead_keeps
          | apply settleChange_keeps | split

theorem cmdAnswer_keeps {M : Nat} {s0 s : State} (n : Nat) (onB : Bool) (off : Nat) (fail : Option PackFail) (data : Bytes) (hs : Keeps M s0 s) (hM : Within 0x1a09a7c5 M) :
    Keeps M s0 (cmdAnswer n onB off fail data s) := by
  unfold cmdAnswer
  try dsimp only
  with_reducible repeat' first
          | assumption | exact hM.sub rfl | apply putCmd_keeps | apply settleCmd_keeps | apply writeBack_keeps | dsimp only
          | split

theorem journalAnswer_keeps {M : Nat} {s0 s : State} (u : PackUse) (ok : Bool) (hs : Keeps M s0 s) (hM : Within 0xa09a7c5 M) :
    Keeps M s0 (journalAnswer u ok s) := by
  unfold journalAnswer
  with_reducible repeat' first
          | assumption | exact hM.sub rfl | apply tryClose_keeps | apply endCancelled_keeps | apply journalLost_keeps
          | apply retireDurable_keeps | split

theorem execPackCompletion_keeps {M : Nat} {s0 s : State} (bay : Bay) (cid : Nat) (sf : BitVec 15) (data : Bytes) (failLba : Option (BitVec 64)) (hs : Keeps M s0 s) (hM : Within 0x1a09a7c5 M) :
    KeepsRes M s0 (execPackCompletion bay cid sf data failLba s) := by
  unfold execPackCompletion
  try dsimp only
  with_reducible repeat' first
          | assumption | exact hM.sub rfl | apply KeepsRes.next | apply dropPackCmd_keeps | apply cmdAnswer_keeps
          | apply journalAnswer_keeps | dsimp only | split

theorem nsConfig_keeps {M : Nat} {s0 s : State} (cq : Nat) (e : Entry) (hs : Keeps M s0 s) (hM : Within 0xa09a1c4 M) :
    Keeps M s0 (nsConfig cq e s) := by
  unfold nsConfig
  try dsimp only
  with_reducible repeat' first
          | assumption | exact hM.sub rfl | apply putNs_keeps | apply finish_keeps | dsimp only | split

theorem execNsConfig_keeps {M : Nat} {s0 s : State} (cq : BitVec 20) (hs : Keeps M s0 s) (hM : Within 0xa09a1c4 M) :
    KeepsRes M s0 (execNsConfig cq s) := by
  unfold execNsConfig
  try dsimp only
  with_reducible repeat' first
          | assumption | exact hM.sub rfl | apply KeepsRes.next | intro _ | apply nextEntry_keeps | apply nsConfig_keeps
          | dsimp only

theorem elogConfig_keeps {M : Nat} {s0 s : State} (cq : Nat) (e : Entry) (hs : Keeps M s0 s) (hM : Within 0xa09a1c4 M) :
    Keeps M s0 (elogConfig cq e s) := by
  unfold elogConfig
  try dsimp only
  with_reducible repeat' first
          | assumption | exact hM.sub rfl | apply finish_keeps | apply putElog_keeps | dsimp only | split

theorem execStElogConfig_keeps {M : Nat} {s0 s : State} (cq : BitVec 20) (hs : Keeps M s0 s) (hM : Within 0xa09a1c4 M) :
    KeepsRes M s0 (execStElogConfig cq s) := by
  unfold execStElogConfig
  try dsimp only
  with_reducible repeat' first
          | assumption | exact hM.sub rfl | apply KeepsRes.next | intro _ | apply nextEntry_keeps | apply elogConfig_keeps
          | dsimp only

/-! ### Machine/Bays.lean -/

theorem loseExtent_keeps {M : Nat} {s0 s : State} (x : Nat × Bool) (hs : Keeps M s0 s) (hM : Within 0x20007c5 M) :
    Keeps M s0 (loseExtent x s) := by
  unfold loseExtent
  try dsimp only
  with_reducible repeat' first
          | assumption | exact hM.sub rfl | apply putNsState_keeps | apply markExtent_keeps | dsimp only | split

theorem failOutstanding_keeps {M : Nat} {s0 s : State} (b : Nat) (hs : Keeps M s0 s) (hM : Within 0x1a09a7c5 M) :
    Keeps M s0 (failOutstanding b s) := by
  unfold failOutstanding
  try dsimp only
  with_reducible repeat' first
          | assumption | exact hM.sub rfl | intro _ | apply cmdAnswer_keeps | dsimp only | apply Keeps.foldl
          | apply Keeps.foldl_fst | split | apply Keeps.upd | rfl | exact .inr rfl | exact .inl (hM.sub rfl)

theorem removePack_keeps {M : Nat} {s0 s : State} (b cause : Nat) (hs : Keeps M s0 s) (hM : Within 0x1a09a7c5 M) :
    Keeps M s0 (removePack b cause s) := by
  unfold removePack
  try dsimp only
  with_reducible repeat' first
          | assumption | exact hM.sub rfl | intro _ | apply journalLost_keeps | apply loseExtent_keeps
          | apply failOutstanding_keeps | dsimp only | apply Keeps.foldl | split

theorem putBayState_keeps {M : Nat} {s0 s : State} (b : Nat) (st : BayState) (hs : Keeps M s0 s) (hM : Within 0x40000c0 M) :
    Keeps M s0 (putBayState b st s) := by
  unfold putBayState
  with_reducible repeat' first | assumption | exact hM.sub rfl | apply putBay_keeps

theorem powerOff_keeps {M : Nat} {s0 s : State} (b : Nat) (st : BayState) (hs : Keeps M s0 s) (hM : Within 0x40000c0 M) :
    Keeps M s0 (powerOff b st s) := by
  unfold powerOff
  try dsimp only
  with_reducible repeat' first
          | assumption | exact hM.sub rfl | apply emit_keeps | apply putBay_keeps | dsimp only | split

theorem stateEvent_keeps {M : Nat} {s0 s : State} (b : Nat) (st : BayState) (hs : Keeps M s0 s) (hM : Within 0x7c5 M) :
    Keeps M s0 (stateEvent b st s) := by
  unfold stateEvent
  try dsimp only
  with_reducible repeat' first | assumption | exact hM.sub rfl | apply bayEvent_keeps | dsimp only | split

theorem failBay_keeps {M : Nat} {s0 s : State} (b cause : Nat) (hs : Keeps M s0 s) (hM : Within 0x40007c5 M) :
    Keeps M s0 (failBay b cause s) := by
  unfold failBay
  with_reducible repeat' first
          | assumption | exact hM.sub rfl | apply putF_keeps | apply powerOff_keeps | apply stateEvent_keeps

theorem bayWrite_keeps {M : Nat} {s0 s : State} (b : Nat) (f : State → State) (hf : ∀ u, Keeps M s0 u → Keeps M s0 (f u)) (hs : Keeps M s0 s) (hM : Within 0x80 M) :
    Keeps M s0 (bayWrite b s f) := by
  unfold bayWrite
  try dsimp only
  with_reducible repeat' first
          | assumption | exact hM.sub rfl | intro _ | apply hf | apply setupWrite_keeps | dsimp only | split

theorem execBayPowerOn_keeps {M : Nat} {s0 s : State} (bay : Bay) (hs : Keeps M s0 s) (hM : Within 0x40000c4 M) :
    KeepsRes M s0 (execBayPowerOn bay s) := by
  unfold execBayPowerOn
  try dsimp only
  with_reducible repeat' first
          | assumption | exact hM.sub rfl | apply KeepsRes.next | intro _ | apply emit_keeps | apply putB_keeps
          | apply putBayState_keeps | apply bayWrite_keeps | dsimp only | split

theorem execBayPowerOff_keeps {M : Nat} {s0 s : State} (bay : Bay) (force : Bool) (hs : Keeps M s0 s) (hM : Within 0x1e09a7c5 M) :
    KeepsRes M s0 (execBayPowerOff bay force s) := by
  unfold execBayPowerOff
  try dsimp only
  with_reducible repeat' first
          | assumption | exact hM.sub rfl | apply KeepsRes.next | intro _ | apply putB_keeps | apply failOutstanding_keeps
          | apply removePack_keeps | apply putBayState_keeps | apply powerOff_keeps | apply bayWrite_keeps | dsimp only
          | split

theorem packSeated_keeps {M : Nat} {s0 s : State} (b : Nat) (hs : Keeps M s0 s) (hM : Within 0x40007c5 M) :
    Keeps M s0 (packSeated b s) := by
  unfold packSeated
  try dsimp only
  with_reducible repeat' first
          | assumption | exact hM.sub rfl | apply putB_keeps | apply putBay_keeps | apply bayEvent_keeps
          | apply putBayState_keeps | dsimp only | split

theorem packPulled_keeps {M : Nat} {s0 s : State} (b : Nat) (hs : Keeps M s0 s) (hM : Within 0x1e09a7c5 M) :
    Keeps M s0 (packPulled b s) := by
  unfold packPulled
  try dsimp only
  with_reducible repeat' first
          | assumption | exact hM.sub rfl | apply putF_keeps | apply putB_keeps | apply addErr_keeps | apply putBay_keeps
          | apply bayEvent_keeps | apply removePack_keeps | apply powerOff_keeps | dsimp only | split

theorem execPresenceChange_keeps {M : Nat} {s0 s : State} (bay : Bay) (present : Bool) (hs : Keeps M s0 s) (hM : Within 0x1e09a7c5 M) :
    KeepsRes M s0 (execPresenceChange bay present s) := by
  unfold execPresenceChange
  try dsimp only
  with_reducible repeat' first
          | assumption | exact hM.sub rfl | apply KeepsRes.next | apply putBay_keeps | apply packSeated_keeps
          | apply packPulled_keeps | dsimp only | split

theorem execPowerSettle_keeps {M : Nat} {s0 s : State} (bay : Bay) (hs : Keeps M s0 s) (hM : Within 0x40000c0 M) :
    KeepsRes M s0 (execPowerSettle bay s) := by
  unfold execPowerSettle
  with_reducible repeat' first
          | assumption | exact hM.sub rfl | apply KeepsRes.next | apply emit_keeps | apply putBayState_keeps | split

theorem execBayLinkUp_keeps {M : Nat} {s0 s : State} (bay : Bay) (speed : BitVec 3) (width : BitVec 4) (hs : Keeps M s0 s) (hM : Within 0x40000c0 M) :
    KeepsRes M s0 (execBayLinkUp bay speed width s) := by
  unfold execBayLinkUp
  with_reducible repeat' first
          | assumption | exact hM.sub rfl | apply KeepsRes.next | apply putBay_keeps | split

theorem execBayTrainingTimeout_keeps {M : Nat} {s0 s : State} (bay : Bay) (hs : Keeps M s0 s) (hM : Within 0x40007c5 M) :
    KeepsRes M s0 (execBayTrainingTimeout bay s) := by
  unfold execBayTrainingTimeout
  with_reducible repeat' first
          | assumption | exact hM.sub rfl | apply KeepsRes.next | apply failBay_keeps | split

theorem execBayReadyTimeout_keeps {M : Nat} {s0 s : State} (bay : Bay) (hs : Keeps M s0 s) (hM : Within 0x40007c5 M) :
    KeepsRes M s0 (execBayReadyTimeout bay s) := by
  unfold execBayReadyTimeout
  with_reducible repeat' first
          | assumption | exact hM.sub rfl | apply KeepsRes.next | apply failBay_keeps | split

theorem wearExtent_keeps {M : Nat} {s0 s : State} (x : Nat × Bool) (hs : Keeps M s0 s) (hM : Within 0x20007c5 M) :
    Keeps M s0 (wearExtent x s) := by
  unfold wearExtent
  try dsimp only
  with_reducible repeat' first
          | assumption | exact hM.sub rfl | apply putNs_keeps | apply markExtent_keeps | dsimp only | split

theorem lifeEvent_keeps {M : Nat} {s0 s : State} (b status : Nat) (hs : Keeps M s0 s) (hM : Within 0x7c5 M) :
    Keeps M s0 (lifeEvent b status s) := by
  unfold lifeEvent
  with_reducible repeat' first | assumption | exact hM.sub rfl | apply bayEvent_keeps

theorem evalLife_keeps {M : Nat} {s0 s : State} (b : Nat) (hs : Keeps M s0 s) (hM : Within 0xa09a7c5 M) :
    Keeps M s0 (evalLife b s) := by
  unfold evalLife
  try dsimp only
  with_reducible repeat' first
          | assumption | exact hM.sub rfl | intro _ | apply putF_keeps | apply putB_keeps | apply journalLost_keeps
          | apply wearExtent_keeps | apply lifeEvent_keeps | dsimp only | apply Keeps.foldl | split

theorem loadLife_keeps {M : Nat} {s0 s : State} (b : Nat) (pct crit : BitVec 8) (hs : Keeps M s0 s) (hM : Within 0xa09a7c5 M) :
    Keeps M s0 (loadLife b pct crit s) := by
  unfold loadLife
  try dsimp only
  with_reducible repeat' first
          | assumption | exact hM.sub rfl | apply putReg_keeps | apply evalLife_keeps | dsimp only

theorem putIdentity_keeps {M : Nat} {s0 s : State} (b : Nat) (p : PackIdent) (hs : Keeps M s0 s) (hM : Within 0x4 M) :
    Keeps M s0 (putIdentity b p s) := by
  unfold putIdentity
  try dsimp only
  with_reducible repeat' first
          | assumption | exact hM.sub rfl | intro _ | apply putReg_keeps | dsimp only | apply Keeps.foldl

theorem execBayInitDone_keeps {M : Nat} {s0 s : State} (bay : Bay) (ident : Option PackIdent) (hs : Keeps M s0 s) (hM : Within 0xe09a7c5 M) :
    KeepsRes M s0 (execBayInitDone bay ident s) := by
  unfold execBayInitDone
  try dsimp only
  with_reducible repeat' first
          | assumption | exact hM.sub rfl | apply KeepsRes.next | apply emit_keeps | apply putBay_keeps
          | apply stateEvent_keeps | apply failBay_keeps | apply loadLife_keeps | apply putIdentity_keeps | dsimp only
          | split

theorem execPackFailure_keeps {M : Nat} {s0 s : State} (bay : Bay) (cfs : Bool) (hs : Keeps M s0 s) (hM : Within 0x1e09a7c5 M) :
    KeepsRes M s0 (execPackFailure bay cfs s) := by
  unfold execPackFailure
  try dsimp only
  with_reducible repeat' first
          | assumption | exact hM.sub rfl | apply KeepsRes.next | apply addErr_keeps | apply removePack_keeps
          | apply failBay_keeps | dsimp only | split

theorem execShutdownComplete_keeps {M : Nat} {s0 s : State} (bay : Bay) (hs : Keeps M s0 s) (hM : Within 0x40007c5 M) :
    KeepsRes M s0 (execShutdownComplete bay s) := by
  unfold execShutdownComplete
  with_reducible repeat' first
          | assumption | exact hM.sub rfl | apply KeepsRes.next | apply powerOff_keeps | apply stateEvent_keeps | split

theorem execAttentionButton_keeps {M : Nat} {s0 s : State} (bay : Bay) (hs : Keeps M s0 s) (hM : Within 0x7c5 M) :
    KeepsRes M s0 (execAttentionButton bay s) := by
  unfold execAttentionButton
  with_reducible repeat' first
          | assumption | exact hM.sub rfl | apply KeepsRes.next | apply putB_keeps | apply bayEvent_keeps | split

theorem pollBay_keeps {M : Nat} {s0 s : State} (b : Nat) (hs : Keeps M s0 s) (hM : Within 0x40000c0 M) :
    Keeps M s0 (pollBay b s) := by
  unfold pollBay
  try dsimp only
  with_reducible repeat' first
          | assumption | exact hM.sub rfl | apply emit_keeps | apply putBay_keeps | dsimp only | split

theorem execLifePoll_keeps {M : Nat} {s0 s : State} (hs : Keeps M s0 s) (hM : Within 0x40000c0 M) :
    KeepsRes M s0 (execLifePoll s) := by
  unfold execLifePoll
  try dsimp only
  with_reducible repeat' first
          | assumption | exact hM.sub rfl | apply KeepsRes.next | intro _ | apply pollBay_keeps | dsimp only
          | apply Keeps.foldl | split

theorem execPollAnswer_keeps {M : Nat} {s0 s : State} (bay : Bay) (ok : Bool) (pct crit : BitVec 8) (hs : Keeps M s0 s) (hM : Within 0xe09a7c5 M) :
    KeepsRes M s0 (execPollAnswer bay ok pct crit s) := by
  unfold execPollAnswer
  try dsimp only
  with_reducible repeat' first
          | assumption | exact hM.sub rfl | apply KeepsRes.next | apply addErr_keeps | apply putBay_keeps
          | apply loadLife_keeps | dsimp only | split

theorem execLifeThresholdWrite_keeps {M : Nat} {s0 s : State} (bay : Bay) (warn ro : BitVec 8) (hs : Keeps M s0 s) (hM : Within 0xa09a7c5 M) :
    KeepsRes M s0 (execLifeThresholdWrite bay warn ro s) := by
  unfold execLifeThresholdWrite
  try dsimp only
  with_reducible repeat' first
          | assumption | exact hM.sub rfl | apply KeepsRes.next | intro _ | apply putF_keeps | apply bayWrite_keeps
          | apply evalLife_keeps | dsimp only

theorem putRebuild_keeps {M : Nat} {s0 s : State} (k : Nat) (r : Rebuild) (hs : Keeps M s0 s) (hM : Within 0x2000004 M) :
    Keeps M s0 (putRebuild k r s) := by
  unfold putRebuild
  with_reducible repeat' first
          | assumption | exact hM.sub rfl | apply putReg_keeps | apply Keeps.upd | rfl | exact .inr rfl
          | exact .inl (hM.sub rfl)

theorem nsRebuild_keeps {M : Nat} {s0 s : State} (cq : Nat) (e : Entry) (hs : Keeps M s0 s) (hM : Within 0xa09a7c5 M) :
    Keeps M s0 (nsRebuild cq e s) := by
  unfold nsRebuild
  try dsimp only
  with_reducible repeat' first
          | assumption | exact hM.sub rfl | apply putNs_keeps | apply finish_keeps | apply endRebuild_keeps
          | apply putNsState_keeps | apply putRebuild_keeps | dsimp only | split

theorem execNsRebuild_keeps {M : Nat} {s0 s : State} (cq : BitVec 20) (hs : Keeps M s0 s) (hM : Within 0xa09a7c5 M) :
    KeepsRes M s0 (execNsRebuild cq s) := by
  unfold execNsRebuild
  try dsimp only
  with_reducible repeat' first
          | assumption | exact hM.sub rfl | apply KeepsRes.next | intro _ | apply nextEntry_keeps | apply nsRebuild_keeps
          | dsimp only

theorem chunkSend_keeps {M : Nat} {s0 s : State} (r : Rebuild) (onB : Bool) (opcode : Nat) (data : Bytes) (hs : Keeps M s0 s) (hM : Within 0x2000000 M) :
    Keeps M s0 (chunkSend r onB opcode data s) := by
  unfold chunkSend
  try dsimp only
  with_reducible repeat' first
          | assumption | exact hM.sub rfl | intro _ | apply packSend_keeps | dsimp only | apply Keeps.foldl
          | apply Keeps.foldl_fst | split

theorem chunkRead_keeps {M : Nat} {s0 s : State} (r : Rebuild) (hs : Keeps M s0 s) (hM : Within 0x2000000 M) :
    Keeps M s0 (chunkRead r s) := by
  unfold chunkRead
  with_reducible repeat' first | assumption | exact hM.sub rfl | apply chunkSend_keeps

theorem chunkCopied_keeps {M : Nat} {s0 s : State} (slot : Nat) (r : Rebuild) (data : Bytes) (hs : Keeps M s0 s) (hM : Within 0x20007c5 M) :
    Keeps M s0 (chunkCopied slot r data s) := by
  unfold chunkCopied
  try dsimp only
  with_reducible repeat' first
          | assumption | exact hM.sub rfl | apply putNs_keeps | apply endRebuild_keeps | apply putRebuild_keeps
          | apply chunkSend_keeps | apply chunkRead_keeps | dsimp only | split

theorem chunkFailed_keeps {M : Nat} {s0 s : State} (r : Rebuild) (hs : Keeps M s0 s) (hM : Within 0x20007c5 M) :
    Keeps M s0 (chunkFailed r s) := by
  unfold chunkFailed
  with_reducible repeat' first
          | assumption | exact hM.sub rfl | apply endRebuild_keeps | apply putNsState_keeps

theorem execRebuildChunk_keeps {M : Nat} {s0 s : State} (slot : Fin 8) (res : ChunkResult) (hs : Keeps M s0 s) (hM : Within 0x20007c5 M) :
    KeepsRes M s0 (execRebuildChunk slot res s) := by
  unfold execRebuildChunk
  with_reducible repeat' first
          | assumption | exact hM.sub rfl | apply KeepsRes.next | apply chunkSend_keeps | apply chunkRead_keeps
          | apply chunkCopied_keeps | apply chunkFailed_keeps | split

/-! ### Machine/InstCmds.lean -/

theorem filterLeaf_keeps {M : Nat} {s0 s : State} (l : Nat) (p : Nat → Bool) (hs : Keeps M s0 s) (hM : Within 0x10000 M) :
    Keeps M s0 (filterLeaf l p s) := by
  unfold filterLeaf
  try dsimp only
  with_reducible repeat' first | assumption | exact hM.sub rfl | apply keepFrames_keeps | dsimp only | split

theorem purgeFrame_keeps {M : Nat} {s0 s : State} (f : Nat) (hs : Keeps M s0 s) (hM : Within 0x96000 M) :
    Keeps M s0 (purgeFrame f s) := by
  unfold purgeFrame
  try dsimp only
  with_reducible repeat' first
          | assumption | exact hM.sub rfl | intro _ | apply freeFrame_keeps | apply filterLeaf_keeps | dsimp only
          | apply Keeps.foldl | apply Keeps.foldl_fst | apply Keeps.upd | rfl | exact .inr rfl | exact .inl (hM.sub rfl)

theorem purgeOwn_keeps {M : Nat} {s0 s : State} (f : Nat) (hs : Keeps M s0 s) (hM : Within 0x96004 M) :
    Keeps M s0 (purgeOwn f s) := by
  unfold purgeOwn
  try dsimp only
  with_reducible repeat' first
          | assumption | exact hM.sub rfl | apply addStat_keeps | apply purgeFrame_keeps | dsimp only | split

theorem drainQueue_keeps {M : Nat} {s0 s : State} (fn fq : Nat) (hs : Keeps M s0 s) (hM : Within 0xa09a1c4 M) :
    Keeps M s0 (drainQueue fn fq s) := by
  unfold drainQueue
  try dsimp only
  with_reducible repeat' first
          | assumption | exact hM.sub rfl | apply putQueue_keeps | apply discardEntries_keeps | apply endDisableWaiters_keeps
          | dsimp only | split

theorem dropMessages_keeps {M : Nat} {s0 s : State} (fn i : Nat) (hs : Keeps M s0 s) (hM : Within 0x4 M) :
    Keeps M s0 (dropMessages fn i s) := by
  unfold dropMessages
  try dsimp only
  with_reducible repeat' first
          | assumption | exact hM.sub rfl | intro _ | apply putB_keeps | dsimp only | apply Keeps.foldl

theorem freeAborted_keeps {M : Nat} {s0 s : State} (d : Nat) (hs : Keeps M s0 s) (hM : Within 0x8000000 M) :
    Keeps M s0 (freeAborted d s) := by
  unfold freeAborted
  try dsimp only
  with_reducible repeat' first
          | assumption | exact hM.sub rfl | intro _ | apply freeCg_keeps | dsimp only | apply Keeps.foldl | split

theorem drain_keeps {M : Nat} {s0 s : State} (fn i : Nat) (c : DrainCause) (st : IState) (hs : Keeps M s0 s) (hM : Within 0xa09e5c4 M) :
    Keeps M s0 (drain fn i c st s) := by
  unfold drain
  try dsimp only
  with_reducible repeat' first
          | assumption | exact hM.sub rfl | intro _ | apply advanceRetired_keeps | apply putInst_keeps
          | apply abortGroup_keeps | apply purgeFrame_keeps | apply purgeOwn_keeps | apply drainQueue_keeps
          | apply dropMessages_keeps | apply freeAborted_keeps | dsimp only | apply Keeps.foldl | split

theorem closeEvq_keeps {M : Nat} {s0 s : State} (fn n : Nat) (hs : Keeps M s0 s) (hM : Within 0x2c4 M) :
    Keeps M s0 (closeEvq fn n s) := by
  unfold closeEvq
  try dsimp only
  with_reducible repeat' first
          | assumption | exact hM.sub rfl | apply addErr_keeps | apply putEvq_keeps | dsimp only

theorem mapInts_keeps {M : Nat} {s0 s : State} (fn i : Nat) (g : Word → Word) (hs : Keeps M s0 s) (hM : Within 0x4 M) :
    Keeps M s0 (mapInts fn i g s) := by
  unfold mapInts
  try dsimp only
  with_reducible repeat' first
          | assumption | exact hM.sub rfl | intro _ | apply putReg_keeps | dsimp only | apply Keeps.foldl

theorem closeEvents_keeps {M : Nat} {s0 s : State} (fn i : Nat) (g : Word → Word) (hs : Keeps M s0 s) (hM : Within 0x2c4 M) :
    Keeps M s0 (closeEvents fn i g s) := by
  unfold closeEvents
  try dsimp only
  with_reducible repeat' first
          | assumption | exact hM.sub rfl | intro _ | apply closeEvq_keeps | apply mapInts_keeps | dsimp only
          | apply Keeps.foldl

theorem endDrain_keeps {M : Nat} {s0 s : State} (fn : Fn) (i : Nat) (c : DrainCause) (hs : Keeps M s0 s) (hM : Within 0xa09e7c4 M) :
    Keeps M s0 (endDrain fn i c s) := by
  unfold endDrain
  try dsimp only
  with_reducible repeat' first
          | assumption | exact hM.sub rfl | intro _ | apply putQueue_keeps | apply putInst_keeps | apply finish_keeps
          | apply endDisableWaiters_keeps | apply settleQuiesce_keeps | apply drain_keeps | apply closeEvents_keeps
          | dsimp only | apply Keeps.foldl | apply Keeps.foldl_fst

theorem execDrainComplete_keeps {M : Nat} {s0 s : State} (fn : Fn) (inst : BitVec 10) (hs : Keeps M s0 s) (hM : Within 0xa09e7c4 M) :
    KeepsRes M s0 (execDrainComplete fn inst s) := by
  unfold execDrainComplete
  try dsimp only
  with_reducible repeat' first
          | assumption | exact hM.sub rfl | apply KeepsRes.next | apply drain_keeps | apply endDrain_keeps | dsimp only
          | split

theorem instanceFault_keeps {M : Nat} {s0 s : State} (fn : Fn) (i structure_ : Nat) (arg1 : Word) (hs : Keeps M s0 s) (hM : Within 0xa09e5c4 M) :
    Keeps M s0 (instanceFault fn i structure_ arg1 s) := by
  unfold instanceFault
  try dsimp only
  with_reducible repeat' first
          | assumption | exact hM.sub rfl | apply postInstanceFault_keeps | apply drain_keeps | dsimp only | split

theorem ownerFault_keeps {M : Nat} {s0 s : State} (fn : Fn) (i structure_ off : Nat) (dram : Bool) (block : Nat) (hs : Keeps M s0 s) (hM : Within 0xa09e5c4 M) :
    Keeps M s0 (ownerFault fn i structure_ off dram block s) := by
  unfold ownerFault
  with_reducible repeat' first
          | assumption | exact hM.sub rfl | apply deviceFault_keeps | apply instanceFault_keeps | split

theorem execAdmission_keeps {M : Nat} {s0 s : State} (hs : Keeps M s0 s) (hM : Within 0xa09e5e5 M) :
    KeepsRes M s0 (execAdmission s) := by
  unfold execAdmission
  with_reducible repeat' first
          | assumption | exact hM.sub rfl | apply KeepsRes.next | apply useFree_keeps | apply eccCount_keeps
          | apply admission_keeps | apply ownerFault_keeps | split

theorem markMet_keeps {M : Nat} {s0 s : State} (fn f n : Nat) (e : AdmErr) (hs : Keeps M s0 s) (hM : Within 0x100 M) :
    Keeps M s0 (markMet fn f n e s) := by
  unfold markMet
  try dsimp only
  with_reducible repeat' first
          | assumption | exact hM.sub rfl | apply putQueue_keeps | split

theorem execDescriptorFetch_keeps {M : Nat} {s0 s : State} (fn : Fn) (fq : BitVec 20) (r : Read) (ecc : FetchErr) (hs : Keeps M s0 s) (hM : Within 0xa09e7e5 M) :
    KeepsRes M s0 (execDescriptorFetch fn fq r ecc s) := by
  unfold execDescriptorFetch
  try dsimp only
  with_reducible repeat' first
          | assumption | exact hM.sub rfl | apply KeepsRes.next | apply useFree_keeps | apply eccCount_keeps
          | apply fetchDescriptor_keeps | apply markMet_keeps | apply ownerFault_keeps | dsimp only | split

theorem execConsumerRecordReturn_keeps {M : Nat} {s0 s : State} (fn : Fn) (fevq : BitVec 16) (r : Read × Ecc) (hs : Keeps M s0 s) (hM : Within 0xa0be7e5 M) :
    KeepsRes M s0 (execConsumerRecordReturn fn fevq r s) := by
  unfold execConsumerRecordReturn
  try dsimp only
  with_reducible repeat' first
          | assumption | exact hM.sub rfl | apply KeepsRes.next | apply useFree_keeps | apply eccCount_keeps
          | apply hostReadDone_keeps | apply consumerReturn_keeps | apply ownerFault_keeps | dsimp only | split

theorem execInterruptMessage_keeps {M : Nat} {s0 s : State} (g : BitVec 16 × Ecc) (hs : Keeps M s0 s) (hM : Within 0xa09e7e5 M) :
    KeepsRes M s0 (execInterruptMessage g s) := by
  unfold execInterruptMessage
  try dsimp only
  with_reducible repeat' first
          | assumption | exact hM.sub rfl | apply KeepsRes.next | apply useFree_keeps | apply eccCount_keeps
          | apply sendMessage_keeps | apply ownerFault_keeps | dsimp only | split

theorem execInstEnable_keeps {M : Nat} {s0 s : State} (cq : BitVec 20) (hs : Keeps M s0 s) (hM : Within 0xa09a5c4 M) :
    KeepsRes M s0 (execInstEnable cq s) := by
  unfold execInstEnable
  try dsimp only
  with_reducible repeat' first
          | assumption | exact hM.sub rfl | apply KeepsRes.next | intro _ | apply putInst_keeps | apply issueOwed_keeps
          | apply adminRun_keeps | apply ctlFinish_keeps | dsimp only | apply Keeps.foldl | apply Keeps.foldl_fst | split

theorem execInstDisable_keeps {M : Nat} {s0 s : State} (cq : BitVec 20) (hs : Keeps M s0 s) (hM : Within 0xa09a7c4 M) :
    KeepsRes M s0 (execInstDisable cq s) := by
  unfold execInstDisable
  try dsimp only
  with_reducible repeat' first
          | assumption | exact hM.sub rfl | apply KeepsRes.next | intro _ | apply putInst_keeps | apply adminRun_keeps
          | apply ctlFinish_keeps | apply closeEvents_keeps | dsimp only | split

theorem resetInst_keeps {M : Nat} {s0 s : State} (cq : Nat) (e : Entry) (fn i : Nat) (hs : Keeps M s0 s) (hM : Within 0xa09e5c4 M) :
    Keeps M s0 (resetInst cq e fn i s) := by
  unfold resetInst
  try dsimp only
  with_reducible repeat' first
          | assumption | exact hM.sub rfl | apply putInst_keeps | apply setPhase_keeps | apply drain_keeps | dsimp only

theorem execInstReset_keeps {M : Nat} {s0 s : State} (cq : BitVec 20) (hs : Keeps M s0 s) (hM : Within 0xa09e5c4 M) :
    KeepsRes M s0 (execInstReset cq s) := by
  unfold execInstReset
  try dsimp only
  with_reducible repeat' first
          | assumption | exact hM.sub rfl | apply KeepsRes.next | intro _ | apply adminRun_keeps | apply ctlFinish_keeps
          | apply resetInst_keeps | dsimp only | split

theorem execDlogEpoch_keeps {M : Nat} {s0 s : State} (cq : BitVec 20) (hs : Keeps M s0 s) (hM : Within 0xa09a5c4 M) :
    KeepsRes M s0 (execDlogEpoch cq s) := by
  unfold execDlogEpoch
  try dsimp only
  with_reducible repeat' first
          | assumption | exact hM.sub rfl | apply KeepsRes.next | intro _ | apply putInst_keeps | apply finish_keeps
          | apply adminRun_keeps | apply ctlFinish_keeps | dsimp only | split

theorem clearOutside_keeps {M : Nat} {s0 s : State} (fn n : Nat) (hs : Keeps M s0 s) (hM : Within 0x400 M) :
    Keeps M s0 (clearOutside fn n s) := by
  unfold clearOutside
  try dsimp only
  with_reducible repeat' first
          | assumption | exact hM.sub rfl | dsimp only | split | apply Keeps.upd | rfl | exact .inr rfl
          | exact .inl (hM.sub rfl)

theorem fnShareWrite_keeps {M : Nat} {s0 s : State} (fn : Nat) (v : Word) (hs : Keeps M s0 s) (hM : Within 0x4c4 M) :
    Keeps M s0 (fnShareWrite fn v s) := by
  unfold fnShareWrite
  try dsimp only
  with_reducible repeat' first
          | assumption | exact hM.sub rfl | apply putF_keeps | apply putB_keeps | apply pageChanged_keeps
          | apply clearOutside_keeps | dsimp only | split

theorem execFnShareWrite_keeps {M : Nat} {s0 s : State} (fn : Fn) (v : BitVec 64) (hs : Keeps M s0 s) (hM : Within 0x4c4 M) :
    KeepsRes M s0 (execFnShareWrite fn v s) := by
  unfold execFnShareWrite
  with_reducible repeat' first
          | assumption | exact hM.sub rfl | apply KeepsRes.next | intro _ | apply setupWrite_keeps | apply fnShareWrite_keeps

theorem execInstRegisterWrite_keeps {M : Nat} {s0 s : State} (fn : Fn) (inst : BitVec 10) (wordB : Bool) (v : BitVec 64) (hs : Keeps M s0 s) (hM : Within 0x4c4 M) :
    KeepsRes M s0 (execInstRegisterWrite fn inst wordB v s) := by
  unfold execInstRegisterWrite
  try dsimp only
  with_reducible repeat' first
          | assumption | exact hM.sub rfl | apply KeepsRes.next | intro _ | apply setupWrite_keeps | apply addErr_keeps
          | apply putInst_keeps | dsimp only | split

/-! ### Machine/Boot.lean -/

theorem bootPass_keeps {M : Nat} {s0 s : State} (hs : Keeps M s0 s) (hM : Within 0x4 M) : Keeps M s0 (bootPass s) := by
  unfold bootPass
  with_reducible repeat' first | assumption | exact hM.sub rfl | apply putReg_keeps

theorem bootComplete_keeps {M : Nat} {s0 s : State} (k : BitVec 32) (d : Bytes) (status : Nat) (hs : Keeps M s0 s) (hM : Within 0xcc M) :
    Keeps M s0 (bootComplete k d status s) := by
  unfold bootComplete
  try dsimp only
  with_reducible repeat' first
          | assumption | exact hM.sub rfl | apply signalMsix_keeps | apply hostWrite_keeps | apply bootPass_keeps
          | dsimp only | split | apply Keeps.upd | rfl | exact .inr rfl | exact .inl (hM.sub rfl)

theorem bootTake_keeps {M : Nat} {s0 s : State} (k : BitVec 32) (d : Bytes) (hs : Keeps M s0 s) (hM : Within 0xcc M) :
    Keeps M s0 (bootTake k d s) := by
  unfold bootTake
  try dsimp only
  with_reducible repeat' first
          | assumption | exact hM.sub rfl | apply bootPass_keeps | apply bootComplete_keeps | dsimp only | split
          | apply Keeps.upd | rfl | exact .inr rfl | exact .inl (hM.sub rfl)

theorem execBootDescriptorFetch_keeps {M : Nat} {s0 s : State} (d : Read × Ecc) (hs : Keeps M s0 s) (hM : Within 0xed M) :
    KeepsRes M s0 (execBootDescriptorFetch d s) := by
  unfold execBootDescriptorFetch
  try dsimp only
  with_reducible repeat' first
          | assumption | exact hM.sub rfl | apply KeepsRes.next | apply signalMsix_keeps | apply readFailure_keeps
          | apply dmaFailEntry_keeps | apply hostRead_keeps | apply bootPass_keeps | apply bootTake_keeps | apply eccCount_keeps
          | apply deviceFault_keeps | apply useFree_keeps | dsimp only | split

theorem memFold_wf_keeps {α : Type} (l : List α) (a : α → Nat) (b : Bytes) {m : Memory} (h : Memory.wf m = true) :
    Memory.wf (l.foldl (fun m x => memWrite m (a x) b) m) = true := by
  induction l generalizing m with
  | nil => exact h
  | cons x l ih => exact ih (memWrite_wf h _ _)

theorem loadHk_keeps {M : Nat} {s0 s : State} (h p : Bytes) (hs : Keeps M s0 s) (hM : Within 0x1080008 M) : Keeps M s0 (loadHk h p s) :=
  putThread_keeps _ _ _ (hs.here rfl rfl rfl (fun l => ⟨⟨l.1.1, l.1.2.1, memWrite_wf l.1.2.2.1 _ _, l.1.2.2.2⟩, l.2⟩)
    ⟨List.suffix_rfl, fun p hp => by cases p <;> first | rfl | exact absurd hM.sub (not_within hp)⟩) hM.sub

theorem loadParse_keeps {M : Nat} {s0 s : State} (h p : Bytes) (hs : Keeps M s0 s) (hM : Within 0x4008 M) :
    Keeps M s0 (loadParse h p s) := by
  unfold loadParse
  try dsimp only
  with_reducible repeat' first
          | assumption | exact hM.sub rfl | intro _ | dsimp only | apply Keeps.foldl | apply Keeps.upd | rfl | exact .inr rfl
          | exact .inl (hM.sub rfl)

theorem loadSection_keeps {M : Nat} {s0 s : State} (off c : Nat) (x : Section) (hs : Keeps M s0 s) (hM : Within 0x600000 M) :
    Keeps M s0 (loadSection off c x s) := by
  unfold loadSection
  split
  · exact hs.here rfl rfl rfl id
      ⟨List.suffix_rfl, fun p hp => by cases p <;> first | rfl | exact absurd hM.sub (not_within hp)⟩
  · exact hs.here rfl rfl rfl (fun l => ⟨⟨memFold_wf_keeps _ _ _ l.1.1, l.1.2⟩, l.2⟩)
      ⟨List.suffix_rfl, fun p hp => by cases p <;> first | rfl | exact absurd hM.sub (not_within hp)⟩
  · exact hs

theorem loadCore_keeps {M : Nat} {s0 s : State} (h p : Bytes) (hs : Keeps M s0 s) (hM : Within 0xe92004 M) :
    Keeps M s0 (loadCore h p s) := by
  unfold loadCore
  try dsimp only
  with_reducible repeat' first
          | assumption | exact hM.sub rfl | intro _ | apply putF_keeps | apply putB_keeps | apply freePunts_keeps
          | apply loadSection_keeps | dsimp only | apply Keeps.foldl | apply Keeps.foldl_fst | apply Keeps.cluster | split
          | apply Keeps.upd | rfl | exact .inr rfl | exact .inl (hM.sub rfl)

theorem loadImage_keeps {M : Nat} {s0 s : State} (b : Bytes) (hs : Keeps M s0 s) (hM : Within 0x1e9600c M) :
    Keeps M s0 (loadImage b s) := by
  unfold loadImage
  try dsimp only
  with_reducible repeat' first
          | assumption | exact hM.sub rfl | apply loadHk_keeps | apply loadParse_keeps | apply loadCore_keeps | dsimp only
          | split

theorem readImage_keeps {M : Nat} {s0 s : State} (addr len : Nat) (hs : Keeps M s0 s) (hM : Within 0x80 M) :
    Keeps M s0 (readImage addr len s) := by
  unfold readImage
  try dsimp only
  with_reducible repeat' first
          | assumption | exact hM.sub rfl | intro _ | apply hostRead_keeps | dsimp only | apply Keeps.foldl
          | apply Keeps.foldl_fst

theorem takeImage_keeps {M : Nat} {s0 s : State} (x : BootDesc) (fuse : Bool) (img : Read) (hs : Keeps M s0 s) (hM : Within 0xe5 M) :
    Keeps M s0 (takeImage x fuse img s).1 := by
  unfold takeImage
  try dsimp only
  with_reducible repeat' first
          | assumption | exact hM.sub rfl | apply readFailure_keeps | apply readImage_keeps | dsimp only | split

theorem execBootLoad_keeps {M : Nat} {s0 s : State} (img : Read) (hs : Keeps M s0 s) (hM : Within 0x1e960ed M) :
    KeepsRes M s0 (execBootLoad img s) := by
  unfold execBootLoad
  try dsimp only
  with_reducible repeat' first
          | assumption | exact hM.sub rfl | apply KeepsRes.next | apply bootComplete_keeps | apply loadImage_keeps
          | apply takeImage_keeps | dsimp only | split

theorem execBootFuse_keeps {M : Nat} {s0 s : State} (img : Read) (hs : Keeps M s0 s) (hM : Within 0xed M) :
    KeepsRes M s0 (execBootFuse img s) := by
  unfold execBootFuse
  try dsimp only
  with_reducible repeat' first
          | assumption | exact hM.sub rfl | apply KeepsRes.next | apply bootComplete_keeps | apply takeImage_keeps
          | dsimp only | split | apply Keeps.upd | rfl | exact .inr rfl | exact .inl (hM.sub rfl)

theorem senseProt_keeps {M : Nat} {s0 s : State} (hs : Keeps M s0 s) (hM : Within 0x8 M) : Keeps M s0 (senseProt s) := by
  unfold senseProt
  with_reducible repeat' first
          | assumption | exact hM.sub rfl | apply Keeps.upd | rfl | exact .inr rfl | exact .inl (hM.sub rfl)

theorem endBurn_keeps {M : Nat} {s0 s : State} (status : Nat) (hs : Keeps M s0 s) (hM : Within 0xcc M) :
    Keeps M s0 (endBurn status s) := by
  unfold endBurn
  try dsimp only
  with_reducible repeat' first
          | assumption | exact hM.sub rfl | apply bootComplete_keeps | apply senseProt_keeps | dsimp only | split
          | apply Keeps.upd | rfl | exact .inr rfl | exact .inl (hM.sub rfl)

theorem execFuseLinkBurn_keeps {M : Nat} {s0 s : State} (verified : Bool) (hs : Keeps M s0 s) (hM : Within 0xdc M) :
    KeepsRes M s0 (execFuseLinkBurn verified s) := by
  have k : ∀ l, Keeps M s0 (emit (.fuseBurn l) { s with life := { s.life with fuses := burnLink l s.life.fuses } }) :=
    fun l => emit_keeps _ (hs.here rfl rfl rfl id
      ⟨List.suffix_rfl, fun p hp => by cases p <;> first | rfl | exact absurd hM.sub (not_within hp)⟩)
  unfold execFuseLinkBurn
  split
  · exact .next hs
  · split
    · exact .next (endBurn_keeps _ hs hM.sub)
    · split
      · exact .next (endBurn_keeps _ hs hM.sub)
      · dsimp only
        split
        · exact .next (endBurn_keeps _ (k _) hM.sub)
        · exact .next (Life_upd_keeps _ (k _) hM.sub rfl rfl id)

theorem execStage3Entry_advances {M : Nat} (s : State) (hM : Within 0x4cc M) : AdvancesRes M s (execStage3Entry s) := by
  unfold execStage3Entry
  split
  · rename_i c
    dsimp only
    split
    · refine .next (Advances.keeps (s := { s with life := { s.life with goPending := false, stage := 3 } })
        ⟨rfl, rfl, .inr (.inl (by simp [c.1])), fun l => ⟨l.1, fun _ => l.2.1 (by simp [c.1]), fun k => ?_, fun _ =>
          l.2.2.2 (by simp [c.1])⟩, .inr ⟨List.suffix_rfl, fun p hp => ?_⟩⟩
        (putInst_keeps _ _ _ (pagesStage_keeps (Keeps.refl _ _) hM.sub) hM.sub))
      · have := l.2.2.1 k; simp [c.1] at this
      · cases p <;> first | rfl | exact absurd hM.sub (not_within hp)
    · exact .next (Keeps.advances (putB_keeps _ _ _ (Life_upd_keeps _ (Keeps.refl _ s) hM.sub rfl rfl id) hM.sub))
  · exact .next (Keeps.refl _ s).advances

end Sys2Proof.Machine
end

