-- ==== Sys2Proof/Laws/KeepsPorts.lean ====
section
/-! SUPPORT. The operations and commands of the network and plant sides, traffic, the host link, Clove time, windows and register writes: each keeps what `Keeps` says. -/
set_option Elab.async false
namespace Sys2Proof.Machine

/-! ### Machine/Net.lean -/

theorem npModeWrite_keeps {M : Nat} {s0 s : State} (v : Word) (hs : Keeps M s0 s) (hM : Within 0x4 M) :
    Keeps M s0 (npModeWrite v s) := by
  unfold npModeWrite
  try dsimp only
  with_reducible repeat' first
          | assumption | exact hM.sub rfl | apply putF_keeps | apply putB_keeps | dsimp only | split

theorem execNpModeWrite_keeps {M : Nat} {s0 s : State} (v : BitVec 64) (hs : Keeps M s0 s) (hM : Within 0x84 M) :
    KeepsRes M s0 (execNpModeWrite v s) := by
  unfold execNpModeWrite
  with_reducible repeat' first
          | assumption | exact hM.sub rfl | apply KeepsRes.next | intro _ | apply setupWrite_keeps | apply npModeWrite_keeps

theorem releasePfc_keeps {M : Nat} {s0 s : State} (n : Nat) (hs : Keeps M s0 s) (hM : Within 0x4 M) :
    Keeps M s0 (releasePfc n s) := by
  unfold releasePfc
  with_reducible repeat' first | assumption | exact hM.sub rfl | apply putF_keeps

theorem reservePrio_keeps {M : Nat} {s0 s : State} (n h k : Nat) (hs : Keeps M s0 s) (hM : Within 0x4 M) :
    Keeps M s0 (reservePrio n h k s) := by
  unfold reservePrio
  with_reducible repeat' first | assumption | exact hM.sub rfl | apply putF_keeps | apply putB_keeps | split

theorem reservePfc_keeps {M : Nat} {s0 s : State} (n : Nat) (hs : Keeps M s0 s) (hM : Within 0x4 M) :
    Keeps M s0 (reservePfc n s) := by
  unfold reservePfc
  try dsimp only
  with_reducible repeat' first
          | assumption | exact hM.sub rfl | intro _ | apply putF_keeps | apply releasePfc_keeps | apply reservePrio_keeps
          | dsimp only | apply Keeps.foldl | split

theorem execNetworkLinkUp_keeps {M : Nat} {s0 s : State} (port : NPort) (hs : Keeps M s0 s) (hM : Within 0xc4 M) :
    KeepsRes M s0 (execNetworkLinkUp port s) := by
  unfold execNetworkLinkUp
  try dsimp only
  with_reducible repeat' first
          | assumption | exact hM.sub rfl | apply KeepsRes.next | apply putB_keeps | apply pageChanged_keeps
          | apply reservePfc_keeps | dsimp only | split

theorem netDown_keeps {M : Nat} {s0 s : State} (n : Nat) (hs : Keeps M s0 s) (hM : Within 0xc4 M) :
    Keeps M s0 (netDown n s) := by
  unfold netDown
  with_reducible repeat' first
          | assumption | exact hM.sub rfl | apply putB_keeps | apply pageChanged_keeps | apply releasePfc_keeps | split

theorem execNetworkLinkDown_keeps {M : Nat} {s0 s : State} (port : NPort) (hs : Keeps M s0 s) (hM : Within 0xc4 M) :
    KeepsRes M s0 (execNetworkLinkDown port s) := by
  unfold execNetworkLinkDown
  with_reducible repeat' first | assumption | exact hM.sub rfl | apply KeepsRes.next | apply netDown_keeps

theorem addFrame_keeps {M : Nat} {s0 s : State} (x : Frame) (hs : Keeps M s0 s) (hM : Within 0x2000 M) :
    Keeps M s0 (addFrame x s).1 := by
  unfold addFrame
  try dsimp only
  with_reducible repeat' first
          | assumption | exact hM.sub rfl | apply putFrame_keeps | dsimp only | apply Keeps.upd | rfl | exact .inr rfl
          | exact .inl (hM.sub rfl)

theorem queueFrame_keeps {M : Nat} {s0 s : State} (pl src f : Nat) (hs : Keeps M s0 s) (hM : Within 0x4000 M) :
    Keeps M s0 (queueFrame pl src f s) := by
  unfold queueFrame
  try dsimp only
  with_reducible repeat' first | assumption | exact hM.sub rfl | apply putSrc_keeps | dsimp only

theorem netReceive_keeps {M : Nat} {s0 s : State} (n : Nat) (bytes : Bytes) (fcsOk overflow : Bool) (fec : Nat × Nat) (cyc : Nat) (hs : Keeps M s0 s) (hM : Within 0x160c4 M) :
    Keeps M s0 (netReceive n bytes fcsOk overflow fec cyc s) := by
  unfold netReceive
  try dsimp only
  with_reducible repeat' first
          | assumption | exact hM.sub rfl | apply addStat_keeps | apply addErr_keeps | apply admitIngress_keeps
          | apply addFrame_keeps | apply queueFrame_keeps | dsimp only | split

theorem execNetworkFrameReceive_keeps {M : Nat} {s0 s : State} (port : NPort) (frame : Bytes) (fcsOk : Bool × BitVec 16 × BitVec 16) (overflow : Bool) (cyc : Cyc) (hs : Keeps M s0 s) (hM : Within 0x160c4 M) :
    KeepsRes M s0 (execNetworkFrameReceive port frame fcsOk overflow cyc s) := by
  unfold execNetworkFrameReceive
  try dsimp only
  with_reducible repeat' first
          | assumption | exact hM.sub rfl | apply KeepsRes.next | apply netReceive_keeps | dsimp only

theorem dealFrame_keeps {M : Nat} {s0 s : State} (pl src f u : Nat) (hs : Keeps M s0 s) (hM : Within 0x6004 M) :
    Keeps M s0 (dealFrame pl src f u s) := by
  unfold dealFrame
  try dsimp only
  with_reducible repeat' first
          | assumption | exact hM.sub rfl | apply addStat_keeps | apply putFrame_keeps | apply putUnit_keeps
          | apply putSrc_keeps | dsimp only | split

theorem deal_keeps {M : Nat} {s0 s : State} (pl : Nat) (hs : Keeps M s0 s) (hM : Within 0x6004 M) :
    Keeps M s0 (deal pl s) := by
  unfold deal
  try dsimp only
  with_reducible repeat' first
          | assumption | exact hM.sub rfl | apply putPipe_keeps | apply dealFrame_keeps | dsimp only | split

theorem execDeal_keeps {M : Nat} {s0 s : State} (pl : BulkPl) (hs : Keeps M s0 s) (hM : Within 0x6004 M) :
    KeepsRes M s0 (execDeal pl s) := by
  unfold execDeal
  with_reducible repeat' first | assumption | exact hM.sub rfl | apply KeepsRes.next | apply deal_keeps

theorem malformedAction_keeps {M : Nat} {s0 s : State} (pl f reason : Nat) (hs : Keeps M s0 s) (hM : Within 0x19e0c5 M) :
    Keeps M s0 (malformedAction pl f reason s) := by
  unfold malformedAction
  try dsimp only
  with_reducible repeat' first
          | assumption | exact hM.sub rfl | apply addErr_keeps | apply putFrame_keeps | apply advanceRetired_keeps
          | apply freeFrame_keeps | apply enqueueOrDrop_keeps | apply withdrawDebits_keeps | apply leaveChain_keeps
          | apply puntFrame_keeps | dsimp only | split

theorem joinChain_keeps {M : Nat} {s0 s : State} (pl dest src f : Nat) (hs : Keeps M s0 s) (hM : Within 0x4000 M) :
    Keeps M s0 (joinChain pl dest src f s) := by
  unfold joinChain
  try dsimp only
  with_reducible repeat' first | assumption | exact hM.sub rfl | apply putPipe_keeps | dsimp only | split

theorem lastPass_keeps {M : Nat} {s0 s : State} (pl f : Nat) (x : Frame) (hs : Keeps M s0 s) (hM : Within 0xa004 M) :
    Keeps M s0 (lastPass pl f x s) := by
  unfold lastPass
  with_reducible repeat' first
          | assumption | exact hM.sub rfl | apply putFrame_keeps | apply advanceRetired_keeps | apply requestLearn_keeps

theorem dropAtEnd_keeps {M : Nat} {s0 s : State} (pl f : Nat) (x : Frame) (hs : Keeps M s0 s) (hM : Within 0x1e004 M) :
    Keeps M s0 (dropAtEnd pl f x s) := by
  unfold dropAtEnd
  with_reducible repeat' first
          | assumption | exact hM.sub rfl | apply advanceRetired_keeps | apply freeFrame_keeps | apply applyCounts_keeps
          | apply requestLearn_keeps | apply leaveChain_keeps

theorem chainEnd_keeps {M : Nat} {s0 s : State} (pl f : Nat) (x : Frame) (hs : Keeps M s0 s) (hM : Within 0x19e0c5 M) :
    Keeps M s0 (chainEnd pl f x s) := by
  unfold chainEnd
  try dsimp only
  with_reducible repeat' first
          | assumption | exact hM.sub rfl | apply addStat_keeps | apply addErr_keeps | apply putFrame_keeps
          | apply mirrorCopies_keeps | apply malformedAction_keeps | apply lastPass_keeps | apply dropAtEnd_keeps
          | dsimp only | split

theorem enterChain_keeps {M : Nat} {s0 s : State} (pl src f : Nat) (x : Frame) (hs : Keeps M s0 s) (hM : Within 0x19e0c5 M) :
    Keeps M s0 (enterChain pl src f x s) := by
  unfold enterChain
  try dsimp only
  with_reducible repeat' first
          | assumption | exact hM.sub rfl | apply putFrame_keeps | apply joinChain_keeps | apply chainEnd_keeps | dsimp only
          | split

theorem reorderRelease_keeps {M : Nat} {s0 s : State} (pl src : Nat) (hs : Keeps M s0 s) (hM : Within 0x19e0c5 M) :
    Keeps M s0 (reorderRelease pl src s) := by
  unfold reorderRelease
  try dsimp only
  with_reducible repeat' first
          | assumption | exact hM.sub rfl | apply addErr_keeps | apply putSrc_keeps | apply advanceRetired_keeps
          | apply freeFrame_keeps | apply malformedAction_keeps | apply enterChain_keeps | dsimp only | split

theorem execReorderRelease_keeps {M : Nat} {s0 s : State} (pl : BulkPl) (src : Source × Ecc) (hs : Keeps M s0 s) (hM : Within 0x19e0e5 M) :
    KeepsRes M s0 (execReorderRelease pl src s) := by
  unfold execReorderRelease
  with_reducible repeat' first
          | assumption | exact hM.sub rfl | apply KeepsRes.next | apply eccCount_keeps | apply deviceFault_keeps
          | apply reorderRelease_keeps | split

theorem stageLookup_keeps {M : Nat} {s0 s : State} (pl st : Nat) (bad : Bool) (x : Frame) (hs : Keeps M s0 s) (hM : Within 0x87c5 M) :
    Keeps M s0 (stageLookup pl st bad x s).1 := by
  unfold stageLookup
  try dsimp only
  with_reducible repeat' first
          | assumption | exact hM.sub rfl | apply juniperFault_keeps | apply lookupError_keeps | dsimp only | split

theorem meterError_keeps {M : Nat} {s0 s : State} (a : Bytes) (err : ClassErr) (hs : Keeps M s0 s) (hM : Within 0x100e5 M) :
    Keeps M s0 (meterError a err s) := by
  unfold meterError
  try dsimp only
  with_reducible repeat' first
          | assumption | exact hM.sub rfl | apply arrayError_keeps | apply putMeter_keeps | apply tokenResidue_keeps
          | dsimp only | split

theorem stageRun_keeps {M : Nat} {s0 s : State} (pl st f : Nat) (err : ClassErr) (x : Frame) (hs : Keeps M s0 s) (hM : Within 0x19e7e5 M) :
    Keeps M s0 (stageRun pl st f err x s) := by
  unfold stageRun
  try dsimp only
  with_reducible repeat' first
          | assumption | exact hM.sub rfl | apply arrayError_keeps | apply putFrame_keeps | apply applyAction_keeps
          | apply tokenResidue_keeps | apply chainEnd_keeps | apply stageLookup_keeps | apply meterError_keeps | dsimp only
          | split

theorem keyMismatch_keeps {M : Nat} {s0 s : State} (pl f : Nat) (x : Frame) (hs : Keeps M s0 s) (hM : Within 0x20e5 M) :
    Keeps M s0 (keyMismatch pl f x s).1 := by
  unfold keyMismatch
  try dsimp only
  with_reducible repeat' first
          | assumption | exact hM.sub rfl | apply addErr_keeps | apply correctable_keeps | apply putFrame_keeps | dsimp only

theorem keyMalformed_keeps {M : Nat} {s0 s : State} (pl f : Nat) (x : Frame) (hs : Keeps M s0 s) (hM : Within 0x19e0e5 M) :
    Keeps M s0 (keyMalformed pl f x s) := by
  unfold keyMalformed
  with_reducible repeat' first
          | assumption | exact hM.sub rfl | apply correctable_keeps | apply mirrorCopies_keeps | apply malformedAction_keeps

theorem classifyStage_keeps {M : Nat} {s0 s : State} (pl f : Nat) (err : ClassErr) (hs : Keeps M s0 s) (hM : Within 0x19e7e5 M) :
    Keeps M s0 (classifyStage pl f err s) := by
  unfold classifyStage
  try dsimp only
  with_reducible repeat' first
          | assumption | exact hM.sub rfl | apply eccCount_keeps | apply stageRun_keeps | apply keyMismatch_keeps
          | apply keyMalformed_keeps | dsimp only | split

theorem execClassifyStage_keeps {M : Nat} {s0 s : State} (pl : BulkPl) (frame : Nat) (err : ClassErr) (hs : Keeps M s0 s) (hM : Within 0x19e7e5 M) :
    KeepsRes M s0 (execClassifyStage pl frame err s) := by
  unfold execClassifyStage
  with_reducible repeat' first
          | assumption | exact hM.sub rfl | apply KeepsRes.next | apply classifyStage_keeps

theorem recirculate_keeps {M : Nat} {s0 s : State} (pl f : Nat) (x : Frame) (hs : Keeps M s0 s) (hM : Within 0x16004 M) :
    Keeps M s0 (recirculate pl f x s) := by
  unfold recirculate
  try dsimp only
  with_reducible repeat' first
          | assumption | exact hM.sub rfl | apply addStat_keeps | apply putFrame_keeps | apply recount_keeps
          | apply leaveChain_keeps | apply queueFrame_keeps | dsimp only

theorem forwardEdited_keeps {M : Nat} {s0 s : State} (pl f leaf : Nat) (x0 x : Frame) (hs : Keeps M s0 s) (hM : Within 0x101de7c5 M) :
    Keeps M s0 (forwardEdited pl f leaf x0 x s) := by
  unfold forwardEdited
  try dsimp only
  with_reducible repeat' first
          | assumption | exact hM.sub rfl | apply putFrame_keeps | apply freeFrame_keeps | apply enqueueOrDrop_keeps
          | apply applyCounts_keeps | apply requestLearn_keeps | apply leaveChain_keeps | apply applyCtx_keeps
          | apply malformedAction_keeps | apply recirculate_keeps | dsimp only | split

theorem edited_keeps {M : Nat} {s0 s : State} (pl f : Nat) (x y : Frame) (d : Disp) (hs : Keeps M s0 s) (hM : Within 0x101de7c5 M) :
    Keeps M s0 (match d with
      | .forward l => forwardEdited pl f l.toNat x y s
      | .through l => forwardEdited pl f l.toNat x y s
      | .recirc => recirculate pl f y (applyCounts x s)
      | .punt c m =>
        let s := recount f (putFrame f { y with counts := [], debits := [] } (applyCounts x (leaveChain pl f s)))
        let r := puntFrame c.toNat m.toNat f 0 s
        if r.2 then r.1 else freeFrame f r.1
      | _ => s) := by
  have k : ∀ c m (u : State), Keeps M s0 u → Keeps M s0 (if (puntFrame c m f 0 u).2 = true then (puntFrame c m f 0 u).1
      else freeFrame f (puntFrame c m f 0 u).1) := fun c m u hu => by
    split
    · exact puntFrame_keeps _ _ _ _ hu hM.sub
    · exact freeFrame_keeps _ (puntFrame_keeps _ _ _ _ hu hM.sub) hM.sub
  cases d with
  | forward l => exact forwardEdited_keeps _ _ _ _ _ hs hM.sub
  | through l => exact forwardEdited_keeps _ _ _ _ _ hs hM.sub
  | recirc => exact recirculate_keeps _ _ _ (applyCounts_keeps _ hs hM.sub) hM.sub
  | punt c m => exact k _ _ _ (recount_keeps _ (putFrame_keeps _ _ (applyCounts_keeps _ (leaveChain_keeps _ _ hs hM.sub) hM.sub) hM.sub) hM.sub)
  | _ => exact hs

theorem headerEdit_keeps {M : Nat} {s0 s : State} (pl f : Nat) (hs : Keeps M s0 s) (hM : Within 0x101de7c5 M) : Keeps M s0 (headerEdit pl f s) := by
  unfold headerEdit
  split
  · exact hs
  · split
    · exact hs
    · split
      · exact malformedAction_keeps _ _ _ hs hM.sub
      · exact advanceRetired_keeps _ (edited_keeps _ _ _ _ _ hs hM.sub) hM.sub

theorem editUnread_keeps {M : Nat} {s0 s : State} (pl f : Nat) (hs : Keeps M s0 s) (hM : Within 0x1e0c4 M) :
    Keeps M s0 (editUnread pl f s) := by
  unfold editUnread
  try dsimp only
  with_reducible repeat' first
          | assumption | exact hM.sub rfl | apply addStat_keeps | apply arrayError_keeps | apply advanceRetired_keeps
          | apply freeFrame_keeps | apply applyCounts_keeps | apply requestLearn_keeps | apply leaveChain_keeps | dsimp only
          | split

theorem execHeaderEdit_keeps {M : Nat} {s0 s : State} (pl : BulkPl) (frame : Nat × Ecc) (hs : Keeps M s0 s) (hM : Within 0x101de7e5 M) :
    KeepsRes M s0 (execHeaderEdit pl frame s) := by
  unfold execHeaderEdit
  with_reducible repeat' first
          | assumption | exact hM.sub rfl | apply KeepsRes.next | apply eccCount_keeps | apply headerEdit_keeps
          | apply editUnread_keeps | split

/-! ### Machine/PlantOps.lean -/

theorem putSched_keeps {M : Nat} {s0 s : State} (n : Nat) (x : Sched) (hs : Keeps M s0 s) (hM : Within 0x20000 M) :
    Keeps M s0 (putSched n x s) := by
  unfold putSched
  try dsimp only
  with_reducible repeat' first
          | assumption | exact hM.sub rfl | dsimp only | apply Keeps.upd | rfl | exact .inr rfl | exact .inl (hM.sub rfl)

theorem putPair_keeps {M : Nat} {s0 s : State} (p : Nat) (x : PairSt) (hs : Keeps M s0 s) (hM : Within 0x200c0 M) :
    Keeps M s0 (putPair p x s) := by
  unfold putPair
  with_reducible repeat' first
          | assumption | exact hM.sub rfl | apply pageIf_keeps | apply Keeps.upd | rfl | exact .inr rfl
          | exact .inl (hM.sub rfl)

theorem pairResult_keeps {M : Nat} {s0 s : State} (p r : Nat) (hs : Keeps M s0 s) (hM : Within 0x4 M) :
    Keeps M s0 (pairResult p r s) := by
  unfold pairResult
  with_reducible repeat' first | assumption | exact hM.sub rfl | apply putF_keeps

theorem pairEvent_keeps {M : Nat} {s0 s : State} (code p result : Nat) (c : Clock) (hs : Keeps M s0 s) (hM : Within 0x7c5 M) :
    Keeps M s0 (pairEvent code p result c s) := by
  unfold pairEvent
  with_reducible repeat' first | assumption | exact hM.sub rfl | apply postEvent_keeps

theorem endSending_keeps {M : Nat} {s0 s : State} (port : Nat) (hs : Keeps M s0 s) (hM : Within 0x32000 M) :
    Keeps M s0 (endSending port s) := by
  unfold endSending
  with_reducible repeat' first
          | assumption | exact hM.sub rfl | apply freeFrame_keeps | split | apply Keeps.upd | rfl | exact .inr rfl
          | exact .inl (hM.sub rfl)

theorem freeArrived_keeps {M : Nat} {s0 s : State} (p : Nat) (hs : Keeps M s0 s) (hM : Within 0x12000 M) :
    Keeps M s0 (freeArrived p s) := by
  unfold freeArrived
  try dsimp only
  with_reducible repeat' first
          | assumption | exact hM.sub rfl | intro _ | apply freeFrame_keeps | apply keepFrames_keeps | dsimp only
          | apply Keeps.foldl | apply Keeps.foldl_fst | split

theorem bypassPair_keeps {M : Nat} {s0 s : State} (p result : Nat) (c : Clock) (hs : Keeps M s0 s) (hM : Within 0x327c5 M) :
    Keeps M s0 (bypassPair p result c s) := by
  unfold bypassPair
  try dsimp only
  with_reducible repeat' first
          | assumption | exact hM.sub rfl | intro _ | apply freeFrame_keeps | apply cutPair_keeps | apply putPair_keeps
          | apply pairResult_keeps | apply pairEvent_keeps | apply freeArrived_keeps | dsimp only | apply Keeps.foldl | split
          | apply Keeps.upd | rfl | exact .inr rfl | exact .inl (hM.sub rfl)

theorem unarm_keeps {M : Nat} {s0 s : State} (p result : Nat) (hs : Keeps M s0 s) (hM : Within 0x200c4 M) :
    Keeps M s0 (unarm p result s) := by
  unfold unarm
  with_reducible repeat' first
          | assumption | exact hM.sub rfl | apply putPair_keeps | apply pairResult_keeps | split

theorem putImage_keeps {M : Nat} {s0 s : State} (i : Nat) (x : Image) (hs : Keeps M s0 s) (hM : Within 0x20000 M) :
    Keeps M s0 (putImage i x s) := by
  unfold putImage
  try dsimp only
  with_reducible repeat' first
          | assumption | exact hM.sub rfl | dsimp only | apply Keeps.upd | rfl | exact .inr rfl | exact .inl (hM.sub rfl)

theorem recheckArmed_keeps {M : Nat} {s0 s : State} (hs : Keeps M s0 s) (hM : Within 0x200c4 M) :
    Keeps M s0 (recheckArmed s) := by
  unfold recheckArmed
  try dsimp only
  with_reducible repeat' first
          | assumption | exact hM.sub rfl | intro _ | apply unarm_keeps | dsimp only | apply Keeps.foldl | split

theorem plantDeal_keeps {M : Nat} {s0 s : State} (fuel : Nat) (h : Keeps M s0 s) (hM : Within 0x6004 M) : Keeps M s0 (plantDeal fuel s) := by
  induction fuel generalizing s with
  | zero => exact h
  | succ n ih =>
    unfold plantDeal
    dsimp only
    split
    · split
      · exact ih (dealFrame_keeps _ _ _ _ (putPipe_keeps _ _ h hM.sub) hM.sub)
      · exact h
    · exact h

theorem writeBack_keeps {M : Nat} {s0 s : State} (i off : Nat) (b : Bytes) (hs : Keeps M s0 s) (hM : Within 0x10000000 M) :
    Keeps M s0 (writeBack i off b s) := by
  unfold writeBack
  with_reducible repeat' first
          | assumption | exact hM.sub rfl | apply Keeps.dram | apply Keeps.upd | rfl | exact .inr rfl
          | exact .inl (hM.sub rfl)

/-! ### Machine/Traffic.lean -/

theorem txBuild_keeps {M : Nat} {s0 s : State} (fn fq : Nat) (d b : Bytes) (hs : Keeps M s0 s) (hM : Within 0x100407c5 M) :
    Keeps M s0 (txBuild fn fq d b s).1 := by
  unfold txBuild
  try dsimp only
  with_reducible repeat' first | assumption | exact hM.sub rfl | apply transform_keeps | dsimp only | split

theorem hostFrame_keeps {M : Nat} {s0 s : State} (fn fq : Nat) (e : Entry) (b : Bytes) (pl : Nat) (launch : Option Word) (buf : Nat) (hs : Keeps M s0 s) (hM : Within 0x2000 M) :
    Keeps M s0 (hostFrame fn fq e b pl launch buf s).1 := by
  unfold hostFrame
  try dsimp only
  with_reducible repeat' first | assumption | exact hM.sub rfl | apply addFrame_keeps | dsimp only

theorem freshBuf_keeps {M : Nat} {s0 s : State} (len : Nat) (hs : Keeps M s0 s) (hM : Within 0x10000 M) :
    Keeps M s0 (freshBuf len s) := by
  unfold freshBuf
  with_reducible repeat' first | assumption | exact hM.sub rfl | apply newBuf_keeps

theorem holdTx_keeps {M : Nat} {s0 s : State} (fn fq : Nat) (e : Entry) (b : Bytes) (hs : Keeps M s0 s) (hM : Within 0x100 M) : Keeps M s0 (holdTx fn fq e b s) := putQueue_keeps _ _ _ hs hM.sub

theorem txAdmit_keeps {M : Nat} {s0 u s : State} (fn fq : Nat) (e : Entry) (l f : Nat) (b : Bytes) (hu : Keeps M s0 u) (hs : Keeps M s0 s) (hM : Within 0xa09a1c5 M) :
    Keeps M s0 (txAdmit fn fq e l f b u s) := by
  unfold txAdmit
  dsimp only
  repeat' first
          | with_reducible assumption | with_reducible exact hM.sub rfl | with_reducible apply putQueue_keeps | with_reducible apply stageMember_keeps
          | with_reducible apply putFrame_keeps | with_reducible apply holdTx_keeps | with_reducible apply finish_keeps
          | with_reducible apply freeFrame_keeps | with_reducible apply admitMember_keeps
          | with_reducible apply enqueueFrame_keeps | split

theorem txOffer_keeps {M : Nat} {s0 s : State} (fn : Fn) (fq : Nat) (launch : Bool) (e : Entry) (b : Bytes) (hs : Keeps M s0 s)
    (hM : Within 0xa09a1c5 M) : Keeps M s0 (txOffer fn fq launch e b s) :=
  txAdmit_keeps _ _ _ _ _ _ hs (hostFrame_keeps _ _ _ _ _ _ _ (freshBuf_keeps _ hs hM.sub) hM.sub) hM.sub

theorem txRun_keeps {M : Nat} {s0 s : State} (fn : Fn) (fq : Nat) (launch : Bool) (r : Read) (e : Entry) (hs : Keeps M s0 s) (hM : Within 0x1a0da7e5 M) :
    Keeps M s0 (txRun fn fq launch r e s) := by
  unfold txRun
  try dsimp only
  with_reducible repeat' first
          | assumption | exact hM.sub rfl | intro _ | apply readFailure_keeps | apply entryRead_keeps | apply finish_keeps
          | apply txBuild_keeps | apply txOffer_keeps | dsimp only | apply Keeps.foldl | apply Keeps.foldl_fst | split

theorem execTxSend_keeps {M : Nat} {s0 s : State} (fn : Fn) (fq : BitVec 20) (r : Read) (hs : Keeps M s0 s) (hM : Within 0x1a0da7e5 M) :
    KeepsRes M s0 (execTxSend fn fq r s) := by
  unfold execTxSend
  try dsimp only
  with_reducible repeat' first
          | assumption | exact hM.sub rfl | apply KeepsRes.next | intro _ | apply nextEntry_keeps | apply txRun_keeps
          | dsimp only

theorem execTxLaunch_keeps {M : Nat} {s0 s : State} (fn : Fn) (fq : BitVec 20) (r : Read) (hs : Keeps M s0 s) (hM : Within 0x1a0da7e5 M) :
    KeepsRes M s0 (execTxLaunch fn fq r s) := by
  unfold execTxLaunch
  try dsimp only
  with_reducible repeat' first
          | assumption | exact hM.sub rfl | apply KeepsRes.next | intro _ | apply nextEntry_keeps | apply txRun_keeps
          | dsimp only

theorem txPipeRun_keeps {M : Nat} {s0 s : State} (fn : Fn) (fq : Nat) (r : Read) (e : Entry) (hs : Keeps M s0 s) (hM : Within 0xa09e1e5 M) :
    Keeps M s0 (txPipeRun fn fq r e s) := by
  unfold txPipeRun
  try dsimp only
  with_reducible repeat' first
          | assumption | exact hM.sub rfl | apply readFailure_keeps | apply putFrame_keeps | apply admitIngress_keeps
          | apply entryRead_keeps | apply finish_keeps | apply queueFrame_keeps | apply hostFrame_keeps | dsimp only | split

theorem execTxPipe_keeps {M : Nat} {s0 s : State} (fn : Fn) (fq : BitVec 20) (r : Read) (hs : Keeps M s0 s) (hM : Within 0xa09e1e5 M) :
    KeepsRes M s0 (execTxPipe fn fq r s) := by
  unfold execTxPipe
  try dsimp only
  with_reducible repeat' first
          | assumption | exact hM.sub rfl | apply KeepsRes.next | intro _ | apply nextEntry_keeps | apply txPipeRun_keeps
          | dsimp only

theorem execRxBuf_keeps {M : Nat} {s0 s : State} (fn : Fn) (fq : BitVec 20) (hs : Keeps M s0 s) (hM : Within 0xa09a1c4 M) :
    KeepsRes M s0 (execRxBuf fn fq s) := by
  unfold execRxBuf
  try dsimp only
  with_reducible repeat' first
          | assumption | exact hM.sub rfl | apply KeepsRes.next | intro _ | apply setPhase_keeps | apply nextEntry_keeps
          | dsimp only

theorem putDelivering_keeps {M : Nat} {s0 s : State} (k : Nat) (l : List Nat) (hs : Keeps M s0 s) (hM : Within 0x10000 M) :
    Keeps M s0 (putDelivering k l s) := by
  unfold putDelivering
  try dsimp only
  with_reducible repeat' first
          | assumption | exact hM.sub rfl | dsimp only | apply Keeps.upd | rfl | exact .inr rfl | exact .inl (hM.sub rfl)

theorem rxDeliver_keeps {M : Nat} {s0 s : State} (fn : Fn) (fq : Nat) (ecc : Ecc) (hs : Keeps M s0 s) (hM : Within 0xa09a5e5 M) :
    Keeps M s0 (rxDeliver fn fq ecc s) := by
  unfold rxDeliver
  try dsimp only
  with_reducible repeat' first
          | assumption | exact hM.sub rfl | apply useFree_keeps | apply addErr_keeps | apply eccCount_keeps
          | apply arrayError_keeps | apply freeFrame_keeps | apply instWrite_keeps | apply finish_keeps
          | apply putDelivering_keeps | dsimp only | split | refine Keeps.fst_eq (by assumption) ?_

theorem execRxDeliver_keeps {M : Nat} {s0 s : State} (fn : Fn) (fq : BitVec 20) (ecc : Ecc) (hs : Keeps M s0 s) (hM : Within 0xa09a5e5 M) :
    KeepsRes M s0 (execRxDeliver fn fq ecc s) := by
  unfold execRxDeliver
  with_reducible repeat' first | assumption | exact hM.sub rfl | apply KeepsRes.next | apply rxDeliver_keeps

theorem settleReturns_keeps {M : Nat} {s0 s : State} (hs : Keeps M s0 s) (hM : Within 0x10000 M) :
    Keeps M s0 (settleReturns s) := by
  unfold settleReturns
  try dsimp only
  with_reducible repeat' first
          | assumption | exact hM.sub rfl | dsimp only | split | apply Keeps.upd | rfl | exact .inr rfl
          | exact .inl (hM.sub rfl)

theorem bringBack_keeps {M : Nat} {s0 s : State} (f : Nat) (hs : Keeps M s0 s) (hM : Within 0x10000 M) :
    Keeps M s0 (bringBack f s) := by
  unfold bringBack
  with_reducible repeat' first | assumption | exact hM.sub rfl | apply putBuf_keeps | split

theorem loseSpilled_keeps {M : Nat} {s0 s : State} (l f : Nat) (hs : Keeps M s0 s) (hM : Within 0x120c5 M) :
    Keeps M s0 (loseSpilled l f s) := by
  unfold loseSpilled
  with_reducible repeat' first
          | assumption | exact hM.sub rfl | apply useFree_keeps | apply arrayError_keeps | apply freeFrame_keeps
          | apply keepFrames_keeps

theorem execSpillReturn_keeps {M : Nat} {s0 s : State} (leaf : BitVec 20 × Ecc) (hs : Keeps M s0 s) (hM : Within 0x120e5 M) :
    KeepsRes M s0 (execSpillReturn leaf s) := by
  unfold execSpillReturn
  with_reducible repeat' first
          | assumption | exact hM.sub rfl | apply KeepsRes.next | apply eccCount_keeps | apply settleReturns_keeps
          | apply bringBack_keeps | apply loseSpilled_keeps | split

theorem dwrrPick_keeps {M : Nat} {s0 s : State} (k : Nat) (cs : List Nat) (weight : Nat → Nat) (hs : Keeps M s0 s) (hM : Within 0x10000 M) :
    Keeps M s0 (dwrrPick k cs weight s).1 := by
  unfold dwrrPick
  try dsimp only
  with_reducible repeat' first | assumption | exact hM.sub rfl | apply putDwrr_keeps | dsimp only

theorem rrPick_keeps {M : Nat} {s0 s : State} (k : Nat) (cs : List Nat) (hs : Keeps M s0 s) (hM : Within 0x10000 M) :
    Keeps M s0 (rrPick k cs s).1 := by
  unfold rrPick
  try dsimp only
  with_reducible repeat' first | assumption | exact hM.sub rfl | apply putDwrr_keeps | dsimp only

theorem choosePath_keeps {M : Nat} {s0 s : State} (p : Nat) (ls : List Nat) (hs : Keeps M s0 s) (hM : Within 0x10000 M) :
    Keeps M s0 (choosePath p ls s).1 := by
  unfold choosePath
  try dsimp only
  with_reducible repeat' first
          | assumption | exact hM.sub rfl | intro _ | apply dwrrPick_keeps | apply rrPick_keeps | dsimp only
          | apply Keeps.foldl | apply Keeps.foldl_fst | split

theorem debitDeficit_keeps {M : Nat} {s0 s : State} (k c len : Nat) (hs : Keeps M s0 s) (hM : Within 0x10000 M) :
    Keeps M s0 (debitDeficit k c len s) := by
  unfold debitDeficit
  try dsimp only
  with_reducible repeat' first | assumption | exact hM.sub rfl | apply putDwrr_keeps | dsimp only

theorem debitPath_keeps {M : Nat} {s0 s : State} (p : Nat) (y : Path) (len : Nat) (hs : Keeps M s0 s) (hM : Within 0x10000 M) :
    Keeps M s0 (debitPath p y len s) := by
  unfold debitPath
  try dsimp only
  with_reducible repeat' first
          | assumption | exact hM.sub rfl | apply putLeaf_keeps | apply putGroup_keeps | apply putClass_keeps
          | apply putPortBucket_keeps | apply debitDeficit_keeps | dsimp only

theorem popLeaf_keeps {M : Nat} {s0 s : State} (l : Nat) (hs : Keeps M s0 s) (hM : Within 0x10000 M) :
    Keeps M s0 (popLeaf l s) := by
  unfold popLeaf
  try dsimp only
  with_reducible repeat' first
          | assumption | exact hM.sub rfl | apply putLeaf_keeps | apply keepFrames_keeps | dsimp only

theorem timestampEvent_keeps {M : Nat} {s0 s : State} (p : Nat) (x : Frame) (c : Clock) (hs : Keeps M s0 s) (hM : Within 0x7c5 M) :
    Keeps M s0 (timestampEvent p x c s) := by
  unfold timestampEvent
  try dsimp only
  with_reducible repeat' first | assumption | exact hM.sub rfl | apply postEvent_keeps | dsimp only | split

theorem startFrame_keeps {M : Nat} {s0 s : State} (p f : Nat) (x : Frame) (ok : Bool) (cyc : Nat) (hs : Keeps M s0 s) (hM : Within 0x327c5 M) :
    Keeps M s0 (startFrame p f x ok cyc s) := by
  unfold startFrame
  try dsimp only
  with_reducible repeat' first
          | assumption | exact hM.sub rfl | apply emit_keeps | apply addStat_keeps | apply putFrame_keeps
          | apply freeFrame_keeps | apply timestampEvent_keeps | dsimp only | split | apply Keeps.upd | rfl | exact .inr rfl
          | exact .inl (hM.sub rfl)

theorem toRing_keeps {M : Nat} {s0 s : State} (l f : Nat) (hs : Keeps M s0 s) (hM : Within 0x12000 M) :
    Keeps M s0 (toRing l f s) := by
  unfold toRing
  with_reducible repeat' first
          | assumption | exact hM.sub rfl | apply freeFrame_keeps | apply putDelivering_keeps | split

theorem startError_keeps {M : Nat} {s0 s : State} (p l : Nat) (err : SchedErr) (hs : Keeps M s0 s) (hM : Within 0x100e5 M) :
    Keeps M s0 (startError p l err s).1 := by
  unfold startError
  try dsimp only
  with_reducible repeat' first
          | assumption | exact hM.sub rfl | apply useFree_keeps | apply addErr_keeps | apply correctable_keeps
          | apply arrayError_keeps | apply putLeaf_keeps | apply tokenResidue_keeps | dsimp only | split

theorem dropOversize_keeps {M : Nat} {s0 s : State} (p : Nat) (hs : Keeps M s0 s) (hM : Within 0x120c4 M) :
    Keeps M s0 (dropOversize p s) := by
  unfold dropOversize
  try dsimp only
  with_reducible repeat' first
          | assumption | exact hM.sub rfl | intro _ | apply addErr_keeps | apply freeFrame_keeps | apply popLeaf_keeps
          | dsimp only | apply Keeps.foldl | apply Keeps.foldl_fst | split

theorem startChosen_keeps {M : Nat} {s0 s : State} (p : Nat) (y : Path) (f : Nat) (x : Frame) (err : SchedErr) (cyc : Nat) (hs : Keeps M s0 s) (hM : Within 0x327e5 M) :
    Keeps M s0 (startChosen p y f x err cyc s) := by
  unfold startChosen
  try dsimp only
  with_reducible repeat' first
          | assumption | exact hM.sub rfl | apply addStat_keeps | apply freeFrame_keeps | apply debitPath_keeps
          | apply popLeaf_keeps | apply startFrame_keeps | apply toRing_keeps | apply startError_keeps | dsimp only | split

theorem nodeError_keeps {M : Nat} {s0 s : State} (y : Path) (hs : Keeps M s0 s) (hM : Within 0xa09e5c5 M) :
    Keeps M s0 (nodeError y s) := by
  unfold nodeError
  try dsimp only
  with_reducible repeat' first
          | assumption | exact hM.sub rfl | apply useFree_keeps | apply ownerFault_keeps | dsimp only | split

theorem scheduleChoice_keeps {M : Nat} {s0 s : State} (p : Nat) (err : SchedErr) (cyc : Nat) (hs : Keeps M s0 s) (hM : Within 0xa0be7e5 M) :
    Keeps M s0 (scheduleChoice p err cyc s) := by
  unfold scheduleChoice
  try dsimp only
  with_reducible repeat' first
          | assumption | exact hM.sub rfl | apply deviceFault_keeps | apply useFree_keeps | apply tokenResidue_keeps
          | apply choosePath_keeps | apply dropOversize_keeps | apply startChosen_keeps | apply nodeError_keeps | dsimp only | split

theorem execScheduleChoice_keeps {M : Nat} {s0 s : State} (port : TmPort) (err : SchedErr) (cyc : Cyc) (hs : Keeps M s0 s) (hM : Within 0xa0be7e5 M) :
    KeepsRes M s0 (execScheduleChoice port err cyc s) := by
  unfold execScheduleChoice
  with_reducible repeat' first
          | assumption | exact hM.sub rfl | apply KeepsRes.next | apply scheduleChoice_keeps

theorem sweep_keeps {M : Nat} {s0 s : State} (b : Bucket) (t : BitVec 32) (hs : Keeps M s0 s) (hM : Within 0x10000 M) :
    Keeps M s0 (sweep b t s) := by
  unfold sweep
  try dsimp only
  with_reducible repeat' first
          | assumption | exact hM.sub rfl | apply putLeaf_keeps | apply putGroup_keeps | apply putClass_keeps
          | apply putPortBucket_keeps | apply putMeter_keeps | dsimp only | split

theorem execBucketSweep_keeps {M : Nat} {s0 s : State} (b : Bucket × Residue) (hs : Keeps M s0 s) (hM : Within 0x100e5 M) :
    KeepsRes M s0 (execBucketSweep b s) := by
  unfold execBucketSweep
  with_reducible repeat' first
          | assumption | exact hM.sub rfl | apply KeepsRes.next | apply tokenResidue_keeps | apply sweep_keeps

theorem execPfcRefresh_keeps {M : Nat} {s0 s : State} (port : NPort) (k : Fin 8) (hs : Keeps M s0 s) (hM : Within 0x10004 M) :
    KeepsRes M s0 (execPfcRefresh port k s) := by
  unfold execPfcRefresh
  try dsimp only
  with_reducible repeat' first
          | assumption | exact hM.sub rfl | apply KeepsRes.next | apply sendPfc_keeps | dsimp only | split

theorem execPfcXon_keeps {M : Nat} {s0 s : State} (port : NPort) (k : Fin 8) (hs : Keeps M s0 s) (hM : Within 0x10004 M) :
    KeepsRes M s0 (execPfcXon port k s) := by
  unfold execPfcXon
  with_reducible repeat' first
          | assumption | exact hM.sub rfl | apply KeepsRes.next | apply putB_keeps | apply sendPfc_keeps | split

theorem pausePrio_keeps {M : Nat} {s0 s : State} (n k q : Nat) (hs : Keeps M s0 s) (hM : Within 0x10004 M) :
    Keeps M s0 (pausePrio n k q s) := by
  unfold pausePrio
  try dsimp only
  with_reducible repeat' first
          | assumption | exact hM.sub rfl | apply putB_keeps | dsimp only | split | apply Keeps.upd | rfl | exact .inr rfl
          | exact .inl (hM.sub rfl)

theorem execPfcReceive_keeps {M : Nat} {s0 s : State} (port : NPort) (prios : BitVec 8) (quanta : List (BitVec 16)) (hs : Keeps M s0 s) (hM : Within 0x10004 M) :
    KeepsRes M s0 (execPfcReceive port prios quanta s) := by
  unfold execPfcReceive
  try dsimp only
  with_reducible repeat' first
          | assumption | exact hM.sub rfl | apply KeepsRes.next | intro _ | apply addStat_keeps | apply pausePrio_keeps
          | dsimp only | apply Keeps.foldl | split

theorem execPfcPauseExpiry_keeps {M : Nat} {s0 s : State} (port : NPort) (k : Fin 8) (hs : Keeps M s0 s) (hM : Within 0x4 M) :
    KeepsRes M s0 (execPfcPauseExpiry port k s) := by
  unfold execPfcPauseExpiry
  try dsimp only
  with_reducible repeat' first
          | assumption | exact hM.sub rfl | apply KeepsRes.next | apply putB_keeps | dsimp only | split

theorem tmWrite_keeps {M : Nat} {s0 s : State} (op cq : Nat) (err : Residue) (run : Bytes → State → State × Nat) (hrun : ∀ a' u, Keeps M s0 u → Keeps M s0 (run a' u).1) (hs : Keeps M s0 s) (hM : Within 0xa09a1e5 M) :
    Keeps M s0 (tmWrite op cq err run s) := by
  unfold tmWrite
  try dsimp only
  with_reducible repeat' first
          | assumption | exact hM.sub rfl | intro _ | apply hrun | apply tokenResidue_keeps | apply adminRun_keeps
          | apply ctlFinish_keeps | dsimp only | split

theorem flushLeaf_keeps {M : Nat} {s0 s : State} (l : Nat) (hs : Keeps M s0 s) (hM : Within 0x12004 M) :
    Keeps M s0 (flushLeaf l s) := by
  unfold flushLeaf
  try dsimp only
  with_reducible repeat' first
          | assumption | exact hM.sub rfl | intro _ | apply addStat_keeps | apply freeFrame_keeps | apply keepFrames_keeps
          | dsimp only | apply Keeps.foldl

theorem leafWrite_keeps {M : Nat} {s0 s : State} (d : Bytes) (hs : Keeps M s0 s) (hM : Within 0x12004 M) :
    Keeps M s0 (leafWrite d s).1 := by
  unfold leafWrite
  try dsimp only
  with_reducible repeat' first
          | assumption | exact hM.sub rfl | apply putLeaf_keeps | apply flushLeaf_keeps | dsimp only | split

theorem execTmLeafWrite_keeps {M : Nat} {s0 s : State} (cq : BitVec 20 × Residue) (hs : Keeps M s0 s) (hM : Within 0xa09a1e5 M) :
    KeepsRes M s0 (execTmLeafWrite cq s) := by
  unfold execTmLeafWrite
  with_reducible repeat' first
          | assumption | exact hM.sub rfl | apply KeepsRes.next | intro _ | apply tmWrite_keeps | apply leafWrite_keeps

theorem groupWrite_keeps {M : Nat} {s0 s : State} (d : Bytes) (hs : Keeps M s0 s) (hM : Within 0x10000 M) :
    Keeps M s0 (groupWrite d s).1 := by
  unfold groupWrite
  try dsimp only
  with_reducible repeat' first | assumption | exact hM.sub rfl | apply putGroup_keeps | dsimp only | split

theorem execTmGroupWrite_keeps {M : Nat} {s0 s : State} (cq : BitVec 20 × Residue) (hs : Keeps M s0 s) (hM : Within 0xa09a1e5 M) :
    KeepsRes M s0 (execTmGroupWrite cq s) := by
  unfold execTmGroupWrite
  with_reducible repeat' first
          | assumption | exact hM.sub rfl | apply KeepsRes.next | intro _ | apply tmWrite_keeps | apply groupWrite_keeps

theorem classWrite_keeps {M : Nat} {s0 s : State} (d : Bytes) (hs : Keeps M s0 s) (hM : Within 0x10000 M) :
    Keeps M s0 (classWrite d s).1 := by
  unfold classWrite
  try dsimp only
  with_reducible repeat' first | assumption | exact hM.sub rfl | apply putClass_keeps | dsimp only | split

theorem execTmClassWrite_keeps {M : Nat} {s0 s : State} (cq : BitVec 20 × Residue) (hs : Keeps M s0 s) (hM : Within 0xa09a1e5 M) :
    KeepsRes M s0 (execTmClassWrite cq s) := by
  unfold execTmClassWrite
  with_reducible repeat' first
          | assumption | exact hM.sub rfl | apply KeepsRes.next | intro _ | apply tmWrite_keeps | apply classWrite_keeps

theorem meterWrite_keeps {M : Nat} {s0 s : State} (d : Bytes) (hs : Keeps M s0 s) (hM : Within 0x10000 M) :
    Keeps M s0 (meterWrite d s).1 := by
  unfold meterWrite
  try dsimp only
  with_reducible repeat' first | assumption | exact hM.sub rfl | apply putMeter_keeps | dsimp only

theorem execTmMeterWrite_keeps {M : Nat} {s0 s : State} (cq : BitVec 20 × Residue) (hs : Keeps M s0 s) (hM : Within 0xa09a1e5 M) :
    KeepsRes M s0 (execTmMeterWrite cq s) := by
  unfold execTmMeterWrite
  with_reducible repeat' first
          | assumption | exact hM.sub rfl | apply KeepsRes.next | intro _ | apply tmWrite_keeps | apply meterWrite_keeps

theorem bufCtrlWrite_keeps {M : Nat} {s0 s : State} (v : Word) (hs : Keeps M s0 s) (hM : Within 0x4 M) :
    Keeps M s0 (bufCtrlWrite v s) := by
  unfold bufCtrlWrite
  try dsimp only
  with_reducible repeat' first
          | assumption | exact hM.sub rfl | apply putF_keeps | apply putB_keeps | dsimp only | split

theorem execBufCtrlWrite_keeps {M : Nat} {s0 s : State} (v : BitVec 64) (hs : Keeps M s0 s) (hM : Within 0x84 M) :
    KeepsRes M s0 (execBufCtrlWrite v s) := by
  unfold execBufCtrlWrite
  with_reducible repeat' first
          | assumption | exact hM.sub rfl | apply KeepsRes.next | intro _ | apply setupWrite_keeps | apply bufCtrlWrite_keeps

/-! ### Machine/Plant.lean -/

theorem addRx_keeps {M : Nat} {s0 s : State} (r : PlantRx) (hs : Keeps M s0 s) (hM : Within 0x20000 M) :
    Keeps M s0 (addRx r s) := by
  unfold addRx
  with_reducible repeat' first
          | assumption | exact hM.sub rfl | apply Keeps.upd | rfl | exact .inr rfl | exact .inl (hM.sub rfl)

theorem plantReceive_keeps {M : Nat} {s0 s : State} (q : Nat) (frame : Bytes) (overflow : Bool) (cyc : Nat) (hs : Keeps M s0 s) (hM : Within 0x360c4 M) :
    Keeps M s0 (plantReceive q frame overflow cyc s) := by
  unfold plantReceive
  try dsimp only
  with_reducible repeat' first
          | assumption | exact hM.sub rfl | apply addStat_keeps | apply addErr_keeps | apply admitIngress_keeps
          | apply addFrame_keeps | apply queueFrame_keeps | apply plantDeal_keeps | apply addRx_keeps | dsimp only | split

theorem execPlantFrameReceive_keeps {M : Nat} {s0 s : State} (port : PPort) (frame : Bytes) (overflow : Bool) (cyc : Cyc) (hs : Keeps M s0 s) (hM : Within 0x360c4 M) :
    KeepsRes M s0 (execPlantFrameReceive port frame overflow cyc s) := by
  unfold execPlantFrameReceive
  with_reducible repeat' first
          | assumption | exact hM.sub rfl | apply KeepsRes.next | apply plantReceive_keeps

theorem countFilter_keeps {M : Nat} {s0 s : State} (f c : Nat) (hs : Keeps M s0 s) (hM : Within 0x20000 M) :
    Keeps M s0 (countFilter f c s) := by
  unfold countFilter
  try dsimp only
  with_reducible repeat' first
          | assumption | exact hM.sub rfl | dsimp only | apply Keeps.upd | rfl | exact .inr rfl | exact .inl (hM.sub rfl)

theorem runFilter_keeps {M : Nat} {s0 s : State} (f : Nat) (x : Frame) (hs : Keeps M s0 s) (hM : Within 0x30000 M) :
    Keeps M s0 (runFilter f x s).1 := by
  unfold runFilter
  try dsimp only
  with_reducible repeat' first
          | assumption | exact hM.sub rfl | apply useMeter_keeps | apply countFilter_keeps | dsimp only | split
          | apply Keeps.upd | rfl | exact .inr rfl | exact .inl (hM.sub rfl)

theorem putCb_keeps {M : Nat} {s0 s : State} (h : Nat) (x : CbFn) (hs : Keeps M s0 s) (hM : Within 0x20000 M) :
    Keeps M s0 (putCb h x s) := by
  unfold putCb
  try dsimp only
  with_reducible repeat' first
          | assumption | exact hM.sub rfl | dsimp only | apply Keeps.upd | rfl | exact .inr rfl | exact .inl (hM.sub rfl)

theorem cbRecover_keeps {M : Nat} {s0 s : State} (h seq : Nat) (hs : Keeps M s0 s) (hM : Within 0x2a004 M) :
    Keeps M s0 (cbRecover h seq s).1 := by
  unfold cbRecover
  try dsimp only
  with_reducible repeat' first
          | assumption | exact hM.sub rfl | apply lastPass_keeps | apply putCb_keeps | dsimp only | split

theorem cbForget_keeps {M : Nat} {s0 s : State} (h : Nat) (seq : BitVec 16) (hs : Keeps M s0 s) (hM : Within 0x20000 M) :
    Keeps M s0 (cbForget h seq s) := by
  unfold cbForget
  try dsimp only
  with_reducible repeat' first | assumption | exact hM.sub rfl | apply putCb_keeps | dsimp only | split

theorem cbGenerate_keeps {M : Nat} {s0 s : State} (h : Nat) (hs : Keeps M s0 s) (hM : Within 0x20000 M) :
    Keeps M s0 (cbGenerate h s).1 := by
  unfold cbGenerate
  try dsimp only
  with_reducible repeat' first | assumption | exact hM.sub rfl | apply putCb_keeps | dsimp only

theorem cbStage_keeps {M : Nat} {s0 s : State} (a : StreamAct) (x : Frame) (hs : Keeps M s0 s) (hM : Within 0x2a004 M) :
    Keeps M s0 (cbStage a x s).1 := by
  unfold cbStage
  try dsimp only
  with_reducible repeat' first
          | assumption | exact hM.sub rfl | apply putCb_keeps | apply cbRecover_keeps | apply cbGenerate_keeps | dsimp only
          | split

theorem mapRx_keeps {M : Nat} {s0 s : State} (f : Nat) (g : PlantRx → PlantRx) (hs : Keeps M s0 s) (hM : Within 0x20000 M) :
    Keeps M s0 (mapRx f g s) := by
  unfold mapRx
  try dsimp only
  with_reducible repeat' first
          | assumption | exact hM.sub rfl | dsimp only | split | apply Keeps.upd | rfl | exact .inr rfl
          | exact .inl (hM.sub rfl)

theorem plantCopies_keeps {M : Nat} {s0 s : State} (f : Nat) (b : Bytes) (ls : List Nat) (hs : Keeps M s0 s) (hM : Within 0x12005 M) :
    Keeps M s0 (plantCopies f b ls s).1 := by
  unfold plantCopies
  try dsimp only
  with_reducible repeat' first
          | assumption | exact hM.sub rfl | intro _ | apply enqueueCopy_keeps | dsimp only | apply Keeps.foldl
          | apply Keeps.foldl_fst

theorem plantChain_keeps {M : Nat} {s0 s : State} (f : Nat) (x : Frame) (ecc : Ecc) (hs : Keeps M s0 s) (hM : Within 0x3a0e5 M) :
    Keeps M s0 (plantChain f x ecc s) := by
  unfold plantChain
  try dsimp only
  with_reducible repeat' first
          | assumption | exact hM.sub rfl | apply eccCount_keeps | apply arrayError_keeps | apply putFrame_keeps
          | apply recount_keeps | apply runFilter_keeps | apply cbStage_keeps | apply mapRx_keeps | apply plantCopies_keeps
          | dsimp only | split

theorem depositBytes_keeps {M : Nat} {s0 s : State} (m : Nat) (b : Bytes) (hs : Keeps M s0 s) (hM : Within 0x10020000 M) :
    Keeps M s0 (depositBytes m b s) := by
  unfold depositBytes
  try dsimp only
  with_reducible repeat' first
          | assumption | exact hM.sub rfl | apply putImage_keeps | apply writeBack_keeps | dsimp only | split

theorem handOff_keeps {M : Nat} {s0 s : State} (pl : Nat) (x : Frame) (hs : Keeps M s0 s) (hM : Within 0x16000 M) :
    Keeps M s0 (handOff pl x s) := by
  unfold handOff
  try dsimp only
  with_reducible repeat' first
          | assumption | exact hM.sub rfl | apply putFrame_keeps | apply putBuf_keeps | apply queueFrame_keeps | dsimp only
          | split | apply Keeps.upd | rfl | exact .inr rfl | exact .inl (hM.sub rfl)

theorem dropRx_keeps {M : Nat} {s0 s : State} (f : Nat) (hs : Keeps M s0 s) (hM : Within 0x20000 M) :
    Keeps M s0 (dropRx f s) := by
  unfold dropRx
  try dsimp only
  with_reducible repeat' first
          | assumption | exact hM.sub rfl | dsimp only | apply Keeps.upd | rfl | exact .inr rfl | exact .inl (hM.sub rfl)

theorem settleGood_keeps {M : Nat} {s0 s : State} (r : PlantRx) (hs : Keeps M s0 s) (hM : Within 0x1003e000 M) :
    Keeps M s0 (settleGood r s) := by
  unfold settleGood
  try dsimp only
  with_reducible repeat' first
          | assumption | exact hM.sub rfl | apply freeFrame_keeps | apply requestLearn_keeps | apply mapRx_keeps
          | apply depositBytes_keeps | apply handOff_keeps | apply dropRx_keeps | dsimp only | split

theorem endCopy_keeps {M : Nat} {s0 s : State} (f : Nat) (ok : Bool) (hs : Keeps M s0 s) (hM : Within 0x320c4 M) :
    Keeps M s0 (endCopy f ok s) := by
  unfold endCopy
  try dsimp only
  with_reducible repeat' first
          | assumption | exact hM.sub rfl | apply emit_keeps | apply addErr_keeps | apply endSending_keeps | dsimp only
          | split

theorem freeCopy_keeps {M : Nat} {s0 s : State} (f : Nat) (hs : Keeps M s0 s) (hM : Within 0x96000 M) :
    Keeps M s0 (freeCopy f s) := by
  unfold freeCopy
  with_reducible repeat' first
          | assumption | exact hM.sub rfl | apply freeFrame_keeps | apply purgeFrame_keeps | split

theorem settleBad_keeps {M : Nat} {s0 s : State} (r : PlantRx) (hs : Keeps M s0 s) (hM : Within 0xb60c4 M) :
    Keeps M s0 (settleBad r s) := by
  unfold settleBad
  try dsimp only
  with_reducible repeat' first
          | assumption | exact hM.sub rfl | intro _ | apply cbForget_keeps | apply dropRx_keeps | apply endCopy_keeps
          | apply freeCopy_keeps | dsimp only | apply Keeps.foldl | split

theorem settleRx_keeps {M : Nat} {s0 s : State} (r : PlantRx) (ok : Bool) (hs : Keeps M s0 s) (hM : Within 0x100be0c4 M) :
    Keeps M s0 (settleRx r ok s) := by
  unfold settleRx
  try dsimp only
  with_reducible repeat' first
          | assumption | exact hM.sub rfl | intro _ | apply settleGood_keeps | apply endCopy_keeps | apply settleBad_keeps
          | dsimp only | apply Keeps.foldl | split

theorem plantEnd_keeps {M : Nat} {s0 s : State} (q : Nat) (ok : Bool) (cyc : Nat) (hs : Keeps M s0 s) (hM : Within 0x100be0c4 M) :
    Keeps M s0 (plantEnd q ok cyc s) := by
  unfold plantEnd
  try dsimp only
  with_reducible repeat' first
          | assumption | exact hM.sub rfl | apply addErr_keeps | apply putFrame_keeps | apply plantDeal_keeps
          | apply mapRx_keeps | apply settleRx_keeps | dsimp only | split

theorem execPlantFrameEnd_keeps {M : Nat} {s0 s : State} (port : PPort) (fcsOk : Bool) (cyc : Cyc) (hs : Keeps M s0 s) (hM : Within 0x100be0c4 M) :
    KeepsRes M s0 (execPlantFrameEnd port fcsOk cyc s) := by
  unfold execPlantFrameEnd
  with_reducible repeat' first | assumption | exact hM.sub rfl | apply KeepsRes.next | apply plantEnd_keeps

theorem plantRelease_keeps {M : Nat} {s0 s : State} (q : Nat) (ecc : Ecc) (hs : Keeps M s0 s) (hM : Within 0x101be0e5 M) :
    Keeps M s0 (plantRelease q ecc s) := by
  unfold plantRelease
  try dsimp only
  with_reducible repeat' first
          | assumption | exact hM.sub rfl | apply putFrame_keeps | apply putSrc_keeps | apply advanceRetired_keeps
          | apply freeFrame_keeps | apply malformedAction_keeps | apply plantDeal_keeps | apply mapRx_keeps
          | apply plantChain_keeps | apply dropRx_keeps | apply settleRx_keeps | dsimp only | split
          | refine Keeps.fst_eq (by assumption) ?_

theorem execPlantRelease_keeps {M : Nat} {s0 s : State} (port : PPort) (ecc : Ecc) (hs : Keeps M s0 s) (hM : Within 0x101be0e5 M) :
    KeepsRes M s0 (execPlantRelease port ecc s) := by
  unfold execPlantRelease
  with_reducible repeat' first
          | assumption | exact hM.sub rfl | apply KeepsRes.next | apply plantRelease_keeps

theorem execGateIntervalEnd_keeps {M : Nat} {s0 s : State} (n : Fin 68) (hs : Keeps M s0 s) (hM : Within 0x20000 M) :
    KeepsRes M s0 (execGateIntervalEnd n s) := by
  unfold execGateIntervalEnd
  try dsimp only
  with_reducible repeat' first
          | assumption | exact hM.sub rfl | apply KeepsRes.next | apply putSched_keeps | dsimp only | split

theorem scheduleChange_keeps {M : Nat} {s0 s : State} (n cyc : Nat) (hs : Keeps M s0 s) (hM : Within 0x200c4 M) :
    Keeps M s0 (scheduleChange n cyc s) := by
  unfold scheduleChange
  try dsimp only
  with_reducible repeat' first
          | assumption | exact hM.sub rfl | apply putB_keeps | apply putSched_keeps | apply recheckArmed_keeps | dsimp only
          | split

theorem execScheduleChange_keeps {M : Nat} {s0 s : State} (n : Fin 68) (cyc : Cyc) (hs : Keeps M s0 s) (hM : Within 0x200c4 M) :
    KeepsRes M s0 (execScheduleChange n cyc s) := by
  unfold execScheduleChange
  with_reducible repeat' first
          | assumption | exact hM.sub rfl | apply KeepsRes.next | intro _ | apply setupWrite_keeps
          | apply scheduleChange_keeps

theorem scheduleSwitch_keeps {M : Nat} {s0 s : State} (n : Nat) (hs : Keeps M s0 s) (hM : Within 0x20004 M) :
    Keeps M s0 (scheduleSwitch n s) := by
  unfold scheduleSwitch
  try dsimp only
  with_reducible repeat' first
          | assumption | exact hM.sub rfl | apply putF_keeps | apply putB_keeps | apply putSched_keeps | dsimp only | split

theorem execScheduleSwitch_keeps {M : Nat} {s0 s : State} (n : Fin 68) (hs : Keeps M s0 s) (hM : Within 0x20004 M) :
    KeepsRes M s0 (execScheduleSwitch n s) := by
  unfold execScheduleSwitch
  with_reducible repeat' first
          | assumption | exact hM.sub rfl | apply KeepsRes.next | apply scheduleSwitch_keeps

theorem flipTx_keeps {M : Nat} {s0 s : State} (b i : Nat) (hs : Keeps M s0 s) (hM : Within 0x20000 M) :
    Keeps M s0 (flipTx b i s) := by
  unfold flipTx
  try dsimp only
  with_reducible repeat' first | assumption | exact hM.sub rfl | apply putImage_keeps | dsimp only | split

theorem flipRx_keeps {M : Nat} {s0 s : State} (b i : Nat) (hs : Keeps M s0 s) (hM : Within 0x20000 M) :
    Keeps M s0 (flipRx b i s) := by
  unfold flipRx
  try dsimp only
  with_reducible repeat' first | assumption | exact hM.sub rfl | apply putImage_keeps | dsimp only

theorem flipRxPort_keeps {M : Nat} {s0 s : State} (q : Nat) (hs : Keeps M s0 s) (hM : Within 0x1003e000 M) :
    Keeps M s0 (flipRxPort q s) := by
  unfold flipRxPort
  try dsimp only
  with_reducible repeat' first
          | assumption | exact hM.sub rfl | intro _ | apply settleGood_keeps | apply flipRx_keeps | dsimp only
          | apply Keeps.foldl | split | apply Keeps.upd | rfl | exact .inr rfl | exact .inl (hM.sub rfl)

theorem execRxImageFlip_keeps {M : Nat} {s0 s : State} (port : PPort) (hs : Keeps M s0 s) (hM : Within 0x1003e000 M) :
    KeepsRes M s0 (execRxImageFlip port s) := by
  unfold execRxImageFlip
  with_reducible repeat' first
          | assumption | exact hM.sub rfl | apply KeepsRes.next | apply flipRxPort_keeps | split

theorem applyFrames_keeps {M : Nat} {s0 s : State} (q : Nat) (hs : Keeps M s0 s) (hM : Within 0x20000 M) :
    Keeps M s0 (applyFrames q s) := by
  unfold applyFrames
  try dsimp only
  with_reducible repeat' first
          | assumption | exact hM.sub rfl | intro _ | dsimp only | apply Keeps.foldl | apply Keeps.foldl_fst | split
          | apply Keeps.upd | rfl | exact .inr rfl | exact .inl (hM.sub rfl)

theorem buildFrame_keeps {M : Nat} {s0 s : State} (b : Nat) (w : Word × Word) (hs : Keeps M s0 s) (hM : Within 0x320c5 M) :
    Keeps M s0 (buildFrame b w s) := by
  unfold buildFrame
  try dsimp only
  with_reducible repeat' first
          | assumption | exact hM.sub rfl | apply addErr_keeps | apply enqueueOrDrop_keeps | apply addFrame_keeps
          | apply freshBuf_keeps | apply cbGenerate_keeps | dsimp only | split | apply Keeps.upd | rfl | exact .inr rfl
          | exact .inl (hM.sub rfl)

theorem imageWordError_keeps {M : Nat} {s0 s : State} (i off n : Nat) (hs : Keeps M s0 s) (hM : Within 0xc5 M) :
    Keeps M s0 (imageWordError i off n s) := by
  unfold imageWordError
  try dsimp only
  with_reducible repeat' first
          | assumption | exact hM.sub rfl | apply useFree_keeps | apply arrayError_keeps | dsimp only

theorem buildFrames_keeps {M : Nat} {s0 s : State} (q b bad : Nat) (ecc : Ecc) (hs : Keeps M s0 s) (hM : Within 0x320e5 M) :
    Keeps M s0 (buildFrames q b bad ecc s) := by
  unfold buildFrames
  try dsimp only
  with_reducible repeat' first
          | assumption | exact hM.sub rfl | intro _ | apply eccCount_keeps | apply buildFrame_keeps
          | apply imageWordError_keeps | dsimp only | apply Keeps.foldl | apply Keeps.foldl_fst | split

theorem watchdog_keeps {M : Nat} {s0 s : State} (p b : Nat) (hs : Keeps M s0 s) (hM : Within 0x327c5 M) :
    Keeps M s0 (watchdog p b s) := by
  unfold watchdog
  try dsimp only
  with_reducible repeat' first
          | assumption | exact hM.sub rfl | apply putF_keeps | apply postLog_keeps | apply addErr_keeps
          | apply bypassPair_keeps | dsimp only | split

theorem imageBoundary_keeps {M : Nat} {s0 s : State} (q b bad : Nat) (ecc : Ecc) (hs : Keeps M s0 s) (hM : Within 0x1003e0e5 M) :
    Keeps M s0 (imageBoundary q b bad ecc s) := by
  unfold imageBoundary
  try dsimp only
  with_reducible repeat' first
          | assumption | exact hM.sub rfl | intro _ | apply flipTx_keeps | apply flipRxPort_keeps | apply applyFrames_keeps
          | apply buildFrames_keeps | dsimp only | apply Keeps.foldl | split | apply Keeps.upd | rfl | exact .inr rfl
          | exact .inl (hM.sub rfl)

theorem cycleStart_keeps {M : Nat} {s0 s : State} (n bad : Nat) (ecc : Ecc) (hs : Keeps M s0 s) (hM : Within 0x1003e7e5 M) :
    Keeps M s0 (cycleStart n bad ecc s) := by
  unfold cycleStart
  try dsimp only
  with_reducible repeat' first
          | assumption | exact hM.sub rfl | apply putF_keeps | apply putSched_keeps | apply watchdog_keeps
          | apply imageBoundary_keeps | dsimp only | split

theorem execCycleStart_keeps {M : Nat} {s0 s : State} (n : Fin 68 × BitVec 13 × Ecc) (hs : Keeps M s0 s) (hM : Within 0x1003e7e5 M) :
    KeepsRes M s0 (execCycleStart n s) := by
  unfold execCycleStart
  with_reducible repeat' first
          | assumption | exact hM.sub rfl | apply KeepsRes.next | apply cycleStart_keeps

theorem execLaunchEligible_keeps {M : Nat} {s0 s : State} (leaf : BitVec 20) (hs : Keeps M s0 s) (hM : Within 0x10000 M) :
    KeepsRes M s0 (execLaunchEligible leaf s) := by
  unfold execLaunchEligible
  try dsimp only
  with_reducible repeat' first
          | assumption | exact hM.sub rfl | apply KeepsRes.next | apply putLeaf_keeps | dsimp only | split

theorem execLaunchLate_keeps {M : Nat} {s0 s : State} (leaf : BitVec 20) (hs : Keeps M s0 s) (hM : Within 0x120c4 M) :
    KeepsRes M s0 (execLaunchLate leaf s) := by
  unfold execLaunchLate
  try dsimp only
  with_reducible repeat' first
          | assumption | exact hM.sub rfl | apply KeepsRes.next | apply addErr_keeps | apply freeFrame_keeps
          | apply putLeaf_keeps | apply popLeaf_keeps | dsimp only | split

theorem arm_keeps {M : Nat} {s0 s : State} (p cyc : Nat) (hs : Keeps M s0 s) (hM : Within 0x200c4 M) :
    Keeps M s0 (arm p cyc s) := by
  unfold arm
  try dsimp only
  with_reducible repeat' first
          | assumption | exact hM.sub rfl | apply putPair_keeps | apply pairResult_keeps | dsimp only | split

theorem execArm_keeps {M : Nat} {s0 s : State} (pair : Fin 2) (cyc : Cyc) (hs : Keeps M s0 s) (hM : Within 0x200c4 M) :
    KeepsRes M s0 (execArm pair cyc s) := by
  unfold execArm
  with_reducible repeat' first
          | assumption | exact hM.sub rfl | apply KeepsRes.next | intro _ | apply setupWrite_keeps | apply arm_keeps

theorem execDisarm_keeps {M : Nat} {s0 s : State} (pair : Fin 2) (hs : Keeps M s0 s) (hM : Within 0x200c4 M) :
    KeepsRes M s0 (execDisarm pair s) := by
  unfold execDisarm
  with_reducible repeat' first
          | assumption | exact hM.sub rfl | apply KeepsRes.next | intro _ | apply setupWrite_keeps | apply unarm_keeps

theorem execRelease_keeps {M : Nat} {s0 s : State} (pair : Fin 2) (cyc : Cyc) (hs : Keeps M s0 s) (hM : Within 0x327c5 M) :
    KeepsRes M s0 (execRelease pair cyc s) := by
  unfold execRelease
  try dsimp only
  with_reducible repeat' first
          | assumption | exact hM.sub rfl | apply KeepsRes.next | intro _ | apply setupWrite_keeps | apply bypassPair_keeps
          | dsimp only

theorem takeover_keeps {M : Nat} {s0 s : State} (p : Nat) (hs : Keeps M s0 s) (hM : Within 0x200c4 M) :
    Keeps M s0 (takeover p s) := by
  unfold takeover
  try dsimp only
  with_reducible repeat' first
          | assumption | exact hM.sub rfl | apply putF_keeps | apply putPair_keeps | apply unarm_keeps | dsimp only | split

theorem execTakeoverTime_keeps {M : Nat} {s0 s : State} (pair : Fin 2) (hs : Keeps M s0 s) (hM : Within 0x200c4 M) :
    KeepsRes M s0 (execTakeoverTime pair s) := by
  unfold execTakeoverTime
  with_reducible repeat' first | assumption | exact hM.sub rfl | apply KeepsRes.next | apply takeover_keeps

theorem execPairTaken_keeps {M : Nat} {s0 s : State} (pair : Fin 2) (cyc : Cyc) (hs : Keeps M s0 s) (hM : Within 0x207c5 M) :
    KeepsRes M s0 (execPairTaken pair cyc s) := by
  unfold execPairTaken
  try dsimp only
  with_reducible repeat' first
          | assumption | exact hM.sub rfl | apply KeepsRes.next | apply putPair_keeps | apply pairEvent_keeps | dsimp only
          | split

theorem execPlantLinkUp_keeps {M : Nat} {s0 s : State} (port : PPort) (hs : Keeps M s0 s) (hM : Within 0xc4 M) :
    KeepsRes M s0 (execPlantLinkUp port s) := by
  unfold execPlantLinkUp
  try dsimp only
  with_reducible repeat' first
          | assumption | exact hM.sub rfl | apply KeepsRes.next | apply putB_keeps | apply pageChanged_keeps | dsimp only
          | split

theorem plantDown_keeps {M : Nat} {s0 s : State} (q : Nat) (hs : Keeps M s0 s) (hM : Within 0x200c4 M) :
    Keeps M s0 (plantDown q s) := by
  unfold plantDown
  try dsimp only
  with_reducible repeat' first
          | assumption | exact hM.sub rfl | apply putB_keeps | apply pageChanged_keeps | apply unarm_keeps | dsimp only
          | split

theorem execPlantLinkDown_keeps {M : Nat} {s0 s : State} (port : PPort) (hs : Keeps M s0 s) (hM : Within 0x200c4 M) :
    KeepsRes M s0 (execPlantLinkDown port s) := by
  unfold execPlantLinkDown
  with_reducible repeat' first | assumption | exact hM.sub rfl | apply KeepsRes.next | apply plantDown_keeps

theorem channelMode_keeps {M : Nat} {s0 s : State} (c : Nat) (hs : Keeps M s0 s) (hM : Within 0x4 M) :
    Keeps M s0 (channelMode c s) := by
  unfold channelMode
  try dsimp only
  with_reducible repeat' first | assumption | exact hM.sub rfl | apply putB_keeps | dsimp only | split

theorem chanMoves_keeps {M : Nat} {s0 s : State} (c units : Nat) (hs : Keeps M s0 s) (hM : Within 0x20000 M) :
    Keeps M s0 (chanMoves c units s) := by
  unfold chanMoves
  try dsimp only
  with_reducible repeat' first
          | assumption | exact hM.sub rfl | dsimp only | split | apply Keeps.upd | rfl | exact .inr rfl
          | exact .inl (hM.sub rfl)

theorem imgHalf_keeps {M : Nat} {s0 s : State} (fq : Nat) (e : Entry) (hs : Keeps M s0 s) (hM : Within 0x7c5 M) :
    Keeps M s0 (imgHalf fq e s) := by
  unfold imgHalf
  with_reducible repeat' first | assumption | exact hM.sub rfl | apply postQueueEvent_keeps | split

theorem imgFail_keeps {M : Nat} {s0 s : State} (fq : Nat) (e : Entry) (st retries : Nat) (hs : Keeps M s0 s) (hM : Within 0xa0ba1c4 M) :
    Keeps M s0 (imgFail fq e st retries s) := by
  unfold imgFail
  with_reducible repeat' first
          | assumption | exact hM.sub rfl | apply finish_keeps | apply Keeps.upd | rfl | exact .inr rfl
          | exact .inl (hM.sub rfl)

theorem imgDone_keeps {M : Nat} {s0 s : State} (fq : Nat) (e : Entry) (retries : Nat) (results : Option Bytes) (hs : Keeps M s0 s) (hM : Within 0xa0ba1c4 M) :
    Keeps M s0 (imgDone fq e retries results s) := by
  unfold imgDone
  try dsimp only
  with_reducible repeat' first
          | assumption | exact hM.sub rfl | apply addStat_keeps | apply mapEntry_keeps | apply finish_keeps | dsimp only
          | split | apply Keeps.upd | rfl | exact .inr rfl | exact .inl (hM.sub rfl)

theorem imgAgain_keeps {M : Nat} {s0 s : State} (fq : Nat) (e : Entry) (hs : Keeps M s0 s) (hM : Within 0xa0ba1c4 M) :
    Keeps M s0 (imgAgain fq e s) := by
  unfold imgAgain
  try dsimp only
  with_reducible repeat' first
          | assumption | exact hM.sub rfl | apply mapEntry_keeps | apply imgFail_keeps | dsimp only | split

theorem imgPut_keeps {M : Nat} {s0 s : State} (fq : Nat) (r : Read) (before after : Word) (e : Entry) (hs : Keeps M s0 s) (hM : Within 0x1a0ba7e5 M) :
    Keeps M s0 (imgPut fq r before after e s) := by
  unfold imgPut
  try dsimp only
  with_reducible repeat' first
          | assumption | exact hM.sub rfl | apply readFailure_keeps | apply entryRead_keeps | apply putImage_keeps
          | apply writeBack_keeps | apply chanMoves_keeps | apply imgHalf_keeps | apply imgFail_keeps | apply imgDone_keeps
          | apply imgAgain_keeps | dsimp only | split

theorem execImgPut_keeps {M : Nat} {s0 s : State} (fq : BitVec 20) (r : Read) (seqBefore : BitVec 64) (seqAfter : BitVec 64 × Ecc) (hs : Keeps M s0 s) (hM : Within 0x1a0ba7e5 M) :
    KeepsRes M s0 (execImgPut fq r seqBefore seqAfter s) := by
  unfold execImgPut
  try dsimp only
  with_reducible repeat' first
          | assumption | exact hM.sub rfl | apply KeepsRes.next | apply eccCount_keeps | apply deviceFault_keeps
          | apply joinWaiting_keeps | apply channelMode_keeps | apply imgFail_keeps | apply imgPut_keeps | dsimp only | split

theorem imgWrite_keeps {M : Nat} {s0 s : State} (fq : Nat) (e : Entry) (addr : Nat) (b : Bytes) (hs : Keeps M s0 s) (hM : Within 0x4c4 M) :
    Keeps M s0 (imgWrite fq e addr b s) := by
  unfold imgWrite
  try dsimp only
  with_reducible repeat' first | assumption | exact hM.sub rfl | apply instWrite_keeps | dsimp only

theorem imgFront_keeps {M : Nat} {s0 s : State} (i n : Nat) (ecc : Ecc) (hs : Keeps M s0 s) (hM : Within 0xe5 M) :
    Keeps M s0 (imgFront i n ecc s).1 := by
  unfold imgFront
  try dsimp only
  with_reducible repeat' first
          | assumption | exact hM.sub rfl | apply eccCount_keeps | apply imageWordError_keeps | dsimp only | split
          | apply Keeps.upd | rfl | exact .inr rfl | exact .inl (hM.sub rfl)

theorem imgGet_keeps {M : Nat} {s0 s : State} (fq : Nat) (flipped : Bool) (back : Read) (ecc : Ecc) (e : Entry) (hs : Keeps M s0 s) (hM : Within 0xa0ba7e5 M) :
    Keeps M s0 (imgGet fq flipped back ecc e s) := by
  unfold imgGet
  try dsimp only
  with_reducible repeat' first
          | assumption | exact hM.sub rfl | apply readFailure_keeps | apply entryRead_keeps | apply chanMoves_keeps
          | apply imgHalf_keeps | apply imgFail_keeps | apply imgDone_keeps | apply imgAgain_keeps | apply imgWrite_keeps
          | apply imgFront_keeps | dsimp only | split

theorem execImgGet_keeps {M : Nat} {s0 s : State} (fq : BitVec 20) (flipped : Bool) (back : Read × Ecc) (hs : Keeps M s0 s) (hM : Within 0xa0ba7e5 M) :
    KeepsRes M s0 (execImgGet fq flipped back s) := by
  unfold execImgGet
  try dsimp only
  with_reducible repeat' first
          | assumption | exact hM.sub rfl | apply KeepsRes.next | apply joinWaiting_keeps | apply channelMode_keeps
          | apply imgFail_keeps | apply imgGet_keeps | dsimp only | split

theorem igCtrlWrite_keeps {M : Nat} {s0 s : State} (v : Word) (hs : Keeps M s0 s) (hM : Within 0x4 M) :
    Keeps M s0 (igCtrlWrite v s) := by
  unfold igCtrlWrite
  try dsimp only
  with_reducible repeat' first
          | assumption | exact hM.sub rfl | apply putF_keeps | apply putB_keeps | dsimp only | split

theorem execIgCtrlWrite_keeps {M : Nat} {s0 s : State} (v : BitVec 64) (hs : Keeps M s0 s) (hM : Within 0x84 M) :
    KeepsRes M s0 (execIgCtrlWrite v s) := by
  unfold execIgCtrlWrite
  with_reducible repeat' first
          | assumption | exact hM.sub rfl | apply KeepsRes.next | intro _ | apply setupWrite_keeps | apply igCtrlWrite_keeps

/-! ### Machine/Link.lean -/

theorem stopDma_keeps {M : Nat} {s0 s : State} (fn : Fn) (hs : Keeps M s0 s) (hM : Within 0xa09a7cd M) :
    Keeps M s0 (stopDma fn s) := by
  unfold stopDma
  try dsimp only
  with_reducible repeat' first
          | assumption | exact hM.sub rfl | apply quiesceFn_keeps | dsimp only | split | apply Keeps.upd | rfl
          | exact .inr rfl | exact .inl (hM.sub rfl)

theorem resumeDma_keeps {M : Nat} {s0 s : State} (fn : Fn) (hs : Keeps M s0 s) (hM : Within 0xa09a7c5 M) :
    Keeps M s0 (resumeDma fn s) := by
  unfold resumeDma
  try dsimp only
  with_reducible repeat' first
          | assumption | exact hM.sub rfl | intro _ | apply flushMsix_keeps | apply readConsumer_keeps
          | apply startQuiesce_keeps | apply issueOwed_keeps | dsimp only | apply Keeps.foldl | split

theorem execBusMasterEnableClear_keeps {M : Nat} {s0 s : State} (fn : Fn) (hs : Keeps M s0 s) (hM : Within 0xa09a7ed M) :
    KeepsRes M s0 (execBusMasterEnableClear fn s) := by
  unfold execBusMasterEnableClear
  try dsimp only
  with_reducible repeat' first
          | assumption | exact hM.sub rfl | apply KeepsRes.next | apply putCfg_keeps | apply linkBusy_keeps
          | apply stopDma_keeps | dsimp only | split

theorem execBusMasterEnableSet_keeps {M : Nat} {s0 s : State} (fn : Fn) (hs : Keeps M s0 s) (hM : Within 0xa09a7e5 M) :
    KeepsRes M s0 (execBusMasterEnableSet fn s) := by
  unfold execBusMasterEnableSet
  try dsimp only
  with_reducible repeat' first
          | assumption | exact hM.sub rfl | apply KeepsRes.next | apply putCfg_keeps | apply linkBusy_keeps
          | apply resumeDma_keeps | dsimp only | split

theorem quiesceWrite_keeps {M : Nat} {s0 s : State} (v : Word) (hs : Keeps M s0 s) (hM : Within 0xa09a7c5 M) :
    Keeps M s0 (quiesceWrite v s) := by
  unfold quiesceWrite
  try dsimp only
  with_reducible repeat' first
          | assumption | exact hM.sub rfl | intro _ | apply putB_keeps | apply pageChanged_keeps | apply quiesce_keeps
          | dsimp only | apply Keeps.foldl | split

theorem execQuiesce_keeps {M : Nat} {s0 s : State} (v : BitVec 64) (hs : Keeps M s0 s) (hM : Within 0xa09a7c5 M) :
    KeepsRes M s0 (execQuiesce v s) := by
  unfold execQuiesce
  with_reducible repeat' first
          | assumption | exact hM.sub rfl | apply KeepsRes.next | intro _ | apply setupWrite_keeps | apply quiesceWrite_keeps

theorem nextEpoch_keeps {M : Nat} {s0 s : State} (fn : Nat) (hs : Keeps M s0 s) (hM : Within 0x4 M) :
    Keeps M s0 (nextEpoch fn s) := by
  unfold nextEpoch
  with_reducible repeat' first | assumption | exact hM.sub rfl | apply putF_keeps

theorem cfgDefaults_keeps {M : Nat} {s0 s : State} (fn : Nat) (hs : Keeps M s0 s) (hM : Within 0x60 M) :
    Keeps M s0 (cfgDefaults fn s) := by
  unfold cfgDefaults
  try dsimp only
  with_reducible repeat' first
          | assumption | exact hM.sub rfl | dsimp only | apply Keeps.upd | rfl | exact .inr rfl | exact .inl (hM.sub rfl)

theorem flrQueue_keeps {M : Nat} {s0 s : State} (fn : Fn) (fq : Nat) (hs : Keeps M s0 s) (hM : Within 0xa09e7c5 M) :
    Keeps M s0 (flrQueue fn fq s) := by
  unfold flrQueue
  try dsimp only
  with_reducible repeat' first
          | assumption | exact hM.sub rfl | apply putQueue_keeps | apply quiesceQueue_keeps | apply drain_keeps | dsimp only
          | split

theorem flr_keeps {M : Nat} {s0 s : State} (fn : Fn) (hs : Keeps M s0 s) (hM : Within 0xa09e7e5 M) :
    Keeps M s0 (flr fn s) := by
  unfold flr
  try dsimp only
  with_reducible repeat' first
          | assumption | exact hM.sub rfl | intro _ | apply pageChanged_keeps | apply dropTagWaits_keeps
          | apply abortGroup_keeps | apply loseConsumerRead_keeps | apply drain_keeps | apply nextEpoch_keeps
          | apply cfgDefaults_keeps | apply flrQueue_keeps | dsimp only | apply Keeps.foldl | apply Keeps.upd | rfl
          | exact .inr rfl | exact .inl (hM.sub rfl)

theorem execFlr_keeps {M : Nat} {s0 s : State} (fn : Fn) (hs : Keeps M s0 s) (hM : Within 0xa09e7e5 M) :
    KeepsRes M s0 (execFlr fn s) := by
  unfold execFlr
  with_reducible repeat' first
          | assumption | exact hM.sub rfl | apply KeepsRes.next | apply linkBusy_keeps | apply flr_keeps | split

theorem execFlrDone_keeps {M : Nat} {s0 s : State} (fn : Fn) (hs : Keeps M s0 s) (hM : Within 0xa09e7e5 M) :
    KeepsRes M s0 (execFlrDone fn s) := by
  unfold execFlrDone
  with_reducible repeat' first
          | assumption | exact hM.sub rfl | apply KeepsRes.next | apply flr_keeps | split | apply Keeps.upd | rfl
          | exact .inr rfl | exact .inl (hM.sub rfl)

theorem enterDeviceD3_keeps {M : Nat} {s0 s : State} (hs : Keeps M s0 s) (hM : Within 0x327c5 M) :
    Keeps M s0 (enterDeviceD3 s) := by
  unfold enterDeviceD3
  try dsimp only
  with_reducible repeat' first
          | assumption | exact hM.sub rfl | intro _ | apply netDown_keeps | apply bypassPair_keeps | apply unarm_keeps
          | dsimp only | apply Keeps.foldl | split | apply Keeps.upd | rfl | exact .inr rfl | exact .inl (hM.sub rfl)

theorem execD3hotEntry_keeps {M : Nat} {s0 s : State} (fn : Fn) (hs : Keeps M s0 s) (hM : Within 0xa0ba7ed M) :
    KeepsRes M s0 (execD3hotEntry fn s) := by
  unfold execD3hotEntry
  try dsimp only
  with_reducible repeat' first
          | assumption | exact hM.sub rfl | apply KeepsRes.next | apply putCfg_keeps | apply linkBusy_keeps
          | apply stopDma_keeps | apply enterDeviceD3_keeps | dsimp only | split

theorem execD0Return_keeps {M : Nat} {s0 s : State} (fn : Fn) (hs : Keeps M s0 s) (hM : Within 0xa09a7e5 M) :
    KeepsRes M s0 (execD0Return fn s) := by
  unfold execD0Return
  try dsimp only
  with_reducible repeat' first
          | assumption | exact hM.sub rfl | apply KeepsRes.next | apply putCfg_keeps | apply linkBusy_keeps
          | apply resumeDma_keeps | dsimp only | split | apply Keeps.upd | rfl | exact .inr rfl | exact .inl (hM.sub rfl)

theorem raisePme_keeps {M : Nat} {s0 s : State} (bitNo : Nat) (hs : Keeps M s0 s) (hM : Within 0xa4 M) :
    Keeps M s0 (raisePme bitNo s) := by
  unfold raisePme
  try dsimp only
  with_reducible repeat' first
          | assumption | exact hM.sub rfl | apply emit_keeps | apply putB_keeps | apply putCfg_keeps | apply linkBusy_keeps
          | dsimp only | split

theorem execMagicPacket_keeps {M : Nat} {s0 s : State} (port : NPort) (hs : Keeps M s0 s) (hM : Within 0xa4 M) :
    KeepsRes M s0 (execMagicPacket port s) := by
  unfold execMagicPacket
  try dsimp only
  with_reducible repeat' first
          | assumption | exact hM.sub rfl | apply KeepsRes.next | apply raisePme_keeps | dsimp only | split

theorem execLaneSignalChange_keeps {M : Nat} {s0 s : State} (port : PPort) (gain : Bool) (hs : Keeps M s0 s) (hM : Within 0xa4 M) :
    KeepsRes M s0 (execLaneSignalChange port gain s) := by
  unfold execLaneSignalChange
  try dsimp only
  with_reducible repeat' first
          | assumption | exact hM.sub rfl | apply KeepsRes.next | apply putB_keeps | apply raisePme_keeps | dsimp only
          | split

theorem execPpsInLoss_keeps {M : Nat} {s0 s : State} (hs : Keeps M s0 s) (hM : Within 0xa4 M) :
    KeepsRes M s0 (execPpsInLoss s) := by
  unfold execPpsInLoss
  with_reducible repeat' first
          | assumption | exact hM.sub rfl | apply KeepsRes.next | apply raisePme_keeps | split

theorem execL1Entry_keeps {M : Nat} {s0 s : State} (hs : Keeps M s0 s) (hM : Within 0x80 M) :
    KeepsRes M s0 (execL1Entry s) := by
  unfold execL1Entry
  with_reducible repeat' first
          | assumption | exact hM.sub rfl | apply KeepsRes.next | apply emit_keeps | split | apply Keeps.upd | rfl
          | exact .inr rfl | exact .inl (hM.sub rfl)

theorem execLinkTrain_keeps {M : Nat} {s0 s : State} (speed : BitVec 3) (width : BitVec 5) (flit : Bool) (hs : Keeps M s0 s) (hM : Within 0xc4 M) :
    KeepsRes M s0 (execLinkTrain speed width flit s) := by
  unfold execLinkTrain
  try dsimp only
  with_reducible repeat' first
          | assumption | exact hM.sub rfl | apply KeepsRes.next | apply addErrAt_keeps | dsimp only | split | apply Keeps.upd
          | rfl | exact .inr rfl | exact .inl (hM.sub rfl)

theorem execPasidEnableChange_keeps {M : Nat} {s0 s : State} (fn : Fn) (on : Bool) (hs : Keeps M s0 s) (hM : Within 0xa09e5e4 M) :
    KeepsRes M s0 (execPasidEnableChange fn on s) := by
  unfold execPasidEnableChange
  try dsimp only
  with_reducible repeat' first
          | assumption | exact hM.sub rfl | apply KeepsRes.next | intro _ | apply putCfg_keeps | apply linkBusy_keeps
          | apply instanceFault_keeps | dsimp only | apply Keeps.foldl | split

theorem pwCommit_keeps {M : Nat} {s0 s : State} (v : Word) (hs : Keeps M s0 s) (hM : Within 0x4 M) :
    Keeps M s0 (pwCommit v s) := by
  unfold pwCommit
  try dsimp only
  with_reducible repeat' first
          | assumption | exact hM.sub rfl | intro _ | apply putReg_keeps | apply putF_keeps | dsimp only | apply Keeps.foldl
          | split

theorem execPwCommit_keeps {M : Nat} {s0 s : State} (v : BitVec 64) (hs : Keeps M s0 s) (hM : Within 0x84 M) :
    KeepsRes M s0 (execPwCommit v s) := by
  unfold execPwCommit
  with_reducible repeat' first
          | assumption | exact hM.sub rfl | apply KeepsRes.next | intro _ | apply setupWrite_keeps | apply pwCommit_keeps

theorem backViewWrite_keeps {M : Nat} {s0 s : State} (i off : Nat) (b : Bytes) (hs : Keeps M s0 s) (hM : Within 0x100200c4 M) :
    Keeps M s0 (backViewWrite i off b s) := by
  unfold backViewWrite
  try dsimp only
  with_reducible repeat' first
          | assumption | exact hM.sub rfl | apply addErr_keeps | apply putImage_keeps | apply writeBack_keeps | dsimp only
          | split

theorem viewWrite_keeps {M : Nat} {s0 s : State} (off : Nat) (b : Bytes) (hs : Keeps M s0 s) (hM : Within 0x100200c4 M) :
    Keeps M s0 (viewWrite off b s) := by
  unfold viewWrite
  with_reducible repeat' first
          | assumption | exact hM.sub rfl | apply backViewWrite_keeps | apply Keeps.dram | split | apply Keeps.upd | rfl
          | exact .inr rfl | exact .inl (hM.sub rfl)

theorem landWrite_keeps {M : Nat} {s0 s : State} (fuel off : Nat) (b : Bytes) (h : Keeps M s0 s) (hM : Within 0x100200c4 M) : Keeps M s0 (landWrite fuel off b s) := by
  induction fuel generalizing off b s with
  | zero => exact h
  | succ n ih =>
    unfold landWrite
    split
    · exact h
    · exact ih _ _ (viewWrite_keeps _ _ h hM.sub)

theorem missPeer_keeps {M : Nat} {s0 s : State} (off : Nat) (a : Aer) (hs : Keeps M s0 s) (hM : Within 0xe5 M) :
    Keeps M s0 (missPeer off a s) := by
  unfold missPeer
  with_reducible repeat' first
          | assumption | exact hM.sub rfl | apply putReg_keeps | apply addErr_keeps | apply aerReport_keeps

theorem tlpError_keeps {M : Nat} {s0 s : State} (fn : Fn) (e : TlpErr) (hs : Keeps M s0 s) (hM : Within 0xa1 M) :
    Keeps M s0 (tlpError fn e s).1 := by
  unfold tlpError
  with_reducible repeat' first | assumption | exact hM.sub rfl | apply aerReport_keeps | apply aerLink_keeps | split

theorem execPeerWrite_keeps {M : Nat} {s0 s : State} (off : BitVec 30) (data : Bytes) (err : TlpErr) (hs : Keeps M s0 s) (hM : Within 0x100200e5 M) :
    KeepsRes M s0 (execPeerWrite off data err s) := by
  unfold execPeerWrite
  try dsimp only
  with_reducible repeat' first
          | assumption | exact hM.sub rfl | apply KeepsRes.next | apply linkBusy_keeps | apply aerReport_keeps
          | apply landWrite_keeps | apply missPeer_keeps | apply tlpError_keeps | dsimp only | split

theorem execPeerRead_keeps {M : Nat} {s0 s : State} (off : BitVec 30) (hs : Keeps M s0 s) (hM : Within 0x80 M) :
    KeepsRes M s0 (execPeerRead off s) := by
  unfold execPeerRead
  try dsimp only
  with_reducible repeat' first
          | assumption | exact hM.sub rfl | apply KeepsRes.next | apply emit_keeps | apply linkBusy_keeps | dsimp only
          | split

theorem ptmStart_keeps {M : Nat} {s0 s : State} (cyc : Nat) (hs : Keeps M s0 s) (hM : Within 0x84 M) :
    Keeps M s0 (ptmStart cyc s) := by
  unfold ptmStart
  with_reducible repeat' first
          | assumption | exact hM.sub rfl | apply emit_keeps | apply putB_keeps | apply linkBusy_keeps | split
          | apply Keeps.upd | rfl | exact .inr rfl | exact .inl (hM.sub rfl)

theorem execPtmTrigger_keeps {M : Nat} {s0 s : State} (cyc : Cyc) (hs : Keeps M s0 s) (hM : Within 0x84 M) :
    KeepsRes M s0 (execPtmTrigger cyc s) := by
  unfold execPtmTrigger
  with_reducible repeat' first
          | assumption | exact hM.sub rfl | apply KeepsRes.next | intro _ | apply setupWrite_keeps | apply ptmStart_keeps

theorem execPtmPeriod_keeps {M : Nat} {s0 s : State} (cyc : Cyc) (hs : Keeps M s0 s) (hM : Within 0x84 M) :
    KeepsRes M s0 (execPtmPeriod cyc s) := by
  unfold execPtmPeriod
  with_reducible repeat' first
          | assumption | exact hM.sub rfl | apply KeepsRes.next | apply ptmStart_keeps | split | apply Keeps.upd | rfl
          | exact .inr rfl | exact .inl (hM.sub rfl)

theorem execPtmResponse_keeps {M : Nat} {s0 s : State} (master : BitVec 64) (prop : BitVec 32) (cyc : Cyc) (hs : Keeps M s0 s) (hM : Within 0x84 M) :
    KeepsRes M s0 (execPtmResponse master prop cyc s) := by
  unfold execPtmResponse
  try dsimp only
  with_reducible repeat' first
          | assumption | exact hM.sub rfl | apply KeepsRes.next | apply putReg_keeps | apply putF_keeps
          | apply linkBusy_keeps | dsimp only | split | apply Keeps.upd | rfl | exact .inr rfl | exact .inl (hM.sub rfl)

theorem execPtmTimeout_keeps {M : Nat} {s0 s : State} (hs : Keeps M s0 s) (hM : Within 0x84 M) :
    KeepsRes M s0 (execPtmTimeout s) := by
  unfold execPtmTimeout
  with_reducible repeat' first
          | assumption | exact hM.sub rfl | apply KeepsRes.next | apply putB_keeps | split | apply Keeps.upd | rfl
          | exact .inr rfl | exact .inl (hM.sub rfl)

theorem payloadReturn_keeps {M : Nat} {s0 s : State} (fn : Fn) (fq : BitVec 20) (e : Entry) (r : Read) (hs : Keeps M s0 s) (hM : Within 0x1a0fe7e5 M) :
    KeepsRes M s0 (payloadReturn fn fq e r s) := by
  unfold payloadReturn
  with_reducible repeat' first
          | assumption | exact hM.sub rfl | apply KeepsRes.next | apply execJtNodeWrite_keeps | apply execJtRuleWrite_keeps
          | apply execCtxWrite_keeps | apply execStRead_keeps | apply execStWrite_keeps | apply execStCmpwrite_keeps
          | apply execTxSend_keeps | apply execTxLaunch_keeps | apply execTxPipe_keeps | apply execImgPut_keeps
          | apply execImgGet_keeps | split

theorem workReturn_keeps {M : Nat} {s0 s : State} (fn : Fn) (w : ReadWork) (r : Read) (hs : Keeps M s0 s) (hM : Within 0x1bffe7ed M) :
    KeepsRes M s0 (workReturn fn w r s) := by
  unfold workReturn
  with_reducible repeat' first
          | assumption | exact hM.sub rfl | apply KeepsRes.next | apply fetchDescriptor_keeps | apply recordReturn_keeps
          | apply execDmaRd_keeps | apply execConsumerRecordReturn_keeps | apply execBootDescriptorFetch_keeps
          | apply execBootLoad_keeps | apply execBootFuse_keeps | apply payloadReturn_keeps | split

theorem execReadCompletion_keeps {M : Nat} {s0 s : State} (fn : Fn) (epoch : BitVec 4) (work : ReadWork) (r : Read) (hs : Keeps M s0 s) (hM : Within 0x1bffe7ed M) :
    KeepsRes M s0 (execReadCompletion fn epoch work r s) := by
  unfold execReadCompletion
  with_reducible repeat' first
          | assumption | exact hM.sub rfl | apply KeepsRes.next | apply linkBusy_keeps | apply addErrAt_keeps
          | apply workReturn_keeps | split

theorem execCompletionTimeout_keeps {M : Nat} {s0 s : State} (fn : Fn) (work : ReadWork) (hs : Keeps M s0 s) (hM : Within 0x1bffe7ed M) :
    KeepsRes M s0 (execCompletionTimeout fn work s) := by
  unfold execCompletionTimeout
  with_reducible repeat' first
          | assumption | exact hM.sub rfl | apply KeepsRes.next | apply workReturn_keeps | split

/-! ### Machine/Clove.lean -/

theorem tickTime_keeps {M : Nat} {s0 s : State} (hs : Keeps M s0 s) (hM : Within 0x1802 M) : Keeps M s0 (tickTime s) := by
  unfold tickTime
  with_reducible repeat' first
          | assumption | exact hM.sub rfl | apply Keeps.upd | rfl | exact .inr rfl | exact .inl (hM.sub rfl)

theorem tickLink_keeps {M : Nat} {s0 s : State} (hs : Keeps M s0 s) (hM : Within 0x80 M) : Keeps M s0 (tickLink s) := by
  unfold tickLink
  with_reducible repeat' first
          | assumption | exact hM.sub rfl | split | apply Keeps.upd | rfl | exact .inr rfl | exact .inl (hM.sub rfl)

theorem tickCores_keeps {M : Nat} {s0 s : State} (hs : Keeps M s0 s) (hM : Within 0x80000 M) :
    Keeps M s0 (tickCores s) := by
  unfold tickCores
  try dsimp only
  with_reducible repeat' first
          | assumption | exact hM.sub rfl | intro _ | apply putCore_keeps | dsimp only | apply Keeps.foldl | split

theorem tickHeart_keeps {M : Nat} {s0 s : State} (hs : Keeps M s0 s) (hM : Within 0x80004 M) :
    Keeps M s0 (tickHeart s) := by
  unfold tickHeart
  with_reducible repeat' first
          | assumption | exact hM.sub rfl | apply putF_keeps | split | apply Keeps.upd | rfl | exact .inr rfl
          | exact .inl (hM.sub rfl)

theorem tickCb_keeps {M : Nat} {s0 s : State} (hs : Keeps M s0 s) (hM : Within 0x2a004 M) : Keeps M s0 (tickCb s) := by
  unfold tickCb
  try dsimp only
  with_reducible repeat' first
          | assumption | exact hM.sub rfl | intro _ | apply lastPass_keeps | apply putCb_keeps | dsimp only
          | apply Keeps.foldl | apply Keeps.foldl_fst | split

theorem tickChannels_keeps {M : Nat} {s0 s : State} (hs : Keeps M s0 s) (hM : Within 0x4 M) :
    Keeps M s0 (tickChannels s) := by
  unfold tickChannels
  try dsimp only
  with_reducible repeat' first
          | assumption | exact hM.sub rfl | intro _ | apply channelMode_keeps | dsimp only | apply Keeps.foldl

theorem tickPmbus_keeps {M : Nat} {s0 s : State} (hs : Keeps M s0 s) (hM : Within 0x801 M) : Keeps M s0 (tickPmbus s) := by
  unfold tickPmbus
  try dsimp only
  with_reducible repeat' first
          | assumption | exact hM.sub rfl | apply emit_keeps | apply useFree_keeps | dsimp only | split | apply Keeps.upd
          | rfl | exact .inr rfl | exact .inl (hM.sub rfl)

theorem tickLog_keeps {M : Nat} {s0 s : State} (hs : Keeps M s0 s) (hM : Within 0xc0 M) : Keeps M s0 (tickLog s) := by
  unfold tickLog
  with_reducible repeat' first | assumption | exact hM.sub rfl | apply signalLog_keeps | split

theorem execCloveTick_keeps {M : Nat} {s0 s : State} (hs : Keeps M s0 s) (hM : Within 0xab8c7 M) :
    KeepsRes M s0 (execCloveTick s) := by
  unfold execCloveTick
  with_reducible repeat' first
          | assumption | exact hM.sub rfl | apply KeepsRes.next | apply tickTime_keeps | apply tickLink_keeps
          | apply tickCores_keeps | apply tickHeart_keeps | apply tickCb_keeps | apply tickChannels_keeps
          | apply tickPmbus_keeps | apply tickLog_keeps | split

theorem placeAfresh_keeps {M : Nat} {s0 s : State} (t n : Nat) (hs : Keeps M s0 s) (hM : Within 0x20004 M) :
    Keeps M s0 (placeAfresh t n s) := by
  unfold placeAfresh
  try dsimp only
  with_reducible repeat' first
          | assumption | exact hM.sub rfl | apply putF_keeps | apply putB_keeps | apply putSched_keeps | dsimp only | split

theorem moveDurations_keeps {M : Nat} {s0 s : State} (d : Int) (hs : Keeps M s0 s) (hM : Within 0x10000 M) :
    Keeps M s0 (moveDurations d s) := by
  unfold moveDurations
  try dsimp only
  with_reducible repeat' first
          | assumption | exact hM.sub rfl | dsimp only | apply Keeps.upd | rfl | exact .inr rfl | exact .inl (hM.sub rfl)

theorem launchAfresh_keeps {M : Nat} {s0 s : State} (t l : Nat) (x : Leaf) (hs : Keeps M s0 s) (hM : Within 0x10000 M) :
    Keeps M s0 (launchAfresh t l x s) := by
  unfold launchAfresh
  try dsimp only
  with_reducible repeat' first | assumption | exact hM.sub rfl | apply putLeaf_keeps | dsimp only | split

theorem applyStep_keeps {M : Nat} {s0 s : State} (d : Int) (cyc : Nat) (hs : Keeps M s0 s) (hM : Within 0x310c4 M) :
    Keeps M s0 (applyStep d cyc s) := by
  unfold applyStep
  try dsimp only
  with_reducible repeat' first
          | assumption | exact hM.sub rfl | intro _ | apply unarm_keeps | apply recheckArmed_keeps | apply placeAfresh_keeps
          | apply moveDurations_keeps | apply launchAfresh_keeps | dsimp only | apply Keeps.foldl | apply Keeps.foldl_fst
          | split | apply Keeps.upd | rfl | exact .inr rfl | exact .inl (hM.sub rfl)

theorem ckStep_keeps {M : Nat} {s0 s : State} (v : Word) (cyc : Nat) (hs : Keeps M s0 s) (hM : Within 0x310c4 M) :
    Keeps M s0 (ckStep v cyc s) := by
  unfold ckStep
  try dsimp only
  with_reducible repeat' first
          | assumption | exact hM.sub rfl | apply putB_keeps | apply applyStep_keeps | dsimp only | split

theorem execCkStep_keeps {M : Nat} {s0 s : State} (v : BitVec 64) (cyc : Cyc) (hs : Keeps M s0 s) (hM : Within 0x310c4 M) :
    KeepsRes M s0 (execCkStep v cyc s) := by
  unfold execCkStep
  with_reducible repeat' first
          | assumption | exact hM.sub rfl | apply KeepsRes.next | intro _ | apply setupWrite_keeps | apply ckStep_keeps

theorem execTimeLatch_keeps {M : Nat} {s0 s : State} (cyc : Cyc) (hs : Keeps M s0 s) (hM : Within 0x84 M) :
    KeepsRes M s0 (execTimeLatch cyc s) := by
  unfold execTimeLatch
  try dsimp only
  with_reducible repeat' first
          | assumption | exact hM.sub rfl | apply KeepsRes.next | intro _ | apply putReg_keeps | apply setupWrite_keeps
          | dsimp only

theorem execCloveRef_keeps {M : Nat} {s0 s : State} (hs : Keeps M s0 s) (hM : Within 0xc4 M) :
    KeepsRes M s0 (execCloveRef s) := by
  unfold execCloveRef
  with_reducible repeat' first
          | assumption | exact hM.sub rfl | apply KeepsRes.next | apply putB_keeps | apply postLog_keeps | split

theorem execPpsOutEdge_keeps {M : Nat} {s0 s : State} (hs : Keeps M s0 s) (hM : Within 0x0 M) :
    KeepsRes M s0 (execPpsOutEdge s) := by
  unfold execPpsOutEdge
  with_reducible repeat' first | assumption | apply emit_keeps | apply KeepsRes.next | split

theorem execPpsInEdge_keeps {M : Nat} {s0 s : State} (cyc : Cyc) (hs : Keeps M s0 s) (hM : Within 0x4 M) :
    KeepsRes M s0 (execPpsInEdge cyc s) := by
  unfold execPpsInEdge
  try dsimp only
  with_reducible repeat' first
          | assumption | exact hM.sub rfl | apply KeepsRes.next | apply putReg_keeps | dsimp only | split

/-! ### Machine/Windows.lean -/

theorem useFrees_keeps {M : Nat} {s0 s : State} (n : Nat) (hs : Keeps M s0 s) (hM : Within 0x1 M) :
    Keeps M s0 (useFrees n s) := by
  unfold useFrees
  with_reducible repeat' first
          | assumption | exact hM.sub rfl | apply Keeps.upd | rfl | exact .inr rfl | exact .inl (hM.sub rfl)

theorem putWords_keeps {M : Nat} {s0 s : State} (off : Nat) (ws : List Word) (h : Keeps M s0 s) (hM : Within 0x4 M) : Keeps M s0 (putWords off ws s) := by
  induction ws generalizing off s with
  | nil => exact h
  | cons w ws ih => exact ih _ (putReg_keeps _ _ h hM.sub)

theorem snapGo_keeps {M : Nat} {s0 s : State} (n cyc : Nat) (hs : Keeps M s0 s) (hM : Within 0x5 M) :
    Keeps M s0 (snapGo n cyc s) := by
  unfold snapGo
  try dsimp only
  with_reducible repeat' first
          | assumption | exact hM.sub rfl | apply putReg_keeps | apply putF_keeps | apply putB_keeps | apply useFrees_keeps
          | apply putWords_keeps | dsimp only | split

theorem execSnapshot_keeps {M : Nat} {s0 s : State} (n : Fin 4) (cyc : Cyc) (hs : Keeps M s0 s) (hM : Within 0x85 M) :
    KeepsRes M s0 (execSnapshot n cyc s) := by
  unfold execSnapshot
  with_reducible repeat' first
          | assumption | exact hM.sub rfl | apply KeepsRes.next | intro _ | apply setupWrite_keeps | apply snapGo_keeps

theorem writeThread_keeps {M : Nat} {s0 s : State} (c t : Nat) (b : Bytes) (hs : Keeps M s0 s) (hM : Within 0x80004 M) :
    Keeps M s0 (writeThread c t b s) := by
  unfold writeThread
  try dsimp only
  with_reducible repeat' first
          | assumption | exact hM.sub rfl | apply putThread_keeps | dsimp only | split | apply Keeps.upd | rfl
          | exact .inr rfl | exact .inl (hM.sub rfl)

theorem winPut_keeps {M : Nat} {s0 s : State} (code unit n : Nat) (b : Bytes) (hs : Keeps M s0 s) (hM : Within 0x11ca0004 M) :
    Keeps M s0 (winPut code unit n b s) := by
  unfold winPut
  try dsimp only
  with_reducible repeat' first
          | assumption | exact hM.sub rfl | apply placeWrite_keeps | apply putSched_keeps | apply putImage_keeps
          | apply putCb_keeps | apply writeThread_keeps | dsimp only | split | apply Keeps.upd | rfl | exact .inr rfl
          | exact .inl (hM.sub rfl)

theorem winEnd_keeps {M : Nat} {s0 s : State} (w status : Nat) (hs : Keeps M s0 s) (hM : Within 0x4 M) :
    Keeps M s0 (winEnd w status s) := by
  unfold winEnd
  try dsimp only
  with_reducible repeat' first | assumption | exact hM.sub rfl | apply putReg_keeps | dsimp only

theorem winMove_keeps {M : Nat} {s0 s : State} (w : Nat) (write : Bool) (hs : Keeps M s0 s) (hM : Within 0x11ca00c5 M) :
    Keeps M s0 (winMove w write s) := by
  unfold winMove
  try dsimp only
  with_reducible repeat' first
          | assumption | exact hM.sub rfl | intro _ | apply recheckArmed_keeps | apply useFrees_keeps | apply putWords_keeps
          | apply winPut_keeps | dsimp only | apply Keeps.foldl | split

theorem winGo_keeps {M : Nat} {s0 s : State} (w : Nat) (write : Bool) (hs : Keeps M s0 s) (hM : Within 0x11ca00c5 M) :
    Keeps M s0 (winGo w write s) := by
  unfold winGo
  try dsimp only
  with_reducible repeat' first
          | assumption | exact hM.sub rfl | apply putWords_keeps | apply winEnd_keeps | apply winMove_keeps | dsimp only
          | split

theorem execWindowRead_keeps {M : Nat} {s0 s : State} (w : Fin 4) (hs : Keeps M s0 s) (hM : Within 0x11ca00c5 M) :
    KeepsRes M s0 (execWindowRead w s) := by
  unfold execWindowRead
  with_reducible repeat' first
          | assumption | exact hM.sub rfl | apply KeepsRes.next | intro _ | apply setupWrite_keeps | apply winGo_keeps

theorem execWindowWrite_keeps {M : Nat} {s0 s : State} (w : Fin 4) (hs : Keeps M s0 s) (hM : Within 0x11ca00c5 M) :
    KeepsRes M s0 (execWindowWrite w s) := by
  unfold execWindowWrite
  with_reducible repeat' first
          | assumption | exact hM.sub rfl | apply KeepsRes.next | intro _ | apply setupWrite_keeps | apply winGo_keeps

/-! ### Machine/BarRead.lean -/

theorem completeRead_keeps {M : Nat} {s0 s : State} (fn : Fn) (off : Nat) (data : Bytes) (hs : Keeps M s0 s) (hM : Within 0x80 M) :
    Keeps M s0 (completeRead fn off data s) := by
  unfold completeRead
  try dsimp only
  with_reducible repeat' first
          | assumption | exact hM.sub rfl | intro _ | apply emit_keeps | apply linkBusy_keeps | dsimp only
          | apply Keeps.foldl | apply Keeps.foldl_fst

theorem refuseRead_keeps {M : Nat} {s0 s : State} (fn : Fn) (hs : Keeps M s0 s) (hM : Within 0x80 M) :
    Keeps M s0 (refuseRead fn s) := by
  unfold refuseRead
  with_reducible repeat' first | assumption | exact hM.sub rfl | apply emit_keeps | apply linkBusy_keeps

theorem countBar0_keeps {M : Nat} {s0 s : State} (fn : Fn) (off : Nat) (hs : Keeps M s0 s) (hM : Within 0xc4 M) :
    Keeps M s0 (countBar0 fn off s) := by
  unfold countBar0
  with_reducible repeat' first
          | assumption | exact hM.sub rfl | apply addErr_keeps | apply countUnmapped_keeps | split

theorem readBar0_keeps {M : Nat} {s0 s : State} (fn : Fn) (off len : Nat) (hs : Keeps M s0 s) (hM : Within 0xc5 M) :
    Keeps M s0 (readBar0 fn off len s) := by
  unfold readBar0
  try dsimp only
  with_reducible repeat' first
          | assumption | exact hM.sub rfl | apply useFree_keeps | apply execTimeLatch_keeps | apply nextOf_keeps
          | apply completeRead_keeps | apply countBar0_keeps | dsimp only | split

theorem badShape_keeps {M : Nat} {s0 s : State} (fn : Fn) (off : Nat) (hs : Keeps M s0 s) (hM : Within 0xe5 M) :
    Keeps M s0 (badShape fn off s) := by
  unfold badShape
  with_reducible repeat' first
          | assumption | exact hM.sub rfl | apply linkBusy_keeps | apply aerReport_keeps | apply countBar0_keeps

theorem execBadShapeAccess_keeps {M : Nat} {s0 s : State} (fn : Fn) (off : BitVec 26) (access : BarAccess) (hs : Keeps M s0 s) (hM : Within 0xa19a1e5 M) :
    KeepsRes M s0 (execBadShapeAccess fn off access s) := by
  unfold execBadShapeAccess
  with_reducible repeat' first
          | assumption | exact hM.sub rfl | apply KeepsRes.next | intro _ | apply linkBusy_keeps | apply tlpDropped_keeps
          | apply access_keeps | apply completeRead_keeps | apply refuseRead_keeps | apply readBar0_keeps
          | apply badShape_keeps | split

/-! ### Machine/RegWrite.lean -/

theorem atInstant_keeps {M : Nat} {s0 s : State} (f : Nat → State → State) (hf : ∀ a' u, Keeps M s0 u → Keeps M s0 (f a' u)) (hs : Keeps M s0 s) (hM : Within 0x1 M) :
    Keeps M s0 (atInstant f s) := by
  unfold atInstant
  with_reducible repeat' first | assumption | exact hM.sub rfl | apply hf | apply useFree_keeps

theorem msixWrite_keeps {M : Nat} {s0 s : State} (fn : Fn) (off : Nat) (m v : Word) (hs : Keeps M s0 s) (hM : Within 0xc0 M) :
    Keeps M s0 (msixWrite fn off m v s) := by
  unfold msixWrite
  try dsimp only
  with_reducible repeat' first
          | assumption | exact hM.sub rfl | apply flushMsix_keeps | dsimp only | apply Keeps.upd | rfl | exact .inr rfl
          | exact .inl (hM.sub rfl)

theorem sbCtrlWrite_advances {M : Nat} (w : Word) (s : State) (hM : Within 0xcc M) : Advances M s (sbCtrlWrite w s) := by
  unfold sbCtrlWrite
  have a : Advances M s (if bit w 0 then nextOf (execBootEnable s) s else s) := by
    split
    · exact nextOf_advances (execBootEnable_advances s hM.sub)
    · exact (Keeps.refl _ s).advances
  dsimp only
  split
  · exact a.keeps (nextOf_keeps (execGoService_keeps (Keeps.refl _ _) hM.sub))
  · exact a

theorem lastFaultWrite_keeps {M : Nat} {s0 s : State} (w : Word) (hs : Keeps M s0 s) (hM : Within 0x8 M) :
    Keeps M s0 (lastFaultWrite w s) := by
  unfold lastFaultWrite
  with_reducible repeat' first
          | assumption | exact hM.sub rfl | split | apply Keeps.upd | rfl | exact .inr rfl | exact .inl (hM.sub rfl)

theorem bayRegWrite_keeps {M : Nat} {s0 s t : State} (off b : Nat) (low : Bool) (w : Word) (hs : Keeps M s0 s)
    (e : bayRegWrite off b low w s = some t) (hM : Within 0x1e09a7c5 M) : Keeps M s0 t := by
  unfold bayRegWrite at e
  split at e
  · cases e; exact hs
  · split at e
    · cases e
      repeat' first
          | with_reducible assumption | with_reducible exact hM.sub rfl | with_reducible apply putF_keeps | with_reducible apply nextOf_keeps
          | with_reducible apply execBayPowerOn_keeps | with_reducible apply execBayPowerOff_keeps
          | with_reducible apply ite_keeps
    · split at e
      · cases e; exact nextOf_keeps (execLifeThresholdWrite_keeps _ _ _ hs hM.sub)
      · cases e

theorem some_keeps {M : Nat} {s t u : State} (h : Keeps M s t) (e : some t = some u) : Advances M s u := by
  cases e; exact h.advances

theorem ite_some_keeps {c : Prop} [Decidable c] {a b : Option State} {t : State} {P : Prop}
    (h : a = some t → P) (k : b = some t → P) (e : (if c then a else b) = some t) : P := by
  split at e
  · exact h e
  · exact k e

theorem ownWrite_advances {M : Nat} {s t : State} (off : Nat) (low : Bool) (w : Word) (e : ownWrite off low w s = some t) (hM : Within 0x1e0fa7cd M) :
    Advances M s t := by
  have i := Keeps.refl M s
  unfold ownWrite at e
  revert e
  refine ite_some_keeps (fun e => by cases e; exact sbCtrlWrite_advances w s hM.sub) ?_
  refine ite_some_keeps (some_keeps (quiesceWrite_keeps _ i hM.sub)) ?_
  refine ite_some_keeps (some_keeps (pwCommit_keeps _ i hM.sub)) ?_
  refine ite_some_keeps (some_keeps (fnShareWrite_keeps _ _ i hM.sub)) ?_
  refine ite_some_keeps (some_keeps (nextOf_keeps (execInstRegisterWrite_keeps _ _ _ _ i hM.sub))) ?_
  refine ite_some_keeps (some_keeps (npModeWrite_keeps _ i hM.sub)) ?_
  refine ite_some_keeps (some_keeps (nextOf_keeps (execHashSeedWrite_keeps _ _ i hM.sub))) ?_
  refine ite_some_keeps (some_keeps (bufCtrlWrite_keeps _ i hM.sub)) ?_
  refine ite_some_keeps (some_keeps (ite_keeps (recheckArmed_keeps (igCtrlWrite_keeps _ i hM.sub) hM.sub) i)) ?_
  refine ite_some_keeps (some_keeps (ite_keeps (nextOf_keeps (execCxCtrlWrite_keeps _ i hM.sub)) i)) ?_
  refine ite_some_keeps (some_keeps (ite_keeps (nextOf_keeps (execCgCtrlWrite_keeps _ i hM.sub)) i)) ?_
  refine ite_some_keeps (some_keeps (lastFaultWrite_keeps _ i hM.sub)) ?_
  refine ite_some_keeps (fun e => (bayRegWrite_keeps _ _ _ _ i e hM.sub).advances) ?_
  refine ite_some_keeps (some_keeps i) ?_
  intro e; cases e

theorem qeGo_keeps {M : Nat} {s0 s : State} (act : Word) (hs : Keeps M s0 s) (hM : Within 0xa09a7c5 M) :
    Keeps M s0 (qeGo act s) := by
  unfold qeGo
  with_reducible repeat' first
          | assumption | exact hM.sub rfl | apply execQeCtlEnable_keeps | apply execQeCtlDisable_keeps | apply nextOf_keeps
          | split

theorem windowGo_keeps {M : Nat} {s0 s : State} (w : Nat) (act : Word) (hs : Keeps M s0 s) (hM : Within 0x11ca00c5 M) :
    Keeps M s0 (windowGo w act s) := by
  unfold windowGo
  with_reducible repeat' first
          | assumption | exact hM.sub rfl | apply winEnd_keeps | apply winGo_keeps | split

theorem debugGo_keeps {M : Nat} {s0 s : State} (c : Nat) (act : Word) (hs : Keeps M s0 s) (hM : Within 0x80080 M) :
    Keeps M s0 (debugGo c act s) := by
  unfold debugGo
  try dsimp only
  with_reducible repeat' first
          | assumption | exact hM.sub rfl | intro _ | apply execStop_keeps | apply execResume_keeps
          | apply execDebugStep_keeps | apply nextOf_keeps | dsimp only | apply Keeps.foldl | split

theorem coreGo_keeps {M : Nat} {s0 s : State} (c : Nat) (act : Word) (hs : Keeps M s0 s) (hM : Within 0xa19a1c4 M) :
    Keeps M s0 (coreGo c act s) := by
  unfold coreGo
  try dsimp only
  with_reducible repeat' first
          | assumption | exact hM.sub rfl | apply execCoreHalt_keeps | apply execThaw_keeps | apply nextOf_keeps | dsimp only
          | split

theorem threadGo_keeps {M : Nat} {s0 s : State} (n : Nat) (act : Word) (hs : Keeps M s0 s) (hM : Within 0xa19a1c4 M) :
    Keeps M s0 (threadGo n act s) := by
  unfold threadGo
  try dsimp only
  with_reducible repeat' first
          | assumption | exact hM.sub rfl | apply execKill_keeps | apply execStart_keeps | apply nextOf_keeps | dsimp only
          | split

theorem pairGo_keeps {M : Nat} {s0 s : State} (p : Nat) (act : Word) (hs : Keeps M s0 s) (hM : Within 0x327c5 M) :
    Keeps M s0 (pairGo p act s) := by
  unfold pairGo
  try dsimp only
  with_reducible repeat' first
          | assumption | exact hM.sub rfl | intro _ | apply bypassPair_keeps | apply unarm_keeps | apply arm_keeps
          | apply atInstant_keeps | dsimp only | split

theorem netPortWritten_keeps {M : Nat} {s0 s : State} (n : Nat) (old : Word) (hs : Keeps M s0 s) (hM : Within 0xc4 M) :
    Keeps M s0 (netPortWritten n old s) := by
  unfold netPortWritten
  try dsimp only
  with_reducible repeat' first
          | assumption | exact hM.sub rfl | apply putB_keeps | apply reservePfc_keeps | apply netDown_keeps | dsimp only
          | split

theorem tmPortWritten_keeps {M : Nat} {s0 s : State} (n o : Nat) (old : Word) (hs : Keeps M s0 s) (hM : Within 0x10004 M) :
    Keeps M s0 (tmPortWritten n o old s) := by
  unfold tmPortWritten
  with_reducible repeat' first
          | assumption | exact hM.sub rfl | apply putPortBucket_keeps | apply reservePfc_keeps | split

theorem sweepWritten_keeps {M : Nat} {s0 s : State} (k : Nat) (old : Word) (hs : Keeps M s0 s) (hM : Within 0x200 M) :
    Keeps M s0 (sweepWritten k old s) := by
  unfold sweepWritten
  with_reducible repeat' first | assumption | exact hM.sub rfl | apply putSweepDue_keeps | split

theorem ppWritten_keeps {M : Nat} {s0 s : State} (off : Nat) (act : Word) (hs : Keeps M s0 s) (hM : Within 0x327c5 M) :
    Keeps M s0 (ppWritten off act s) := by
  unfold ppWritten
  try dsimp only
  with_reducible repeat' first
          | assumption | exact hM.sub rfl | intro _ | apply recheckArmed_keeps | apply scheduleChange_keeps
          | apply plantDown_keeps | apply atInstant_keeps | apply pairGo_keeps | dsimp only | split

theorem rateWritten_keeps {M : Nat} {s0 s : State} (old : Word) (hs : Keeps M s0 s) (hM : Within 0x1805 M) :
    Keeps M s0 (rateWritten old s) := by
  unfold rateWritten
  try dsimp only
  with_reducible repeat' first
          | assumption | exact hM.sub rfl | intro _ | apply putReg_keeps | apply atInstant_keeps | dsimp only
          | apply Keeps.upd | rfl | exact .inr rfl | exact .inl (hM.sub rfl)

theorem ptmWritten_keeps {M : Nat} {s0 s : State} (old act : Word) (hs : Keeps M s0 s) (hM : Within 0x85 M) :
    Keeps M s0 (ptmWritten old act s) := by
  unfold ptmWritten
  try dsimp only
  with_reducible repeat' first
          | assumption | exact hM.sub rfl | intro _ | apply ptmStart_keeps | apply atInstant_keeps | dsimp only | split
          | apply Keeps.upd | rfl | exact .inr rfl | exact .inl (hM.sub rfl)

theorem afterWrite_keeps {M : Nat} {s0 s : State} (off : Nat) (low : Bool) (old act : Word) (hs : Keeps M s0 s) (hM : Within 0x1bdbbfc5 M) :
    Keeps M s0 (afterWrite off low old act s) := by
  unfold afterWrite
  repeat' first
          | with_reducible assumption | with_reducible exact hM.sub rfl | intro _ | with_reducible apply ite_keeps | with_reducible apply paceEnabled_keeps
          | with_reducible apply nextOf_keeps | with_reducible apply execClearExtremes_keeps
          | with_reducible apply windowGo_keeps | with_reducible apply atInstant_keeps | with_reducible apply ptmWritten_keeps | with_reducible apply rateWritten_keeps
          | with_reducible apply qeGo_keeps | with_reducible apply sweepWritten_keeps
          | with_reducible apply netPortWritten_keeps | with_reducible apply tmPortWritten_keeps
          | with_reducible apply ppWritten_keeps | with_reducible apply ckStep_keeps | with_reducible apply coreGo_keeps
          | with_reducible apply threadGo_keeps | with_reducible apply debugGo_keeps | with_reducible apply snapGo_keeps

theorem writeRow_advances {M : Nat} (off : Nat) (r : RegRow) (m v : Word) (s : State) (hM : Within 0x1fdfbfcd M) : Advances M s (writeRow off r m v s) := by
  unfold writeRow
  split
  · rename_i e; exact ownWrite_advances _ _ _ e hM.sub
  · exact (afterWrite_keeps _ _ _ _ (putReg_keeps _ _ (Keeps.refl _ s) hM.sub) hM.sub).advances

theorem writePf0_advances {M : Nat} (off : Nat) (m v : Word) (s : State) (hM : Within 0x1fdfbfcd M) : Advances M s (writePf0 off m v s) := by
  have i := Keeps.refl M s
  unfold writePf0
  split
  · exact (ite_keeps (msixWrite_keeps _ _ _ _ i hM.sub) i).advances
  · split
    · exact (countUnmapped_keeps _ i hM.sub).advances
    · split
      · exact i.advances
      · split
        · exact i.advances
        · split
          · exact (countUnmapped_keeps _ i hM.sub).advances
          · exact writeRow_advances _ _ _ _ _ hM.sub

theorem writePf_keeps {M : Nat} {s0 s : State} (fn : Fn) (off : Nat) (m v : Word) (hs : Keeps M s0 s) (hM : Within 0xc4 M) :
    Keeps M s0 (writePf fn off m v s) := by
  unfold writePf
  with_reducible repeat' first
          | assumption | exact hM.sub rfl | apply addErr_keeps | apply msixWrite_keeps | split

theorem registerWrite_advances {M : Nat} (fn : Fn) (off : Nat) (four : Bool) (v : Word) (s : State) (hM : Within 0x1fdfbfcd M) :
    Advances M s (registerWrite fn off four v s) := by
  unfold registerWrite
  dsimp only
  split
  · exact writePf0_advances _ _ _ _ hM.sub
  · exact (writePf_keeps _ _ _ _ (Keeps.refl _ s) hM.sub).advances

theorem execRegisterWrite_advances {M : Nat} (fn : Fn) (off : BitVec 26) (four : Bool) (v : BitVec 64) (s : State) (hM : Within 0x1fdfbfed M) :
    AdvancesRes M s (execRegisterWrite fn off four v s) := by
  unfold execRegisterWrite
  exact .ite (execBadShapeAccess_keeps _ _ _ (Keeps.refl _ s) hM.sub).advances (.next (by
    split
    · exact (linkBusy_keeps (Keeps.refl _ s) hM.sub).then_advances rfl
        ⟨List.suffix_rfl, fun p hp => by cases p <;> first | rfl | exact absurd hM.sub (not_within hp)⟩ (registerWrite_advances _ _ _ _ _ hM.sub)
    · exact (tlpDropped_keeps (Keeps.refl _ s) hM.sub).advances))

end Sys2Proof.Machine
end

