-- ==== Sys2Proof/Laws/Link.lean ====
section
/-! SUPPORT. What the shared operations of the host link and of the log can do: each changes the link, adds outputs and
writes the registers its lemma names, and nothing else of the block. -/
namespace Sys2Proof.Machine

/-- A read of host memory issued with a tag is an output and changes the link. -/
theorem issueTagged_frame (fn : Fn) (pasid : Option (BitVec 20)) (addr len : Nat) (w : ReadWork) (t : BitVec 14) (s : State) :
    ∃ l, issueTagged fn pasid addr len w t s = { s with link := l, out := .hostRead fn pasid addr len w t :: s.out } := by
  unfold issueTagged; simp only; split <;> exact ⟨_, rfl⟩

/-- A read of host memory changes the link and the outputs only. -/
theorem hostRead_frame (fn : Fn) (pasid : Option (BitVec 20)) (addr len : Nat) (w : ReadWork) (s : State) :
    ∃ l o, hostRead fn pasid addr len w s = { s with link := l, out := o } := by
  unfold hostRead; split
  · exact (issueTagged_frame ..).imp fun _ h => ⟨_, h⟩
  · split
    · exact ⟨_, _, rfl⟩
    · exact (issueTagged_frame ..).imp fun _ h => ⟨_, h⟩

/-- A read that does not stay out for its answer is emitted at once, with some tag. -/
theorem hostRead_out (fn : Fn) (pasid : Option (BitVec 20)) (addr len : Nat) (w : ReadWork) (s : State)
    (hw : staysOut w = false) : ∃ t, (hostRead fn pasid addr len w s).out = .hostRead fn pasid addr len w t :: s.out := by
  unfold hostRead; split
  · exact ⟨_, congrArg State.out (issueTagged_frame ..).choose_spec⟩
  · rw [if_neg (by simp [hw])]; exact ⟨_, congrArg State.out (issueTagged_frame ..).choose_spec⟩

/-- The end of a read, which may issue one that waited for a tag, changes the link and the outputs only. -/
theorem hostReadDone_frame (fn : Fn) (w : ReadWork) (s : State) :
    ∃ l o, hostReadDone fn w s = { s with link := l, out := o } := by
  unfold hostReadDone issueWaiting; split
  · exact (issueTagged_frame ..).imp fun _ h => ⟨_, h⟩
  · exact ⟨_, _, rfl⟩

/-- An error report changes the link, the outputs and the count of free values (its logged header) only. -/
theorem aerReport_frame (fn : Fn) (a : Aer) (s : State) :
    ∃ l o n, aerReport fn a s = { s with link := l, out := o, freeCtr := n } := by
  unfold aerReport aerRecord aerBits aerHeaderLog; simp only; split <;> (try split) <;> exact ⟨_, _, _, rfl⟩

/-- A vector signalled changes the link and the outputs only. -/
theorem signalMsix_frame (fn : Fn) (v : Nat) (s : State) :
    ∃ l o, signalMsix fn v s = { s with link := l, out := o } := by
  unfold signalMsix; split
  · split <;> exact ⟨_, _, rfl⟩
  · exact ⟨_, _, rfl⟩

/-- The log's interrupt changes the link and the outputs only. -/
theorem signalLog_frame (s : State) : ∃ l o, signalLog s = { s with link := l, out := o } := by
  unfold signalLog
  cases s.link.logSignalled with
  | none => exact (signalMsix_frame 0 0 _).imp fun _ => .imp fun _ h => h
  | some t =>
    simp only; split
    · exact (signalMsix_frame 0 0 _).imp fun _ => .imp fun _ h => h
    · exact ⟨_, _, rfl⟩

/-- A log entry changes the log's registers, the link and the outputs only. -/
theorem postLogAt_frame (c k b : Nat) (x y z : Word) (s : State) :
    ∃ l o r, postLogAt c k b x y z s = { s with link := l, out := o, regs := r } := by
  have p : ∀ off v (u : State), ∃ r, putReg off v u = { u with regs := r } := fun _ _ _ => ⟨_, rfl⟩
  unfold postLogAt; simp only
  generalize BitVec.ofNat 64 (_ + _ * 2 ^ 32 + _ + _) = a
  generalize BitVec.ofNat 64 (_ % 2 ^ 32) = n
  generalize (_ + _ - 1) % 1024 = k
  obtain ⟨r0, h0⟩ := p (FX_LOG_ENTRY k 0) a s
  obtain ⟨r1, h1⟩ := p (FX_LOG_ENTRY k 1) z { s with regs := r0 }
  obtain ⟨r2, h2⟩ := p (FX_LOG_ENTRY k 2) x { s with regs := r1 }
  obtain ⟨r3, h3⟩ := p (FX_LOG_ENTRY k 3) y { s with regs := r2 }
  obtain ⟨r4, h4⟩ := p FX_LOG_SEQ n { s with regs := r3 }
  obtain ⟨l, o, h⟩ := signalLog_frame { s with regs := r4 }
  exact ⟨l, o, r4, by rw [h0, h1, h2, h3, h4, h]⟩

/-- An error counter changes its register and, when it saturates, what a log entry changes. -/
theorem addErrAt_frame (off lo n : Nat) (s : State) :
    ∃ l o r, addErrAt off lo n s = { s with link := l, out := o, regs := r } := by
  unfold addErrAt; simp only; split
  · obtain ⟨l, o, r, h⟩ := postLogAt_frame logCounterSaturated 0 (match blockOf off with | some b => b.num | none => 0)
      (BitVec.ofNat 64 off) 0 (now64 s) (putF off lo 32 (min 0xFFFFFFFF (rf s off lo 32 + n)) s)
    exact ⟨l, o, r, h⟩
  · exact ⟨_, _, _, rfl⟩

/-- A correctable fault counts in its register and is reported: nothing else of the block changes. -/
theorem correctable_frame (off : Nat) (s : State) :
    ∃ l o n r, correctable off s = { s with link := l, out := o, freeCtr := n, regs := r } := by
  obtain ⟨l, o, r, h⟩ := addErrAt_frame off 0 1 s
  obtain ⟨l', o', n, h'⟩ := aerReport_frame 0 .correctedInternal (addErr off 1 s)
  have h : addErr off 1 s = { s with link := l, out := o, regs := r } := h
  rw [h] at h'; exact ⟨l', o', n, r, by rw [correctable, h, h']⟩

/-- A write that a closed BAR drops restarts the idle time of a live link, and changes nothing else. -/
theorem tlpDropped_frame (s : State) : ∃ l, tlpDropped s = { s with link := l } := by
  unfold tlpDropped; split <;> exact ⟨_, rfl⟩

end Sys2Proof.Machine
end

