-- ==== Sys2Proof/WellFormed.lean ====
section
/-! DEFINITION. Well-formed commands: what can reach the block from outside. Every check is a fact of the outside world (a
link's lane counts, the length of a list the hardware delivers whole), not a rule that the block enforces; `exec` answers
ill-formed commands too, by the rules that its meaning cites. -/
namespace Sys2Proof

/-- Thread 0 is the only one of the housekeeping core (R395, R530). -/
def hkThread (core : CoreHk) (t : Thr) : Bool := core.val != 32 || t.val == 0

/-- A frame has at least its two addresses and its type, and no more octets than a MAC takes in. -/
def frameWf (b : Bytes) : Bool := decide (14 ≤ b.length) && decide (b.length ≤ 65535)

/-- Identify data of a pack: serial and model numbers of their sizes, and the namespaces of one list (R470, R526). -/
def PackIdent.wf (p : PackIdent) : Bool :=
  p.serial.length == 20 && p.model.length == 40 && decide (p.namespaces.length ≤ 1024)

/-- A read that a flow core has outstanding names a thread that exists. -/
def ReadWork.wf (w : ReadWork) : Bool :=
  match w with
  | .flowCore core t => hkThread core t
  | .doorbell _ | .descriptor _ | .consumer _ | .bootDescriptor | .bootImage | .payload _ _ => true

/-- Records of a journal stand in the order of their seq, and each has its members' data. -/
def JournalMedia.wf (m : JournalMedia) : Bool :=
  match m with
  | .journal _ _ _ _ records => records.all (fun r => !r.members.isEmpty) &&
      (records.zip (records.drop 1)).all (fun p => decide (p.1.seq.toNat < p.2.seq.toNat))
  | .blank | .foreign | .readFailed => true

/-- A command is well formed. -/
def Instr.wf (i : Instr) : Bool :=
  match i with
  | .bypassFrame _ frame _ => frameWf frame
  | .configurationRequest _ off => off.toNat % 4 == 0
  | .flr fn => fn != 0
  | .flrDone fn => fn != 0
  | .linkTrain speed width _ => decide (1 ≤ speed.toNat) && decide (speed.toNat ≤ 6) && [1, 2, 4, 8, 16].contains width.toNat
  | .registerWrite _ off four v => off.toNat % (if four then 4 else 8) == 0 && (!four || decide (v.toNat < 2 ^ 32))
  | .peerWrite off data _ => !data.isEmpty && decide (off.toNat + data.length ≤ 2 ^ 30)
  | .readCompletion _ _ work _ => work.wf
  | .completionTimeout _ work => work.wf
  | .paceWindow completions => completions.length == 8
  | .hint _ _ _ bytes _ => decide (1 ≤ bytes) && decide (bytes ≤ 8)
  | .networkFrameReceive _ frame _ _ _ => frameWf frame
  | .pfcReceive _ _ quanta => quanta.length == 8
  | .plantFrameReceive _ frame _ _ => frameWf frame
  | .mailboxDelivery core mbox => core.val != 32 || decide (mbox.val < 8)
  | .bayLinkUp _ speed width => decide (1 ≤ speed.toNat) && decide (speed.toNat ≤ 5) && [1, 2, 4].contains width.toNat
  | .bayInitDone _ ident => (match ident with | none => true | some p => p.wf)
  | .journalOpen _ media => media.wf
  | .tempSensorRead die _ _ => die.length == 16
  | .longStallEnd core t | .fcAdd core t _ | .fcSub core t _ | .fcAnd core t _ | .fcOr core t _ | .fcXor core t _
  | .fcShl core t _ | .fcShr core t _ | .fcSar core t _ | .fcSeq core t _ | .fcSlt core t _ | .fcSltu core t _
  | .fcMul core t _ | .fcMulhu core t _ | .fcDstep core t _ | .fcSltu128 core t _ | .fcClz core t _
  | .fcPopc core t _ | .fcBswap core t _ | .fcAddi core t _ | .fcAndi core t _ | .fcOri core t _ | .fcXori core t _
  | .fcShli core t _ | .fcShri core t _ | .fcSari core t _ | .fcSeqi core t _ | .fcSlti core t _
  | .fcSltui core t _ | .fcExtu core t _ | .fcMovi core t _ | .fcLim core t _ | .fcLd core t _ | .fcSt core t _
  | .fcSwap core t _ | .fcFadd core t _ | .fcCas core t _ | .fcBc core t _ | .fcJal core t _ | .fcJr core t _
  | .fcClaim core t _ | .fcPut core t _ | .fcSend core t _ | .fcRecv core t _ | .fcPoll core t _ | .fcHalt core t _
  | .fcWait core t _ | .fcTime core t _ | .fcTick core t _ | .fcTid core t _ | .fcYield core t _ | .fcBkpt core t _
  | .fcFault core t _ | .dmaRd core t _ _ | .dmaWr core t _ | .pktRead core t _ | .pktWrite core t _
  | .pktSend core t _ | .pktFree core t _ | .pktNew core t _ | .lookup core t _ | .crypt core t _ | .count core t _
  | .gopen core t _ | .gjoin core t _ | .gclose core t _ | .stop core t | .resume core t
  | .debugStep core t => hkThread core t
  | .vddAonGood _ _ | .plantReferenceStable | .bypassStart | .vddAonLoss | .perstAssert | .perstRelease
  | .fuseSenseDone | .bistDone _ | .dramTrainDone _ | .stage1Done | .rrsPeriodEnd | .configWrite _ _ _
  | .bootEnable | .goService | .stage3Entry | .bootDescriptorFetch _ | .bootLoad _ | .bootFuse _ | .fuseLinkBurn _
  | .hotReset | .dlDown | .flrPf0 | .d3hotEntry _ | .d0Return _ | .busMasterEnableClear _ | .busMasterEnableSet _
  | .pasidEnableChange _ _ | .badShapeAccess _ _ _ | .peerRead _ | .pwCommit _ | .quiesce _ | .ptmTrigger _
  | .ptmPeriod _ | .ptmResponse _ _ _ | .ptmTimeout | .l1Entry | .magicPacket _ | .laneSignalChange _ _
  | .ppsInLoss | .cloveTick | .clearExtremes | .temp _ | .vcore | .thermTrip | .doorbellRecordReturn _ _ _
  | .sweep _ _ | .descriptorFetch _ _ _ _ | .completionBatch _ _ | .nop _ _ | .countDelta _ _ | .queueConfig _
  | .queueEnable _ | .queueDisable _ | .disableDone _ _ | .queueResume _ | .evqConfig _ | .qeCtlEnable
  | .qeCtlDisable | .consumerRecordReturn _ _ _ | .overflowReread _ _ | .interruptMessage _ | .instEnable _
  | .instDisable _ | .instReset _ | .dlogEpoch _ | .drainComplete _ _ | .fnShareWrite _ _
  | .instRegisterWrite _ _ _ _ | .npModeWrite _ | .networkLinkUp _ | .deal _ | .parseNop _ _ _ | .parseMov _ _ _
  | .parseAdd _ _ _ | .parseSub _ _ _ | .parseAnd _ _ _ | .parseOr _ _ _ | .parseXor _ _ _ | .parseShl _ _ _
  | .parseShr _ _ _ | .parseCmpeq _ _ _ | .parseCmplt _ _ _ | .parseTest _ _ _ | .parseRange _ _ _
  | .parseAdvance _ _ _ | .parseSetcur _ _ _ | .parseMark _ _ _ | .parseTag _ _ _ | .parseTunnel _ _ _
  | .parseEmit _ _ _ | .parseSetf _ _ _ | .parseCsum _ _ _ | .parseHash _ _ _ | .parseMalf _ _ _ | .stepLimit _ _
  | .reorderRelease _ _ | .classifyStage _ _ _ | .headerEdit _ _ | .epochFlip _ | .actWrite _ | .jtNodeWrite _ _
  | .jtRuleWrite _ _ | .jtRootWrite _ | .dirWrite _ | .staWrite _ | .lpmWrite _ | .staFlush _ | .hashSeedWrite _ _
  | .learnRequest _ | .learnApply _ | .ageTick _ | .txSend _ _ _ | .txLaunch _ _ _ | .txPipe _ _ _ | .rxBuf _ _
  | .rxDeliver _ _ _ | .spillReturn _ | .scheduleChoice _ _ _ | .bucketSweep _ | .pfcRefresh _ _ | .pfcXon _ _
  | .pfcPauseExpiry _ _ | .tmLeafWrite _ | .tmGroupWrite _ | .tmClassWrite _ | .tmMeterWrite _ | .bufCtrlWrite _
  | .plantRelease _ _ | .plantFrameEnd _ _ _ | .streamWrite _ | .gateIntervalEnd _ | .cycleStart _
  | .scheduleChange _ _ | .scheduleSwitch _ | .launchEligible _ | .launchLate _ | .ckStep _ _ | .timeLatch _
  | .cloveRef | .ppsOutEdge | .ppsInEdge _ | .arm _ _ | .disarm _ | .release _ _ | .takeoverTime _ | .pairTaken _ _
  | .rxImageFlip _ | .imgPut _ _ _ _ | .imgGet _ _ _ | .igCtrlWrite _ | .ctxWrite _ _ | .ctxClear _
  | .contextFill _ _ | .cxCtrlWrite _ | .msgPost _ _ | .turnLimit _ | .threadSwitch _ | .kill _ _ | .start _ _
  | .coreHalt _ | .thaw _ | .closedWait _ | .hkHeartbeat | .stRead _ _ _ | .stWrite _ _ _ _ | .stFlush _ _
  | .stZero _ _ | .stTrim _ _ | .stCmpwrite _ _ _ _ | .nsConfig _ | .stElogConfig _ | .admission | .lockGrant _
  | .packCompletion _ _ _ _ _ | .bayPowerOn _ | .bayPowerOff _ _ | .presenceChange _ _ | .powerSettle _
  | .bayTrainingTimeout _ | .bayReadyTimeout _ | .packFailure _ _ | .shutdownComplete _ | .attentionButton _
  | .lifePoll | .pollAnswer _ _ _ _ | .lifeThresholdWrite _ _ _ | .nsRebuild _ | .rebuildChunk _ _ | .commitPoint _
  | .journalSubmit _ | .retireAppend _ | .journalClose _ | .cgDiscard _ | .cgCtrlWrite _ | .snapshot _ _
  | .windowRead _ | .windowWrite _ | .mctpMessage _ _ | .jtagInstruction _ | .networkLinkDown _ | .plantLinkUp _
  | .plantLinkDown _ | .vppFuseChange _ | .plantReferenceLoss => true

end Sys2Proof
end

