-- ==== Sys2Proof/Tests/Slice0.lean ====
section
/-! SUPPORT. Tests: well-formedness, the spec's own examples, and for every statement of Obligations.lean with hypotheses a
witness that they can be met together, one state and operands for each of its clauses, at the ends of their ranges. -/
namespace Sys2Proof.Tests.Slice0
open Sys2Proof Sys2Proof.Machine
set_option Elab.async false

/-! ### Small states -/

/-- The fuses of the tests: the profile VYM-8420-PA with key hashes 0. -/
def testProt : ProtFuses := { ProtFuses.none with setup := 0x01F300AAAA0F#64 }
/-- A fuse block of three such copies. -/
def testFuses : Fuses := { identity := Fuses.initial.identity, copyA := testProt, copyB := testProt, copyC := testProt }
/-- Configuration space of a function in service. -/
def svCfg : FnCfg :=
  { FnCfg.reset with busMaster := true, memSpace := true, msixEnable := true, pmeEnable := true, aspmL1 := true, ptmEnable := true }

/-- The start state in service. -/
def svLife : Life :=
  { Life.dark testFuses with aonGood := true, refStable := true, bypassUp := true, perst := false, powerUp := false, stage := 3, stage1Done := true, fusesSensed := true, bistDone := true, dramDone := true, vppOk := true, hkLoaded := true, parseLoaded := 0x1F, sensed := testProt, smbusUp := true }

def on0 : Inst := { Inst.none with state := .on }

/-- The block in service: stage 3, every function's BARs open, instance 0 of each function ON. -/
def sv : State :=
  { State.reset with life := svLife, link := { Link.reset with cfg := [(0, svCfg), (1, svCfg), (2, svCfg), (3, svCfg)], up := true }, im := { insts := [(0, on0), (1024, on0), (2048, on0), (3072, on0)], filter := [] } }

/-- The same with a change of the start state, or with a register set. -/
def lv (f : Life → Life) : State := { sv with life := f sv.life }
def rg (off v : Nat) (s : State) : State := putReg off (BitVec.ofNat 64 v) s
def cfgd (f : FnCfg → FnCfg) : State := { sv with link := { sv.link with cfg := sv.link.cfg.map (fun e => (e.1, f e.2)) } }

/-- Stage 1 as it is entered. -/
def at1 : State := { sv with life := { Life.dark testFuses with aonGood := true, perst := false, stage := 1 } }

/-- A descriptor of an opcode with its later words, an entry that holds it, and a queue of a kind that holds entries. -/
def dsc (op : Nat) (ws : List Nat) : Bytes := slice (leBytes 8 (16 * op + 4) ++ leBytes 8 0 ++ ws.flatMap (leBytes 8) ++ List.replicate 64 0) 0 64
def en (d : Bytes) : Entry :=
  { idx := 0, desc := d, gen := 0, phase := .fetched, failed := false, status := 0, aux := 0, results := none, group := none, after := none, built := none, met := .good }
def qu (kind : Nat) (es : List Entry) : Queue := { Queue.none with w0 := BitVec.ofNat 64 (32 * kind + 1), qstate := .running, entries := es }
def withQ (fn fq : Nat) (q : Queue) (s : State) : State := { s with q := { s.q with queues := tabSet (fun _ => Queue.none) s.q.queues (queueKey fn fq) q } }

/-- The block in service with one CTL entry in queue 5 of PF0. -/
def ctl (op : Nat) (ws : List Nat) : State := withQ 0 5 (qu 4 [en (dsc op ws)]) sv

/-- Peer window 1 covers one mebibyte of BAR4 from offset 2^20. -/
def pwS : State := rg (HL_PW_ACTIVE_A 1) 0x400000100001 (rg (HL_PW_ACTIVE_B 1) 0x1 sv)

/-- A frame of 60 bytes, and the block in service that holds one as frame 0. -/
def fr0 : Frame :=
  { bytes := List.replicate 60 0, fcsOk := true, source := 0, port := 0, pass := 0, src0 := 0, pl := 0, loc := .waiting, rxTime := ⟨0, 0, 0, 0⟩, endTime := ⟨0, 0, 0, 0⟩, epoch := 0, record := List.replicate 64 0, mdata := List.replicate 64 0, result := .pending, disp := .none, mirrors := [], copies := 0, editProg := 0, ctx := none, counts := [], debits := [], rebuilt := false, owner := none, tx := none, launch := none, buf := 0 }
def held (x : Frame) : State := putFrame 0 x sv

/-- The block with one source of a pipeline. -/
def src (pl k : Nat) (w r : List Nat) (s : State) : State := putSrc pl k { SourceQ.empty with wait := w, rob := r } s

def sh0 : Shadow := { pl := 0, kind := .action, key := 5, value := [1], tag := some 1, group := none, writer := none }
def shadowed (xs : List Shadow) : State := { sv with tab := { sv.tab with shadows := xs } }
def planKeys : Plan → List (Nat × Nat × Bytes) | .write _ ks => ks | _ => []
def lq : LearnReq := { mac := 1, bd := 1, port := 0, ts := ⟨0, 0, 0, 0⟩ }
def learn (l : Learner) : State := putLearner 0 l sv
def evq (fn n : Nat) (e : Evq) : State := { sv with q := { sv.q with evqs := [(evqKey fn n, e)] } }

/-- A parse unit that executes the word at 0 of pipeline 0, and the state that holds it. -/
def pu (layer : BitVec 2) (tags : Nat) : ParseUnit :=
  { ParseUnit.idle with frame := some 0, layer := layer, record := splice (List.replicate 64 0) 3 [BitVec.ofNat 8 (4 * tags)] }
def pw (op : Nat) (u : ParseUnit) : State :=
  let s := putUnit 0 0 u (held fr0)
  { s with pipe := { s.pipe with cs := [(0, csWord op)] } }

theorem pw_ready (op : Fin 24) (layer : Fin 4) (tags : Fin 9) (h : op.val ≠ 15) :
    WordReady (pw op.val (pu (BitVec.ofFin layer) tags.val)) 0 0 op.val 0 fr0 (pu (BitVec.ofFin layer) tags.val) (microWord (BitVec.ofNat 128 op.val)) 0 0 := by
  constructor
  · revert op layer tags; decide +kernel
  · rfl
  · rfl
  · revert op layer tags; decide +kernel
  · exact ⟨op.val, by revert op layer tags; decide +kernel, rfl⟩
  · revert op; decide +kernel
  · revert op; decide +kernel
  · exact ⟨0, by revert op layer tags; decide +kernel, by revert op layer tags; decide +kernel, by revert op layer tags; decide +kernel⟩

def up7 : State := rg (NP_PORT_CTRL 7) 0x10000000001 sv
def badEdit : Frame := { fr0 with bytes := List.replicate 65 0, loc := .edit, disp := .forward 9 }
def goodEdit : Frame := { fr0 with loc := .edit, disp := .forward 9 }
def full7 : State :=
  rg (TM_PORT_B 7) 0 { up7 with tm := { up7.tm with bufs := [(9, { cells := 180223, region := .shared, port := 0, prio := 0, users := 1 })] } }

def buf0 : Buf := { cells := 1, region := .shared, port := 0, prio := 0, users := 1 }

/-- A NET_TX entry of 60 bytes in queue 5 of PF1, and the states that its TX_SEND passes. -/
def txE : Entry := en (dsc 1 [0x1000, 60])
def txS : State := withQ 1 5 (qu 0 [txE]) sv
def txV : State := (txSegs txE.desc).foldl (fun s x => entryRead 1 5 txE x.1 x.2 s) (joinWaiting 1 5 txS)
def txW : State := (txBuild 1 5 txE.desc (slice (List.replicate 60 0) 0 (txTotal txE.desc)) txV).1
def txX : State × Nat := hostFrame 1 5 txE (List.replicate 60 0) 0 none txW.tm.nextBuf (freshBuf 60 txW)

/-- The same entry with its frame built. -/
def txB : Entry := { txE with built := some (List.replicate 60 0) }
def txBS : State := withQ 1 5 (qu 0 [txB]) sv
def txBX : State × Nat :=
  hostFrame 1 5 txB (List.replicate 60 0) 0 none (joinWaiting 1 5 txBS).tm.nextBuf (freshBuf 60 (joinWaiting 1 5 txBS))

/-- The same for a TX_PIPE, with the packet buffer free and full. -/
def pipeE (n : Nat) : Entry := en (dsc 3 [0x1000, n])
def pipeS (n : Nat) : State := withQ 1 5 (qu 0 [pipeE n]) sv
def pipeV (s : State) (n : Nat) : State := entryRead 1 5 (pipeE n) (le (pipeE n).desc 0x10 8) n (joinWaiting 1 5 s)
def pipeFull : State :=
  { pipeS 60 with tm := { (pipeS 60).tm with bufs := [(9, { cells := 180223, region := .shared, port := 0, prio := 0, users := 1 })] } }
def pipeX : State × Nat :=
  hostFrame 1 5 (pipeE 14) (slice (List.replicate 14 0) 0 14) (lef (pipeE 14).desc 0x18 16 2) none (pipeV (pipeS 14) 14).tm.nextBuf
    (admitIngress 12 (slice (List.replicate 14 0) 0 14) (pipeV (pipeS 14) 14)).1

/-- An RX buffer of a length in queue 5 of PF1, with frame 0 to deliver. -/
def rxE (n : Nat) : Entry := en (dsc 0x20 [0x1000, n])
def rxS (n : Nat) : State := putDelivering (queueKey 1 5) [0] (putFrame 0 fr0 (withQ 1 5 (qu 1 [rxE n]) sv))

def leafed (l : Nat) (fs : List Nat) (s : State) : State := putLeaf l { Leaf.empty with config := 0x10000, frames := fs } s

/-- Network port 7 with frame 0 on leaf 5, every node of its path enabled. -/
def chooseS (x : Frame) : State :=
  let s := leafed 5 [0] (putFrame 0 x (putBuf 0 buf0 up7))
  putGroup 0 { TmNode.empty with config := 0x10000 } (putClass 0 { TmNode.empty with config := 0x87 } s)
def staleX : Frame := { fr0 with owner := some { fn := 1, inst := 0, gen := 5 } }

/-- Plant port 3 up, and what its receipt of 60 bytes passes. -/
def plS : State := rg (PP_PORT_A 3) 0x100000000 sv
def plT : Clock := clockShift (clockAt plS 0) (-(65536 * rxCorr plS 11))
def plU : State := addStat (PP_RX_OCTETS 3) 64 (addStat (PP_RX_FRAMES 3) 1 plS)
def plV : State := (admitIngress 11 (List.replicate 60 0) plU).1
def plW : State × Nat := addFrame (rxFrame plU (List.replicate 60 0) true 4 3 4 plT plT plU.tm.nextBuf) plV
def rx0 : PlantRx :=
  { frame := 0, port := 3, ended := none, released := false, handoff := none, deposit := none, learns := false, recovered := none, copies := [] }
def plHeld (x : Frame) (r : PlantRx) : State :=
  let s := src 4 19 [] [0] (held x)
  { s with plant := { s.plant with rx := [r] } }

def frC : Frame := { fr0 with result := .committed }
def plY (x : Frame) : Frame := { x with loc := .plant, record := splice x.record 0 (beBytes 2 x.len) }
def plRU (x : Frame) : State :=
  let s := plHeld x { rx0 with ended := some true }
  mapRx 0 (fun z => { z with released := true }) (putFrame 0 (plY x) (putSrc 4 (plantSrc 3) { srcOf s 4 (plantSrc 3) with rob := [] } s))
def plRV (x : Frame) : State :=
  advanceRetired 4 (match (plY x).result with | .malformed reason => malformedAction 4 0 reason.toNat (plRU x) | _ => plantChain 0 (plY x) .good (plRU x))
def plRZ : PlantRx := ((plRV frC).plant.rx.find? (fun z => z.frame == 0)).getD rx0

def set2 : SchedSet := { base := 0, cycle := 2000, list := [0x3E800000001, 0x3E800000000] }
def sched (n : Nat) (x : Sched) : State := putSched n x sv

/-- Leaf 5 on plant port 3, with frame 0 on it. -/
def launchS (x : Frame) : State := leafed 5 [0] (putFrame 0 x (putClass 0 { TmNode.empty with config := 11 } sv))

/-- Pair 1 with every check of R332 passed, in a state. -/
def pairS (m : PairMode) : State :=
  let g : SchedSet := { base := 0, cycle := 1000000, list := [0xF424000000000] }
  let s := rg (PP_PORT_A 2) 0x100000001 (rg (PP_PORT_A 3) 0x100000001 (rg (PP_PAIR_A 1) 1 sv))
  let s := putSched 2 { Sched.empty with oper := some g } (putSched 3 { Sched.empty with oper := some g } s)
  let s := putImage 7 { Image.empty with host := 25 } s
  { s with life := { s.life with strap0 := 0, strap1 := 0 }, plant := { s.plant with pairs := [.reset, { state := m, takeAt := 0 }] } }
def pairOnly (m : PairMode) : State := { sv with plant := { sv.plant with pairs := [.reset, { state := m, takeAt := 0 }] } }

/-- Queue 5 of PF3 as an IMG queue with one entry, the engine and channel 0 on, and image 7 with a host word. -/
def imgS (op : Nat) (ws : List Nat) (host flips : Nat) : State :=
  putImage 7 { Image.empty with host := BitVec.ofNat 64 host, flips := BitVec.ofNat 32 flips, shown := decide (flips ≠ 0) }
    (rg IG_CTRL 1 (rg (IG_CHAN_A 0) 1 (withQ 3 5 (qu 5 [en (dsc op ws)]) sv)))

/-- A running thread, and the block with it as thread 7 of core 31, at word 0 of the core's code. -/
def thr : Thread := { Thread.reset with state := .running }
def fcW (w : Nat) (x : Thread) : State :=
  { sv with fc := { sv.fc with threads := [(255, x)], code := [(32768 * 31, BitVec.ofNat 32 w)] } }
def ch0 : Chn := .local 31 0
def chanS (w : Nat) (x : Thread) (c : Channel) : State := putChan ch0 c (fcW w x)
def msg0 : Msg := { header := 1, words := [7] }

/-- The same with a call block at address 0 of the thread's slice, and frame 0 held by the core. -/
def callS (w : Nat) (ws : List Nat) : State :=
  let s := fcW w thr
  { s with fc := { s.fc with slices := memWrite s.fc.slices (sliceBase 31 7) (ws.flatMap (leBytes 8)) } }
def callF (w : Nat) (ws : List Nat) : State :=
  putCore 31 { CoreSt.reset with punts := [(0, 0)] } (putFrame 0 fr0 (putBuf 0 { buf0 with cells := 2 } (callS w ws)))
def grp : Group := newGroup sv 1024 0 5 1 (some (31, 7))

/-- Thread 7 of core 31 in a state of its own, with the core's turn and quiet count. -/
def thrS (st : TState) (w : Wait) (turn quiet : Nat) : State :=
  putCore 31 { CoreSt.reset with turn := turn, quiet := quiet } (fcW 0 { thr with state := st, wait := w })
def postE (n : Nat) : Entry := en (dsc 0x50 [0, 0, 0, 0, n])
def postS (n : Nat) : State := withQ 1 5 (qu 3 [postE n]) sv
def postOn (c : Channel) : State := putChan (.mbox 0 0) c (rg (FC_CORE_CTRL 0) 0x100 (postS 4))
def waitE : Entry := { postE 4 with phase := .started }
def waitS : State := putChan (.mbox 31 31) { Channel.empty with posts := [(1, 5, 0)] } (withQ 1 5 { qu 3 [waitE] with w3 := 0x3FF00000000 } sv)

/-- A storage entry in queue 5 of PF2 with namespace 0 in a state, and the same admitted as command 0. -/
def ns0 : Ns := { Ns.empty with conf := leBytes 8 0x340000 ++ leBytes 8 100 ++ leBytes 8 0 ++ leBytes 8 0 ++ leBytes 8 0 }
def stS (op : Nat) (ws : List Nat) (st : NsState) : State :=
  let s := withQ 2 5 (qu 2 [en (dsc op ws)]) sv
  { s with st := { s.st with ns := [(0, { ns0 with state := st })] } }
def stC (op : Nat) (ws : List Nat) : StCmd := newCmd sv 5 0 (en (dsc op ws))
def stE (op : Nat) (ws : List Nat) : Entry := { en (dsc op ws) with phase := .started }
def stA (op : Nat) (ws : List Nat) : State :=
  let s := withQ 2 5 (qu 2 [stE op ws]) sv
  { s with st := { s.st with cmds := [(0, stC op ws)], nextCmd := 1 } }

/-- Bay 3 with a pack of one namespace, in a bay state. -/
def pack0 : PackIdent :=
  { serial := [], model := [], firmware := 0, ioQueues := 1, nvme20 := true, mdts := 0, awupf := 0, pct := 0, crit := 0, namespaces := [{ nsid := 1, lbads := 9, deallocZero := true, capacity := 8388608 }] }
def bayS (st : BayState) (s : State) : State := putBay 3 { BaySt.empty with state := st, present := true, ident := some pack0 } s
def ns3 (st : NsState) (s : State) : State := { s with st := { s.st with ns := [(0, { ns0 with state := st })] } }
def reb : Rebuild := { fns := 0, target := false, next := 99, rate := 0, start := 0 }
def rebuilding (r : Rebuild) (s : State) : State := { s with st := { s.st with rebuilds := [(7, r)] } }
def conf100 : Ns := { Ns.empty with conf := leBytes 8 0x100310000 ++ leBytes 8 100 ++ leBytes 24 0 }

/-- Commit groups in slot 0. -/
def grouped (x : Group) (s : State) : State := { s with cg := { s.cg with groups := [(0, x)] } }
def hostGrp (st : GState) : Group := { grp with core := none, state := st }
def jcmd : StCmd := { stC 0x33 [0, 0, 1] with granted := true, group := some 0 }
def jgrp : Group := { hostGrp .closed with members := [{ entry := none, staged := true, effect := .storage 0 }] }
def jour (st : JState) (s : State) : State := { s with cg := { s.cg with jstate := st, sizeMib := 4096 } }
def jourS : State := jour .opened { grouped jgrp sv with st := { sv.st with cmds := [(0, jcmd)] } }
def jrec : JRecord :=
  { seq := 1, slot := 0, domain := 1024, token := 5, home := [], cmds := [0], bytes := 4096, lost := false, retired := false }
def recS (st : JState) : State := let s := jour st sv; { s with cg := { s.cg with records := [jrec] } }

/-! ### WellFormed: one ill-formed command for each check, which the check refuses -/

def rec1 : MediaRecord := { seq := 1, domain := 0, token := 1, named := false, members := [{ fns := 0, zero := true, slba := 0, nblocks := 1, data := [] }] }

theorem test_wf_refuses : ∀ i ∈ [
    .bypassFrame 0 (List.replicate 13 0) true, .networkFrameReceive 7 (List.replicate 13 0) (true, 0, 0) false 0,
    .plantFrameReceive 3 (List.replicate 13 0) false 0, .configurationRequest 0 2, .flr 0, .flrDone 0, .linkTrain 0 16 true,
    .linkTrain 7 16 true, .linkTrain 6 3 true, .registerWrite 0 4 false 0, .registerWrite 0 2 true 0, .registerWrite 0 0 true 0x100000000,
    .peerWrite 0 [] .none, .peerWrite 0x3FFFFFFF [0, 0] .none, .readCompletion 0 0 (.flowCore 32 1) .timeout,
    .completionTimeout 0 (.flowCore 32 7), .paceWindow (List.replicate 7 0), .hint 0 0 0 0 false, .hint 0 0 0 9 false,
    .pfcReceive 0 0 (List.replicate 7 0), .mailboxDelivery 32 8, .bayLinkUp 0 6 4, .bayLinkUp 0 5 3,
    .bayInitDone 0 (some { pack0 with serial := List.replicate 19 0, model := List.replicate 40 0 }),
    .bayInitDone 0 (some { pack0 with serial := List.replicate 20 0, model := List.replicate 39 0 }),
    .journalOpen 0 (.journal 2 0 0 [] [rec1, rec1]), .journalOpen 0 (.journal 2 0 0 [] [{ rec1 with members := [] }]),
    .tempSensorRead (List.replicate 15 0) 0 0, .fcAdd 32 1 .none, .gclose 32 7 .none, .stop 32 1, .longStallEnd 32 1],
    Instr.wf i = false := by decide +kernel

theorem test_wf_accepts : ∀ i ∈ [
    .bypassFrame 0 (List.replicate 14 0) true, .configurationRequest 0 0xFFC, .flr 3, .linkTrain 6 16 true,
    .registerWrite 0 4 true 0xFFFFFFFF, .peerWrite 0x3FFFFFFF [0] .none, .completionTimeout 0 (.flowCore 32 0),
    .paceWindow (List.replicate 8 0), .hint 0 0 0 8 false, .pfcReceive 0 0 (List.replicate 8 0), .mailboxDelivery 32 7,
    .bayLinkUp 0 5 4, .tempSensorRead (List.replicate 16 0) 0 0, .fcAdd 32 0 .none, .fcAdd 31 7 .none,
    .journalOpen 0 (.journal 2 0 0 [] [rec1])], Instr.wf i = true := by decide +kernel

/-! ### The spec's own examples -/

/-- 02, after R48: lot "K7M2Q09", wafer 13, die column 42, die row 23. -/
theorem test_serial_number : deviceSerial (lv (fun l => { l with identity := Fuses.initial.identity })) = 0x50758268025A542E := by
  decide +kernel

/-- 01, after R30: 14,894 completions in a window of 1,024 ticks are index 0x0174, and 14,560 are 0x016C. -/
theorem test_pace_index : paceIndex 14894 10 = 0x0174 ∧ paceIndex 14560 10 = 0x016C := by decide

/-- 04, after R120: a ring of 256 entries; index 0xFFFFFFC0 has lap 3 and index 0x40 lap 0. -/
theorem test_ring_laps : lapOf 256 0xFFFFFFC0 = 3 ∧ lapOf 256 0x40 = 0 ∧ lapOf 256 0 = 0 ∧ lapOf 64 0x1F3E = 0 ∧ lapOf 64 0x1F40 = 1 := by
  decide

/-- 05, after R154: PF1 with 64 instances; what instance 37 owns. -/
def pf1N64 : State := rg (IM_FN_SHARE 1) 6 sv
theorem test_shares : share pf1N64 .queues 1 = 8192 ∧ share pf1N64 .evqs 1 = 512 ∧ share pf1N64 .contexts 1 = 15360 ∧
    share pf1N64 .cells 1 = 1024 ∧ share pf1N64 .groups 1 = 768 ∧ ownerOf pf1N64 .queues 1 303104 = 37 ∧
    ownerOf pf1N64 .queues 1 311295 = 37 ∧ ownerOf pf1N64 .queues 1 311296 = 38 ∧ localQ pf1N64 1 303365 = 0x105 ∧
    intBase 1 + 18944 = 23040 ∧ groupInst pf1N64 28416 = 37 ∧ groupInst pf1N64 29183 = 37 := by decide +kernel

/-- 10, after R287: H is 1,203 cells at 400GbE with 30 m of cable and a partner time of 1,000 ns. -/
theorem test_headroom : headroomOf (rg NP_MODE 2 (rg (NP_PORT_CTRL 0) 0x24000000 (rg (TM_PORT_B 0) 0x3E8001E00000000 sv))) 0 = 1203 := by
  decide +kernel

/-- 10, after R287: a class at 37,880 cells with alpha 5 does not take 36 more of 75,770 free. -/
theorem test_alpha : alphaFits (37880 + 36) 5 75770 = false ∧ alphaFits 37885 5 75770 = true := by decide

/-- 10, after R296: a bucket of rate 2,000 and burst 16,000 with 15,000 bytes takes rate 800 and burst 6,000 at tick 1,010. -/
def bucket0 : TokenBucket := { TokenBucket.empty with en := true, rate := 2000, burst := 16000, tokens := 240000, last := 1000 }
theorem test_bucket : (acceptValues bucket0 1010 true 800 6000).tokens = 16 * 16000 ∧
    (acceptValues bucket0 1010 true 800 6000).effective = 1011 ∧
    (touch (acceptValues bucket0 1010 true 800 6000) 1030).tokens = 16 * 6000 ∧
    (debit (acceptValues bucket0 1010 true 800 6000) 1030 1520).tokens = 16 * 4480 ∧
    (touch (debit (acceptValues bucket0 1010 true 800 6000) 1030 1520) 1040).tokens = 16 * 4980 := by decide +kernel

/-- 11, after R334: D + 0.2 µs is 2,633.6 ns at 10GBASE-R with max_frame 1,522 on both ports. -/
theorem test_drain_time : drainTime (rg (PP_PORT_A 0) 0x5F20004 (rg (PP_PORT_A 1) 0x5F20004 sv)) 0 = 26336 := by decide +kernel

/-- 12, after R367: local context 5 of PF1 instance 37 is global 568,325. -/
theorem test_context_number : ctxGlobal 1 (37 * share pf1N64 .contexts 1 + 5) = 568325 ∧ ctxInst pf1N64 568325 = 37 := by decide +kernel

/-- 14, the example of R421: the words of RECV, EXTU, ST, XCALL LOOKUP and BC. -/
theorem test_words : insnOf false 0x0002C20C = some 0xC03 ∧ insnOf false 0x1102A441 = some 0x10A ∧
    insnOf false 0x08008045 = some 0x500 ∧ insnOf false 0x00401850 = some 0x1010 ∧ insnOf false 0x00010448 = some 0x800 := by decide +kernel
theorem test_word_fields : iRd 0x0002C20C = 8 ∧ iRa 0x1102A441 = 9 ∧ iImm14 0x1102A441 = 0x0440 ∧ iImm14 0x08008045 = 0x200 ∧
    iRa 0x00401850 = 6 ∧ iImm20 0x00010448 = 16 := by decide
/-- 14, R421: the housekeeping core may use LOOKUP, CRYPT and COUNT only. -/
theorem test_hk_calls : insnOf true 0x00401850 = some 0x1010 ∧ insnOf true 0x002C0010 = none := by decide +kernel

/-- 08, the worked lookup after R239: the rules in slots 0x2000 to 0x2002 against the key. -/
def key8 : Bytes := beBytes 16 0x0A14001F ++ beBytes 16 0xAC100805 ++ [0xC0, 0, 0x14, 0, 0x11, 3, 4]
def rule8 (src sp dst dp proto mask d0 d1 last : Nat) : Bytes :=
  leBytes 16 src ++ leBytes 16 dst ++ leBytes 1 sp ++ leBytes 1 dp ++ leBytes 1 proto ++ leBytes 1 mask ++ leBytes 2 0 ++ leBytes 2 65535 ++
    leBytes 2 d0 ++ leBytes 2 d1 ++ leBytes 4 last ++ List.replicate 16 0
theorem test_rules : ruleMatch (rule8 0 0 0xAC100000 12 17 0xFF 5120 5129 0x5FF03) key8 = true ∧
    ruleMatch (rule8 0 0 0 0 0 0 0 65535 0x40000) key8 = true ∧
    ruleMatch (rule8 0x0A140000 16 0xAC100800 24 6 0xFF 0 65535 0x50000) key8 = false ∧
    ruleMatch (rule8 0x0A140000 16 0xAC100800 24 17 0xFF 0 65535 0x50000) key8 = true := by decide +kernel

/-- 08, the same lookup: the bits the two cut nodes select. -/
theorem test_cuts : keyBits key8 224 8 = 0xAC ∧ keyBits key8 272 4 = 1 := by decide +kernel

/-- 04, R118 and 16, R459: the start state of queues and bays. -/
theorem test_reset : State.reset.life.stage = 0 ∧ State.reset.pending = [] ∧ (queueOf State.reset 1 5).qstate = .disabled ∧
    (threadOf State.reset 31 7).state = .halted ∧ State.reset.cg.jstate = .closed := by decide +kernel

/-- 16, R459: a pack that is pulled leaves its bay EMPTY. -/
theorem test_pull : ∃ t, exec (.presenceChange 3 false) (bayS .ready sv) = .next t ∧ (bayOf t 3).state = .empty ∧ (bayOf t 3).present = false :=
  ⟨_, rfl, by decide +kernel, by decide +kernel⟩

/-- 13, R397: g0 reads 0 after a write; 14, R401: ADD writes rd. -/
theorem test_add : ∃ t, exec (.fcAdd 31 7 .none) (fcW 0xC840 (setG (setG thr 2 5) 3 7)) = .next t ∧
    getG (threadOf t 31 7) 1 = 12 ∧ (threadOf t 31 7).pc = 1 := ⟨_, rfl, by decide +kernel, by decide +kernel⟩

/-- FIPS 180-4: SHA-256 of the empty message begins e3 b0 c4 42. -/
theorem test_sha256 : leNat (sha256 []) % 2^32 = 0x42c4b0e3 := by decide +kernel
/-- FIPS 180-4: SHA-384 of the empty message begins 38b060a7. -/
theorem test_sha384 : beNat (sha384 []) / 2^352 = 0x38b060a7 := by decide +kernel
/-- The AES-GCM test case of one zero block: ciphertext, then tag. -/
theorem test_gcm : aeadSeal 0 (List.replicate 16 0) (List.replicate 12 0) [] (List.replicate 16 0)
    = beBytes 32 0x0388dace60b6a392f328c2b971b2fe78ab6e47d42cec13bdf53a67b21257bddf := by decide +kernel
/-- The base point of P-384 lies on the curve. -/
theorem test_p384_base : onP384 p384Gx p384Gy = true := by decide +kernel

/-! ### Witnesses -/

theorem witness_StepRunsFront : ∃ (s : State), s.pending = [] :=
  ⟨sv, by decide +kernel⟩

/-- SuppliesAndBypass. -/
theorem witness_SuppliesAndBypass :
    (∃ (s : State), s.life.aonGood = false) ∧
    (∃ (s : State), s.life.aonGood = true ∧ s.life.refStable = true) ∧
    (∃ (p : PPort) (s : State), bypassForwards s p = true) ∧
    (∃ (p : PPort) (s : State), bypassForwards s p = false) :=
  ⟨⟨.reset, by decide +kernel⟩,
   ⟨sv, by decide +kernel, by decide +kernel⟩,
   ⟨0, sv, by decide +kernel⟩,
   ⟨3, .reset, by decide +kernel⟩⟩

/-- ReturnsToStage1. -/
theorem witness_ReturnsToStage1 :
    (∃ (s : State), s.life.aonGood = true) ∧
    (∃ (s : State), s.life.aonGood = true ∧ s.life.perst = true) ∧
    (∃ (s : State), s.life.stage ≠ 0) ∧
    (∃ (s : State), s.life.stage ≠ 0 ∧ s.life.rrs = false) :=
  ⟨⟨sv, by decide +kernel⟩,
   ⟨lv (fun l => { l with perst := true, stage := 0 }), by decide +kernel, by decide +kernel⟩,
   ⟨sv, by decide +kernel⟩,
   ⟨sv, by decide +kernel, by decide +kernel⟩⟩

/-- Stage1Steps. -/
theorem witness_Stage1Steps :
    (∃ (s : State), s.life.stage = 1 ∧ s.life.fusesSensed = false) ∧
    (∃ (s : State), s.life.stage = 1 ∧ s.life.bistDone = false) ∧
    (∃ (s : State), s.life.stage = 1 ∧ s.life.bistDone = false) ∧
    (∃ (s : State), s.life.stage = 1 ∧ s.life.dramDone = false) ∧
    (∃ (s : State), s.life.stage = 1 ∧ s.life.dramDone = false) ∧
    (∃ (s : State), s.life.stage = 1 ∧ s.life.fusesSensed = true ∧ s.life.bistDone = true ∧ s.life.dramDone = true) ∧
    (∃ (s : State), (s.life.stage ≠ 1 ∨ s.life.fusesSensed = false ∨ s.life.bistDone = false ∨ s.life.dramDone = false)) :=
  ⟨⟨at1, by decide +kernel, by decide +kernel⟩,
   ⟨at1, by decide +kernel, by decide +kernel⟩,
   ⟨at1, by decide +kernel, by decide +kernel⟩,
   ⟨at1, by decide +kernel, by decide +kernel⟩,
   ⟨at1, by decide +kernel, by decide +kernel⟩,
   ⟨lv (fun l => { l with stage := 1, stage1Done := false }), by decide +kernel, by decide +kernel, by decide +kernel, by decide +kernel⟩,
   ⟨at1, by decide +kernel⟩⟩

/-- StagesOfService. -/
theorem witness_StagesOfService :
    (∃ (s : State), s.life.stage = 1 ∧ barOpen s 0 = true ∧ s.life.stage1Done = true ∧ s.life.bistFail = false) ∧
    (∃ (s : State), s.life.stage = 1 ∧ barOpen s 0 = true ∧ (s.life.stage1Done = false ∨ s.life.bistFail = true)) ∧
    (∃ (s : State), (s.life.stage ≠ 1 ∨ barOpen s 0 = false)) ∧
    (∃ (s : State), s.life.stage = 2 ∧ barOpen s 0 = true) ∧
    (∃ (s : State), (s.life.stage ≠ 2 ∨ barOpen s 0 = false)) ∧
    (∃ (s : State) (u : State), s.life.stage = 2 ∧ s.life.goPending = true ∧ s.life.boot = none ∧ s.life.hkLoaded = true ∧ s.life.parseLoaded = 0x1F#5 ∧ u = pagesStage { s with life := { s.life with goPending := false, stage := 3 } }) ∧
    (∃ (s : State), s.life.stage = 2 ∧ s.life.goPending = true ∧ s.life.boot = none ∧ (s.life.hkLoaded = false ∨ s.life.parseLoaded ≠ 0x1F#5)) ∧
    (∃ (s : State), (s.life.stage ≠ 2 ∨ s.life.goPending = false ∨ s.life.boot ≠ none)) :=
  ⟨⟨lv (fun l => { l with stage := 1 }), by decide +kernel, by decide +kernel, by decide +kernel, by decide +kernel⟩,
   ⟨at1, by decide +kernel, by decide +kernel, by decide +kernel⟩,
   ⟨sv, by decide +kernel⟩,
   ⟨lv (fun l => { l with stage := 2 }), by decide +kernel, by decide +kernel⟩,
   ⟨sv, by decide +kernel⟩,
   ⟨lv (fun l => { l with stage := 2, goPending := true }), _, by decide +kernel, by decide +kernel, by decide +kernel, by decide +kernel, by decide +kernel, rfl⟩,
   ⟨lv (fun l => { l with stage := 2, goPending := true, parseLoaded := 0xF }), by decide +kernel, by decide +kernel, by decide +kernel, by decide +kernel⟩,
   ⟨sv, by decide +kernel⟩⟩

/-- BootRing. -/
theorem witness_BootRing :
    (∃ (b : Bytes) (s : State), bootReady s = true ∧ 2 ≤ fld (leWord (slice b 0 64) 0) 2 2 ∧ fld (leWord (slice b 0 64) 0) 0 2 = lapOf (bootSize s) (bootHead s)) ∧
    (∃ (b : Bytes) (s : State), bootReady s = true ∧ fld (leWord (slice b 0 64) 0) 2 2 < 2 ∧ badBootDesc s (bootHead s) (slice b 0 64) = true) ∧
    (∃ (b : Bytes) (s : State), bootReady s = true ∧ fld (leWord (slice b 0 64) 0) 2 2 < 2 ∧ badBootDesc s (bootHead s) (slice b 0 64) = false) ∧
    (∃ (s : State), bootReady s = true ∧ tabSorted none s.regs = true) ∧
    (∃ (b : Bytes) (x : BootDesc) (st : Nat) (s : State) (u : State), bootServing s 1 = some x ∧ 512 ≤ le x.desc 0x18 4 ∧ le x.desc 0x18 4 ≤ 512 + 2 ^ 24 ∧ u = readImage (le x.desc 0x10 8) (le x.desc 0x18 4) s ∧ st = imageStatus u false (slice b 0 (le x.desc 0x18 4))) ∧
    (∃ (x : BootDesc) (s : State), bootServing s 1 = some x ∧ (le x.desc 0x18 4 < 512 ∨ 512 + 2 ^ 24 < le x.desc 0x18 4)) ∧
    (∃ (b : Bytes) (p : Bytes) (x : BootDesc) (st : Nat) (s : State) (u : State), bootServing s 2 = some x ∧ 512 ≤ le x.desc 0x18 4 ∧ le x.desc 0x18 4 ≤ 512 + 2 ^ 24 ∧ u = readImage (le x.desc 0x10 8) (le x.desc 0x18 4) s ∧ p = slice (slice b 0 (le x.desc 0x18 4)) 512 16 ∧ st = (if imageStatus u true (slice b 0 (le x.desc 0x18 4)) ≠ 0 then imageStatus u true (slice b 0 (le x.desc 0x18 4)) else fuseStatus u p)) ∧
    (∃ (l : Nat) (m : Nat) (rest : List Nat) (s : State), s.life.burn = some ⟨l :: m :: rest⟩) ∧
    (∃ (l : Nat) (rest : List Nat) (s : State), s.life.burn = some ⟨l :: rest⟩) :=
  ⟨⟨[8], rg SB_BOOT_PROD 1 sv, by decide +kernel, by decide +kernel, by decide +kernel⟩,
   ⟨dsc 3 [], rg SB_BOOT_PROD 1 sv, by decide +kernel, by decide +kernel, by decide +kernel⟩,
   ⟨dsc 1 [0x1000, 1024], rg SB_BOOT_PROD 1 sv, by decide +kernel, by decide +kernel, by decide +kernel⟩,
   ⟨rg SB_BOOT_PROD 1 sv, by decide +kernel, by decide +kernel⟩,
   ⟨[], ⟨0, dsc 1 [0x1000, 512]⟩, _, lv (fun l => { l with boot := some ⟨0, dsc 1 [0x1000, 512]⟩ }), _, by decide +kernel, by decide +kernel, by decide +kernel, rfl, rfl⟩,
   ⟨⟨0, dsc 1 [0x1000, 511]⟩, lv (fun l => { l with boot := some ⟨0, dsc 1 [0x1000, 511]⟩ }), by decide +kernel, by decide +kernel⟩,
   ⟨[], _, ⟨0, dsc 2 [0x1000, 528]⟩, _, lv (fun l => { l with boot := some ⟨0, dsc 2 [0x1000, 528]⟩ }), _, by decide +kernel, by decide +kernel, by decide +kernel, rfl, rfl, rfl⟩,
   ⟨3, 64, [], lv (fun l => { l with burn := some ⟨[3, 64]⟩ }), by decide +kernel⟩,
   ⟨67, [], lv (fun l => { l with burn := some ⟨[67]⟩ }), by decide +kernel⟩⟩

/-- Configuration. -/
theorem witness_Configuration :
    (∃ (s : State), linkUp s = false) ∧
    (∃ (fn : Fn) (s : State), linkUp s = true ∧ (s.life.rrs = true ∨ s.link.flr.getLsbD fn.val = true)) ∧
    (∃ (fn : Fn) (s : State), linkUp s = true ∧ s.life.rrs = false ∧ s.link.flr.getLsbD fn.val = false ∧ fnPresent s fn.val = false) ∧
    (∃ (fn : Fn) (s : State), cfgReachable s fn = true) ∧
    (∃ (fn : Fn) (s : State), cfgReachable s fn = true) ∧
    (∃ (fn : Fn) (s : State), cfgReachable s fn = false) :=
  ⟨⟨{ sv with link := { sv.link with up := false } }, by decide +kernel⟩,
   ⟨3, { sv with link := { sv.link with flr := 8 } }, by decide +kernel, by decide +kernel⟩,
   ⟨1, lv (fun l => { l with sensed := .none }), by decide +kernel, by decide +kernel, by decide +kernel, by decide +kernel⟩,
   ⟨3, sv, by decide +kernel⟩,
   ⟨0, sv, by decide +kernel⟩,
   ⟨0, .reset, by decide +kernel⟩⟩

/-- FunctionPower. -/
theorem witness_FunctionPower :
    (∃ (fn : Fn) (s : State), fn ≠ 0 ∧ cfgReachable s fn = true) ∧
    (∃ (fn : Fn) (s : State), noDrain s fn.val = true) ∧
    (∃ (fn : Fn) (s : State), noDrain s fn.val = false) ∧
    (∃ (fn : Fn) (s : State), cfgReachable s fn = true ∧ (cfgOf s fn.val).busMaster = true) ∧
    (∃ (fn : Fn) (s : State), cfgReachable s fn = true ∧ (cfgOf s fn.val).busMaster = false) ∧
    (∃ (fn : Fn) (s : State), (cfgOf s fn.val).busMaster = true) ∧
    (∃ (fn : Fn) (s : State), (cfgOf s fn.val).busMaster = false) ∧
    (∃ (fn : Fn) (s : State) (u : State), cfgReachable s fn = true ∧ (cfgOf s fn.val).d3hot = false ∧ u = stopDma fn (linkBusy (putCfg fn.val { cfgOf s fn.val with d3hot := true } s))) ∧
    (∃ (fn : Fn) (s : State) (u : State), cfgReachable s fn = true ∧ (cfgOf s fn.val).d3hot = true ∧ u = linkBusy (putCfg fn.val { cfgOf s fn.val with d3hot := false } s)) ∧
    (∃ (fn : Fn) (on : Bool) (s : State), cfgReachable s fn = true ∧ (cfgOf s fn.val).pasidEnable ≠ on ∧ (∀ i, i ∈ liveInsts s fn.val → i = 0)) ∧
    (∃ (fn : Fn) (on : Bool) (i : Nat) (s : State), cfgReachable s fn = true ∧ (cfgOf s fn.val).pasidEnable ≠ on ∧ liveInsts s fn.val = [i] ∧ i ≠ 0 ∧ (instOf s fn.val i).state = .on) :=
  ⟨⟨1, sv, by decide +kernel, by decide +kernel⟩,
   ⟨1, sv, by decide +kernel⟩,
   ⟨1, { sv with im := { insts := [(1024, { on0 with drain := some .reset })], filter := [] } }, by decide +kernel⟩,
   ⟨3, sv, by decide +kernel, by decide +kernel⟩,
   ⟨0, cfgd (fun c => { c with busMaster := false }), by decide +kernel, by decide +kernel⟩,
   ⟨0, sv, by decide +kernel⟩,
   ⟨0, .reset, by decide +kernel⟩,
   ⟨2, sv, _, by decide +kernel, by decide +kernel, rfl⟩,
   ⟨2, cfgd (fun c => { c with d3hot := true }), _, by decide +kernel, by decide +kernel, rfl⟩,
   ⟨1, true, sv, by decide +kernel, by decide +kernel, by decide +kernel⟩,
   ⟨1, false, 5, { cfgd (fun c => { c with pasidEnable := true }) with im := { insts := [(1029, on0)], filter := [] } }, by decide +kernel, by decide +kernel, by decide +kernel, by decide +kernel, by decide +kernel⟩⟩

/-- LinkAndWake. -/
theorem witness_LinkAndWake :
    (∃ (sp : BitVec 3) (w : BitVec 5) (s : State), s.life.stage ≠ 0 ∧ trainable sp w = true ∧ s.link.up = false) ∧
    (∃ (sp : BitVec 3) (w : BitVec 5) (s : State), s.life.stage ≠ 0 ∧ trainable sp w = true ∧ s.link.up = true) ∧
    (∃ (s : State), s.link.up = true ∧ s.link.l1 = 0 ∧ (cfgOf s 0).aspmL1 = true ∧ l1Idle s ≤ s.link.idleTicks) ∧
    (∃ (p : NPort) (s : State), rb s HL_PME_CTRL p.val = true ∧ portExists s p.val = true ∧ rb s (NP_PORT_CTRL p.val) 0 = true) ∧
    (∃ (s : State), rb s HL_PME_CTRL 16 = true) ∧
    (∃ (s : State), s.link.deviceD3 = true ∧ (cfgOf s 0).pmeEnable = true) ∧
    (∃ (s : State), (s.link.deviceD3 = false ∨ (cfgOf s 0).pmeEnable = false)) ∧
    (∃ (p : PPort) (g : Bool) (s : State), s.life.stage ≠ 0 ∧ rb s (PP_PORT_A p.val) 33 ≠ g ∧ s.link.deviceD3 = false) :=
  ⟨⟨6, 16, { at1 with link := .reset }, by decide +kernel, by decide +kernel, by decide +kernel⟩,
   ⟨1, 1, sv, by decide +kernel, by decide +kernel, by decide +kernel⟩,
   ⟨{ sv with link := { sv.link with idleTicks := 8 } }, by decide +kernel, by decide +kernel, by decide +kernel, by decide +kernel⟩,
   ⟨7, rg (NP_PORT_CTRL 7) 1 (rg HL_PME_CTRL 0x80 sv), by decide +kernel, by decide +kernel, by decide +kernel⟩,
   ⟨rg HL_PME_CTRL 0x10000 sv, by decide +kernel⟩,
   ⟨{ sv with link := { sv.link with deviceD3 := true } }, by decide +kernel, by decide +kernel⟩,
   ⟨sv, by decide +kernel⟩,
   ⟨3, true, sv, by decide +kernel, by decide +kernel, by decide +kernel⟩⟩

/-- PeerWindows. -/
theorem witness_PeerWindows :
    (∃ (fn : Fn) (s : State), linkUp s = true ∧ fnPresent s fn.val = true ∧ barOpen s fn.val = false) ∧
    (∃ (s : State), barOpen s 0 = true) ∧
    (∃ (fn : Fn) (off : BitVec 26) (len : BitVec 13) (s : State), fn ≠ 0 ∧ fnPresent s fn.val = true ∧ barOpen s fn.val = true ∧ rightShape off.toNat len.toNat = false) ∧
    (∃ (fn : Fn) (s : State), fnPresent s fn.val = true ∧ barOpen s fn.val = true) ∧
    (∃ (off : BitVec 26) (w : Word) (s : State), barOpen s 0 = true ∧ off.toNat % 8 = 0 ∧ off.toNat ≠ CK_TIME_NS ∧ bar0Word (linkBusy s) 0 off.toNat = (w, false)) ∧
    (∃ (s : State), barOpen s 3 = true ∧ fnPresent s 3 = true) ∧
    (∃ (s : State), linkUp s = true ∧ fnPresent s 3 = true ∧ (cfgOf s 3).ecrcCheck = true) ∧
    (∃ (s : State), linkUp s = true ∧ fnPresent s 3 = true ∧ barOpen s 3 = false) ∧
    (∃ (off : BitVec 30) (d : Bytes) (s : State), barOpen s 3 = true ∧ fnPresent s 3 = true ∧ (∀ n, n < 16 → (activeWindow s n).enable = true → off.toNat < (activeWindow s n).bar ∨ (activeWindow s n).bar + (activeWindow s n).len < off.toNat + d.length ∨ (activeWindow s n).len = 0)) ∧
    (∃ (off : BitVec 30) (d : Bytes) (n : Nat) (s : State), barOpen s 3 = true ∧ fnPresent s 3 = true ∧ n < 16 ∧ (activeWindow s n).enable = true ∧ 0 < (activeWindow s n).len ∧ (activeWindow s n).bar ≤ off.toNat ∧ off.toNat + d.length ≤ (activeWindow s n).bar + (activeWindow s n).len ∧ (∀ m, m < n → (activeWindow s m).enable = false)) ∧
    (∃ (s : State), linkUp s = true) ∧
    (∃ (s : State), setupOpen s = true) ∧
    (∃ (s : State), setupOpen s = true) ∧
    (∃ (s : State), setupOpen s = false) ∧
    (∃ (n : Nat) (s : State), n < 16 ∧ tabSorted none s.regs = true ∧ setupOpen s = true ∧ commitRefused s (2 ^ n) = false) :=
  ⟨⟨3, cfgd (fun c => { c with memSpace := false }), by decide +kernel, by decide +kernel, by decide +kernel⟩,
   ⟨sv, by decide +kernel⟩,
   ⟨3, 1, 4, sv, by decide +kernel, by decide +kernel, by decide +kernel, by decide +kernel⟩,
   ⟨3, sv, by decide +kernel, by decide +kernel⟩,
   ⟨BitVec.ofNat 26 FX_CTRL, (bar0Word (linkBusy sv) 0 FX_CTRL).1, sv, by decide +kernel, by decide +kernel, by decide +kernel, by decide +kernel⟩,
   ⟨sv, by decide +kernel, by decide +kernel⟩,
   ⟨cfgd (fun c => { c with ecrcCheck := true }), by decide +kernel, by decide +kernel, by decide +kernel⟩,
   ⟨cfgd (fun c => { c with memSpace := false }), by decide +kernel, by decide +kernel, by decide +kernel⟩,
   ⟨0, [0], sv, by decide +kernel, by decide +kernel, by decide +kernel⟩,
   ⟨0x1FFFFF, [0], 1, pwS, by decide +kernel, by decide +kernel, by decide +kernel, by decide +kernel, by decide +kernel, by decide +kernel, by decide +kernel, by decide +kernel⟩,
   ⟨sv, by decide +kernel⟩,
   ⟨sv, by decide +kernel⟩,
   ⟨sv, by decide +kernel⟩,
   ⟨at1, by decide +kernel⟩,
   ⟨15, sv, by decide +kernel, by decide +kernel, by decide +kernel, by decide +kernel⟩⟩

/-- PrecisionTime. -/
theorem witness_PrecisionTime :
    (∃ (s : State), setupOpen s = true ∧ (cfgOf s 0).ptmEnable = true) ∧
    (∃ (s : State), setupOpen s = true ∧ (cfgOf s 0).ptmEnable = false) ∧
    (∃ (s : State), rb s HL_PTM_CTRL 1 = true ∧ s.link.ptmDue < 1024 * (s.ticks + 1)) ∧
    (∃ (s : State), (rb s HL_PTM_CTRL 1 = false ∨ 1024 * (s.ticks + 1) ≤ s.link.ptmDue)) ∧
    (∃ (t1 : Word) (s : State), s.link.ptm = some t1 ∧ tabSorted none s.regs = true) ∧
    (∃ (t1 : Word) (s : State), s.link.ptm = some t1) ∧
    (∃ (s : State), s.link.ptm = none) :=
  ⟨⟨sv, by decide +kernel, by decide +kernel⟩,
   ⟨cfgd (fun c => { c with ptmEnable := false }), by decide +kernel, by decide +kernel⟩,
   ⟨rg HL_PTM_CTRL 2 sv, by decide +kernel, by decide +kernel⟩,
   ⟨sv, by decide +kernel⟩,
   ⟨7, { sv with link := { sv.link with ptm := some 7 } }, by decide +kernel, by decide +kernel⟩,
   ⟨7, { sv with link := { sv.link with ptm := some 7 } }, by decide +kernel⟩,
   ⟨sv, by decide +kernel⟩⟩

/-- ReadAnswers. -/
theorem witness_ReadAnswers :
    (∃ (fn : Fn) (ep : BitVec 4) (s : State), s.life.stage ≠ 0 ∧ ep.toNat ≠ rf s HL_EPOCH (4 * fn.val) 4) ∧
    (∃ (fn : Fn) (ep : BitVec 4) (s : State), s.life.stage ≠ 0 ∧ ep.toNat = rf s HL_EPOCH (4 * fn.val) 4) ∧
    (∃ (fn : Fn) (s : State), s.life.stage ≠ 0 ∧ (cfgOf s fn.val).timeoutDisable = false) ∧
    (∃ (fn : Fn) (s : State), (cfgOf s fn.val).timeoutDisable = true) :=
  ⟨⟨3, 15, sv, by decide +kernel, by decide +kernel⟩,
   ⟨3, 15, rg HL_EPOCH 0xF000 sv, by decide +kernel, by decide +kernel⟩,
   ⟨3, sv, by decide +kernel, by decide +kernel⟩,
   ⟨0, cfgd (fun c => { c with timeoutDisable := true }), by decide +kernel⟩⟩

/-- RegisterSpace. -/
theorem witness_RegisterSpace :
    (∃ (fn : Fn) (off : BitVec 26) (four : Bool) (s : State), off.toNat % (if four then 4 else 8) = 0 ∧ barOpen s fn.val = true ∧ fnPresent s fn.val = true) ∧
    (∃ (fn : Fn) (off : BitVec 26) (four : Bool) (s : State), off.toNat % (if four then 4 else 8) = 0 ∧ (barOpen s fn.val = false ∨ fnPresent s fn.val = false)) ∧
    (∃ (off : BitVec 26) (four : Bool), off.toNat % (if four then 4 else 8) ≠ 0) ∧
    (∃ (s : State), setupOpen s = true) ∧
    (∃ (i : Nat), i < 64) ∧
    (∃ (s : State), setupOpen s = true) ∧
    (∃ (w : Fin 4) (s : State), setupOpen s = true ∧ winStatus s w.val false = 0) ∧
    (∃ (w : Fin 4) (s : State), setupOpen s = true ∧ winStatus s w.val true = 0) ∧
    (∃ (w : Fin 4) (wr : Bool) (k : Nat) (s : State), setupOpen s = true ∧ winStatus s w.val wr = k ∧ k ≠ 0 ∧ k ≠ 5) ∧
    (∃ (k : Nat) (s : State), tabSorted none s.regs = true ∧ k < 256) :=
  ⟨⟨0, 0x3FFFFFC, true, sv, by decide +kernel, by decide +kernel, by decide +kernel⟩,
   ⟨0, 8, false, .reset, by decide +kernel, by decide +kernel⟩,
   ⟨4, false, by decide +kernel⟩,
   ⟨sv, by decide +kernel⟩,
   ⟨63, by decide +kernel⟩,
   ⟨sv, by decide +kernel⟩,
   ⟨3, rg (DV_WIN_SEL 3) 0x29 sv, by decide +kernel, by decide +kernel⟩,
   ⟨3, rg (DV_WIN_SEL 3) 0x29 sv, by decide +kernel, by decide +kernel⟩,
   ⟨3, true, 1, sv, by decide +kernel, by decide +kernel, by decide +kernel, by decide +kernel⟩,
   ⟨255, sv, by decide +kernel, by decide +kernel⟩⟩

/-- Monitors. -/
theorem witness_Monitors :
    (∃ (s : State), rb s DV_PACE_CTRL 0 = true ∧ s.life.stage ≠ 0) ∧
    (∃ (s : State), rb s DV_PACE_CTRL 0 = false) ∧
    (∃ (s : State), setupOpen s = true ∧ tabSorted none s.regs = true) ∧
    (∃ (s : State), s.life.aonGood = true) ∧
    (∃ (s : State), s.life.stage ≠ 0 ∧ tabSorted none s.regs = true) ∧
    (∃ (s : State), s.life.smbusUp = false) ∧
    (∃ (s : State), s.life.smbusUp = true ∧ s.life.hkLoaded = true) ∧
    (∃ (s : State), s.life.smbusUp = true) ∧
    (∃ (s : State), s.life.stage ≠ 0) ∧
    (∃ (s : State), s.life.stage ≠ 0 ∧ debugLocked s = true) ∧
    (∃ (s : State), s.life.stage ≠ 0 ∧ s.life.fusesSensed = false) ∧
    (∃ (s : State), s.life.stage ≠ 0 ∧ s.life.fusesSensed = true ∧ debugLocked s = false) ∧
    (∃ (s : State), hkRunning s = false) :=
  ⟨⟨sv, by decide +kernel, by decide +kernel⟩,
   ⟨rg DV_PACE_CTRL 0xA0 sv, by decide +kernel⟩,
   ⟨sv, by decide +kernel, by decide +kernel⟩,
   ⟨sv, by decide +kernel⟩,
   ⟨sv, by decide +kernel, by decide +kernel⟩,
   ⟨.reset, by decide +kernel⟩,
   ⟨sv, by decide +kernel, by decide +kernel⟩,
   ⟨sv, by decide +kernel⟩,
   ⟨sv, by decide +kernel⟩,
   ⟨lv (fun l => { l with sensed := { l.sensed with setup := 0x1000000 } }), by decide +kernel, by decide +kernel⟩,
   ⟨lv (fun l => { l with fusesSensed := false }), by decide +kernel, by decide +kernel⟩,
   ⟨sv, by decide +kernel, by decide +kernel, by decide +kernel⟩,
   ⟨lv (fun l => { l with hkLoaded := false }), by decide +kernel⟩⟩

/-- DeviceFaults. -/
theorem witness_DeviceFaults :
    (∃ (s : State), s.life.stage ≠ 0) ∧
    (∃ (s : State), s.life.stage ≠ 0) ∧
    (∃ (s : State), 2 ≤ s.life.stage.val ∧ s.life.hkLoaded = true ∧ s.fc.hkBeat + 97657 ≤ s.ticks) ∧
    (∃ (s : State), s.life.stage ≠ 0 ∧ s.life.lastFault = none) ∧
    (∃ (f : FaultRec) (s : State), s.life.stage ≠ 0 ∧ s.life.lastFault = some f ∧ s.life.laterFaults ≠ 0xFFFFFFFF#32) :=
  ⟨⟨sv, by decide +kernel⟩,
   ⟨sv, by decide +kernel⟩,
   ⟨{ sv with ticks := 97657 }, by decide +kernel, by decide +kernel, by decide +kernel⟩,
   ⟨sv, by decide +kernel, by decide +kernel⟩,
   ⟨⟨1, 0, 0, 0⟩, lv (fun l => { l with lastFault := some ⟨1, 0, 0, 0⟩ }), by decide +kernel, by decide +kernel, by decide +kernel⟩⟩

/-- CloveTime. -/
theorem witness_CloveTime :
    (∃ (s : State), s.life.stage ≠ 0) ∧
    (∃ (s : State), s.life.stage = 0) ∧
    (∃ (c : Clock), c.ns.toNat < 1000000000) ∧
    (∃ (v : BitVec 64) (c : Cyc) (s : State), setupOpen s = true ∧ 0 ≤ (clockNs (clockAt s c.val) : Int) + stepOffset s v ∧ (clockNs (clockAt s c.val) : Int) + stepOffset s v < 2 ^ 48 * 1000000000) ∧
    (∃ (v : BitVec 64) (c : Cyc) (s : State), setupOpen s = true ∧ (clockNs (clockAt s c.val) : Int) + stepOffset s v < 0) ∧
    (∃ (s : State), setupOpen s = true ∧ tabSorted none s.regs = true) ∧
    (∃ (s : State), rb s CK_CTRL 0 = true) ∧
    (∃ (s : State), rb s CK_CTRL 0 = false) ∧
    (∃ (s : State), s.life.stage = 3 ∧ rb s CK_CTRL 2 = true ∧ secondInTick s = true) ∧
    (∃ (s : State), s.life.stage1Done = true ∧ tabSorted none s.regs = true) :=
  ⟨⟨at1, by decide +kernel⟩,
   ⟨.reset, by decide +kernel⟩,
   ⟨{ sv.clk with ns := 999999999 }, by decide +kernel⟩,
   ⟨0, 1279, sv, by decide +kernel, by decide +kernel, by decide +kernel⟩,
   ⟨0x80000001, 0, rg CK_STEP_SEC 0 sv, by decide +kernel, by decide +kernel⟩,
   ⟨sv, by decide +kernel, by decide +kernel⟩,
   ⟨rg CK_CTRL 1 sv, by decide +kernel⟩,
   ⟨sv, by decide +kernel⟩,
   ⟨rg CK_CTRL 4 sv, by decide +kernel, by decide +kernel, by decide +kernel⟩,
   ⟨sv, by decide +kernel, by decide +kernel⟩⟩

/-- Doorbells. -/
theorem witness_Doorbells :
    (∃ (fn : Fn) (s : State), barOpen s fn.val = true ∧ fnPresent s fn.val = true) ∧
    (∃ (fn : Fn) (p : BitVec 10) (c : BitVec 64) (n : Nat) (full : Bool) (s : State), barOpen s fn.val = true ∧ fnPresent s fn.val = true ∧ (n ≠ 8 ∨ full = true ∨ instOn s fn.val p.toNat = false ∨ fld c 20 10 ≠ 0)) ∧
    (∃ (fn : Fn) (s : State), barOpen s fn.val = false) ∧
    (∃ (fn : Fn) (p : BitVec 10) (q : BitVec 20) (s : State) (u : State), barOpen s fn.val = true ∧ fnPresent s fn.val = true ∧ u = addStat QE_HINT_ACCEPTED 1 (linkBusy s) ∧ instOn s fn.val p.toNat = true ∧ q.toNat < share s .queues fn.val ∧ (queueOf s fn.val (p.toNat * share s .queues fn.val + q.toNat)).qstate = .running) ∧
    (∃ (fn : Fn) (fq : BitVec 20) (s : State) (v : State), v = hostReadDone fn (.doorbell fq) s ∧ (queueOf v fn.val fq.toNat).reading = false) ∧
    (∃ (fn : Fn) (fq : BitVec 20) (b : Bytes) (q : Queue) (s : State) (v : State) (u : State), v = hostReadDone fn (.doorbell fq) s ∧ q = { queueOf v fn.val fq.toNat with reading := false } ∧ (queueOf v fn.val fq.toNat).reading = true ∧ q.qstate = .running ∧ u = putQueue fn.val fq.toNat q v ∧ instOn u fn.val (queueInst u fn.val fq.toNat) = true ∧ badProd q (BitVec.ofNat 32 (le b 0 4)) = false) ∧
    (∃ (fn : Fn) (fq : BitVec 20) (b : Bytes) (q : Queue) (s : State) (v : State) (u : State), v = hostReadDone fn (.doorbell fq) s ∧ q = { queueOf v fn.val fq.toNat with reading := false } ∧ (queueOf v fn.val fq.toNat).reading = true ∧ q.qstate = .running ∧ u = putQueue fn.val fq.toNat q v ∧ instOn u fn.val (queueInst u fn.val fq.toNat) = true ∧ badProd q (BitVec.ofNat 32 (le b 0 4)) = true) ∧
    (∃ (fn : Fn) (inst : BitVec 10) (s : State), rb s (QE_SWEEP (1024 * fn.val + inst.toNat)) 0 = true ∧ sweepDue s (1024 * fn.val + inst.toNat) ≤ tickNs s ∧ instOn s fn.val inst.toNat = false) ∧
    (∃ (fn : Fn) (inst : BitVec 10) (fq : Nat) (s : State) (t : State), rb s (QE_SWEEP (1024 * fn.val + inst.toNat)) 0 = true ∧ sweepDue s (1024 * fn.val + inst.toNat) ≤ tickNs s ∧ instOn s fn.val inst.toNat = true ∧ queuesOf s fn.val = [fq] ∧ queueInst s fn.val fq = inst.toNat ∧ bit (queueOf s fn.val fq).w0 4 = true ∧ (queueOf s fn.val fq).qstate = .running ∧ t = pokeQueue fn fq s) :=
  ⟨⟨3, sv, by decide +kernel, by decide +kernel⟩,
   ⟨1, 0, 0, 9, false, sv, by decide +kernel, by decide +kernel, by decide +kernel⟩,
   ⟨3, .reset, by decide +kernel⟩,
   ⟨1, 0, 5, withQ 1 5 (qu 0 []) sv, _, by decide +kernel, by decide +kernel, rfl, by decide +kernel, by decide +kernel, by decide +kernel⟩,
   ⟨1, 5, sv, _, rfl, by decide +kernel⟩,
   ⟨1, 5, [7, 0, 0, 0], _, withQ 1 5 { qu 0 [] with reading := true } sv, _, _, rfl, rfl, by decide +kernel, by decide +kernel, rfl, by decide +kernel, by decide +kernel⟩,
   ⟨1, 5, [0, 0, 2, 0], _, withQ 1 5 { qu 0 [] with reading := true } sv, _, _, rfl, rfl, by decide +kernel, by decide +kernel, rfl, by decide +kernel, by decide +kernel⟩,
   ⟨1, 9, rg (QE_SWEEP 1033) 0x101 sv, by decide +kernel, by decide +kernel, by decide +kernel⟩,
   ⟨1, 0, 5, rg (QE_SWEEP 1024) 0x101 (withQ 1 5 { qu 0 [] with w0 := 0x11 } sv), _, by decide +kernel, by decide +kernel, by decide +kernel, by decide +kernel, by decide +kernel, by decide +kernel, by decide +kernel, rfl⟩⟩

/-- Fetches. -/
theorem witness_Fetches :
    (∃ (fn : Fn) (fq : BitVec 20) (s : State) (u : State), u = joinWaiting fn.val fq.toNat s ∧ mayFetch u fn.val fq.toNat = false) ∧
    (∃ (fn : Fn) (fq : BitVec 20) (q : Queue) (k : BitVec 32) (s : State) (u : State) (v : State), u = joinWaiting fn.val fq.toNat s ∧ mayFetch u fn.val fq.toNat = true ∧ q = queueOf u fn.val fq.toNat ∧ k = nextFetch q q.entries.length q.fetch ∧ k ≠ q.pSeen ∧ v = instRead fn (queueInst (putQueue fn.val fq.toNat { q with fetch := k } u) fn.val fq.toNat) (entryAddr q k) 64 (.descriptor fq) (putQueue fn.val fq.toNat { q with fetch := k } u)) ∧
    (∃ (fn : Fn) (fq : Nat) (k : BitVec 32) (d : Bytes) (s : State), checkEntry s fn.val fq (queueOf s fn.val fq) k d = .run ∧ bit (leWord d 0) 14 = false) ∧
    (∃ (q : Queue) (k : BitVec 32) (d : Bytes), lef d 0 0 2 ≠ lapOf (ringSize q) k) ∧
    (∃ (q : Queue) (k : BitVec 32) (d : Bytes), lef d 0 0 2 = lapOf (ringSize q) k ∧ lef d 0 2 2 = 1 ∧ opValid (queueKind q) (lef d 0 4 8) = false) ∧
    (∃ (q : Queue) (k : BitVec 32) (d : Bytes), lef d 0 0 2 = lapOf (ringSize q) k ∧ lef d 0 2 2 = 1 ∧ opValid (queueKind q) (lef d 0 4 8) = true ∧ reservedSet (queueKind q) d = true) :=
  ⟨⟨1, 5, sv, _, rfl, by decide +kernel⟩,
   ⟨1, 5, _, _, withQ 1 5 { qu 0 [] with pSeen := 1 } sv, _, _, rfl, by decide +kernel, rfl, rfl, by decide +kernel, rfl⟩,
   ⟨1, 5, 0, dsc 0xF0 [], withQ 1 5 (qu 0 []) sv, by decide +kernel, by decide +kernel⟩,
   ⟨qu 0 [], 0, [5], by decide +kernel⟩,
   ⟨qu 0 [], 0, dsc 0x30 [], by decide +kernel, by decide +kernel, by decide +kernel⟩,
   ⟨qu 0 [], 65535, [0x04, 0x1F], by decide +kernel, by decide +kernel, by decide +kernel, by decide +kernel⟩⟩

/-- CompletionBatches. -/
theorem witness_CompletionBatches :
    (∃ (fn : Fn) (fq : BitVec 20) (s : State), ((queueOf s fn.val fq.toNat).qstate = .disabled ∨ (queueOf s fn.val fq.toNat).qstate = .quiesced)) ∧
    (∃ (fn : Fn) (fq : BitVec 20) (s : State) (u : State), (queueOf s fn.val fq.toNat).qstate = .running ∧ dmaOn s fn.val = true ∧ instOn s fn.val (queueInst s fn.val fq.toNat) = true ∧ u = writeReady fn fq.toNat 64 s ∧ (moveHead fn.val fq.toNat u).2 = true) ∧
    (∃ (fn : Fn) (fq : BitVec 20) (s : State), (queueOf s fn.val fq.toNat).qstate = .running ∧ dmaOn s fn.val = true ∧ instOn s fn.val (queueInst s fn.val fq.toNat) = false) ∧
    (∃ (es : List Entry) (h : BitVec 32), (∀ e ∈ es, e.idx ≠ h)) ∧
    (∃ (e : Entry) (h : BitVec 32), e.idx = h ∧ e.phase = .written) :=
  ⟨⟨1, 5, sv, by decide +kernel⟩,
   ⟨1, 5, withQ 1 5 (qu 0 [{ en (dsc 0xF0 []) with phase := .finished }]) sv, _, by decide +kernel, by decide +kernel, by decide +kernel, rfl, by decide +kernel⟩,
   ⟨1, 5, { (withQ 1 5 (qu 0 []) sv) with im := { insts := [], filter := [] } }, by decide +kernel, by decide +kernel, by decide +kernel⟩,
   ⟨[en [], { en [] with idx := 2 }], 1, by decide +kernel⟩,
   ⟨{ en [] with phase := .written }, 0, by decide +kernel, by decide +kernel⟩⟩

/-- NopAndCountDelta. -/
theorem witness_NopAndCountDelta :
    (∃ (fn : Fn) (fq : BitVec 20) (e : Entry) (s : State) (u : State), CountedIs s fn.val fq.toNat 0xF0 e u ∧ e.group = none) ∧
    (∃ (fn : Fn) (fq : BitVec 20) (e : Entry) (g : Nat) (s : State) (u : State), CountedIs s fn.val fq.toNat 0xF0 e u ∧ e.group = some g) ∧
    (∃ (fn : Fn) (fq : BitVec 20) (e : Entry) (p : Nat) (s : State) (u : State), CountedIs s fn.val fq.toNat 0xF1 e u ∧ e.group = none ∧ countPair u fn.val (queueInst u fn.val fq.toNat) (lef e.desc 0x10 2 18) = some p) ∧
    (∃ (s : State), tabSorted none s.tab.pairs = true) ∧
    (∃ (fn : Fn) (fq : BitVec 20) (s : State), pastEntry s fn.val fq.toNat 0xF0 = none ∧ entryWith (joinWaiting fn.val fq.toNat s) fn.val fq.toNat 0xF0 = none) :=
  ⟨⟨0, 5, en (dsc 0xF0 []), ctl 0xF0 [], _, .inr ⟨by decide +kernel, rfl, by decide +kernel⟩, by decide +kernel⟩,
   ⟨0, 5, { en (dsc 0xF0 []) with group := some 3 }, 3, withQ 0 5 (qu 4 [{ en (dsc 0xF0 []) with group := some 3 }]) sv, _, .inr ⟨by decide +kernel, rfl, by decide +kernel⟩, by decide +kernel⟩,
   ⟨0, 5, en (dsc 0xF1 [0xFFFFC]), 262143, ctl 0xF1 [0xFFFFC], _, .inr ⟨by decide +kernel, rfl, by decide +kernel⟩, by decide +kernel, by decide +kernel⟩,
   ⟨sv, by decide +kernel⟩,
   ⟨0, 5, sv, by decide +kernel, by decide +kernel⟩⟩

/-- QueueManagement. -/
theorem witness_QueueManagement :
    (∃ (cq : BitVec 20) (e : Entry) (st : Nat) (s : State) (u : State), AdminIs s cq.toNat 0x80 e u ∧ st = configStatus u (targetOf e.desc).1 (targetOf e.desc).2 (leWord e.desc 0x18) (leWord e.desc 0x30)) ∧
    (∃ (cq : BitVec 20) (e : Entry) (s : State) (u : State), AdminIs s cq.toNat 0x81 e u ∧ targetGood u (targetOf e.desc).1 (targetOf e.desc).2 = true ∧ instBarred u (targetOf e.desc).1 (targetOf e.desc).2 = false ∧ (queueOf u (targetOf e.desc).1 (targetOf e.desc).2).qstate = .disabled) ∧
    (∃ (cq : BitVec 20) (e : Entry) (s : State) (u : State), AdminIs s cq.toNat 0x81 e u ∧ targetGood u (targetOf e.desc).1 (targetOf e.desc).2 = true ∧ instBarred u (targetOf e.desc).1 (targetOf e.desc).2 = false ∧ (queueOf u (targetOf e.desc).1 (targetOf e.desc).2).qstate ≠ .disabled) ∧
    (∃ (cq : BitVec 20) (e : Entry) (q : Queue) (s : State) (u : State), AdminIs s cq.toNat 0x82 e u ∧ targetGood u (targetOf e.desc).1 (targetOf e.desc).2 = true ∧ ¬ ((targetOf e.desc).1 = 0 ∧ (targetOf e.desc).2 = cq.toNat) ∧ q = queueOf u (targetOf e.desc).1 (targetOf e.desc).2) ∧
    (∃ (cq : BitVec 20) (e : Entry) (q : Queue) (s : State) (u : State), AdminIs s cq.toNat 0x83 e u ∧ targetGood u (targetOf e.desc).1 (targetOf e.desc).2 = true ∧ instBarred u (targetOf e.desc).1 (targetOf e.desc).2 = false ∧ q = queueOf u (targetOf e.desc).1 (targetOf e.desc).2 ∧ (q.qstate = .error ∨ q.qstate = .frozen) ∧ BitVec.ofNat 32 (le e.desc 0x18 4) = q.latched) ∧
    (∃ (cq : BitVec 20) (e : Entry) (q : Queue) (s : State) (u : State), AdminIs s cq.toNat 0x83 e u ∧ targetGood u (targetOf e.desc).1 (targetOf e.desc).2 = true ∧ instBarred u (targetOf e.desc).1 (targetOf e.desc).2 = false ∧ q = queueOf u (targetOf e.desc).1 (targetOf e.desc).2 ∧ (q.qstate = .error ∨ q.qstate = .frozen) ∧ BitVec.ofNat 32 (le e.desc 0x18 4) ≠ q.latched ∧ BitVec.ofNat 32 (le e.desc 0x18 4) ≠ q.latched + 1) ∧
    (∃ (cq : BitVec 20) (e : Entry) (fn : Nat) (n : Nat) (s : State) (u : State), AdminIs s cq.toNat 0x84 e u ∧ fn = lef e.desc 0x10 16 2 ∧ n = lef e.desc 0x10 0 16 ∧ fnPresent u fn = true ∧ n < poolSize .evqs fn ∧ bit (leWord e.desc 0x18) 0 = true ∧ 4 ≤ fld (leWord e.desc 0x18) 4 5 ∧ fld (leWord e.desc 0x18) 4 5 ≤ 16 ∧ bit (evqOf u fn n).w0 0 = false) ∧
    (∃ (fn : Fn) (fq : BitVec 20) (s : State), disableReady s fn fq.toNat = true) ∧
    (∃ (fn : Fn) (fq : BitVec 20) (s : State), disableReady s fn fq.toNat = false) ∧
    (∃ (s : State), setupOpen s = true ∧ rb s QE_CTL_GO 2 = false ∧ s.life.stage = 3 ∧ ctlTarget s < share s .queues 0 ∧ configStatus s 0 (ctlTarget s) (getReg s (QE_CTL_CTX 0)) (getReg s (QE_CTL_CTX 3)) = 0) ∧
    (∃ (s : State), setupOpen s = true ∧ rb s QE_CTL_GO 2 = false ∧ s.life.stage = 3 ∧ ctlTarget s < share s .queues 0 ∧ (queueOf s 0 (ctlTarget s)).qstate = .disabled) ∧
    (∃ (s : State), setupOpen s = true ∧ rb s QE_CTL_GO 2 = true) :=
  ⟨⟨5, en (dsc 0x80 [0x100000]), _, ctl 0x80 [0x100000], _, ⟨⟨rfl, by decide +kernel⟩, by decide +kernel⟩, rfl⟩,
   ⟨5, en (dsc 0x81 [0x100000]), ctl 0x81 [0x100000], _, ⟨⟨rfl, by decide +kernel⟩, by decide +kernel⟩, by decide +kernel, by decide +kernel, by decide +kernel⟩,
   ⟨5, en (dsc 0x81 [5]), ctl 0x81 [5], _, ⟨⟨rfl, by decide +kernel⟩, by decide +kernel⟩, by decide +kernel, by decide +kernel, by decide +kernel⟩,
   ⟨5, en (dsc 0x82 [0x100000]), _, ctl 0x82 [0x100000], _, ⟨⟨rfl, by decide +kernel⟩, by decide +kernel⟩, by decide +kernel, by decide +kernel, rfl⟩,
   ⟨5, en (dsc 0x83 [0x100001, 7]), _, withQ 1 1 { qu 0 [] with qstate := .error, latched := 7 } (ctl 0x83 [0x100001, 7]), _, ⟨⟨rfl, by decide +kernel⟩, by decide +kernel⟩, by decide +kernel, by decide +kernel, rfl, by decide +kernel, by decide +kernel⟩,
   ⟨5, en (dsc 0x83 [0x100001, 9]), _, withQ 1 1 { qu 0 [] with qstate := .frozen, latched := 7 } (ctl 0x83 [0x100001, 9]), _, ⟨⟨rfl, by decide +kernel⟩, by decide +kernel⟩, by decide +kernel, by decide +kernel, rfl, by decide +kernel, by decide +kernel, by decide +kernel⟩,
   ⟨5, en (dsc 0x84 [0x10003, 0x101]), _, _, ctl 0x84 [0x10003, 0x101], _, ⟨⟨rfl, by decide +kernel⟩, by decide +kernel⟩, rfl, rfl, by decide +kernel, by decide +kernel, by decide +kernel, by decide +kernel, by decide +kernel, by decide +kernel⟩,
   ⟨1, 5, withQ 1 5 { qu 0 [] with qstate := .disabling } sv, by decide +kernel⟩,
   ⟨1, 5, sv, by decide +kernel⟩,
   ⟨rg (QE_CTL_CTX 0) 0x60 sv, by decide +kernel, by decide +kernel, by decide +kernel, by decide +kernel, by decide +kernel⟩,
   ⟨sv, by decide +kernel, by decide +kernel, by decide +kernel, by decide +kernel, by decide +kernel⟩,
   ⟨rg QE_CTL_GO 4 sv, by decide +kernel, by decide +kernel⟩⟩

/-- EventsAndMessages. -/
theorem witness_EventsAndMessages :
    (∃ (fn : Fn) (n : BitVec 16) (e : Evq) (s : State) (v : State), v = hostReadDone fn (.consumer n) s ∧ e = evqOf v fn.val n.toNat ∧ e.reading = true ∧ bit e.w0 0 = true ∧ e.armCheck = false ∧ e.reread = none) ∧
    (∃ (fn : Fn) (n : BitVec 16) (arm : Bool) (e : Evq) (s : State) (v : State), v = hostReadDone fn (.consumer n) s ∧ e = evqOf v fn.val n.toNat ∧ e.reading = true ∧ bit e.w0 0 = true ∧ e.armCheck = false ∧ e.reread = some arm) ∧
    (∃ (fn : Fn) (n : BitVec 16) (s : State) (v : State), v = hostReadDone fn (.consumer n) s ∧ (evqOf v fn.val n.toNat).reading = false) ∧
    (∃ (fn : Fn) (n : BitVec 16) (s : State), bit (evqOf s fn.val n.toNat).w0 0 = true ∧ (evqOf s fn.val n.toNat).overflow = true) ∧
    (∃ (g : BitVec 16) (s : State), messageReady s g.toNat = true) ∧
    (∃ (g : BitVec 16) (s : State), messageReady s g.toNat = false) ∧
    (∃ (fn : Fn) (n : Nat) (s : State), bit (evqOf s fn.val n).w0 0 = false) :=
  ⟨⟨1, 7, _, evq 1 7 { Evq.none with w0 := 0x81, reading := true }, _, rfl, rfl, by decide +kernel, by decide +kernel, by decide +kernel, by decide +kernel⟩,
   ⟨1, 7, true, _, evq 1 7 { Evq.none with w0 := 0x81, reading := true, reread := some true }, _, rfl, rfl, by decide +kernel, by decide +kernel, by decide +kernel, by decide +kernel⟩,
   ⟨1, 7, sv, _, rfl, by decide +kernel⟩,
   ⟨1, 7, evq 1 7 { Evq.none with w0 := 0x81, overflow := true }, by decide +kernel, by decide +kernel⟩,
   ⟨4096, { cfgd (fun c => { c with msixEnable := true }) with regs := (rg (QE_INT_B 4096) 0x800000000 sv).regs }, by decide +kernel⟩,
   ⟨65535, sv, by decide +kernel⟩,
   ⟨3, 12287, sv, by decide +kernel⟩⟩

/-- InstanceOpcodes. -/
theorem witness_InstanceOpcodes :
    (∃ (cq : BitVec 20) (e : Entry) (fn : Nat) (i : Nat) (s : State) (u : State), AdminIs s cq.toNat 0xE0 e u ∧ (fn, i) = instTarget e.desc ∧ mgmtTarget (fn, i) = false ∧ i < instCount u fn ∧ fnPresent u fn = true ∧ (i = 0 ∨ (cfgOf u fn).pasidEnable = true) ∧ (instOf u fn i).state = .off ∧ bindTaken u fn i = false ∧ instQueues (putInst fn i { instOf u fn i with state := .on } u) fn i = []) ∧
    (∃ (cq : BitVec 20) (e : Entry) (fn : Nat) (i : Nat) (s : State) (u : State), AdminIs s cq.toNat 0xE0 e u ∧ (fn, i) = instTarget e.desc ∧ mgmtTarget (fn, i) = false ∧ i < instCount u fn ∧ fnPresent u fn = true ∧ (i = 0 ∨ (cfgOf u fn).pasidEnable = true) ∧ (instOf u fn i).state ≠ .off) ∧
    (∃ (cq : BitVec 20) (e : Entry) (fn : Nat) (i : Nat) (s : State) (u : State), AdminIs s cq.toNat 0xE1 e u ∧ (fn, i) = instTarget e.desc ∧ mgmtTarget (fn, i) = false ∧ (instOf u fn i).state = .on ∧ (∀ fq ∈ instQueues u fn i, (queueOf u fn fq).qstate = .disabled)) ∧
    (∃ (cq : BitVec 20) (e : Entry) (fn : Nat) (i : Nat) (fq : Nat) (s : State) (u : State), AdminIs s cq.toNat 0xE1 e u ∧ (fn, i) = instTarget e.desc ∧ mgmtTarget (fn, i) = false ∧ (instOf u fn i).state = .on ∧ fq ∈ instQueues u fn i ∧ (queueOf u fn fq).qstate ≠ .disabled) ∧
    (∃ (cq : BitVec 20) (e : Entry) (fn : Nat) (i : Nat) (s : State) (u : State), AdminIs s cq.toNat 0xE2 e u ∧ (fn, i) = instTarget e.desc ∧ mgmtTarget (fn, i) = false ∧ (instOf u fn i).state ≠ .off) ∧
    (∃ (cq : BitVec 20) (e : Entry) (fn : Nat) (i : Nat) (sz : Nat) (x : Inst) (s : State) (u : State), AdminIs s cq.toNat 0xE3 e u ∧ (fn, i) = instTarget e.desc ∧ i < instCount u fn ∧ fnPresent u fn = true ∧ sz = lef e.desc 0x18 0 5 ∧ (sz = 0 ∨ (9 ≤ sz ∧ sz ≤ 24)) ∧ x = instOf u fn i) ∧
    (∃ (cq : BitVec 20) (e : Entry) (op : Nat) (c : Instr) (s : State) (u : State), ((op = 0xE0 ∧ c = .instEnable cq) ∨ (op = 0xE1 ∧ c = .instDisable cq) ∨ (op = 0xE2 ∧ c = .instReset cq)) ∧ AdminIs s cq.toNat op e u ∧ instTarget e.desc = (0, 0)) :=
  ⟨⟨5, en (dsc 0xE0 [0x400]), 1, 0, { ctl 0xE0 [0x400] with im := { insts := [(0, on0)], filter := [] } }, _, ⟨⟨rfl, by decide +kernel⟩, by decide +kernel⟩, by decide +kernel, by decide +kernel, by decide +kernel, by decide +kernel, by decide +kernel, by decide +kernel, by decide +kernel, by decide +kernel⟩,
   ⟨5, en (dsc 0xE0 [0x400]), 1, 0, ctl 0xE0 [0x400], _, ⟨⟨rfl, by decide +kernel⟩, by decide +kernel⟩, by decide +kernel, by decide +kernel, by decide +kernel, by decide +kernel, by decide +kernel, by decide +kernel⟩,
   ⟨5, en (dsc 0xE1 [0x400]), 1, 0, ctl 0xE1 [0x400], _, ⟨⟨rfl, by decide +kernel⟩, by decide +kernel⟩, by decide +kernel, by decide +kernel, by decide +kernel, by decide +kernel⟩,
   ⟨5, en (dsc 0xE1 [0x400]), 1, 0, 5, withQ 1 5 (qu 0 []) (ctl 0xE1 [0x400]), _, ⟨⟨rfl, by decide +kernel⟩, by decide +kernel⟩, by decide +kernel, by decide +kernel, by decide +kernel, by decide +kernel, by decide +kernel⟩,
   ⟨5, en (dsc 0xE2 [0xC00]), 3, 0, ctl 0xE2 [0xC00], _, ⟨⟨rfl, by decide +kernel⟩, by decide +kernel⟩, by decide +kernel, by decide +kernel, by decide +kernel⟩,
   ⟨5, en (dsc 0xE3 [0x800, 24]), 2, 0, 24, _, ctl 0xE3 [0x800, 24], _, ⟨⟨rfl, by decide +kernel⟩, by decide +kernel⟩, by decide +kernel, by decide +kernel, by decide +kernel, by decide +kernel, by decide +kernel, rfl⟩,
   ⟨5, en (dsc 0xE0 []), 0xE0, _, ctl 0xE0 [], _, .inl ⟨rfl, rfl⟩, ⟨⟨rfl, by decide +kernel⟩, by decide +kernel⟩, by decide +kernel⟩⟩

/-- DrainsAndShares. -/
theorem witness_DrainsAndShares :
    (∃ (fn : Fn) (i : BitVec 10) (c : DrainCause) (s : State), (instOf s fn.val i.toNat).drain = some c ∧ drained s fn.val i.toNat = true) ∧
    (∃ (fn : Fn) (i : BitVec 10) (s : State), ((instOf s fn.val i.toNat).drain = none ∨ drained s fn.val i.toNat = false)) ∧
    (∃ (fn : Fn) (v : BitVec 64) (s : State), setupOpen s = true ∧ bit v 4 = false ∧ fld v 0 4 ≠ rf s (IM_FN_SHARE fn.val) 0 4 ∧ fld v 0 4 ≤ maxInstLog2 s fn.val ∧ shareFree s fn.val = true) ∧
    (∃ (fn : Fn) (v : BitVec 64) (s : State), setupOpen s = true ∧ bit v 4 = false ∧ fld v 0 4 ≠ rf s (IM_FN_SHARE fn.val) 0 4 ∧ (maxInstLog2 s fn.val < fld v 0 4 ∨ shareFree s fn.val = false)) ∧
    (∃ (fn : Fn) (i : BitVec 10) (s : State), setupOpen s = true ∧ i.toNat < instCount s fn.val ∧ (instOf s fn.val i.toNat).state = .off) ∧
    (∃ (fn : Fn) (i : BitVec 10) (s : State), setupOpen s = true ∧ (instCount s fn.val ≤ i.toNat ∨ (instOf s fn.val i.toNat).state ≠ .off)) :=
  ⟨⟨1, 0, .reset, { sv with im := { insts := [(1024, { on0 with drain := some .reset })], filter := [] } }, by decide +kernel, by decide +kernel⟩,
   ⟨3, 1023, sv, by decide +kernel⟩,
   ⟨3, 10, { sv with im := { insts := [(0, on0)], filter := [] } }, by decide +kernel, by decide +kernel, by decide +kernel, by decide +kernel, by decide +kernel⟩,
   ⟨3, 11, sv, by decide +kernel, by decide +kernel, by decide +kernel, by decide +kernel⟩,
   ⟨3, 0, { sv with im := { insts := [(0, on0)], filter := [] } }, by decide +kernel, by decide +kernel, by decide +kernel⟩,
   ⟨0, 0, sv, by decide +kernel, by decide +kernel⟩⟩

/-- NetworkPorts. -/
theorem witness_NetworkPorts :
    (∃ (v : BitVec 64) (s : State), setupOpen s = true ∧ bit v 2 = false ∧ fld v 0 2 ≠ 3 ∧ (∀ n, n < 8 → rb s (NP_PORT_CTRL n) 0 = false)) ∧
    (∃ (v : BitVec 64) (n : Nat) (s : State), setupOpen s = true ∧ bit v 2 = false ∧ n < 8 ∧ rb s (NP_PORT_CTRL n) 0 = true) ∧
    (∃ (p : NPort) (s : State), netEnabled s p.val = true ∧ netUp s p.val = false) ∧
    (∃ (p : NPort) (s : State), netEnabled s p.val = false) ∧
    (∃ (p : NPort) (s : State), netUp s p.val = true) ∧
    (∃ (p : NPort) (s : State), netUp s p.val = false) ∧
    (∃ (p : NPort) (s : State), netUp s p.val = false) ∧
    (∃ (p : NPort) (n : BitVec 16 × BitVec 16) (s : State) (v : State), netUp s p.val = true ∧ v = addErr (NP_FEC_UNCORRECTED p.val) n.2.toNat (addStat (NP_FEC_CORRECTED p.val) n.1.toNat s)) ∧
    (∃ (p : NPort) (b : Bytes) (n : BitVec 16 × BitVec 16) (s : State) (v : State) (u : State), netUp s p.val = true ∧ v = addErr (NP_FEC_UNCORRECTED p.val) n.2.toNat (addStat (NP_FEC_CORRECTED p.val) n.1.toNat s) ∧ u = addStat (NP_RX_OCTETS p.val) (b.length + 4) (addStat (NP_RX_FRAMES p.val) 1 v) ∧ maxFrame u p.val < b.length + 4) ∧
    (∃ (p : NPort) (b : Bytes) (n : BitVec 16 × BitVec 16) (s : State) (v : State) (u : State), netUp s p.val = true ∧ v = addErr (NP_FEC_UNCORRECTED p.val) n.2.toNat (addStat (NP_FEC_CORRECTED p.val) n.1.toNat s) ∧ u = addStat (NP_RX_OCTETS p.val) (b.length + 4) (addStat (NP_RX_FRAMES p.val) 1 v) ∧ b.length + 4 ≤ maxFrame u p.val ∧ (admitIngress p.val b u).2 = true) ∧
    (∃ (p : NPort) (b : Bytes) (n : BitVec 16 × BitVec 16) (s : State) (v : State) (u : State), netUp s p.val = true ∧ v = addErr (NP_FEC_UNCORRECTED p.val) n.2.toNat (addStat (NP_FEC_CORRECTED p.val) n.1.toNat s) ∧ u = addStat (NP_RX_OCTETS p.val) (b.length + 4) (addStat (NP_RX_FRAMES p.val) 1 v) ∧ b.length + 4 ≤ maxFrame u p.val ∧ (admitIngress p.val b u).2 = false) :=
  ⟨⟨2, sv, by decide +kernel, by decide +kernel, by decide +kernel, by decide +kernel⟩,
   ⟨1, 7, rg (NP_PORT_CTRL 7) 1 sv, by decide +kernel, by decide +kernel, by decide +kernel, by decide +kernel⟩,
   ⟨7, rg (NP_PORT_CTRL 7) 1 sv, by decide +kernel, by decide +kernel⟩,
   ⟨7, sv, by decide +kernel⟩,
   ⟨7, up7, by decide +kernel⟩,
   ⟨0, sv, by decide +kernel⟩,
   ⟨7, sv, by decide +kernel⟩,
   ⟨7, (3, 2), up7, _, by decide +kernel, rfl⟩,
   ⟨7, List.replicate 9213 0, (0, 1), up7, _, _, by decide +kernel, rfl, rfl, by decide +kernel⟩,
   ⟨7, List.replicate 60 0, (1, 0), up7, _, _, by decide +kernel, rfl, rfl, by decide +kernel, by decide +kernel⟩,
   ⟨7, List.replicate 60 0, (0, 0), full7, _, _, by decide +kernel, rfl, rfl, by decide +kernel, by decide +kernel⟩⟩

/-- DealAndRelease. -/
theorem witness_DealAndRelease :
    (∃ (pl : BulkPl) (src : Nat) (left : Nat) (f : Nat) (w : Nat) (s : State), dealChoice s pl.val = some (src, left) ∧ (srcOf s pl.val src).wait.head? = some f ∧ idleUnit s pl.val src = some w) ∧
    (∃ (pl : BulkPl) (s : State), dealChoice s pl.val = none) ∧
    (∃ (pl : BulkPl) (x : Source) (f : Nat) (rest : List Nat) (y : Frame) (s : State), (srcOf s pl.val (sourceNum x)).rob = f :: rest ∧ frameOf s f = some y ∧ y.result = .pending) ∧
    (∃ (pl : BulkPl) (x : Source) (f : Nat) (rest : List Nat) (y : Frame) (s : State) (u : State), (srcOf s pl.val (sourceNum x)).rob = f :: rest ∧ frameOf s f = some y ∧ y.result = .committed ∧ y.fcsOk = true ∧ u = putSrc pl.val (sourceNum x) { srcOf s pl.val (sourceNum x) with rob := rest } s) ∧
    (∃ (pl : BulkPl) (x : Source) (f : Nat) (rest : List Nat) (y : Frame) (r : BitVec 7) (s : State) (u : State), (srcOf s pl.val (sourceNum x)).rob = f :: rest ∧ frameOf s f = some y ∧ y.result = .malformed r ∧ y.fcsOk = true ∧ u = putSrc pl.val (sourceNum x) { srcOf s pl.val (sourceNum x) with rob := rest } s) ∧
    (∃ (pl : BulkPl) (n : NPort) (f : Nat) (rest : List Nat) (y : Frame) (s : State) (u : State), (srcOf s pl.val n.val).rob = f :: rest ∧ frameOf s f = some y ∧ y.result ≠ .pending ∧ y.fcsOk = false ∧ u = putSrc pl.val n.val { srcOf s pl.val n.val with rob := rest } s) ∧
    (∃ (pl : BulkPl) (x : Source) (s : State), (srcOf s pl.val (sourceNum x)).rob ≠ []) ∧
    (∃ (pl : Pl) (w : Fin 32) (fid : Nat) (f : Frame) (s : State), (unitOf s pl.val w.val).frame = some fid ∧ frameOf s fid = some f ∧ stepLimit s pl.val ≤ (unitOf s pl.val w.val).steps.toNat) ∧
    (∃ (pl : Pl) (w : Fin 32) (s : State), (unitOf s pl.val w.val).steps.toNat < stepLimit s pl.val) :=
  ⟨⟨0, 0, 7, 5, 0, src 0 0 [5] [] sv, by decide +kernel, by decide +kernel, by decide +kernel⟩,
   ⟨3, sv, by decide +kernel⟩,
   ⟨0, .net 0, 0, [], fr0, src 0 0 [] [0] (held fr0), by decide +kernel, by decide +kernel, by decide +kernel⟩,
   ⟨0, .host, 0, [], { fr0 with result := .committed }, src 0 8 [] [0] (held { fr0 with result := .committed }), _, by decide +kernel, by decide +kernel, by decide +kernel, by decide +kernel, rfl⟩,
   ⟨0, .recirc, 0, [], { fr0 with result := .malformed 127 }, 127, src 0 9 [] [0] (held { fr0 with result := .malformed 127 }), _, by decide +kernel, by decide +kernel, by decide +kernel, by decide +kernel, rfl⟩,
   ⟨3, 7, 0, [], { fr0 with result := .committed, fcsOk := false }, src 3 7 [] [0] (held { fr0 with result := .committed, fcsOk := false }), _, by decide +kernel, by decide +kernel, by decide +kernel, by decide +kernel, rfl⟩,
   ⟨0, .net 0, src 0 0 [] [0] (held fr0), by decide +kernel⟩,
   ⟨0, 0, 0, fr0, putUnit 0 0 { pu 0 0 with steps := 1024 } (held fr0), by decide +kernel, by decide +kernel, by decide +kernel⟩,
   ⟨4, 31, sv, by decide +kernel⟩⟩

/-- ParseWords. -/
theorem witness_ParseWords :
    (∃ (pl : Pl) (w : Fin 32) (fid : Nat) (f : Frame) (u : ParseUnit) (m : MicroWord) (a : BitVec 32) (b : BitVec 32) (s : State), WordReady s pl.val w.val 0x00 fid f u m a b) ∧
    (∃ (pl : Pl) (w : Fin 32) (fid : Nat) (f : Frame) (u : ParseUnit) (m : MicroWord) (a : BitVec 32) (b : BitVec 32) (s : State), WordReady s pl.val w.val 0x01 fid f u m a b) ∧
    (∃ (pl : Pl) (w : Fin 32) (fid : Nat) (f : Frame) (u : ParseUnit) (m : MicroWord) (a : BitVec 32) (b : BitVec 32) (s : State), WordReady s pl.val w.val 0x02 fid f u m a b) ∧
    (∃ (pl : Pl) (w : Fin 32) (fid : Nat) (f : Frame) (u : ParseUnit) (m : MicroWord) (a : BitVec 32) (b : BitVec 32) (s : State), WordReady s pl.val w.val 0x03 fid f u m a b) ∧
    (∃ (pl : Pl) (w : Fin 32) (fid : Nat) (f : Frame) (u : ParseUnit) (m : MicroWord) (a : BitVec 32) (b : BitVec 32) (s : State), WordReady s pl.val w.val 0x04 fid f u m a b) ∧
    (∃ (pl : Pl) (w : Fin 32) (fid : Nat) (f : Frame) (u : ParseUnit) (m : MicroWord) (a : BitVec 32) (b : BitVec 32) (s : State), WordReady s pl.val w.val 0x05 fid f u m a b) ∧
    (∃ (pl : Pl) (w : Fin 32) (fid : Nat) (f : Frame) (u : ParseUnit) (m : MicroWord) (a : BitVec 32) (b : BitVec 32) (s : State), WordReady s pl.val w.val 0x06 fid f u m a b) ∧
    (∃ (pl : Pl) (w : Fin 32) (fid : Nat) (f : Frame) (u : ParseUnit) (m : MicroWord) (a : BitVec 32) (b : BitVec 32) (s : State), WordReady s pl.val w.val 0x07 fid f u m a b) ∧
    (∃ (pl : Pl) (w : Fin 32) (fid : Nat) (f : Frame) (u : ParseUnit) (m : MicroWord) (a : BitVec 32) (b : BitVec 32) (s : State), WordReady s pl.val w.val 0x08 fid f u m a b) ∧
    (∃ (pl : Pl) (w : Fin 32) (fid : Nat) (f : Frame) (u : ParseUnit) (m : MicroWord) (a : BitVec 32) (b : BitVec 32) (s : State), WordReady s pl.val w.val 0x09 fid f u m a b) ∧
    (∃ (pl : Pl) (w : Fin 32) (fid : Nat) (f : Frame) (u : ParseUnit) (m : MicroWord) (a : BitVec 32) (b : BitVec 32) (s : State), WordReady s pl.val w.val 0x0A fid f u m a b) ∧
    (∃ (pl : Pl) (w : Fin 32) (fid : Nat) (f : Frame) (u : ParseUnit) (m : MicroWord) (a : BitVec 32) (b : BitVec 32) (s : State), WordReady s pl.val w.val 0x0B fid f u m a b) ∧
    (∃ (pl : Pl) (w : Fin 32) (fid : Nat) (f : Frame) (u : ParseUnit) (m : MicroWord) (a : BitVec 32) (b : BitVec 32) (s : State), WordReady s pl.val w.val 0x0C fid f u m a b) ∧
    (∃ (pl : Pl) (w : Fin 32) (fid : Nat) (f : Frame) (u : ParseUnit) (m : MicroWord) (a : BitVec 32) (b : BitVec 32) (s : State), WordReady s pl.val w.val 0x0D fid f u m a b) ∧
    (∃ (pl : Pl) (w : Fin 32) (fid : Nat) (f : Frame) (u : ParseUnit) (m : MicroWord) (a : BitVec 32) (b : BitVec 32) (s : State), WordReady s pl.val w.val 0x0E fid f u m a b) ∧
    (∃ (pl : Pl) (w : Fin 32) (fid : Nat) (f : Frame) (u : ParseUnit) (m : MicroWord) (a : BitVec 32) (b : BitVec 32) (s : State), WordReady s pl.val w.val 0x10 fid f u m a b) ∧
    (∃ (pl : Pl) (w : Fin 32) (fid : Nat) (f : Frame) (u : ParseUnit) (m : MicroWord) (a : BitVec 32) (b : BitVec 32) (s : State), WordReady s pl.val w.val 0x11 fid f u m a b ∧ be u.record 3 1 / 4 % 16 < 8) ∧
    (∃ (pl : Pl) (w : Fin 32) (fid : Nat) (f : Frame) (u : ParseUnit) (m : MicroWord) (a : BitVec 32) (b : BitVec 32) (s : State), WordReady s pl.val w.val 0x11 fid f u m a b ∧ 8 ≤ be u.record 3 1 / 4 % 16) ∧
    (∃ (pl : Pl) (w : Fin 32) (fid : Nat) (f : Frame) (u : ParseUnit) (m : MicroWord) (a : BitVec 32) (b : BitVec 32) (s : State), WordReady s pl.val w.val 0x12 fid f u m a b ∧ u.layer ≠ 3) ∧
    (∃ (pl : Pl) (w : Fin 32) (fid : Nat) (f : Frame) (u : ParseUnit) (m : MicroWord) (a : BitVec 32) (b : BitVec 32) (s : State), WordReady s pl.val w.val 0x12 fid f u m a b ∧ u.layer = 3) ∧
    (∃ (pl : Pl) (w : Fin 32) (fid : Nat) (f : Frame) (u : ParseUnit) (m : MicroWord) (a : BitVec 32) (b : BitVec 32) (s : State), WordReady s pl.val w.val 0x13 fid f u m a b) ∧
    (∃ (pl : Pl) (w : Fin 32) (fid : Nat) (f : Frame) (u : ParseUnit) (m : MicroWord) (a : BitVec 32) (b : BitVec 32) (s : State), WordReady s pl.val w.val 0x14 fid f u m a b) ∧
    (∃ (pl : Pl) (w : Fin 32) (fid : Nat) (f : Frame) (u : ParseUnit) (m : MicroWord) (a : BitVec 32) (b : BitVec 32) (s : State), WordReady s pl.val w.val 0x15 fid f u m a b) ∧
    (∃ (pl : Pl) (w : Fin 32) (fid : Nat) (f : Frame) (u : ParseUnit) (m : MicroWord) (a : BitVec 32) (b : BitVec 32) (s : State), WordReady s pl.val w.val 0x16 fid f u m a b) ∧
    (∃ (pl : Pl) (w : Fin 32) (fid : Nat) (f : Frame) (u : ParseUnit) (m : MicroWord) (a : BitVec 32) (b : BitVec 32) (s : State), WordReady s pl.val w.val 0x17 fid f u m a b) ∧
    (∃ (pl : Pl) (w : Fin 32) (op : Nat) (fid : Nat) (f : Frame) (u : ParseUnit) (m : MicroWord) (a : BitVec 32) (b : BitVec 32) (s : State), WordReady s pl.val w.val op fid f u m a b) :=
  ⟨⟨0, 0, 0, fr0, pu 0 0, microWord 0, 0, 0, pw 0 (pu 0 0), pw_ready 0 0 0 (by decide)⟩,
   ⟨0, 0, 0, fr0, pu 0 0, microWord 1, 0, 0, pw 1 (pu 0 0), pw_ready 1 0 0 (by decide)⟩,
   ⟨0, 0, 0, fr0, pu 0 0, microWord 2, 0, 0, pw 2 (pu 0 0), pw_ready 2 0 0 (by decide)⟩,
   ⟨0, 0, 0, fr0, pu 0 0, microWord 3, 0, 0, pw 3 (pu 0 0), pw_ready 3 0 0 (by decide)⟩,
   ⟨0, 0, 0, fr0, pu 0 0, microWord 4, 0, 0, pw 4 (pu 0 0), pw_ready 4 0 0 (by decide)⟩,
   ⟨0, 0, 0, fr0, pu 0 0, microWord 5, 0, 0, pw 5 (pu 0 0), pw_ready 5 0 0 (by decide)⟩,
   ⟨0, 0, 0, fr0, pu 0 0, microWord 6, 0, 0, pw 6 (pu 0 0), pw_ready 6 0 0 (by decide)⟩,
   ⟨0, 0, 0, fr0, pu 0 0, microWord 7, 0, 0, pw 7 (pu 0 0), pw_ready 7 0 0 (by decide)⟩,
   ⟨0, 0, 0, fr0, pu 0 0, microWord 8, 0, 0, pw 8 (pu 0 0), pw_ready 8 0 0 (by decide)⟩,
   ⟨0, 0, 0, fr0, pu 0 0, microWord 9, 0, 0, pw 9 (pu 0 0), pw_ready 9 0 0 (by decide)⟩,
   ⟨0, 0, 0, fr0, pu 0 0, microWord 10, 0, 0, pw 10 (pu 0 0), pw_ready 10 0 0 (by decide)⟩,
   ⟨0, 0, 0, fr0, pu 0 0, microWord 11, 0, 0, pw 11 (pu 0 0), pw_ready 11 0 0 (by decide)⟩,
   ⟨0, 0, 0, fr0, pu 0 0, microWord 12, 0, 0, pw 12 (pu 0 0), pw_ready 12 0 0 (by decide)⟩,
   ⟨0, 0, 0, fr0, pu 0 0, microWord 13, 0, 0, pw 13 (pu 0 0), pw_ready 13 0 0 (by decide)⟩,
   ⟨0, 0, 0, fr0, pu 0 0, microWord 14, 0, 0, pw 14 (pu 0 0), pw_ready 14 0 0 (by decide)⟩,
   ⟨0, 0, 0, fr0, pu 0 0, microWord 16, 0, 0, pw 16 (pu 0 0), pw_ready 16 0 0 (by decide)⟩,
   ⟨0, 0, 0, fr0, pu 0 7, microWord 17, 0, 0, pw 17 (pu 0 7), pw_ready 17 0 7 (by decide), by decide +kernel⟩,
   ⟨0, 0, 0, fr0, pu 0 8, microWord 17, 0, 0, pw 17 (pu 0 8), pw_ready 17 0 8 (by decide), by decide +kernel⟩,
   ⟨0, 0, 0, fr0, pu 2 0, microWord 18, 0, 0, pw 18 (pu 2 0), pw_ready 18 2 0 (by decide), by decide +kernel⟩,
   ⟨0, 0, 0, fr0, pu 3 0, microWord 18, 0, 0, pw 18 (pu 3 0), pw_ready 18 3 0 (by decide), by decide +kernel⟩,
   ⟨0, 0, 0, fr0, pu 0 0, microWord 19, 0, 0, pw 19 (pu 0 0), pw_ready 19 0 0 (by decide)⟩,
   ⟨0, 0, 0, fr0, pu 0 0, microWord 20, 0, 0, pw 20 (pu 0 0), pw_ready 20 0 0 (by decide)⟩,
   ⟨0, 0, 0, fr0, pu 0 0, microWord 21, 0, 0, pw 21 (pu 0 0), pw_ready 21 0 0 (by decide)⟩,
   ⟨0, 0, 0, fr0, pu 0 0, microWord 22, 0, 0, pw 22 (pu 0 0), pw_ready 22 0 0 (by decide)⟩,
   ⟨0, 0, 0, fr0, pu 0 0, microWord 23, 0, 0, pw 23 (pu 0 0), pw_ready 23 0 0 (by decide)⟩,
   ⟨0, 0, 1, 0, fr0, pu 0 0, microWord 1, 0, 0, pw 1 (pu 0 0), pw_ready 1 0 0 (by decide)⟩⟩

/-- ChainAndEditor. -/
theorem witness_ChainAndEditor :
    (∃ (pl : BulkPl) (f : Nat) (x : Frame) (st : BitVec 5) (s : State), frameOf s f = some x ∧ x.loc = .chain st ∧ x.pl.toNat = pl.val) ∧
    (∃ (pl : BulkPl) (f : Nat) (x : Frame) (st : BitVec 5) (s : State), frameOf s f = some x ∧ x.loc = .chain st ∧ x.pl.toNat = pl.val ∧ x.rebuilt = true) ∧
    (∃ (f : Nat) (s : State), frameOf s f = none) ∧
    (∃ (pl : BulkPl) (f : Nat) (x : Frame) (r : BitVec 7) (s : State), frameOf s f = some x ∧ x.loc = .edit ∧ x.pl.toNat = pl.val ∧ nextOut s pl.val f = true ∧ editFrame s x (editLimit s x) = .bad r) ∧
    (∃ (pl : BulkPl) (f : Nat) (x : Frame) (b : Bytes) (l : BitVec 20) (s : State), frameOf s f = some x ∧ x.loc = .edit ∧ x.pl.toNat = pl.val ∧ nextOut s pl.val f = true ∧ editFrame s x (editLimit s x) = .ok b ∧ x.disp = .forward l) ∧
    (∃ (f : Nat) (x : Frame) (s : State), frameOf s f = some x ∧ x.loc ≠ .edit) ∧
    (∃ (f : Nat) (x : Frame) (s : State), frameOf s f = some x ∧ x.editProg ≠ 0) ∧
    (∃ (f : Nat) (x : Frame) (s : State), frameOf s f = some x ∧ x.editProg = 0) ∧
    (∃ (pl : BulkPl) (f : Nat) (x : Frame) (st : BitVec 5) (s : State), frameOf s f = some x ∧ x.loc = .chain st ∧ x.pl.toNat = pl.val) :=
  ⟨⟨0, 0, { fr0 with loc := .chain 7 }, 7, held { fr0 with loc := .chain 7 }, by decide +kernel, by decide +kernel, by decide +kernel⟩,
   ⟨0, 0, { fr0 with loc := .chain 1, rebuilt := true }, 1, held { fr0 with loc := .chain 1, rebuilt := true }, by decide +kernel, by decide +kernel, by decide +kernel, by decide +kernel⟩,
   ⟨0, sv, by decide +kernel⟩,
   ⟨0, 0, badEdit, 0x0A, rg (NP_PORT_CTRL 0) 0x400000 (putPipe 0 { Pipe.empty with chain := [0] } (held badEdit)), by decide +kernel, by decide +kernel, by decide +kernel, by decide +kernel, by decide +kernel⟩,
   ⟨0, 0, goodEdit, List.replicate 60 0, 9, putPipe 0 { Pipe.empty with chain := [0] } (held goodEdit), by decide +kernel, by decide +kernel, by decide +kernel, by decide +kernel, by decide +kernel, by decide +kernel⟩,
   ⟨0, fr0, held fr0, by decide +kernel, by decide +kernel⟩,
   ⟨0, { fr0 with editProg := 1 }, held { fr0 with editProg := 1 }, by decide +kernel, by decide +kernel⟩,
   ⟨0, fr0, held fr0, by decide +kernel, by decide +kernel⟩,
   ⟨0, 0, { fr0 with loc := .chain 3 }, 3, held { fr0 with loc := .chain 3 }, by decide +kernel, by decide +kernel, by decide +kernel⟩⟩

/-- TableEpochs. -/
theorem witness_TableEpochs :
    (∃ (s : State) (k : TabKind) (pl : Nat) (key : Nat) (e : BitVec 32), (∀ x ∈ s.tab.shadows, x.kind = k → x.pl.toNat = pl → x.key = key → ∀ t, x.tag = some t → epochLe t e = false)) ∧
    (∃ (s : State) (k : TabKind) (pl : Nat) (key : Nat) (e : BitVec 32) (t : BitVec 32) (x : Shadow) (l : List Shadow), s.tab.shadows = l ++ [x] ∧ x.kind = k ∧ x.pl.toNat = pl ∧ x.key = key ∧ x.tag = some t ∧ epochLe t e = true ∧ (∀ y ∈ l, ∀ u, y.tag = some u → epochLe u t = true)) ∧
    (∃ (pl : Pl) (s : State), epochRetired s pl.val = epochCurrent s pl.val ∧ flipPending s (epochMates s pl.val) = true) ∧
    (∃ (pl : Pl) (s : State), (epochRetired s pl.val ≠ epochCurrent s pl.val ∨ flipPending s (epochMates s pl.val) = false)) ∧
    (∃ (s : State), tabSorted none s.regs = true) ∧
    (∃ (cq : BitVec 20) (e : Entry) (s : State) (u : State), NextIs s 0 cq.toNat 0x93 e u ∧ groupMember e = false ∧ badPairMask u (lef e.desc 0x10 0 5) = false) ∧
    (∃ (cq : BitVec 20) (e : Entry) (s : State) (u : State), NextIs s 0 cq.toNat 0x93 e u ∧ groupMember e = true) ∧
    (∃ (pl : Pl) (s : State), setupOpen s = true ∧ stationUse s pl.val = 0 ∧ tabSorted none s.regs = true) ∧
    (∃ (pl : Pl) (s : State), setupOpen s = true ∧ stationUse s pl.val ≠ 0 ∧ tabSorted none s.regs = true) :=
  ⟨⟨shadowed [sh0], .action, 0, 5, 0, by intro x hx _ _ _ t ht; cases List.mem_singleton.mp hx; cases ht; decide⟩,
   ⟨shadowed [sh0], .action, 0, 5, 1, 1, sh0, [], by decide +kernel, by decide +kernel, by decide +kernel, by decide +kernel, by decide +kernel, by decide +kernel, by intro y hy; cases hy⟩,
   ⟨0, shadowed [{ sh0 with tag := none }], by decide +kernel, by decide +kernel⟩,
   ⟨3, sv, by decide +kernel⟩,
   ⟨sv, by decide +kernel⟩,
   ⟨5, en (dsc 0x93 [0x11]), ctl 0x93 [0x11], _, ⟨rfl, by decide +kernel⟩, by decide +kernel, by decide +kernel⟩,
   ⟨5, en (dsc 0x493 []), ctl 0x493 [], _, ⟨rfl, by decide +kernel⟩, by decide +kernel⟩,
   ⟨4, sv, by decide +kernel, by decide +kernel, by decide +kernel⟩,
   ⟨4, { sv with tab := { sv.tab with main := [(tableKey .station 4 0, [1])] } }, by decide +kernel, by decide +kernel, by decide +kernel⟩⟩

/-- TableWrites. -/
theorem witness_TableWrites :
    (∃ (cq : BitVec 20) (op : Nat) (c : Instr) (plan : State → Bytes → Plan) (e : Entry) (s : State) (u : State) (k : _) (keys : _), ((op = 0xB0 ∧ c = .actWrite cq ∧ plan = actPlan) ∨ (op = 0xB3 ∧ c = .jtRootWrite cq ∧ plan = jtRootPlan) ∨ (op = 0x90 ∧ c = .dirWrite cq ∧ plan = dirPlan) ∨ (op = 0x91 ∧ c = .staWrite cq ∧ plan = staPlan) ∨ (op = 0x92 ∧ c = .lpmWrite cq ∧ plan = lpmPlan) ∨ (op = 0xC0 ∧ c = .streamWrite cq ∧ plan = streamPlan)) ∧ NextIs s 0 cq.toNat op e u ∧ e.group = none ∧ plan u e.desc = .write k keys ∧ shadowRoom u (keys.map (fun x => x.1)) = true) ∧
    (∃ (cq : BitVec 20) (op : Nat) (c : Instr) (plan : State → Bytes → Plan) (e : Entry) (s : State) (u : State) (k : _) (keys : _), ((op = 0xB0 ∧ c = .actWrite cq ∧ plan = actPlan) ∨ (op = 0xB3 ∧ c = .jtRootWrite cq ∧ plan = jtRootPlan) ∨ (op = 0x90 ∧ c = .dirWrite cq ∧ plan = dirPlan) ∨ (op = 0x91 ∧ c = .staWrite cq ∧ plan = staPlan) ∨ (op = 0x92 ∧ c = .lpmWrite cq ∧ plan = lpmPlan) ∨ (op = 0xC0 ∧ c = .streamWrite cq ∧ plan = streamPlan)) ∧ NextIs s 0 cq.toNat op e u ∧ e.group = none ∧ plan u e.desc = .write k keys ∧ shadowRoom u (keys.map (fun x => x.1)) = false) ∧
    (∃ (cq : BitVec 20) (op : Nat) (c : Instr) (plan : State → Bytes → Plan) (e : Entry) (s : State) (u : State) (st : _), ((op = 0xB0 ∧ c = .actWrite cq ∧ plan = actPlan) ∨ (op = 0xB3 ∧ c = .jtRootWrite cq ∧ plan = jtRootPlan) ∨ (op = 0x90 ∧ c = .dirWrite cq ∧ plan = dirPlan) ∨ (op = 0x91 ∧ c = .staWrite cq ∧ plan = staPlan) ∨ (op = 0x92 ∧ c = .lpmWrite cq ∧ plan = lpmPlan) ∨ (op = 0xC0 ∧ c = .streamWrite cq ∧ plan = streamPlan)) ∧ NextIs s 0 cq.toNat op e u ∧ e.group = none ∧ plan u e.desc = .fail st) ∧
    (∃ (cq : BitVec 20) (op : Nat) (c : Instr) (plan : State → Bytes → Plan) (e : Entry) (s : State) (u : State) (st : _), ((op = 0xB0 ∧ c = .actWrite cq ∧ plan = actPlan) ∨ (op = 0xB3 ∧ c = .jtRootWrite cq ∧ plan = jtRootPlan) ∨ (op = 0x90 ∧ c = .dirWrite cq ∧ plan = dirPlan) ∨ (op = 0x91 ∧ c = .staWrite cq ∧ plan = staPlan) ∨ (op = 0x92 ∧ c = .lpmWrite cq ∧ plan = lpmPlan) ∨ (op = 0xC0 ∧ c = .streamWrite cq ∧ plan = streamPlan)) ∧ NextIs s 0 cq.toNat op e u ∧ e.group = none ∧ plan u e.desc = .info st) ∧
    (∃ (cq : BitVec 20) (e : Entry) (s : State) (u : State), NextIs s 0 cq.toNat 0xB1 e u ∧ groupMember e = true) ∧
    (∃ (cq : BitVec 20) (e : Entry) (mask : Nat) (n : Nat) (first : Nat) (s : State) (u : State), NextIs s 0 cq.toNat 0xB1 e u ∧ groupMember e = false ∧ mask = lef e.desc 0x10 0 4 ∧ n = lef e.desc 0x10 16 13 ∧ first = lef e.desc 0x10 32 17 ∧ badPairMask u mask = false ∧ n ≠ 0 ∧ first + n ≤ 131072) ∧
    (∃ (cq : BitVec 20) (e : Entry) (mask : Nat) (n : Nat) (first : Nat) (s : State) (u : State), NextIs s 0 cq.toNat 0xB2 e u ∧ groupMember e = false ∧ mask = lef e.desc 0x10 0 4 ∧ n = lef e.desc 0x10 16 13 ∧ first = lef e.desc 0x10 32 18 ∧ badPairMask u mask = false ∧ n ≠ 0 ∧ first + n ≤ 262144) ∧
    (∃ (pls : List Nat) (first : Nat) (n : Nat) (p : Nat) (i : Nat) (s : State), tabSorted none s.tab.main = true ∧ (∀ q ∈ pls, q < 8) ∧ p ∈ pls ∧ i < n ∧ first + n ≤ 262144) :=
  ⟨⟨5, 0xB0, _, _, en (dsc 0xB0 [0x1, 5]), ctl 0xB0 [0x1, 5], _, .action, planKeys (actPlan sv (dsc 0xB0 [0x1, 5])), .inl ⟨rfl, rfl, rfl⟩, ⟨rfl, by decide +kernel⟩, by decide +kernel, by decide +kernel, by decide +kernel⟩,
   ⟨5, 0xB0, _, _, en (dsc 0xB0 [0x1, 5]), { ctl 0xB0 [0x1, 5] with tab := (shadowed (List.replicate 4096 sh0)).tab }, _, .action, planKeys (actPlan sv (dsc 0xB0 [0x1, 5])), .inl ⟨rfl, rfl, rfl⟩, ⟨rfl, by decide +kernel⟩, by decide +kernel, by decide +kernel, by decide +kernel⟩,
   ⟨5, 0x92, _, _, en (dsc 0x92 [0x10]), ctl 0x92 [0x10], _, 0x0490, .inr (.inr (.inr (.inr (.inl ⟨rfl, rfl, rfl⟩)))), ⟨rfl, by decide +kernel⟩, by decide +kernel, by decide +kernel⟩,
   ⟨5, 0x91, _, _, en (dsc 0x91 [0x101, 7]), ctl 0x91 [0x101, 7], _, 0x0496, .inr (.inr (.inr (.inl ⟨rfl, rfl, rfl⟩))), ⟨rfl, by decide +kernel⟩, by decide +kernel, by decide +kernel⟩,
   ⟨5, en (dsc 0x4B1 []), ctl 0x4B1 [], _, ⟨rfl, by decide +kernel⟩, by decide +kernel⟩,
   ⟨5, en (dsc 0xB1 [0x1FFFF0001000F]), _, _, _, ctl 0xB1 [0x1FFFF0001000F], _, ⟨rfl, by decide +kernel⟩, by decide +kernel, rfl, rfl, rfl, by decide +kernel, by decide +kernel, by decide +kernel⟩,
   ⟨5, en (dsc 0xB2 [0x3FFFF0001000F]), _, _, _, ctl 0xB2 [0x3FFFF0001000F], _, ⟨rfl, by decide +kernel⟩, by decide +kernel, rfl, rfl, rfl, by decide +kernel, by decide +kernel, by decide +kernel⟩,
   ⟨[0, 4], 262143, 1, 4, 0, sv, by decide +kernel, by decide +kernel, by decide +kernel, by decide +kernel, by decide +kernel⟩⟩

/-- LearningAndAging. -/
theorem witness_LearningAndAging :
    (∃ (pl : Pl) (l : Learner) (q : LearnReq) (rest : List LearnReq) (p : Nat × Nat) (s : State), l = learnerOf s pl.val ∧ l.arriving = q :: rest ∧ l.last = some p ∧ pointLt (learnOrder q) p = true) ∧
    (∃ (pl : Pl) (l : Learner) (q : LearnReq) (rest : List LearnReq) (s : State), l = learnerOf s pl.val ∧ l.arriving = q :: rest ∧ l.last = none ∧ 1024 ≤ l.hold.length) ∧
    (∃ (pl : Pl) (l : Learner) (q : LearnReq) (rest : List LearnReq) (s : State), tabSorted none s.tab.learners = true ∧ l = learnerOf s pl.val ∧ l.arriving = q :: rest ∧ l.last = none ∧ l.hold.length < 1024) ∧
    (∃ (pl : Pl) (q : LearnReq) (s : State), earliest (learnerOf s pl.val).hold = some q ∧ holdEnded s pl.val q = true) ∧
    (∃ (pl : Pl) (q : LearnReq) (s : State), earliest (learnerOf s pl.val).hold = some q ∧ holdEnded s pl.val q = false) ∧
    (∃ (pl : Pl) (s : State), 1024 * (s.ticks + 1) ≤ ageDue s pl.val) ∧
    (∃ (pl : Pl) (s : State), ageDue s pl.val < 1024 * (s.ticks + 1) ∧ rb s (FT_AGE_CTRL pl.val) 0 = false ∧ tabSorted none s.regs = true) ∧
    (∃ (pl : Pl) (s : State) (u : State) (v : State), ageDue s pl.val < 1024 * (s.ticks + 1) ∧ rb s (FT_AGE_CTRL pl.val) 0 = true ∧ tabSorted none s.regs = true ∧ v = { s with tab := { s.tab with ageLast := tabSet (fun _ => 0) s.tab.ageLast pl.val (ageDue s pl.val) } } ∧ u = putF (FT_AGE_CTRL pl.val) 48 16 (ageNow v pl.val + 1) v) ∧
    (∃ (qs : List LearnReq) (q : LearnReq) (r : LearnReq), earliest qs = some q ∧ r ∈ qs) :=
  ⟨⟨4, _, lq, [], (1, 0), putLearner 4 { Learner.empty with arriving := [lq], last := some (1, 0) } sv, rfl, by decide +kernel, by decide +kernel, by decide +kernel⟩,
   ⟨0, _, lq, [], learn { Learner.empty with arriving := [lq], hold := List.replicate 1024 lq }, rfl, by decide +kernel, by decide +kernel, by decide +kernel⟩,
   ⟨0, _, lq, [], learn { Learner.empty with arriving := [lq], hold := List.replicate 1023 lq }, by decide +kernel, rfl, by decide +kernel, by decide +kernel, by decide +kernel⟩,
   ⟨0, lq, { learn { Learner.empty with hold := [lq] } with clk := ⟨1, 0, 0, 0⟩ }, by decide +kernel, by decide +kernel⟩,
   ⟨0, lq, learn { Learner.empty with hold := [lq] }, by decide +kernel, by decide +kernel⟩,
   ⟨0, sv, by decide +kernel⟩,
   ⟨0, { rg (FT_AGE_CTRL 0) 0 sv with ticks := 1048576 }, by decide +kernel, by decide +kernel, by decide +kernel⟩,
   ⟨4, { rg (FT_AGE_CTRL 4) 1 sv with ticks := 1048576 }, _, _, by decide +kernel, by decide +kernel, by decide +kernel, rfl, rfl⟩,
   ⟨[lq, { lq with port := 1 }], lq, { lq with port := 1 }, by decide +kernel, by decide +kernel⟩⟩

/-- HostFrames. -/
theorem witness_HostFrames :
    (∃ (fn : Fn) (fq : BitVec 20) (r : Read) (op : Nat) (launch : Bool) (c : Instr) (e : Entry) (s : State) (u : State), ((op = 1 ∧ launch = false ∧ c = .txSend fn fq r) ∨ (op = 2 ∧ launch = true ∧ c = .txLaunch fn fq r)) ∧ NextIs s fn.val fq.toNat op e u ∧ e.built = none ∧ txCheck u fn.val fq.toNat launch e.desc ≠ 0) ∧
    (∃ (fn : Fn) (fq : BitVec 20) (b : Bytes) (op : Nat) (launch : Bool) (c : Instr) (e : Entry) (fr : Bytes) (f : Nat) (s : State) (u : State) (v : State) (w : State) (x : State), ((op = 1 ∧ launch = false ∧ c = .txSend fn fq (.data b)) ∨ (op = 2 ∧ launch = true ∧ c = .txLaunch fn fq (.data b))) ∧ NextIs s fn.val fq.toNat op e u ∧ e.built = none ∧ txCheck u fn.val fq.toNat launch e.desc = 0 ∧ v = (txSegs e.desc).foldl (fun s x => entryRead fn fq.toNat e x.1 x.2 s) u ∧ txBuild fn.val fq.toNat e.desc (slice b 0 (txTotal e.desc)) v = (w, some fr, 0) ∧ hostFrame fn.val fq.toNat e fr 0 (if launch then some (leWord e.desc 0x38) else none) w.tm.nextBuf (freshBuf fr.length w) = (x, f)) ∧
    (∃ (fn : Fn) (fq : BitVec 20) (r : Read) (op : Nat) (launch : Bool) (c : Instr) (e : Entry) (fr : Bytes) (f : Nat) (s : State) (u : State) (x : State), ((op = 1 ∧ launch = false ∧ c = .txSend fn fq r) ∨ (op = 2 ∧ launch = true ∧ c = .txLaunch fn fq r)) ∧ NextIs s fn.val fq.toNat op e u ∧ e.built = some fr ∧ hostFrame fn.val fq.toNat e fr 0 (if launch then some (leWord e.desc 0x38) else none) u.tm.nextBuf (freshBuf fr.length u) = (x, f)) ∧
    (∃ (fn : Fn) (fq : BitVec 20) (e : Entry) (s : State) (u : State), NextIs s fn.val fq.toNat 3 e u ∧ (le e.desc 0x18 2 < 14 ∨ 9212 < le e.desc 0x18 2)) ∧
    (∃ (fn : Fn) (fq : BitVec 20) (b : Bytes) (e : Entry) (n : Nat) (s : State) (u : State) (v : State) (w : State), NextIs s fn.val fq.toNat 3 e u ∧ n = le e.desc 0x18 2 ∧ 14 ≤ n ∧ n ≤ 9212 ∧ v = entryRead fn fq.toNat e (le e.desc 0x10 8) n u ∧ admitIngress 12 (slice b 0 n) v = (w, false)) ∧
    (∃ (fn : Fn) (fq : BitVec 20) (b : Bytes) (e : Entry) (n : Nat) (f : Nat) (x : Frame) (s : State) (u : State) (v : State) (w : State) (y : State), NextIs s fn.val fq.toNat 3 e u ∧ n = le e.desc 0x18 2 ∧ 14 ≤ n ∧ n ≤ 9212 ∧ v = entryRead fn fq.toNat e (le e.desc 0x10 8) n u ∧ admitIngress 12 (slice b 0 n) v = (w, true) ∧ hostFrame fn.val fq.toNat e (slice b 0 n) (lef e.desc 0x18 16 2) none v.tm.nextBuf w = (y, f) ∧ frameOf y f = some x) ∧
    (∃ (fn : Fn) (fq : BitVec 20) (e : Entry) (s : State) (u : State), NextIs s fn.val fq.toNat 0x20 e u) ∧
    (∃ (fn : Fn) (fq : BitVec 20) (k : Nat) (f : Nat) (fs : List Nat) (e : Entry) (x : Frame) (s : State), k = queueKey fn.val fq.toNat ∧ deliveringOf s k = f :: fs ∧ rxEntry s fn.val fq.toNat = some e ∧ frameOf s f = some x ∧ le e.desc 0x18 2 < x.len) ∧
    (∃ (fn : Fn) (fq : BitVec 20) (k : Nat) (f : Nat) (fs : List Nat) (e : Entry) (x : Frame) (s : State) (u : State), k = queueKey fn.val fq.toNat ∧ deliveringOf s k = f :: fs ∧ rxEntry s fn.val fq.toNat = some e ∧ frameOf s f = some x ∧ x.len ≤ le e.desc 0x18 2 ∧ u = (instWrite fn (queueInst s fn.val fq.toNat) e.gen true (le e.desc 0x10 8) x.bytes (putDelivering k fs s)).1) ∧
    (∃ (fn : Fn) (fq : BitVec 20) (k : Nat) (f : Nat) (fs : List Nat) (e : Entry) (x : Frame) (s : State) (u : State), k = queueKey fn.val fq.toNat ∧ deliveringOf s k = f :: fs ∧ rxEntry s fn.val fq.toNat = some e ∧ frameOf s f = some x ∧ u = putDelivering k fs s) ∧
    (∃ (l : BitVec 20) (f : Nat) (x : Frame) (b : Buf) (s : State) (u : State), (leafOf s l.toNat).frames.find? (inSpill s) = some f ∧ u = settleReturns s ∧ frameOf u f = some x ∧ bufOf u x.buf = some b) ∧
    (∃ (l : BitVec 20) (f : Nat) (s : State), (leafOf s l.toNat).frames.find? (inSpill s) = some f) ∧
    (∃ (l : BitVec 20) (s : State), (∀ f ∈ (leafOf s l.toNat).frames, inSpill s f = false)) :=
  ⟨⟨3, 5, .data [], 2, true, _, en (dsc 2 [0x1000, 13]), withQ 3 5 (qu 0 [en (dsc 2 [0x1000, 13])]) sv, _, .inr ⟨rfl, rfl, rfl⟩, ⟨rfl, by decide +kernel⟩, by decide +kernel, by decide +kernel⟩,
   ⟨1, 5, List.replicate 60 0, 1, false, _, txE, List.replicate 60 0, txX.2, txS, joinWaiting 1 5 txS, txV, txW, txX.1, .inl ⟨rfl, rfl, rfl⟩, ⟨rfl, by decide +kernel⟩, by decide +kernel, by decide +kernel, rfl, Prod.ext rfl (by decide +kernel), rfl⟩,
   ⟨1, 5, .data [], 1, false, _, txB, List.replicate 60 0, txBX.2, txBS, joinWaiting 1 5 txBS, txBX.1, .inl ⟨rfl, rfl, rfl⟩, ⟨rfl, by decide +kernel⟩, by decide +kernel, rfl⟩,
   ⟨1, 5, en (dsc 3 [0x1000, 13]), withQ 1 5 (qu 0 [en (dsc 3 [0x1000, 13])]) sv, _, ⟨rfl, by decide +kernel⟩, by decide +kernel⟩,
   ⟨1, 5, List.replicate 60 0, pipeE 60, 60, pipeFull, _, pipeV pipeFull 60, (admitIngress 12 (slice (List.replicate 60 0) 0 60) (pipeV pipeFull 60)).1, ⟨rfl, by decide +kernel⟩, by decide +kernel, by decide +kernel, by decide +kernel, rfl, Prod.ext rfl (by decide +kernel)⟩,
   ⟨1, 5, List.replicate 14 0, pipeE 14, 14, pipeX.2, (frameOf pipeX.1 pipeX.2).getD fr0, pipeS 14, _, pipeV (pipeS 14) 14, (admitIngress 12 (slice (List.replicate 14 0) 0 14) (pipeV (pipeS 14) 14)).1, pipeX.1, ⟨rfl, by decide +kernel⟩, by decide +kernel, by decide +kernel, by decide +kernel, rfl, Prod.ext rfl (by decide +kernel), rfl, by decide +kernel⟩,
   ⟨2, 5, rxE 64, withQ 2 5 (qu 1 [rxE 64]) sv, _, ⟨rfl, by decide +kernel⟩⟩,
   ⟨1, 5, _, 0, [], rxE 59, fr0, rxS 59, rfl, by decide +kernel, by decide +kernel, by decide +kernel, by decide +kernel⟩,
   ⟨1, 5, _, 0, [], rxE 60, fr0, rxS 60, _, rfl, by decide +kernel, by decide +kernel, by decide +kernel, by decide +kernel, rfl⟩,
   ⟨1, 5, _, 0, [], rxE 60, fr0, rxS 60, _, rfl, by decide +kernel, by decide +kernel, by decide +kernel, rfl⟩,
   ⟨5, 0, fr0, { buf0 with region := .spill }, leafed 5 [0] (putBuf 0 { buf0 with region := .spill } (held fr0)), _, by decide +kernel, rfl, by decide +kernel, by decide +kernel⟩,
   ⟨5, 0, leafed 5 [0] (putBuf 0 { buf0 with region := .spill } (held fr0)), by decide +kernel⟩,
   ⟨5, sv, by decide +kernel⟩⟩

/-- TokenBuckets. -/
theorem witness_TokenBuckets :
    (∃ (b : TokenBucket) (n : Nat), b.tokens + n * b.rate.toNat ≤ 16 * b.burst.toNat) ∧
    (∃ (b : TokenBucket), b.pending = none) ∧
    (∃ (b : TokenBucket), b.pending = none ∧ b.en = false) ∧
    (∃ (b : TokenBucket) (t : BitVec 32), b.pending = none ∧ 0 ≤ (touch b t).tokens) ∧
    (∃ (b : Bucket) (s : State) (u : State), exec (.bucketSweep (b, .good)) s = .next u) :=
  ⟨⟨{ TokenBucket.empty with rate := 3, burst := 1, tokens := 10 }, 2, by decide +kernel⟩,
   ⟨.empty, by decide +kernel⟩,
   ⟨.empty, by decide +kernel, by decide +kernel⟩,
   ⟨{ TokenBucket.empty with en := true }, 0, by decide +kernel, by decide +kernel⟩,
   ⟨.leaf 5, sv, _, rfl⟩⟩

/-- ScheduleChoice. -/
theorem witness_ScheduleChoice :
    (∃ (p : TmPort) (s : State), portEligible s p.val = false) ∧
    (∃ (p : TmPort) (c : Cyc) (s : State), p.val < 8 ∧ eligibleLeaves s p.val (clockNs (clockAt s c.val)) = []) ∧
    (∃ (p : TmPort) (c : Cyc) (l : Nat) (ls : List Nat) (y : Path) (f : Nat) (fs : List Nat) (x : Frame) (s : State) (u : State), p.val < 8 ∧ portEligible s p.val = true ∧ eligibleLeaves s p.val (clockNs (clockAt s c.val)) = l :: ls ∧ choosePath p.val (l :: ls) s = (u, y) ∧ (leafOf s y.leaf).frames = f :: fs ∧ frameOf s f = some x ∧ staleFrame u x = false) ∧
    (∃ (p : TmPort) (c : Cyc) (l : Nat) (ls : List Nat) (y : Path) (f : Nat) (fs : List Nat) (x : Frame) (s : State) (u : State), p.val < 8 ∧ portEligible s p.val = true ∧ eligibleLeaves s p.val (clockNs (clockAt s c.val)) = l :: ls ∧ choosePath p.val (l :: ls) s = (u, y) ∧ (leafOf s y.leaf).frames = f :: fs ∧ frameOf s f = some x ∧ staleFrame u x = true) ∧
    (∃ (s : State), tabSorted none s.tm.leaves = true) :=
  ⟨⟨8, sv, by decide +kernel⟩,
   ⟨7, 0, sv, by decide +kernel, by decide +kernel⟩,
   ⟨7, 0, 5, [], (choosePath 7 [5] (chooseS fr0)).2, 0, [], fr0, chooseS fr0, (choosePath 7 [5] (chooseS fr0)).1, by decide +kernel, by decide +kernel, by decide +kernel, by decide +kernel, by decide +kernel, by decide +kernel, by decide +kernel⟩,
   ⟨7, 0, 5, [], (choosePath 7 [5] (chooseS staleX)).2, 0, [], staleX, chooseS staleX, (choosePath 7 [5] (chooseS staleX)).1, by decide +kernel, by decide +kernel, by decide +kernel, by decide +kernel, by decide +kernel, by decide +kernel, by decide +kernel⟩,
   ⟨sv, by decide +kernel⟩⟩

/-- PriorityFlowControl. -/
theorem witness_PriorityFlowControl :
    (∃ (p : NPort) (k : Fin 8) (s : State), rb s (TM_PORT_C p.val) (32 + k.val) = true ∧ timeReached s (tabGet (fun _ => 0) s.tm.pfcSent (8 * p.val + k.val) + 65535 * 256 / portRate s) = true) ∧
    (∃ (p : NPort) (k : Fin 8) (s : State), rb s (TM_PORT_C p.val) (32 + k.val) = false) ∧
    (∃ (p : NPort) (k : Fin 8) (s : State), rb s (TM_PORT_C p.val) (32 + k.val) = true ∧ xonRoom s p.val k.val = true ∧ tabSorted none s.regs = true) ∧
    (∃ (p : NPort) (s : State), netUp s p.val = true ∧ tabSorted none s.regs = true) ∧
    (∃ (p : NPort) (s : State), netUp s p.val = false) ∧
    (∃ (n : Nat) (k : Nat) (s : State) (q : _), n < 8 ∧ k < 8 ∧ rb s (NP_PORT_CTRL n) (32 + k) = true ∧ tabSorted none s.regs = true ∧ q ≠ 0) ∧
    (∃ (p : NPort) (k : Fin 8) (s : State), rb s (TM_PORT_C p.val) (40 + k.val) = true ∧ timeReached s (tabGet (fun _ => 0) s.tm.pauseEnd (8 * p.val + k.val)) = true) :=
  ⟨⟨7, 7, { rg (TM_PORT_C 7) 0x8000000000 sv with clk := ⟨1, 0, 0, 0⟩ }, by decide +kernel, by decide +kernel⟩,
   ⟨7, 7, sv, by decide +kernel⟩,
   ⟨7, 7, rg (TM_PORT_C 7) 0x8000000000 sv, by decide +kernel, by decide +kernel, by decide +kernel⟩,
   ⟨7, up7, by decide +kernel, by decide +kernel⟩,
   ⟨7, sv, by decide +kernel⟩,
   ⟨7, 7, rg (NP_PORT_CTRL 7) 0x8000000000 sv, (1 : Nat), by decide +kernel, by decide +kernel, by decide +kernel, by decide +kernel, by decide +kernel⟩,
   ⟨7, 7, rg (TM_PORT_C 7) 0x800000000000 sv, by decide +kernel, by decide +kernel⟩⟩

/-- TrafficWrites. -/
theorem witness_TrafficWrites :
    (∃ (cq : BitVec 20) (op : Nat) (c : Instr) (run : Bytes → State → State × Nat) (e : Entry) (err : Residue) (s : State) (u : State), ((op = 0xA0 ∧ c = .tmLeafWrite (cq, err) ∧ run = leafWrite) ∨ (op = 0xA1 ∧ c = .tmGroupWrite (cq, err) ∧ run = groupWrite) ∨ (op = 0xA2 ∧ c = .tmClassWrite (cq, err) ∧ run = classWrite) ∨ (op = 0xA3 ∧ c = .tmMeterWrite (cq, err) ∧ run = meterWrite)) ∧ AdminIs s cq.toNat op e u) ∧
    (∃ (d : Bytes) (s : State), lef d 0x10 20 1 = 0 ∧ fld (leWord d 0x18) 0 16 = leafGroup s (lef d 0x10 0 20) ∧ tabSorted none s.tm.leaves = true) ∧
    (∃ (d : Bytes), 12 < fld (leWord d 0x18) 0 4) ∧
    (∃ (s : State), setupOpen s = true) ∧
    (∃ (v : BitVec 64) (s : State), tabSorted none s.regs = true ∧ bit v 0 = false) ∧
    (∃ (v : BitVec 64) (s : State), tabSorted none s.regs = true ∧ bit v 0 = true ∧ rb s TM_BUF_CTRL 0 = false ∧ spillBytes s = 0 ∧ 0 < fld v 24 4 ∧ fld v 24 4 ≤ 8 ∧ fld v 32 5 + fld v 24 4 ≤ 30) :=
  ⟨⟨5, 0xA0, _, _, en (dsc 0xA0 []), .good, ctl 0xA0 [], _, .inl ⟨rfl, rfl, rfl⟩, ⟨⟨rfl, by decide +kernel⟩, by decide +kernel⟩⟩,
   ⟨dsc 0xA0 [5, 0], sv, by decide +kernel, by decide +kernel, by decide +kernel⟩,
   ⟨dsc 0xA2 [0, 13], by decide +kernel⟩,
   ⟨sv, by decide +kernel⟩,
   ⟨0, sv, by decide +kernel, by decide +kernel⟩,
   ⟨0x1608000001, sv, by decide +kernel, by decide +kernel, by decide +kernel, by decide +kernel, by decide +kernel, by decide +kernel, by decide +kernel⟩⟩

/-- PlantReceipt. -/
theorem witness_PlantReceipt :
    (∃ (p : PPort) (c : Cyc) (t : Clock) (s : State), t = clockShift (clockAt s c.val) (-(65536 * rxCorr s (8 + p.val))) ∧ plantTakes s p.val (clockNs t) = false) ∧
    (∃ (p : PPort) (c : Cyc) (t : Clock) (s : State), t = clockShift (clockAt s c.val) (-(65536 * rxCorr s (8 + p.val))) ∧ plantTakes s p.val (clockNs t) = true) ∧
    (∃ (p : PPort) (b : Bytes) (c : Cyc) (t : Clock) (s : State) (u : State) (v : State) (w : State) (f : Nat), t = clockShift (clockAt s c.val) (-(65536 * rxCorr s (8 + p.val))) ∧ plantTakes s p.val (clockNs t) = true ∧ u = addStat (PP_RX_OCTETS p.val) (b.length + 4) (addStat (PP_RX_FRAMES p.val) 1 s) ∧ b.length + 4 ≤ maxFrame u (8 + p.val) ∧ admitIngress (8 + p.val) b u = (v, true) ∧ addFrame (rxFrame u b true 4 p.val 4 t t u.tm.nextBuf) v = (w, f)) ∧
    (∃ (p : PPort) (s : State), (∀ r ∈ s.plant.rx, r.port.val = p.val → r.ended ≠ none)) ∧
    (∃ (p : PPort) (r : PlantRx) (x : Frame) (s : State), s.plant.rx.find? (fun r => r.port.val == p.val && r.ended.isNone) = some r ∧ frameOf s r.frame = some x ∧ r.released = false) ∧
    (∃ (p : PPort) (s : State), (srcOf s 4 (plantSrc p.val)).rob = []) ∧
    (∃ (p : PPort) (f : Nat) (rest : List Nat) (x : Frame) (r : PlantRx) (s : State), (srcOf s 4 (plantSrc p.val)).rob = f :: rest ∧ frameOf s f = some x ∧ s.plant.rx.find? (fun r => r.frame == f) = some r ∧ x.result = .pending) ∧
    (∃ (p : PPort) (f : Nat) (rest : List Nat) (x : Frame) (r : PlantRx) (s : State), (srcOf s 4 (plantSrc p.val)).rob = f :: rest ∧ frameOf s f = some x ∧ s.plant.rx.find? (fun r => r.frame == f) = some r ∧ x.result ≠ .pending ∧ r.ended = some false) ∧
    (∃ (p : PPort) (e : Ecc) (f : Nat) (rest : List Nat) (x : Frame) (y : Frame) (r : PlantRx) (s : State) (u : State) (v : State), (srcOf s 4 (plantSrc p.val)).rob = f :: rest ∧ frameOf s f = some x ∧ s.plant.rx.find? (fun r => r.frame == f) = some r ∧ x.result ≠ .pending ∧ r.ended ≠ some false ∧ y = { x with loc := .plant, record := splice x.record 0 (beBytes 2 x.len) } ∧ u = mapRx f (fun z => { z with released := true }) (putFrame f y (putSrc 4 (plantSrc p.val) { srcOf s 4 (plantSrc p.val) with rob := rest } s)) ∧ v = advanceRetired 4 (match y.result with | .malformed reason => malformedAction 4 f reason.toNat u | _ => plantChain f y e u) ∧ r.ended = none) ∧
    (∃ (p : PPort) (e : Ecc) (f : Nat) (rest : List Nat) (x : Frame) (y : Frame) (r : PlantRx) (s : State) (u : State) (v : State) (z : _), (srcOf s 4 (plantSrc p.val)).rob = f :: rest ∧ frameOf s f = some x ∧ s.plant.rx.find? (fun r => r.frame == f) = some r ∧ x.result ≠ .pending ∧ r.ended ≠ some false ∧ y = { x with loc := .plant, record := splice x.record 0 (beBytes 2 x.len) } ∧ u = mapRx f (fun z => { z with released := true }) (putFrame f y (putSrc 4 (plantSrc p.val) { srcOf s 4 (plantSrc p.val) with rob := rest } s)) ∧ v = advanceRetired 4 (match y.result with | .malformed reason => malformedAction 4 f reason.toNat u | _ => plantChain f y e u) ∧ r.ended = some true ∧ v.plant.rx.find? (fun z => z.frame == f) = some z) ∧
    (∃ (h : Nat) (s : State), tabSorted none s.plant.cb = true ∧ (cbOf s h).takeAny = true) ∧
    (∃ (s : State), tabSorted none s.plant.cb = true) :=
  ⟨⟨3, 0, _, sv, rfl, by decide +kernel⟩,
   ⟨3, 0, _, plS, rfl, by decide +kernel⟩,
   ⟨3, List.replicate 60 0, 0, plT, plS, plU, plV, plW.1, plW.2, by decide +kernel, by decide +kernel, by decide +kernel, by decide +kernel, by decide +kernel, by decide +kernel⟩,
   ⟨3, sv, by decide +kernel⟩,
   ⟨3, rx0, fr0, plHeld fr0 rx0, by decide +kernel, by decide +kernel, by decide +kernel⟩,
   ⟨3, sv, by decide +kernel⟩,
   ⟨3, 0, [], fr0, rx0, plHeld fr0 rx0, by decide +kernel, by decide +kernel, by decide +kernel, by decide +kernel⟩,
   ⟨3, 0, [], { fr0 with result := .committed }, { rx0 with ended := some false }, plHeld { fr0 with result := .committed } { rx0 with ended := some false }, by decide +kernel, by decide +kernel, by decide +kernel, by decide +kernel, by decide +kernel⟩,
   ⟨3, .good, 0, [], frC, _, rx0, plHeld frC rx0, _, _, by decide +kernel, by decide +kernel, by decide +kernel, by decide +kernel, by decide +kernel, rfl, rfl, rfl, by decide +kernel⟩,
   ⟨3, .good, 0, [], frC, plY frC, { rx0 with ended := some true }, plHeld frC { rx0 with ended := some true }, plRU frC, plRV frC, plRZ, by decide +kernel, by decide +kernel, by decide +kernel, by decide +kernel, by decide +kernel, by decide +kernel, by decide +kernel, by decide +kernel, by decide +kernel, by decide +kernel⟩,
   ⟨1023, sv, by decide +kernel, by decide +kernel⟩,
   ⟨sv, by decide +kernel⟩⟩

/-- GatesAndLaunches. -/
theorem witness_GatesAndLaunches :
    (∃ (n : Fin 68) (x : Sched) (p : Nat) (e : Nat × Nat) (s : State), x = schedOf s n.val ∧ x.pos = some p ∧ (operIntervals x)[p + 1]? = some e ∧ timeReached s x.posEnd = true) ∧
    (∃ (n : Fin 68) (s : State), (schedOf s n.val).pos = none) ∧
    (∃ (n : Fin 68) (s : State), setupOpen s = true ∧ tabSorted none s.regs = true ∧ (schedLimit n.val < rf s (PP_SCHED_C n.val) 0 11 ∨ (adminSet s n.val).cycle < 1000)) ∧
    (∃ (n : Fin 68) (s : State), setupOpen s = true ∧ rf s (PP_SCHED_C n.val) 0 11 ≤ schedLimit n.val ∧ 1000 ≤ (adminSet s n.val).cycle) ∧
    (∃ (o : SchedSet), 0 < o.cycle) ∧
    (∃ (n : Fin 68) (o : SchedSet) (a : Nat) (s : State), tabSorted none s.regs = true ∧ tabSorted none s.plant.scheds = true ∧ (schedOf s n.val).pending = some (o, a) ∧ timeReached s a = true) ∧
    (∃ (n : Fin 68) (s : State), (schedOf s n.val).pending = none) ∧
    (∃ (n : Fin 68) (o : SchedSet) (s : State), 4 ≤ n.val ∧ (schedOf s n.val).oper = some o ∧ (schedOf s n.val).pending = none ∧ timeReached s (schedOf s n.val).next = true) ∧
    (∃ (n : Fin 68) (o : SchedSet) (k : BitVec 13) (ecc : Ecc) (s : State) (u : State), n.val < 4 ∧ (schedOf s n.val).oper = some o ∧ (schedOf s n.val).pending = none ∧ timeReached s (schedOf s n.val).next = true ∧ u = imageBoundary n.val (schedOf s n.val).next k.toNat ecc (putF (PP_SCHED_F n.val) 32 32 (rf s (PP_SCHED_F n.val) 32 32 + 1) (putSched n.val (startCycle (schedOf s n.val) o) s))) ∧
    (∃ (n : Fin 68) (s : State), timeReached s (schedOf s n.val).next = false) ∧
    (∃ (l : BitVec 20) (f : Nat) (fs : List Nat) (h : Frame) (w : Word) (p : Nat) (now : Nat) (s : State), (leafOf s l.toNat).frames = f :: fs ∧ frameOf s f = some h ∧ h.launch = some w ∧ p = leafPort s l.toNat ∧ 8 ≤ p ∧ p < 12 ∧ now = clockNs (clockAt s 1279) ∧ launchNs w now ≤ now + rf s (PP_PORT_B (p - 8)) 0 16) ∧
    (∃ (l : BitVec 20) (f : Nat) (fs : List Nat) (h : Frame) (w : Word) (p : Nat) (now : Nat) (s : State), (leafOf s l.toNat).frames = f :: fs ∧ frameOf s f = some h ∧ h.launch = some w ∧ p = leafPort s l.toNat ∧ 8 ≤ p ∧ p < 12 ∧ now = clockNs (clockAt s 1279) ∧ (leafOf s l.toNat).lateSeen = false ∧ launchNs w now + rf s (PP_PORT_B (p - 8)) 16 16 < now ∧ rb s (PP_PORT_B (p - 8)) 32 = false ∧ tabSorted none s.regs = true) :=
  ⟨⟨67, _, 0, (0, 1000), sched 67 { Sched.empty with oper := some set2, pos := some 0 }, rfl, by decide +kernel, by decide +kernel, by decide +kernel⟩,
   ⟨67, sv, by decide +kernel⟩,
   ⟨4, rg (PP_SCHED_B 4) 0x3E700000000 sv, by decide +kernel, by decide +kernel, by decide +kernel⟩,
   ⟨4, rg (PP_SCHED_B 4) 0x3E800000000 sv, by decide +kernel, by decide +kernel, by decide +kernel⟩,
   ⟨set2, by decide +kernel⟩,
   ⟨67, set2, 0, sched 67 { Sched.empty with pending := some (set2, 0) }, by decide +kernel, by decide +kernel, by decide +kernel, by decide +kernel⟩,
   ⟨67, sv, by decide +kernel⟩,
   ⟨4, set2, sched 4 { Sched.empty with oper := some set2 }, by decide +kernel, by decide +kernel, by decide +kernel, by decide +kernel⟩,
   ⟨0, set2, 0, .good, sched 0 { Sched.empty with oper := some set2 }, _, by decide +kernel, by decide +kernel, by decide +kernel, by decide +kernel, rfl⟩,
   ⟨67, sched 67 { Sched.empty with next := 1025 }, by decide +kernel⟩,
   ⟨5, 0, [], { fr0 with launch := some 0 }, 0, _, _, launchS { fr0 with launch := some 0 }, by decide +kernel, by decide +kernel, by decide +kernel, rfl, by decide +kernel, by decide +kernel, rfl, by decide +kernel⟩,
   ⟨5, 0, [], { fr0 with launch := some 0 }, 0, _, _, rg (PP_PORT_B 3) 0 (launchS { fr0 with launch := some 0 }), by decide +kernel, by decide +kernel, by decide +kernel, rfl, by decide +kernel, by decide +kernel, rfl, by decide +kernel, by decide +kernel, by decide +kernel, by decide +kernel⟩⟩

/-- Takeover. -/
theorem witness_Takeover :
    (∃ (p : Fin 2) (c : Cyc) (r : Nat) (s : State), setupOpen s = true ∧ tabSorted none s.regs = true ∧ r = armResult s p.val (takeTime s p.val) (clockNs (clockAt s c.val)) ∧ r ≠ 0) ∧
    (∃ (p : Fin 2) (c : Cyc) (s : State), setupOpen s = true ∧ s.plant.pairs.length = 2 ∧ armResult s p.val (takeTime s p.val) (clockNs (clockAt s c.val)) = 0) ∧
    (∃ (p : Nat) (t : Nat) (now : Nat) (s : State), armResult s p t now = 0) ∧
    (∃ (p : Fin 2) (s : State), setupOpen s = true ∧ (pairOf s p.val).state = .armed ∧ s.plant.pairs.length = 2) ∧
    (∃ (p : Fin 2) (s : State), setupOpen s = true ∧ (pairOf s p.val).state ≠ .armed) ∧
    (∃ (p : Fin 2) (s : State), setupOpen s = true ∧ (pairOf s p.val).state = .service) ∧
    (∃ (p : Fin 2) (s : State), (pairOf s p.val).state = .armed ∧ timeReached s (pairOf s p.val).takeAt = true ∧ pairChecks s p.val (pairOf s p.val).takeAt = 0) ∧
    (∃ (p : Fin 2) (r : Nat) (s : State), (pairOf s p.val).state = .armed ∧ timeReached s (pairOf s p.val).takeAt = true ∧ r = pairChecks s p.val (pairOf s p.val).takeAt ∧ r ≠ 0) ∧
    (∃ (p : Fin 2) (s : State), (pairOf s p.val).state = .taking) ∧
    (∃ (q : PPort) (s : State), tabSorted none s.regs = true ∧ inService s = true ∧ rb s (PP_PORT_A q.val) 0 = true ∧ rb s (PP_PORT_A q.val) 32 = false) ∧
    (∃ (q : PPort) (s : State), rb s (PP_PORT_A q.val) 32 = true) ∧
    (∃ (q : PPort) (s : State), rb s (PP_PORT_A q.val) 32 = false) :=
  ⟨⟨1, 0, _, sv, by decide +kernel, by decide +kernel, rfl, by decide +kernel⟩,
   ⟨1, 0, pairS .bypass, by decide +kernel, by decide +kernel, by decide +kernel⟩,
   ⟨1, 1000000000, 0, pairS .bypass, by decide +kernel⟩,
   ⟨1, pairOnly .armed, by decide +kernel, by decide +kernel, by decide +kernel⟩,
   ⟨1, pairOnly .service, by decide +kernel, by decide +kernel⟩,
   ⟨1, pairOnly .service, by decide +kernel, by decide +kernel⟩,
   ⟨1, pairS .armed, by decide +kernel, by decide +kernel, by decide +kernel⟩,
   ⟨1, _, pairOnly .armed, by decide +kernel, by decide +kernel, rfl, by decide +kernel⟩,
   ⟨1, pairOnly .taking, by decide +kernel⟩,
   ⟨3, rg (PP_PORT_A 3) 1 sv, by decide +kernel, by decide +kernel, by decide +kernel, by decide +kernel⟩,
   ⟨3, plS, by decide +kernel⟩,
   ⟨3, sv, by decide +kernel⟩⟩

/-- Images. -/
theorem witness_Images :
    (∃ (p : PPort) (b : Nat) (s : State), tabFind s.plant.rxBoundary p.val = some b ∧ depositsOwed s p.val b = false) ∧
    (∃ (p : PPort) (s : State), tabFind s.plant.rxBoundary p.val = none) ∧
    (∃ (s : State), tabSorted none s.plant.images = true) ∧
    (∃ (i : Nat) (s : State), (imageOf s i).fresh = false) ∧
    (∃ (fq : BitVec 20) (e : Entry) (s : State) (u : State), u = channelMode (imgChannel s fq.toNat) (joinWaiting 3 fq.toNat s) ∧ imgTransfer u fq.toNat 0x60 = some e ∧ imgCheck u fq.toNat e ≠ 0) ∧
    (∃ (fq : BitVec 20) (b : Bytes) (e : Entry) (i : Nat) (host : Nat) (s : State) (u : State) (v : State), u = channelMode (imgChannel s fq.toNat) (joinWaiting 3 fq.toNat s) ∧ imgTransfer u fq.toNat 0x60 = some e ∧ imgCheck u fq.toNat e = 0 ∧ i = lef e.desc 0x18 0 12 ∧ host = le e.desc 0x10 8 ∧ bit (leWord e.desc 0x18) 14 = false ∧ v = imgHalf fq.toNat e (writeBack i 0 (slice b 0 (imageLen (imageOf u i))) (entryRead 3 fq.toNat e host (imageLen (imageOf u i)) (chanMoves (imgChannel u fq.toNat) (imageLen (imageOf u i) / 64) u)))) ∧
    (∃ (fq : BitVec 20) (e : Entry) (s : State) (u : State), u = channelMode (imgChannel s fq.toNat) (joinWaiting 3 fq.toNat s) ∧ imgTransfer u fq.toNat 0x61 = some e ∧ imgCheck u fq.toNat e ≠ 0) ∧
    (∃ (fq : BitVec 20) (e : Entry) (x : Image) (b : Bytes) (host : Nat) (s : State) (u : State) (v : State), u = channelMode (imgChannel s fq.toNat) (joinWaiting 3 fq.toNat s) ∧ imgTransfer u fq.toNat 0x61 = some e ∧ imgCheck u fq.toNat e = 0 ∧ x = imageOf u (lef e.desc 0x18 0 12) ∧ v = chanMoves (imgChannel u fq.toNat) (imageLen x / 64) u ∧ b = readFront v (lef e.desc 0x18 0 12) 0 (imageLen x) ∧ host = le e.desc 0x10 8 ∧ bit (leWord e.desc 0x18) 14 = false) ∧
    (∃ (s : State), Memory.wf s.dram = true) ∧
    (∃ (s : State), setupOpen s = true ∧ tabSorted none s.regs = true ∧ rb s IG_CTRL 0 = true) ∧
    (∃ (v : BitVec 64) (s : State), setupOpen s = true ∧ tabSorted none s.regs = true ∧ rb s IG_CTRL 0 = false ∧ fld v 1 6 ≤ 59) :=
  ⟨⟨3, 0, { sv with plant := { sv.plant with rxBoundary := [(3, 0)] } }, by decide +kernel, by decide +kernel⟩,
   ⟨3, sv, by decide +kernel⟩,
   ⟨sv, by decide +kernel⟩,
   ⟨4095, sv, by decide +kernel⟩,
   ⟨5, en (dsc 0x60 [0x1000, 7]), imgS 0x60 [0x1000, 7] 0 0, _, rfl, by decide +kernel, by decide +kernel⟩,
   ⟨5, [], en (dsc 0x60 [0x1000, 7]), _, _, imgS 0x60 [0x1000, 7] 1 0, _, _, rfl, by decide +kernel, by decide +kernel, rfl, rfl, by decide +kernel, rfl⟩,
   ⟨5, en (dsc 0x61 [0x1000, 7]), imgS 0x61 [0x1000, 7] 3 0, _, rfl, by decide +kernel, by decide +kernel⟩,
   ⟨5, en (dsc 0x61 [0x1000, 7]), _, _, _, imgS 0x61 [0x1000, 7] 3 1, _, _, rfl, by decide +kernel, by decide +kernel, rfl, rfl, rfl, rfl, by decide +kernel⟩,
   ⟨sv, by decide +kernel⟩,
   ⟨rg IG_CTRL 1 sv, by decide +kernel, by decide +kernel, by decide +kernel⟩,
   ⟨118, sv, by decide +kernel, by decide +kernel, by decide +kernel, by decide +kernel⟩⟩

/-- Contexts. -/
theorem witness_Contexts :
    (∃ (cq : BitVec 20) (r : Read) (op : Nat) (c : Instr) (e : Entry) (s : State) (u : State), ((op = 0xD0 ∧ c = .ctxWrite cq r) ∨ (op = 0xD1 ∧ c = .ctxClear cq)) ∧ NextIs s 0 cq.toNat op e u ∧ e.group = none ∧ ctlContext e.desc = none) ∧
    (∃ (cq : BitVec 20) (b : Bytes) (e : Entry) (g : Nat) (s : State) (u : State) (v : State), NextIs s 0 cq.toNat 0xD0 e u ∧ e.group = none ∧ ctlContext e.desc = some g ∧ v = entryRead 0 cq.toNat e (leWord e.desc 0x18).toNat 256 u ∧ ctxCheck v (slice b 0 256) = 0) ∧
    (∃ (cq : BitVec 20) (b : Bytes) (e : Entry) (g : Nat) (s : State) (u : State) (v : State), NextIs s 0 cq.toNat 0xD0 e u ∧ e.group = none ∧ ctlContext e.desc = some g ∧ v = entryRead 0 cq.toNat e (leWord e.desc 0x18).toNat 256 u ∧ ctxCheck v (slice b 0 256) ≠ 0) ∧
    (∃ (cq : BitVec 20) (e : Entry) (g : Nat) (s : State) (u : State), NextIs s 0 cq.toNat 0xD1 e u ∧ e.group = none ∧ ctlContext e.desc = some g) ∧
    (∃ (g : BitVec 20) (x : Cached) (s : State), tabFind s.cx.cache g.toNat = some x) ∧
    (∃ (g : BitVec 20) (s : State), tabFind s.cx.cache g.toNat = none) ∧
    (∃ (g : BitVec 20) (c : Bytes) (s : State) (u : State), tabFind s.cx.cache g.toNat = none ∧ u = cacheInsert g.toNat true (addStat CX_CACHE_MISSES 1 s) ∧ c = ctxOf u g.toNat) ∧
    (∃ (s : State), setupOpen s = true ∧ tabSorted none s.regs = true) :=
  ⟨⟨5, .data [], 0xD1, _, en (dsc 0xD1 [0]), ctl 0xD1 [0], _, .inr ⟨rfl, rfl⟩, ⟨rfl, by decide +kernel⟩, by decide +kernel, by decide +kernel⟩,
   ⟨5, List.replicate 256 0, en (dsc 0xD0 [0x100005, 0x1000]), ctxGlobal 1 5, ctl 0xD0 [0x100005, 0x1000], _, _, ⟨rfl, by decide +kernel⟩, by decide +kernel, by decide +kernel, rfl, by decide +kernel⟩,
   ⟨5, [3], en (dsc 0xD0 [0x300005, 0x1000]), ctxGlobal 3 5, ctl 0xD0 [0x300005, 0x1000], _, _, ⟨rfl, by decide +kernel⟩, by decide +kernel, by decide +kernel, rfl, by decide +kernel⟩,
   ⟨5, en (dsc 0xD1 [0x300005]), ctxGlobal 3 5, ctl 0xD1 [0x300005], _, ⟨rfl, by decide +kernel⟩, by decide +kernel, by decide +kernel⟩,
   ⟨5, { filled := true, data := [] }, { sv with cx := { cache := [(5, { filled := true, data := [] })] } }, by decide +kernel⟩,
   ⟨5, sv, by decide +kernel⟩,
   ⟨5, _, sv, _, by decide +kernel, rfl, rfl⟩,
   ⟨sv, by decide +kernel, by decide +kernel⟩⟩

/-- FlowArithmetic. -/
theorem witness_FlowArithmetic :
    (∃ (core : CoreHk) (t : Thr) (op : Nat) (w : Nat) (c : Instr) (x : Thread) (a : Word) (b : Word) (v : Word) (s : State), a = getG x (iRa w) ∧ b = getG x (iRb w) ∧ ((op = 0x00 ∧ c = .fcAdd core t .none ∧ v = a + b) ∨ (op = 0x01 ∧ c = .fcSub core t .none ∧ v = a - b) ∨ (op = 0x02 ∧ c = .fcAnd core t .none ∧ v = a &&& b) ∨ (op = 0x03 ∧ c = .fcOr core t .none ∧ v = a ||| b) ∨ (op = 0x04 ∧ c = .fcXor core t .none ∧ v = a ^^^ b) ∨ (op = 0x05 ∧ c = .fcShl core t .none ∧ v = a <<< (b.toNat % 64)) ∨ (op = 0x06 ∧ c = .fcShr core t .none ∧ v = a >>> (b.toNat % 64)) ∨ (op = 0x07 ∧ c = .fcSar core t .none ∧ v = a.sshiftRight (b.toNat % 64)) ∨ (op = 0x08 ∧ c = .fcSeq core t .none ∧ v = (if a = b then 1 else 0)) ∨ (op = 0x09 ∧ c = .fcSlt core t .none ∧ v = (if a.toInt < b.toInt then 1 else 0)) ∨ (op = 0x0A ∧ c = .fcSltu core t .none ∧ v = (if a < b then 1 else 0)) ∨ (op = 0x0B ∧ c = .fcMul core t .none ∧ v = a * b) ∨ (op = 0x0C ∧ c = .fcMulhu core t .none ∧ v = BitVec.ofNat 64 (a.toNat * b.toNat / 2 ^ 64)) ∨ (op = 0x0D ∧ c = .fcDstep core t .none ∧ v = dstep a b) ∨ (op = 0x0E ∧ c = .fcSltu128 core t .none ∧ iRa w % 2 = 0 ∧ iRb w % 2 = 0 ∧ v = (if (getG x (iRa w + 1) ++ a) < (getG x (iRb w + 1) ++ b) then 1 else 0)) ∨ (op = 0x10 ∧ c = .fcClz core t .none ∧ v = BitVec.ofNat 64 (clz64 a)) ∨ (op = 0x11 ∧ c = .fcPopc core t .none ∧ v = BitVec.ofNat 64 ((List.range 64).filter (fun i => a.getLsbD i)).length) ∨ (op = 0x12 ∧ c = .fcBswap core t .none ∧ v = BitVec.ofNat 64 (beNat (leBytes 8 a.toNat)))) ∧ FcReady s core.val t.val op w x) ∧
    (∃ (core : CoreHk) (t : Thr) (sub : Nat) (w : Nat) (c : Instr) (x : Thread) (a : Word) (v : Word) (i : Word) (s : State), a = getG x (iRa w) ∧ i = (BitVec.ofNat 14 (iImm14 w)).signExtend 64 ∧ ((sub = 0 ∧ c = .fcAddi core t .none ∧ v = a + i) ∨ (sub = 1 ∧ c = .fcAndi core t .none ∧ v = a &&& BitVec.ofNat 64 (iImm14 w)) ∨ (sub = 2 ∧ c = .fcOri core t .none ∧ v = a ||| BitVec.ofNat 64 (iImm14 w)) ∨ (sub = 3 ∧ c = .fcXori core t .none ∧ v = a ^^^ BitVec.ofNat 64 (iImm14 w)) ∨ (sub = 4 ∧ c = .fcShli core t .none ∧ v = a <<< (iImm14 w % 64)) ∨ (sub = 5 ∧ c = .fcShri core t .none ∧ v = a >>> (iImm14 w % 64)) ∨ (sub = 6 ∧ c = .fcSari core t .none ∧ v = a.sshiftRight (iImm14 w % 64)) ∨ (sub = 7 ∧ c = .fcSeqi core t .none ∧ v = (if a = i then 1 else 0)) ∨ (sub = 8 ∧ c = .fcSlti core t .none ∧ v = (if a.toInt < i.toInt then 1 else 0)) ∨ (sub = 9 ∧ c = .fcSltui core t .none ∧ v = (if a < i then 1 else 0)) ∨ (sub = 10 ∧ c = .fcExtu core t .none ∧ v = (a >>> (iImm14 w % 64)) &&& BitVec.ofNat 64 (2 ^ (iImm14 w / 64 % 64 + 1) - 1))) ∧ FcReady s core.val t.val (0x100 + sub) w x) ∧
    (∃ (core : CoreHk) (t : Thr) (w : Nat) (x : Thread) (s : State), FcReady s core.val t.val 0x200 w x) ∧
    (∃ (core : CoreHk) (t : Thr) (w : Nat) (x : Thread) (s : State), FcReady s core.val t.val 0x300 w x) ∧
    (∃ (core : CoreHk) (t : Thr) (w : Nat) (x : Thread) (s : State), FcReady s core.val t.val 0x00 w x) ∧
    (∃ (c : Nat) (t : Nat) (x : Thread) (s : State) (d : _) (u : _), tabSorted none s.fc.threads = true ∧ threadOf s c t = x ∧ x.stepping = false ∧ 8 * d + u ≠ 8 * c + t) ∧
    (∃ (x : Thread) (n : Nat), x.regs.length = 15 ∧ n < 16 ∧ n ≠ 0) ∧
    (∃ (x : Thread) (n : Nat) (m : Nat), x.regs.length = 15 ∧ n < 16 ∧ m ≠ n) :=
  ⟨⟨31, 7, 0x00, 0xC840, .fcAdd 31 7 .none, thr, _, _, _, fcW 0xC840 thr, rfl, rfl, .inl ⟨rfl, rfl, rfl⟩, ⟨by decide +kernel, by decide +kernel, by decide +kernel, by decide +kernel, by decide +kernel, by decide +kernel, by decide +kernel⟩⟩,
   ⟨31, 7, 0, 0x41, .fcAddi 31 7 .none, thr, _, _, _, fcW 0x41 thr, rfl, rfl, .inl ⟨rfl, rfl, rfl⟩, ⟨by decide +kernel, by decide +kernel, by decide +kernel, by decide +kernel, by decide +kernel, by decide +kernel, by decide +kernel⟩⟩,
   ⟨31, 7, 0x42, thr, fcW 0x42 thr, ⟨by decide +kernel, by decide +kernel, by decide +kernel, by decide +kernel, by decide +kernel, by decide +kernel, by decide +kernel⟩⟩,
   ⟨31, 7, 0x43, thr, fcW 0x43 thr, ⟨by decide +kernel, by decide +kernel, by decide +kernel, by decide +kernel, by decide +kernel, by decide +kernel, by decide +kernel⟩⟩,
   ⟨31, 7, 0x40, thr, fcW 0x40 thr, ⟨by decide +kernel, by decide +kernel, by decide +kernel, by decide +kernel, by decide +kernel, by decide +kernel, by decide +kernel⟩⟩,
   ⟨31, 7, thr, fcW 0 thr, 31, 6, by decide +kernel, by decide +kernel, by decide +kernel, by decide +kernel⟩,
   ⟨thr, 15, by decide +kernel, by decide +kernel, by decide +kernel⟩,
   ⟨thr, 15, 0, by decide +kernel, by decide +kernel, by decide +kernel⟩⟩

/-- DivideSteps. -/
theorem witness_DivideSteps :
    (∃ (n : Nat) (d : Nat), n < 2 ^ 32 ∧ 0 < d ∧ d < 2 ^ 32) ∧
    (∃ (n : Nat), n < 2 ^ 32) :=
  ⟨⟨4294967295, 4294967295, by decide +kernel, by decide +kernel, by decide +kernel⟩,
   ⟨4294967295, by decide +kernel⟩⟩

/-- FlowMemory. -/
theorem witness_FlowMemory :
    (∃ (core : CoreHk) (t : Thr) (w : Nat) (n : Nat) (a : Nat) (x : Thread) (p : Place) (s : State), FcReady s core.val t.val 0x400 w x ∧ n = 2 ^ iw w 14 2 ∧ a = memAddr w x ∧ place s core.val t.val a n = p ∧ p ≠ .bad ∧ a % n = 0 ∧ iw w 16 1 = 0) ∧
    (∃ (core : CoreHk) (t : Thr) (w : Nat) (n : Nat) (a : Nat) (x : Thread) (p : Place) (s : State), FcReady s core.val t.val 0x400 w x ∧ n = 2 ^ iw w 14 2 ∧ a = memAddr w x ∧ place s core.val t.val a n = p ∧ p ≠ .bad ∧ a % n = 0 ∧ iw w 16 1 = 1) ∧
    (∃ (core : CoreHk) (t : Thr) (w : Nat) (n : Nat) (a : Nat) (x : Thread) (p : Place) (s : State), FcReady s core.val t.val 0x500 w x ∧ n = 2 ^ iw w 14 2 ∧ a = memAddr w x ∧ place s core.val t.val a n = p ∧ p ≠ .bad ∧ a % n = 0) ∧
    (∃ (c : Instr) (core : CoreHk) (t : Thr) (op : Nat) (w : Nat) (n : Nat) (a : Nat) (x : Thread) (s : State), ((op = 0x400 ∧ c = .fcLd core t .none) ∨ (op = 0x500 ∧ c = .fcSt core t .none) ∨ (op = 0x600 ∧ c = .fcSwap core t .none) ∨ (op = 0x601 ∧ c = .fcFadd core t .none)) ∧ FcReady s core.val t.val op w x ∧ n = 2 ^ iw w 14 2 ∧ a = memAddr w x ∧ place s core.val t.val a 1 = .bad) ∧
    (∃ (c : Instr) (core : CoreHk) (t : Thr) (op : Nat) (w : Nat) (n : Nat) (a : Nat) (x : Thread) (s : State), ((op = 0x400 ∧ c = .fcLd core t .none) ∨ (op = 0x500 ∧ c = .fcSt core t .none) ∨ (op = 0x600 ∧ c = .fcSwap core t .none) ∨ (op = 0x601 ∧ c = .fcFadd core t .none)) ∧ FcReady s core.val t.val op w x ∧ n = 2 ^ iw w 14 2 ∧ a = memAddr w x ∧ place s core.val t.val a 1 ≠ .bad ∧ a % n ≠ 0) ∧
    (∃ (core : CoreHk) (t : Thr) (w : Nat) (n : Nat) (a : Nat) (m : Nat) (x : Thread) (p : Place) (s : State), FcReady s core.val t.val 0x600 w x ∧ n = 2 ^ iw w 14 2 ∧ a = memAddr w x ∧ place s core.val t.val a n = p ∧ p ≠ .bad ∧ a % n = 0 ∧ m = leNat (placeRead s p n)) ∧
    (∃ (core : CoreHk) (t : Thr) (w : Nat) (n : Nat) (a : Nat) (m : Nat) (x : Thread) (p : Place) (s : State), FcReady s core.val t.val 0x601 w x ∧ n = 2 ^ iw w 14 2 ∧ a = memAddr w x ∧ place s core.val t.val a n = p ∧ p ≠ .bad ∧ a % n = 0 ∧ m = leNat (placeRead s p n)) ∧
    (∃ (core : CoreHk) (t : Thr) (w : Nat) (n : Nat) (a : Nat) (m : Nat) (x : Thread) (p : Place) (s : State), FcReady s core.val t.val 0x602 w x ∧ n = 2 ^ iw w 14 2 ∧ a = memAddr w x ∧ place s core.val t.val a n = p ∧ p ≠ .bad ∧ a % n = 0 ∧ m = leNat (placeRead s p n) ∧ iRd w ≠ 15) ∧
    (∃ (k : Nat) (b : Bytes) (s : State) (i : _), Memory.wf s.fc.slices = true ∧ (i < k ∨ k + b.length ≤ i)) ∧
    (∃ (core : CoreHk) (t : Thr) (w : Nat) (x : Thread) (r : Word) (s : State), FcReady s core.val t.val 0x800 w x ∧ r = getG x (iRd w)) ∧
    (∃ (core : CoreHk) (t : Thr) (w : Nat) (x : Thread) (s : State), FcReady s core.val t.val 0x900 w x) ∧
    (∃ (core : CoreHk) (t : Thr) (w : Nat) (x : Thread) (s : State), FcReady s core.val t.val 0xA00 w x) :=
  ⟨⟨31, 7, 0x44, _, _, thr, _, fcW 0x44 thr, ⟨by decide +kernel, by decide +kernel, by decide +kernel, by decide +kernel, by decide +kernel, by decide +kernel, by decide +kernel⟩, rfl, rfl, rfl, by decide +kernel, by decide +kernel, by decide +kernel⟩,
   ⟨31, 7, 0x10044, _, _, thr, _, fcW 0x10044 thr, ⟨by decide +kernel, by decide +kernel, by decide +kernel, by decide +kernel, by decide +kernel, by decide +kernel, by decide +kernel⟩, rfl, rfl, rfl, by decide +kernel, by decide +kernel, by decide +kernel⟩,
   ⟨31, 7, 0x45, _, _, thr, _, fcW 0x45 thr, ⟨by decide +kernel, by decide +kernel, by decide +kernel, by decide +kernel, by decide +kernel, by decide +kernel, by decide +kernel⟩, rfl, rfl, rfl, by decide +kernel, by decide +kernel⟩,
   ⟨.fcLd 31 7 .none, 31, 7, 0x400, 0xFFFC0004, _, _, thr, fcW 0xFFFC0004 thr, .inl ⟨rfl, rfl⟩, ⟨by decide +kernel, by decide +kernel, by decide +kernel, by decide +kernel, by decide +kernel, by decide +kernel, by decide +kernel⟩, rfl, rfl, by decide +kernel⟩,
   ⟨.fcLd 31 7 .none, 31, 7, 0x400, 0x44004, _, _, thr, fcW 0x44004 thr, .inl ⟨rfl, rfl⟩, ⟨by decide +kernel, by decide +kernel, by decide +kernel, by decide +kernel, by decide +kernel, by decide +kernel, by decide +kernel⟩, rfl, rfl, by decide +kernel, by decide +kernel⟩,
   ⟨31, 7, 0x8046, _, _, _, thr, _, fcW 0x8046 thr, ⟨by decide +kernel, by decide +kernel, by decide +kernel, by decide +kernel, by decide +kernel, by decide +kernel, by decide +kernel⟩, rfl, rfl, rfl, by decide +kernel, by decide +kernel, rfl⟩,
   ⟨31, 7, 0x18046, _, _, _, thr, _, fcW 0x18046 thr, ⟨by decide +kernel, by decide +kernel, by decide +kernel, by decide +kernel, by decide +kernel, by decide +kernel, by decide +kernel⟩, rfl, rfl, rfl, by decide +kernel, by decide +kernel, rfl⟩,
   ⟨31, 7, 0x28386, _, _, _, thr, _, fcW 0x28386 thr, ⟨by decide +kernel, by decide +kernel, by decide +kernel, by decide +kernel, by decide +kernel, by decide +kernel, by decide +kernel⟩, rfl, rfl, rfl, by decide +kernel, by decide +kernel, rfl, by decide +kernel⟩,
   ⟨0, [1], sv, (1 : Nat), by decide +kernel, by decide +kernel⟩,
   ⟨31, 7, 0x8, thr, _, fcW 0x8 thr, ⟨by decide +kernel, by decide +kernel, by decide +kernel, by decide +kernel, by decide +kernel, by decide +kernel, by decide +kernel⟩, rfl⟩,
   ⟨31, 7, 0x9, thr, fcW 0x9 thr, ⟨by decide +kernel, by decide +kernel, by decide +kernel, by decide +kernel, by decide +kernel, by decide +kernel, by decide +kernel⟩⟩,
   ⟨31, 7, 0xA, thr, fcW 0xA thr, ⟨by decide +kernel, by decide +kernel, by decide +kernel, by decide +kernel, by decide +kernel, by decide +kernel, by decide +kernel⟩⟩⟩

/-- FlowChannels. -/
theorem witness_FlowChannels :
    (∃ (core : CoreHk) (t : Thr) (w : Nat) (x : Thread) (k : Chn) (s : State), FcReady s core.val t.val 0xC00 w x ∧ x.claim = none ∧ claimChan core.val (chTarget w x) = some k ∧ hkDelivers core.val k = false ∧ (chanOf s k).holder = none ∧ slotFree k (chanOf s k) = true ∧ (chanOf s k).posts = [] ∧ k.core = core.val) ∧
    (∃ (core : CoreHk) (t : Thr) (w : Nat) (x : Thread) (k : Chn) (s : State), FcReady s core.val t.val 0xC00 w x ∧ x.claim = none ∧ claimChan core.val (chTarget w x) = some k ∧ hkDelivers core.val k = false ∧ (chanOf s k).holder ≠ none) ∧
    (∃ (core : CoreHk) (t : Thr) (w : Nat) (x : Thread) (s : State), FcReady s core.val t.val 0xC00 w x ∧ x.claim ≠ none) ∧
    (∃ (core : CoreHk) (t : Thr) (w : Nat) (x : Thread) (s : State), FcReady s core.val t.val 0xC01 w x ∧ x.claim ≠ none) ∧
    (∃ (core : CoreHk) (t : Thr) (w : Nat) (c : Instr) (op : Nat) (x : Thread) (s : State), ((op = 0xC01 ∧ c = .fcPut core t .none) ∨ (op = 0xC02 ∧ c = .fcSend core t .none)) ∧ FcReady s core.val t.val op w x ∧ x.claim = none) ∧
    (∃ (core : CoreHk) (t : Thr) (w : Nat) (x : Thread) (k : Chn) (s : State), FcReady s core.val t.val 0xC02 w x ∧ x.claim = some k ∧ iw w 18 3 ≤ 4 ∧ hkDelivers core.val k = false ∧ k.core = core.val) ∧
    (∃ (core : CoreHk) (t : Thr) (w : Nat) (x : Thread) (k : Chn) (m : Msg) (s : State) (u : State), FcReady s core.val t.val 0xC03 w x ∧ iRd w ≠ 0 ∧ iRd w ≤ 11 ∧ ownChan core.val (chTarget w x) = some k ∧ takeMsg k s = (u, some m)) ∧
    (∃ (core : CoreHk) (t : Thr) (w : Nat) (x : Thread) (k : Chn) (s : State) (u : State), FcReady s core.val t.val 0xC03 w x ∧ iRd w ≠ 0 ∧ iRd w ≤ 11 ∧ ownChan core.val (chTarget w x) = some k ∧ takeMsg k s = (u, none)) ∧
    (∃ (core : CoreHk) (t : Thr) (w : Nat) (x : Thread) (k : Chn) (s : State), FcReady s core.val t.val 0xC04 w x ∧ ownChan core.val (chTarget w x) = some k) ∧
    (∃ (k : Chn) (m : Msg) (ms : List Msg) (s : State), tabSorted none s.fc.chans = true ∧ tabSorted none s.fc.mboxes = true ∧ (chanOf s k).msgs = m :: ms ∧ msgStale s m = false) ∧
    (∃ (core : CoreHk) (t : Thr) (w : Nat) (x : Thread) (s : State), FcReady s core.val t.val 0xE00 w x) ∧
    (∃ (core : CoreHk) (t : Thr) (w : Nat) (n : Nat) (x : Thread) (s : State), FcReady s core.val t.val 0xE01 w x ∧ n = (getG x (iRa w) + BitVec.ofNat 64 (iImm14 w)).toNat) ∧
    (∃ (core : CoreHk) (t : Thr) (w : Nat) (x : Thread) (s : State), FcReady s core.val t.val 0xE02 w x) ∧
    (∃ (core : CoreHk) (t : Thr) (w : Nat) (x : Thread) (s : State), FcReady s core.val t.val 0xE03 w x) ∧
    (∃ (core : CoreHk) (t : Thr) (w : Nat) (x : Thread) (s : State), FcReady s core.val t.val 0xE04 w x) ∧
    (∃ (core : CoreHk) (t : Thr) (w : Nat) (x : Thread) (s : State), FcReady s core.val t.val 0xE05 w x) ∧
    (∃ (core : CoreHk) (t : Thr) (w : Nat) (x : Thread) (s : State), FcReady s core.val t.val 0xE06 w x ∧ debugLocked s = false ∧ x.passBp = false) ∧
    (∃ (core : CoreHk) (t : Thr) (w : Nat) (x : Thread) (s : State), FcReady s core.val t.val 0xE06 w x ∧ debugLocked s = true) ∧
    (∃ (core : CoreHk) (t : Thr) (w : Nat) (x : Thread) (s : State), FcReady s core.val t.val 0xE07 w x) :=
  ⟨⟨31, 7, 0x2002000C, thr, .mbox 31 0, fcW 0x2002000C thr, ⟨by decide +kernel, by decide +kernel, by decide +kernel, by decide +kernel, by decide +kernel, by decide +kernel, by decide +kernel⟩, by decide +kernel, by decide +kernel, by decide +kernel, by decide +kernel, by decide +kernel, by decide +kernel, by decide +kernel⟩,
   ⟨31, 7, 0xC, thr, ch0, chanS 0xC thr { Channel.empty with holder := some 248 }, ⟨by decide +kernel, by decide +kernel, by decide +kernel, by decide +kernel, by decide +kernel, by decide +kernel, by decide +kernel⟩, by decide +kernel, by decide +kernel, by decide +kernel, by decide +kernel⟩,
   ⟨31, 7, 0xC, { thr with claim := some ch0 }, fcW 0xC { thr with claim := some ch0 }, ⟨by decide +kernel, by decide +kernel, by decide +kernel, by decide +kernel, by decide +kernel, by decide +kernel, by decide +kernel⟩, by decide +kernel⟩,
   ⟨31, 7, 0x400C, { thr with claim := some ch0 }, fcW 0x400C { thr with claim := some ch0 }, ⟨by decide +kernel, by decide +kernel, by decide +kernel, by decide +kernel, by decide +kernel, by decide +kernel, by decide +kernel⟩, by decide +kernel⟩,
   ⟨31, 7, 0x400C, .fcPut 31 7 .none, 0xC01, thr, fcW 0x400C thr, .inl ⟨rfl, rfl⟩, ⟨by decide +kernel, by decide +kernel, by decide +kernel, by decide +kernel, by decide +kernel, by decide +kernel, by decide +kernel⟩, by decide +kernel⟩,
   ⟨31, 7, 0x10800C, { thr with claim := some ch0 }, ch0, fcW 0x10800C { thr with claim := some ch0 }, ⟨by decide +kernel, by decide +kernel, by decide +kernel, by decide +kernel, by decide +kernel, by decide +kernel, by decide +kernel⟩, by decide +kernel, by decide +kernel, by decide +kernel, by decide +kernel⟩,
   ⟨31, 7, 0xC2CC, thr, ch0, msg0, chanS 0xC2CC thr { Channel.empty with msgs := [msg0] }, (takeMsg ch0 (chanS 0xC2CC thr { Channel.empty with msgs := [msg0] })).1, ⟨by decide +kernel, by decide +kernel, by decide +kernel, by decide +kernel, by decide +kernel, by decide +kernel, by decide +kernel⟩, by decide +kernel, by decide +kernel, by decide +kernel, by decide +kernel⟩,
   ⟨31, 7, 0xC04C, thr, ch0, fcW 0xC04C thr, (takeMsg ch0 (fcW 0xC04C thr)).1, ⟨by decide +kernel, by decide +kernel, by decide +kernel, by decide +kernel, by decide +kernel, by decide +kernel, by decide +kernel⟩, by decide +kernel, by decide +kernel, by decide +kernel, by decide +kernel⟩,
   ⟨31, 7, 0x1000C, thr, ch0, fcW 0x1000C thr, ⟨by decide +kernel, by decide +kernel, by decide +kernel, by decide +kernel, by decide +kernel, by decide +kernel, by decide +kernel⟩, by decide +kernel⟩,
   ⟨ch0, msg0, [], chanS 0 thr { Channel.empty with msgs := [msg0] }, by decide +kernel, by decide +kernel, by decide +kernel, by decide +kernel⟩,
   ⟨31, 7, 0xE, thr, fcW 0xE thr, ⟨by decide +kernel, by decide +kernel, by decide +kernel, by decide +kernel, by decide +kernel, by decide +kernel, by decide +kernel⟩⟩,
   ⟨31, 7, 0x400E, _, thr, fcW 0x400E thr, ⟨by decide +kernel, by decide +kernel, by decide +kernel, by decide +kernel, by decide +kernel, by decide +kernel, by decide +kernel⟩, rfl⟩,
   ⟨31, 7, 0x800E, thr, fcW 0x800E thr, ⟨by decide +kernel, by decide +kernel, by decide +kernel, by decide +kernel, by decide +kernel, by decide +kernel, by decide +kernel⟩⟩,
   ⟨31, 7, 0xC00E, thr, fcW 0xC00E thr, ⟨by decide +kernel, by decide +kernel, by decide +kernel, by decide +kernel, by decide +kernel, by decide +kernel, by decide +kernel⟩⟩,
   ⟨31, 7, 0x1000E, thr, fcW 0x1000E thr, ⟨by decide +kernel, by decide +kernel, by decide +kernel, by decide +kernel, by decide +kernel, by decide +kernel, by decide +kernel⟩⟩,
   ⟨31, 7, 0x1400E, thr, fcW 0x1400E thr, ⟨by decide +kernel, by decide +kernel, by decide +kernel, by decide +kernel, by decide +kernel, by decide +kernel, by decide +kernel⟩⟩,
   ⟨31, 7, 0x1800E, thr, fcW 0x1800E thr, ⟨by decide +kernel, by decide +kernel, by decide +kernel, by decide +kernel, by decide +kernel, by decide +kernel, by decide +kernel⟩, by decide +kernel, by decide +kernel⟩,
   ⟨31, 7, 0x1800E, thr, { fcW 0x1800E thr with life := { svLife with sensed := { svLife.sensed with setup := 0x1000000 } } }, ⟨by decide +kernel, by decide +kernel, by decide +kernel, by decide +kernel, by decide +kernel, by decide +kernel, by decide +kernel⟩, by decide +kernel⟩,
   ⟨31, 7, 0x1C00E, thr, fcW 0x1C00E thr, ⟨by decide +kernel, by decide +kernel, by decide +kernel, by decide +kernel, by decide +kernel, by decide +kernel, by decide +kernel⟩⟩⟩

/-- EngineCalls. -/
theorem witness_EngineCalls :
    (∃ (s : State), tabSorted none s.fc.threads = true) ∧
    (∃ (core : CoreHk) (t : Thr) (w : Nat) (a : Nat) (x : Thread) (s : State), FcReady s core.val t.val 0x100B w x ∧ a = (getG x (iRa w)).toNat ∧ a % 8 ≠ 0) ∧
    (∃ (core : CoreHk) (t : Thr) (w : Nat) (a : Nat) (len : Nat) (b : Bytes) (p : Place) (s : State), CallReady s core.val t.val 0x00 24 w a b ∧ len = lef b 0x10 0 13 ∧ place s core.val t.val (leWord b 8).toNat len = p ∧ p ≠ .bad ∧ dmaCheck s b = 0) ∧
    (∃ (core : CoreHk) (t : Thr) (w : Nat) (a : Nat) (len : Nat) (b : Bytes) (p : Place) (s : State), CallReady s core.val t.val 0x01 24 w a b ∧ len = lef b 0x10 0 13 ∧ place s core.val t.val (leWord b 8).toNat len = p ∧ p ≠ .bad ∧ dmaCheck s b = 0) ∧
    (∃ (core : CoreHk) (t : Thr) (w : Nat) (a : Nat) (off : Nat) (len : Nat) (f : Nat) (b : Bytes) (p : Place) (x : Frame) (s : State), CallReady s core.val t.val 0x08 24 w a b ∧ off = le b 4 2 ∧ len = le b 6 2 ∧ place s core.val t.val (leWord b 8).toNat len = p ∧ p ≠ .bad ∧ heldFrame s core.val (lef b 0 0 18) = some f ∧ frameOf s f = some x ∧ iw w 24 1 = 0 ∧ 1 ≤ len ∧ len ≤ 4096 ∧ off + len ≤ x.len) ∧
    (∃ (core : CoreHk) (t : Thr) (w : Nat) (a : Nat) (off : Nat) (len : Nat) (f : Nat) (b : Bytes) (p : Place) (x : Frame) (s : State), CallReady s core.val t.val 0x09 24 w a b ∧ off = le b 4 2 ∧ len = le b 6 2 ∧ place s core.val t.val (leWord b 8).toNat len = p ∧ p ≠ .bad ∧ heldFrame s core.val (lef b 0 0 18) = some f ∧ frameOf s f = some x ∧ iw w 24 1 = 0 ∧ 1 ≤ len ∧ len ≤ 4096 ∧ off + len ≤ x.len) ∧
    (∃ (core : CoreHk) (t : Thr) (w : Nat) (a : Nat) (f : Nat) (l : Nat) (b : Bytes) (y : Bytes) (x : Frame) (s : State) (u : State), CallReady s core.val t.val 0x0A 24 w a b ∧ heldFrame s core.val (lef b 0 0 18) = some f ∧ frameOf s f = some x ∧ l = lef b 0x10 0 20 ∧ editHeld l (lef b 0x10 20 12) x s = .ok y ∧ enqueueFrame l f (putFrame f { x with bytes := y } (spendHandle core.val f s)) = (u, true)) ∧
    (∃ (core : CoreHk) (t : Thr) (w : Nat) (a : Nat) (f : Nat) (b : Bytes) (x : Frame) (s : State), CallReady s core.val t.val 0x0B 8 w a b ∧ heldFrame s core.val (lef b 0 0 18) = some f ∧ frameOf s f = some x) ∧
    (∃ (core : CoreHk) (t : Thr) (w : Nat) (a : Nat) (b : Bytes) (s : State), CallReady s core.val t.val 0x0B 8 w a b ∧ heldFrame s core.val (lef b 0 0 18) = none) ∧
    (∃ (core : CoreHk) (t : Thr) (w : Nat) (a : Nat) (len : Nat) (b : Bytes) (p : Place) (s : State), CallReady s core.val t.val 0x0C 24 w a b ∧ len = le b 6 2 ∧ place s core.val t.val (leWord b 8).toNat len = p ∧ p ≠ .bad ∧ 14 ≤ len ∧ len ≤ 9212 ∧ sharedUsed s + cellsFor len + 1 ≤ sharedSize s ∧ (coreOf s core.val).punts.length < 1024 ∧ (handlesHeld s).length < 2 ^ 18) ∧
    (∃ (core : CoreHk) (t : Thr) (w : Nat) (a : Nat) (pl : Nat) (kind : Nat) (b : Bytes) (h : Hit) (e : BitVec 32) (s : State), CallReady s core.val t.val 0x10 80 w a b ∧ pl = lef b 0 0 3 ∧ kind = lef b 0 3 3 ∧ pl < 4 ∧ 1 ≤ kind ∧ kind ≤ 4 ∧ iw w 24 1 = 0 ∧ e = epochCurrent s pl ∧ lookupKey s pl kind (lef b 0 6 6) (lef b 0 6 6) (slice b 0x10 48) e = .result h) ∧
    (∃ (core : CoreHk) (t : Thr) (w : Nat) (a : Nat) (op : Nat) (len : Nat) (b : Bytes) (p : Place) (q : Place) (s : State), CallReady s core.val t.val 0x18 104 w a b ∧ op = lef b 0 0 4 ∧ op ≤ 2 ∧ len = le b 4 4 ∧ 0 < len ∧ len ≤ 2 ^ 24 ∧ place s core.val t.val (leWord b 8).toNat len = p ∧ p ≠ .bad ∧ place s core.val t.val (leWord b 0x10).toNat (digestLen op) = q ∧ q ≠ .bad) ∧
    (∃ (core : CoreHk) (t : Thr) (w : Nat) (a : Nat) (b : Bytes) (s : State), CallReady s core.val t.val 0x20 24 w a b) ∧
    (∃ (core : CoreHk) (t : Thr) (w : Nat) (a : Nat) (g : Nat) (fn : Nat) (i : Nat) (b : Bytes) (s : State), CallReady s core.val t.val 0x28 24 w a b ∧ fn = lef b 8 0 2 ∧ i = lef b 8 2 10 ∧ rb s CG_CTRL 0 = true ∧ fld (leWord b 0) 0 60 ≠ 0 ∧ gateOpen s fn i (BitVec.ofNat 8 (lef b 8 12 8)) = true ∧ freeSlot s = some g) ∧
    (∃ (core : CoreHk) (t : Thr) (w : Nat) (a : Nat) (g : Nat) (x : Group) (y : Thread) (b : Bytes) (src : Place) (s : State), CallReady s core.val t.val 0x29 72 w a b ∧ y = threadOf s core.val t.val ∧ g = (getG y (iRb w)).toNat % 2 ^ 16 ∧ iw w 24 1 = 0 ∧ ownGroup s core.val t.val g = some x ∧ x.state = .opened ∧ x.members.length < 16 ∧ src = place s core.val t.val (leWord b 0x18).toNat 256 ∧ (src ≠ .bad ∨ lef b 0 4 8 ≠ 0xD0)) ∧
    (∃ (core : CoreHk) (t : Thr) (w : Nat) (a : Nat) (g : Nat) (x : Group) (y : Thread) (b : Bytes) (s : State), CallReady s core.val t.val 0x29 24 w a b ∧ y = threadOf s core.val t.val ∧ g = (getG y (iRb w)).toNat % 2 ^ 16 ∧ iw w 24 1 = 1 ∧ ownGroup s core.val t.val g = some x ∧ x.state = .opened ∧ x.members.length < 16) ∧
    (∃ (core : CoreHk) (t : Thr) (w : Nat) (a : Nat) (g : Nat) (x : Group) (y : Thread) (b : Bytes) (s : State), CallReady s core.val t.val 0x2A 32 w a b ∧ y = threadOf s core.val t.val ∧ g = (getG y (iRb w)).toNat % 2 ^ 16 ∧ ownGroup s core.val t.val g = some x ∧ x.state = .opened) :=
  ⟨⟨sv, by decide +kernel⟩,
   ⟨31, 7, 0x2C0410, _, setG thr 1 4, fcW 0x2C0410 (setG thr 1 4), ⟨by decide +kernel, by decide +kernel, by decide +kernel, by decide +kernel, by decide +kernel, by decide +kernel, by decide +kernel⟩, rfl, by decide +kernel⟩,
   ⟨31, 7, 0x10, 0, _, _, _, callS 0x10 [0x1000, 64, 0x3000], ⟨⟨thr, ⟨by decide +kernel, by decide +kernel, by decide +kernel, by decide +kernel, by decide +kernel, by decide +kernel, by decide +kernel⟩, by decide +kernel⟩, by decide +kernel, by decide +kernel, rfl⟩, rfl, rfl, by decide +kernel, by decide +kernel⟩,
   ⟨31, 7, 0x40010, 0, _, _, _, callS 0x40010 [0x1000, 64, 0x3000], ⟨⟨thr, ⟨by decide +kernel, by decide +kernel, by decide +kernel, by decide +kernel, by decide +kernel, by decide +kernel, by decide +kernel⟩, by decide +kernel⟩, by decide +kernel, by decide +kernel, rfl⟩, rfl, rfl, by decide +kernel, by decide +kernel⟩,
   ⟨31, 7, 0x200010, 0, _, _, 0, _, _, fr0, callF 0x200010 [0x3C000000000000, 64, 0], ⟨⟨thr, ⟨by decide +kernel, by decide +kernel, by decide +kernel, by decide +kernel, by decide +kernel, by decide +kernel, by decide +kernel⟩, by decide +kernel⟩, by decide +kernel, by decide +kernel, rfl⟩, rfl, rfl, rfl, by decide +kernel, by decide +kernel, by decide +kernel, by decide +kernel, by decide +kernel, by decide +kernel, by decide +kernel⟩,
   ⟨31, 7, 0x240010, 0, _, _, 0, _, _, fr0, callF 0x240010 [0x3C000000000000, 64, 0], ⟨⟨thr, ⟨by decide +kernel, by decide +kernel, by decide +kernel, by decide +kernel, by decide +kernel, by decide +kernel, by decide +kernel⟩, by decide +kernel⟩, by decide +kernel, by decide +kernel, rfl⟩, rfl, rfl, rfl, by decide +kernel, by decide +kernel, by decide +kernel, by decide +kernel, by decide +kernel, by decide +kernel, by decide +kernel⟩,
   ⟨31, 7, 0x280010, 0, 0, _, _, List.replicate 60 0, fr0, callF 0x280010 [0, 0, 5], (enqueueFrame 5 0 (putFrame 0 fr0 (spendHandle 31 0 (callF 0x280010 [0, 0, 5])))).1, ⟨⟨thr, ⟨by decide +kernel, by decide +kernel, by decide +kernel, by decide +kernel, by decide +kernel, by decide +kernel, by decide +kernel⟩, by decide +kernel⟩, by decide +kernel, by decide +kernel, rfl⟩, by decide +kernel, by decide +kernel, rfl, by decide +kernel, by decide +kernel⟩,
   ⟨31, 7, 0x2C0010, 0, 0, _, fr0, callF 0x2C0010 [0], ⟨⟨thr, ⟨by decide +kernel, by decide +kernel, by decide +kernel, by decide +kernel, by decide +kernel, by decide +kernel, by decide +kernel⟩, by decide +kernel⟩, by decide +kernel, by decide +kernel, rfl⟩, by decide +kernel, by decide +kernel⟩,
   ⟨31, 7, 0x2C0010, 0, _, callF 0x2C0010 [1], ⟨⟨thr, ⟨by decide +kernel, by decide +kernel, by decide +kernel, by decide +kernel, by decide +kernel, by decide +kernel, by decide +kernel⟩, by decide +kernel⟩, by decide +kernel, by decide +kernel, rfl⟩, by decide +kernel⟩,
   ⟨31, 7, 0x300010, 0, _, _, _, callS 0x300010 [0xE000000000000, 64, 0], ⟨⟨thr, ⟨by decide +kernel, by decide +kernel, by decide +kernel, by decide +kernel, by decide +kernel, by decide +kernel, by decide +kernel⟩, by decide +kernel⟩, by decide +kernel, by decide +kernel, rfl⟩, rfl, rfl, by decide +kernel, by decide +kernel, by decide +kernel, by decide +kernel, by decide +kernel, by decide +kernel⟩,
   ⟨31, 7, 0x400010, 0, _, _, _, none, _, callS 0x400010 [0xB], ⟨⟨thr, ⟨by decide +kernel, by decide +kernel, by decide +kernel, by decide +kernel, by decide +kernel, by decide +kernel, by decide +kernel⟩, by decide +kernel⟩, by decide +kernel, by decide +kernel, rfl⟩, rfl, rfl, by decide +kernel, by decide +kernel, by decide +kernel, by decide +kernel, rfl, by decide +kernel⟩,
   ⟨31, 7, 0x600010, 0, _, _, _, _, _, callS 0x600010 [0x4000000002, 256, 512], ⟨⟨thr, ⟨by decide +kernel, by decide +kernel, by decide +kernel, by decide +kernel, by decide +kernel, by decide +kernel, by decide +kernel⟩, by decide +kernel⟩, by decide +kernel, by decide +kernel, rfl⟩, rfl, by decide +kernel, rfl, by decide +kernel, by decide +kernel, rfl, by decide +kernel, rfl, by decide +kernel⟩,
   ⟨31, 7, 0x800010, 0, _, callS 0x800010 [0, 1, 2], ⟨⟨thr, ⟨by decide +kernel, by decide +kernel, by decide +kernel, by decide +kernel, by decide +kernel, by decide +kernel, by decide +kernel⟩, by decide +kernel⟩, by decide +kernel, by decide +kernel, rfl⟩⟩,
   ⟨31, 7, 0xA00010, 0, 0, _, _, _, rg CG_CTRL 1 (callS 0xA00010 [5, 1, 0]), ⟨⟨thr, ⟨by decide +kernel, by decide +kernel, by decide +kernel, by decide +kernel, by decide +kernel, by decide +kernel, by decide +kernel⟩, by decide +kernel⟩, by decide +kernel, by decide +kernel, rfl⟩, rfl, rfl, by decide +kernel, by decide +kernel, by decide +kernel, by decide +kernel⟩,
   ⟨31, 7, 0xA40010, 0, _, grp, _, _, _, putCg 0 grp (callS 0xA40010 []), ⟨⟨thr, ⟨by decide +kernel, by decide +kernel, by decide +kernel, by decide +kernel, by decide +kernel, by decide +kernel, by decide +kernel⟩, by decide +kernel⟩, by decide +kernel, by decide +kernel, rfl⟩, rfl, rfl, by decide +kernel, by decide +kernel, by decide +kernel, by decide +kernel, rfl, by decide +kernel⟩,
   ⟨31, 7, 0x1A40010, 0, _, grp, _, _, putCg 0 grp (callS 0x1A40010 []), ⟨⟨thr, ⟨by decide +kernel, by decide +kernel, by decide +kernel, by decide +kernel, by decide +kernel, by decide +kernel, by decide +kernel⟩, by decide +kernel⟩, by decide +kernel, by decide +kernel, rfl⟩, rfl, rfl, by decide +kernel, by decide +kernel, by decide +kernel, by decide +kernel⟩,
   ⟨31, 7, 0xA80010, 0, _, grp, _, _, putCg 0 grp (callS 0xA80010 []), ⟨⟨thr, ⟨by decide +kernel, by decide +kernel, by decide +kernel, by decide +kernel, by decide +kernel, by decide +kernel, by decide +kernel⟩, by decide +kernel⟩, by decide +kernel, by decide +kernel, rfl⟩, rfl, rfl, by decide +kernel, by decide +kernel⟩⟩

/-- ThreadsAndMailboxes. -/
theorem witness_ThreadsAndMailboxes :
    (∃ (core : CoreHk) (t : Nat) (s : State), runningThread s core.val = some t ∧ 64 ≤ (coreOf s core.val).turn) ∧
    (∃ (core : CoreHk) (s : State), (runningThread s core.val = none ∨ (coreOf s core.val).turn < 64)) ∧
    (∃ (core : CoreHk) (t : Nat) (s : State), runningThread s core.val = none ∧ ((List.range 8).map (fun k => ((coreOf s core.val).last + 1 + k) % 8)).find? (fun t => (threadsOf core.val).contains t && (threadOf s core.val t).state == .ready) = some t) ∧
    (∃ (core : CoreHk) (t : Thr) (x : Thread) (s : State), x = threadOf s core.val t.val ∧ x.state = .stalled ∧ x.done = true) ∧
    (∃ (core : CoreHk) (t : Thr) (s : State), (threadOf s core.val t.val).state ≠ .stalled ∧ (threadOf s core.val t.val).wait = .none) ∧
    (∃ (core : Core) (t : Thr) (s : State), setupOpen s = true ∧ (threadOf s core.val t.val).state ≠ .halted) ∧
    (∃ (core : Core) (t : Thr) (s : State), setupOpen s = true ∧ (threadOf s core.val t.val).state = .halted ∧ rb s (FC_THR_B (8 * core.val + t.val)) 2 = true) ∧
    (∃ (core : Core) (t : Thr) (s : State), setupOpen s = true ∧ (threadOf s core.val t.val).state ≠ .halted) ∧
    (∃ (s : State), setupOpen s = true) ∧
    (∃ (core : Core) (s : State), setupOpen s = true ∧ (∀ t < 8, (threadOf s core.val t).state ≠ .frozen)) ∧
    (∃ (core : Core) (ts : List Nat) (u : State) (s : State), setupOpen s = true ∧ ts = (List.range 8).filter (fun t => (threadOf s core.val t).state == .frozen) ∧ u = ts.foldl (fun s t => putThread core.val t { threadOf s core.val t with state := .stalled } s) s) ∧
    (∃ (core : Core) (t : Thr) (x : Thread) (s : State), setupOpen s = true ∧ debugLocked s = false ∧ x = threadOf s core.val t.val ∧ (x.state = .running ∨ x.state = .ready)) ∧
    (∃ (core : Core) (t : Thr) (x : Thread) (s : State), setupOpen s = true ∧ debugLocked s = false ∧ x = threadOf s core.val t.val ∧ x.state = .stalled) ∧
    (∃ (core : Core) (t : Thr) (x : Thread) (s : State), setupOpen s = true ∧ debugLocked s = false ∧ x = threadOf s core.val t.val ∧ x.state = .stopped) ∧
    (∃ (core : Core) (t : Thr) (x : Thread) (s : State), setupOpen s = true ∧ debugLocked s = false ∧ x = threadOf s core.val t.val ∧ x.state = .stopped) ∧
    (∃ (s : State), setupOpen s = true ∧ debugLocked s = true) ∧
    (∃ (core : Core) (s : State), coreClosed s core.val = false) ∧
    (∃ (core : Core) (ts : List Nat) (u : State) (s : State), coreClosed s core.val = true ∧ 9 ≤ (coreOf s core.val).quiet ∧ ts = (List.range 8).filter (fun t => (threadOf s core.val t).state == .stalled && waitsLocal (threadOf s core.val t)) ∧ u = ts.foldl (fun s t => putThreadRaw core.val t { threadOf s core.val t with state := .frozen } s) s) ∧
    (∃ (fn : Fn) (fq : BitVec 20) (e : Entry) (s : State) (u : State), NextIs s fn.val fq.toNat 0x50 e u ∧ 4 < lef e.desc 0x30 0 3) ∧
    (∃ (fn : Fn) (fq : BitVec 20) (e : Entry) (tg : Nat × Nat) (s : State) (u : State), NextIs s fn.val fq.toNat 0x50 e u ∧ lef e.desc 0x30 0 3 ≤ 4 ∧ tg = msgTarget (queueOf u fn.val fq.toNat) ∧ mboxEnabled u tg.1 tg.2 = false) ∧
    (∃ (fn : Fn) (fq : BitVec 20) (e : Entry) (tg : Nat × Nat) (n : Nat) (s : State) (u : State), NextIs s fn.val fq.toNat 0x50 e u ∧ e.group = none ∧ n = lef e.desc 0x30 0 3 ∧ n ≤ 4 ∧ tg = msgTarget (queueOf u fn.val fq.toNat) ∧ mboxEnabled u tg.1 tg.2 = true ∧ slotFree (.mbox tg.1 tg.2) (chanOf u (.mbox tg.1 tg.2)) = true) ∧
    (∃ (fn : Fn) (fq : BitVec 20) (e : Entry) (tg : Nat × Nat) (k : Chn) (s : State) (u : State), NextIs s fn.val fq.toNat 0x50 e u ∧ e.group = none ∧ lef e.desc 0x30 0 3 ≤ 4 ∧ tg = msgTarget (queueOf u fn.val fq.toNat) ∧ k = .mbox tg.1 tg.2 ∧ mboxEnabled u tg.1 tg.2 = true ∧ slotFree k (chanOf u k) = false) ∧
    (∃ (core : CoreHk) (m : Fin 32) (k : Chn) (s : State) (u : State), k = .mbox core.val m.val ∧ (chanOf s k).posts = [] ∧ u = putChan k (chanOf s k) s) ∧
    (∃ (core : CoreHk) (m : Fin 32) (k : Chn) (p : BitVec 2 × BitVec 20 × BitVec 32) (ps : List (BitVec 2 × BitVec 20 × BitVec 32)) (e : Entry) (s : State) (u : State) (v : State), k = .mbox core.val m.val ∧ (chanOf s k).posts.filter (postLive s) = p :: ps ∧ u = putChan k { chanOf s k with posts := p :: ps } s ∧ entryIdx u p.1.toNat p.2.1.toNat p.2.2 = some e ∧ postMessage p.1.toNat p.2.1.toNat e u = (v, true)) :=
  ⟨⟨31, 7, thrS .running .none 64 0, by decide +kernel, by decide +kernel⟩,
   ⟨31, thrS .running .none 63 0, by decide +kernel⟩,
   ⟨31, 7, thrS .ready .none 0 0, by decide +kernel, by decide +kernel⟩,
   ⟨31, 7, _, fcW 0 { thr with state := .stalled, done := true }, rfl, by decide +kernel, by decide +kernel⟩,
   ⟨31, 7, fcW 0 thr, by decide +kernel, by decide +kernel⟩,
   ⟨31, 7, fcW 0 thr, by decide +kernel, by decide +kernel⟩,
   ⟨31, 7, rg (FC_THR_B 255) 4 sv, by decide +kernel, by decide +kernel, by decide +kernel⟩,
   ⟨31, 7, fcW 0 thr, by decide +kernel, by decide +kernel⟩,
   ⟨sv, by decide +kernel⟩,
   ⟨31, fcW 0 thr, by decide +kernel, by decide +kernel⟩,
   ⟨31, _, _, thrS .frozen (.recv ch0 1) 0 0, by decide +kernel, rfl, rfl⟩,
   ⟨31, 7, _, fcW 0 thr, by decide +kernel, by decide +kernel, rfl, by decide +kernel⟩,
   ⟨31, 7, _, thrS .stalled .none 0 0, by decide +kernel, by decide +kernel, rfl, by decide +kernel⟩,
   ⟨31, 7, _, thrS .stopped .none 0 0, by decide +kernel, by decide +kernel, rfl, by decide +kernel⟩,
   ⟨31, 7, _, thrS .stopped .none 0 0, by decide +kernel, by decide +kernel, rfl, by decide +kernel⟩,
   ⟨lv (fun l => { l with sensed := { l.sensed with setup := 0x1000000 } }), by decide +kernel, by decide +kernel⟩,
   ⟨31, sv, by decide +kernel⟩,
   ⟨31, _, _, thrS .stalled (.recv ch0 1) 0 9, by decide +kernel, by decide +kernel, rfl, rfl⟩,
   ⟨1, 5, postE 5, postS 5, _, ⟨rfl, by decide +kernel⟩, by decide +kernel⟩,
   ⟨1, 5, postE 4, _, postS 4, _, ⟨rfl, by decide +kernel⟩, by decide +kernel, rfl, by decide +kernel⟩,
   ⟨1, 5, postE 4, _, _, postOn .empty, _, ⟨rfl, by decide +kernel⟩, by decide +kernel, rfl, by decide +kernel, rfl, by decide +kernel, by decide +kernel⟩,
   ⟨1, 5, postE 4, _, _, postOn { Channel.empty with msgs := List.replicate 16 msg0 }, _, ⟨rfl, by decide +kernel⟩, by decide +kernel, by decide +kernel, rfl, rfl, by decide +kernel, by decide +kernel⟩,
   ⟨32, 7, _, sv, _, rfl, by decide +kernel, rfl⟩,
   ⟨31, 31, _, (1, 5, 0), [], waitE, waitS, _, (postMessage 1 5 waitE (putChan (.mbox 31 31) { chanOf waitS (.mbox 31 31) with posts := [(1, 5, 0)] } waitS)).1, rfl, by decide +kernel, rfl, by decide +kernel, by decide +kernel⟩⟩

/-- StorageCommands. -/
theorem witness_StorageCommands :
    (∃ (s : State), arbiterPick s = none) ∧
    (∃ (fq : Nat) (fns : Nat) (e : Entry) (s : State) (u : State), arbiterPick s = some (fq, e) ∧ e.met = .good ∧ e.group = none ∧ u = { s with st := { s.st with lastQueue := fq } } ∧ fns = stNs u (queueInst u 2 fq) e.desc ∧ admitCheck u fns e ≠ 0) ∧
    (∃ (fq : Nat) (fns : Nat) (n : Nat) (e : Entry) (c : StCmd) (s : State) (u : State) (v : State), arbiterPick s = some (fq, e) ∧ e.met = .good ∧ e.group = none ∧ u = { s with st := { s.st with lastQueue := fq } } ∧ fns = stNs u (queueInst u 2 fq) e.desc ∧ admitCheck u fns e = 0 ∧ n = s.st.nextCmd ∧ c = newCmd u fq fns e ∧ grantable u n c = true ∧ v = { u with st := { u.st with nextCmd := n + 1 } }) ∧
    (∃ (c : StCmd), c.op ≠ 0x32) ∧
    (∃ (fq : BitVec 20) (idx : BitVec 32) (n : Nat) (c : StCmd) (e : Entry) (s : State), StReady s 0x30 fq.toNat idx n c e ∧ bit (leWord e.desc 0x24) 16 = false) ∧
    (∃ (fq : BitVec 20) (idx : BitVec 32) (n : Nat) (len : Nat) (c : StCmd) (e : Entry) (s : State), StReady s 0x31 fq.toNat idx n c e ∧ c.group = none ∧ bit (leWord e.desc 0x24) 16 = false ∧ len = c.nblocks * 2 ^ (nsOf s c.fns.toNat).bshift) ∧
    (∃ (fq : BitVec 20) (idx : BitVec 32) (op : Nat) (n : Nat) (i : Instr) (c : StCmd) (e : Entry) (s : State), ((op = 0x32 ∧ i = .stFlush fq idx) ∨ (op = 0x33 ∧ i = .stZero fq idx) ∨ (op = 0x34 ∧ i = .stTrim fq idx)) ∧ StReady s op fq.toNat idx n c e) ∧
    (∃ (fq : BitVec 20) (idx : BitVec 32) (n : Nat) (len : Nat) (c : StCmd) (e : Entry) (s : State), StReady s 0x35 fq.toNat idx n c e ∧ len = c.nblocks * 2 ^ (nsOf s c.fns.toNat).bshift) ∧
    (∃ (c : StCmd), c.group = none) ∧
    (∃ (n : Nat) (c : StCmd) (s : State), cmdOf s n = some c ∧ c.granted = false ∧ grantable s n c = true) ∧
    (∃ (n : Nat) (c : StCmd) (s : State), cmdOf s n = some c ∧ c.granted = false ∧ grantable s n c = true) ∧
    (∃ (n : Nat) (c : StCmd) (s : State), cmdOf s n = some c ∧ grantable s n c = false) ∧
    (∃ (b : Bay) (cid : Nat) (s : State), packUse s b.val cid = none) ∧
    (∃ (b : Bay) (cid : Nat) (n : Nat) (off : Nat) (onB : Bool) (s : State), packUse s b.val cid = some (.cmd n onB off)) ∧
    (∃ (c : StCmd), c.failA = none ∧ c.failB = none) :=
  ⟨⟨sv, by decide +kernel⟩,
   ⟨5, _, en (dsc 0x32 []), stS 0x32 [] .off, _, by decide +kernel, by decide +kernel, by decide +kernel, rfl, rfl, by decide +kernel⟩,
   ⟨5, _, _, en (dsc 0x32 []), _, stS 0x32 [] .online, _, _, by decide +kernel, by decide +kernel, by decide +kernel, rfl, rfl, by decide +kernel, rfl, rfl, by decide +kernel, rfl⟩,
   ⟨stC 0x30 [], by decide +kernel⟩,
   ⟨5, 0, 0, stC 0x30 [0x1000, 0, 1], stE 0x30 [0x1000, 0, 1], stA 0x30 [0x1000, 0, 1], ⟨by decide +kernel, by decide +kernel, by decide +kernel, by decide +kernel, by decide +kernel⟩, by decide +kernel⟩,
   ⟨5, 0, 0, _, stC 0x31 [0x1000, 0, 1], stE 0x31 [0x1000, 0, 1], stA 0x31 [0x1000, 0, 1], ⟨by decide +kernel, by decide +kernel, by decide +kernel, by decide +kernel, by decide +kernel⟩, by decide +kernel, by decide +kernel, rfl⟩,
   ⟨5, 0, 0x32, 0, _, stC 0x32 [], stE 0x32 [], stA 0x32 [], .inl ⟨rfl, rfl⟩, ⟨by decide +kernel, by decide +kernel, by decide +kernel, by decide +kernel, by decide +kernel⟩⟩,
   ⟨5, 0, 0, _, stC 0x35 [0x1000, 0, 1], stE 0x35 [0x1000, 0, 1], stA 0x35 [0x1000, 0, 1], ⟨by decide +kernel, by decide +kernel, by decide +kernel, by decide +kernel, by decide +kernel⟩, rfl⟩,
   ⟨stC 0x30 [], by decide +kernel⟩,
   ⟨0, stC 0x30 [0, 0, 1], stA 0x30 [0, 0, 1], by decide +kernel, by decide +kernel, by decide +kernel⟩,
   ⟨0, stC 0x30 [0, 0, 1], stA 0x30 [0, 0, 1], by decide +kernel, by decide +kernel, by decide +kernel⟩,
   ⟨1, stC 0x30 [0, 0, 1], { stA 0x31 [0, 0, 1] with st := { (stA 0x31 [0, 0, 1]).st with cmds := [(0, stC 0x31 [0, 0, 1]), (1, stC 0x30 [0, 0, 1])] } }, by decide +kernel, by decide +kernel⟩,
   ⟨3, 0, sv, by decide +kernel⟩,
   ⟨3, 7, 0, 0, false, { sv with st := { sv.st with packCmds := [(12884901895, .cmd 0 false 0)] } }, by decide +kernel⟩,
   ⟨stC 0x30 [], by decide +kernel, by decide +kernel⟩⟩

/-- Namespaces. -/
theorem witness_Namespaces :
    (∃ (cq : BitVec 20) (e : Entry) (s : State) (u : State), NextIs s 0 cq.toNat 0xC8 e u ∧ adminQueue u cq.toNat = true ∧ nsCheck u e.desc ≠ 0) ∧
    (∃ (cq : BitVec 20) (e : Entry) (n : Ns) (r : Nat × Bool) (s : State) (u : State), NextIs s 0 cq.toNat 0xC8 e u ∧ adminQueue u cq.toNat = true ∧ nsCheck u e.desc = 0 ∧ bit (leWord e.desc 0x10) 16 = true ∧ n = { Ns.empty with conf := slice e.desc 0x10 40 } ∧ r = nsResults u n) ∧
    (∃ (cq : BitVec 20) (e : Entry) (s : State) (u : State), NextIs s 0 cq.toNat 0xC8 e u ∧ adminQueue u cq.toNat = false) ∧
    (∃ (cq : BitVec 20) (e : Entry) (i : Nat) (lg : Nat) (s : State) (u : State), NextIs s 0 cq.toNat 0xC9 e u ∧ adminQueue u cq.toNat = true ∧ i = lef e.desc 0x10 0 10 ∧ lg = lef e.desc 0x18 0 5 ∧ i < instCount u 2 ∧ (lg = 0 ∨ (4 ≤ lg ∧ lg ≤ 16))) ∧
    (∃ (cq : BitVec 20) (e : Entry) (fns : Nat) (k : Nat) (tg : Bool) (s : State) (u : State), NextIs s 0 cq.toNat 0xCA e u ∧ adminQueue u cq.toNat = true ∧ fns = lef e.desc 0x10 0 16 ∧ tg = bit (leWord e.desc 0x10) 17 ∧ bit (leWord e.desc 0x10) 16 = false ∧ rebuildCheck u e.desc = 0 ∧ rebuildSlot u = some k) ∧
    (∃ (cq : BitVec 20) (e : Entry) (r : Rebuild) (fns : Nat) (s : State) (u : State), NextIs s 0 cq.toNat 0xCA e u ∧ adminQueue u cq.toNat = true ∧ fns = lef e.desc 0x10 0 16 ∧ bit (leWord e.desc 0x10) 16 = true ∧ (nsOf u fns).state = .rebuilding ∧ rebuildOf u fns = some r) ∧
    (∃ (k : Fin 8) (r : Rebuild) (s : State), tabFind s.st.rebuilds k.val = some r ∧ chunkLock s r = false) ∧
    (∃ (k : Fin 8) (r : Rebuild) (n : Ns) (m : Nat) (s : State), tabFind s.st.rebuilds k.val = some r ∧ chunkLock s r = true ∧ n = nsOf s r.fns.toNat ∧ m = r.next + min (2 ^ 20 / 2 ^ n.bshift) (n.size - r.next) ∧ r.rate.toNat * (1024 * (s.ticks - r.start)) < m * 2 ^ n.bshift * 1000) ∧
    (∃ (k : Fin 8) (r : Rebuild) (n : Ns) (m : Nat) (s : State), tabFind s.st.rebuilds k.val = some r ∧ chunkLock s r = true ∧ n = nsOf s r.fns.toNat ∧ m = r.next + min (2 ^ 20 / 2 ^ n.bshift) (n.size - r.next) ∧ m < n.size ∧ m * 2 ^ n.bshift * 1000 ≤ r.rate.toNat * (1024 * (s.ticks - r.start))) ∧
    (∃ (k : Fin 8) (r : Rebuild) (s : State) (u : State), tabFind s.st.rebuilds k.val = some r ∧ chunkLock s r = true ∧ u = chunkSend r (!r.target) nvRead [] s) ∧
    (∃ (k : Fin 8) (r : Rebuild) (d : Bytes) (s : State) (u : State), tabFind s.st.rebuilds k.val = some r ∧ chunkLock s r = true ∧ u = chunkSend r r.target nvWrite d (chunkSend r (!r.target) nvRead [] s)) :=
  ⟨⟨5, en (dsc 0xC8 [0x10000]), ctl 0xC8 [0x10000], _, ⟨rfl, by decide +kernel⟩, by decide +kernel, by decide +kernel⟩,
   ⟨5, en (dsc 0xC8 [0x100310000, 100]), _, _, bayS .ready (ctl 0xC8 [0x100310000, 100]), _, ⟨rfl, by decide +kernel⟩, by decide +kernel, by decide +kernel, by decide +kernel, rfl, rfl⟩,
   ⟨98304, en (dsc 0xC8 []), { rg (IM_FN_SHARE 0) 1 (withQ 0 98304 (qu 4 [en (dsc 0xC8 [])]) sv) with im := { insts := [(0, on0), (1, on0)], filter := [] } }, _, ⟨rfl, by decide +kernel⟩, by decide +kernel⟩,
   ⟨5, en (dsc 0xC9 [0, 16]), _, _, ctl 0xC9 [0, 16], _, ⟨rfl, by decide +kernel⟩, by decide +kernel, rfl, rfl, by decide +kernel, by decide +kernel⟩,
   ⟨5, en (dsc 0xCA [0x100300000, 0]), _, 0, _, ns3 .degradedA (bayS .ready (ctl 0xCA [0x100300000, 0])), _, ⟨rfl, by decide +kernel⟩, by decide +kernel, rfl, rfl, by decide +kernel, by decide +kernel, by decide +kernel⟩,
   ⟨5, en (dsc 0xCA [0x10000]), reb, _, rebuilding reb (ns3 .rebuilding (ctl 0xCA [0x10000])), _, ⟨rfl, by decide +kernel⟩, by decide +kernel, rfl, by decide +kernel, by decide +kernel, by decide +kernel⟩,
   ⟨7, reb, rebuilding reb { stA 0x31 [0, 99, 1] with st := { (stA 0x31 [0, 99, 1]).st with ns := [(0, { ns0 with state := .rebuilding })] } }, by decide +kernel, by decide +kernel⟩,
   ⟨7, { reb with next := 0 }, _, _, rebuilding { reb with next := 0 } { sv with st := { sv.st with ns := [(0, { ns0 with state := .rebuilding, conf := leBytes 8 0x340000 ++ leBytes 8 4096 ++ leBytes 24 0 })] } }, by decide +kernel, by decide +kernel, rfl, rfl, by decide +kernel⟩,
   ⟨7, { reb with next := 0, rate := 1000 }, _, _, rebuilding { reb with next := 0, rate := 1000 } { sv with ticks := 1048576, st := { sv.st with ns := [(0, { ns0 with state := .rebuilding, conf := leBytes 8 0x340000 ++ leBytes 8 4096 ++ leBytes 24 0 })] } }, by decide +kernel, by decide +kernel, rfl, rfl, by decide +kernel, by decide +kernel⟩,
   ⟨7, reb, rebuilding reb (ns3 .rebuilding sv), _, by decide +kernel, by decide +kernel, rfl⟩,
   ⟨7, reb, [], rebuilding reb (ns3 .rebuilding sv), _, by decide +kernel, by decide +kernel, rfl⟩⟩

/-- Bays. -/
theorem witness_Bays :
    (∃ (b : Bay) (s : State), setupOpen s = true ∧ s.life.stage = 3 ∧ bayEnabled s b.val = true ∧ ((bayOf s b.val).state = .off ∨ (bayOf s b.val).state = .failed)) ∧
    (∃ (b : Bay) (s : State), setupOpen s = true ∧ bayEnabled s b.val = false) ∧
    (∃ (b : Bay) (s : State), setupOpen s = true ∧ s.life.stage = 3 ∧ bayEnabled s b.val = true ∧ offRefused s b.val = true) ∧
    (∃ (b : Bay) (s : State) (u : State), setupOpen s = true ∧ s.life.stage = 3 ∧ bayEnabled s b.val = true ∧ offRefused s b.val = false ∧ u = failOutstanding b.val (putB (MB_BAY_A b.val) 0 false s) ∧ (bayOf u b.val).state = .ready) ∧
    (∃ (b : Bay) (s : State), (bayOf s b.val).state = .powering) ∧
    (∃ (b : Bay) (s : State), (bayOf s b.val).state = .training) ∧
    (∃ (b : Bay) (s : State), (bayOf s b.val).state = .training) ∧
    (∃ (b : Bay) (s : State), (bayOf s b.val).state = .init) ∧
    (∃ (b : Bay) (s : State), (bayOf s b.val).state = .init) ∧
    (∃ (b : Bay) (s : State), (bayOf s b.val).state = .stopping) ∧
    (∃ (b : Bay) (p : PackIdent) (s : State) (u : State), (bayOf s b.val).state = .init ∧ p.ioQueues ≠ 0 ∧ u = emit (.lifePoll b) (putIdentity b.val p s)) ∧
    (∃ (b : Bay) (s : State), (bayOf s b.val).state = .ready) ∧
    (∃ (b : Bay) (s : State), (bayOf s b.val).state ≠ .ready) ∧
    (∃ (b : Bay) (s : State), (bayOf s b.val).present = false ∧ bayEnabled s b.val = true ∧ s.life.stage ≠ 0) ∧
    (∃ (b : Bay) (s : State), (bayOf s b.val).present = true ∧ bayEnabled s b.val = true ∧ s.life.stage ≠ 0) ∧
    (∃ (b : Bay) (p : Bool) (s : State), (bayOf s b.val).present = p) ∧
    (∃ (b : Bay) (s : State), bayEnabled s b.val = true ∧ s.life.stage ≠ 0) ∧
    (∃ (s : State), s.life.hkLoaded = false) ∧
    (∃ (b : Bay) (s : State), tabSorted none s.st.bays = true ∧ s.life.hkLoaded = true ∧ (bayOf s b.val).state = .ready ∧ (bayOf s b.val).pollDue < 1024 * (s.ticks + 1)) ∧
    (∃ (s : State), (∀ b < 4, pollIsDue s b = false)) ∧
    (∃ (b : Bay) (s : State) (u : State), (bayOf s b.val).polling = true ∧ (bayOf s b.val).state = .ready ∧ u = putBay b.val { bayOf s b.val with polling := false } s) ∧
    (∃ (b : Bay) (s : State), setupOpen s = true ∧ bayEnabled s b.val = true) ∧
    (∃ (s : State), tabSorted none s.st.bays = true) :=
  ⟨⟨3, bayS .off sv, by decide +kernel, by decide +kernel, by decide +kernel, by decide +kernel⟩,
   ⟨3, lv (fun l => { l with sensed := .none }), by decide +kernel, by decide +kernel⟩,
   ⟨3, ns3 .online sv, by decide +kernel, by decide +kernel, by decide +kernel, by decide +kernel⟩,
   ⟨3, bayS .ready sv, _, by decide +kernel, by decide +kernel, by decide +kernel, by decide +kernel, rfl, by decide +kernel⟩,
   ⟨3, bayS .powering sv, by decide +kernel⟩,
   ⟨3, bayS .training sv, by decide +kernel⟩,
   ⟨3, bayS .training sv, by decide +kernel⟩,
   ⟨3, bayS .init sv, by decide +kernel⟩,
   ⟨3, bayS .init sv, by decide +kernel⟩,
   ⟨3, bayS .stopping sv, by decide +kernel⟩,
   ⟨3, pack0, bayS .init sv, _, by decide +kernel, by decide +kernel, rfl⟩,
   ⟨3, bayS .ready sv, by decide +kernel⟩,
   ⟨3, sv, by decide +kernel⟩,
   ⟨3, sv, by decide +kernel, by decide +kernel, by decide +kernel⟩,
   ⟨3, bayS .ready sv, by decide +kernel, by decide +kernel, by decide +kernel⟩,
   ⟨3, false, sv, by decide +kernel⟩,
   ⟨3, sv, by decide +kernel, by decide +kernel⟩,
   ⟨.reset, by decide +kernel⟩,
   ⟨3, bayS .ready sv, by decide +kernel, by decide +kernel, by decide +kernel, by decide +kernel⟩,
   ⟨sv, by decide +kernel⟩,
   ⟨3, putBay 3 { BaySt.empty with state := .ready, polling := true } sv, _, by decide +kernel, by decide +kernel, rfl⟩,
   ⟨3, sv, by decide +kernel, by decide +kernel⟩,
   ⟨sv, by decide +kernel⟩⟩

/-- CommitGroups. -/
theorem witness_CommitGroups :
    (∃ (g : BitVec 16) (s : State), cgOf s g.toNat = none) ∧
    (∃ (g : BitVec 16) (x : Group) (s : State), cgOf s g.toNat = some x ∧ commitReady s g.toNat x = false) ∧
    (∃ (g : BitVec 16) (x : Group) (s : State), cgOf s g.toNat = some x ∧ commitReady s g.toNat x = true) ∧
    (∃ (g : BitVec 16) (x : Group) (u : State) (v : State) (s : State), cgOf s g.toNat = some x ∧ commitReady s g.toNat x = true ∧ x.reissue = false ∧ groupPls s g.toNat = [] ∧ (∀ y ∈ s.tab.shadows, y.group ≠ some g.toNat) ∧ u = addToken x.domain x.token s ∧ v = x.members.foldl (fun s m => match m.entry with | none => s | some (fn, fq, idx) => setPhase fn.toNat fq.toNat idx .past s) u) ∧
    (∃ (s : State), tabSorted none s.cg.tokens = true) ∧
    (∃ (cq : BitVec 20) (e : Entry) (s : State) (u : State), NextIs s 0 cq.toNat 0xEA e u ∧ adminQueue u cq.toNat = true ∧ groupSlot u (lef e.desc 0x10 0 13) (leWord e.desc 0x18) = none) ∧
    (∃ (cq : BitVec 20) (e : Entry) (g : Nat) (x : Group) (s : State) (u : State), NextIs s 0 cq.toNat 0xEA e u ∧ adminQueue u cq.toNat = true ∧ groupSlot u (lef e.desc 0x10 0 13) (leWord e.desc 0x18) = some (g, x) ∧ x.state ≠ .aborted) ∧
    (∃ (cq : BitVec 20) (e : Entry) (g : Nat) (x : Group) (s : State) (u : State), NextIs s 0 cq.toNat 0xEA e u ∧ adminQueue u cq.toNat = true ∧ groupSlot u (lef e.desc 0x10 0 13) (leWord e.desc 0x18) = some (g, x) ∧ x.state = .aborted ∧ x.core = none ∧ x.cancelling = none) ∧
    (∃ (v : BitVec 64) (s : State), setupOpen s = true ∧ tabSorted none s.regs = true ∧ rb s CG_CTRL 0 = true ∧ bit v 0 = false ∧ (s.cg.groups ≠ [] ∨ s.cg.jstate ≠ .closed)) ∧
    (∃ (v : BitVec 64) (s : State), setupOpen s = true ∧ tabSorted none s.regs = true ∧ rb s CG_CTRL 0 = false ∧ fld v 8 5 ≤ 26) ∧
    (∃ (g : BitVec 16) (x : Group) (s : State) (u : State), cgOf s g.toNat = some x ∧ x.state = .closed ∧ x.reissue = false ∧ holdsStorage x = true ∧ s.cg.jstate = .opened ∧ (∀ m ∈ x.members, m.staged = true) ∧ (∀ c ∈ groupCmds x, ∃ y, cmdOf s c = some y ∧ y.granted = true) ∧ logRoom s (groupRecord s x).length = true ∧ u = putCg g.toNat { x with state := .journal, seq := some s.cg.nextSeq } s) ∧
    (∃ (g : BitVec 16) (x : Group) (s : State), cgOf s g.toNat = some x ∧ x.state ≠ .closed) ∧
    (∃ (g : BitVec 16) (r : JRecord) (s : State), s.cg.records.find? (fun r => r.slot == g.toNat && liveRecord r && r.home.isEmpty && !r.lost && !retiring s r.seq) = some r ∧ s.cg.jstate = .opened ∧ logRoom s 4096 = true) ∧
    (∃ (s : State), s.cg.records = []) ∧
    (∃ (cq : BitVec 20) (m : JournalMedia) (e : Entry) (s : State) (u : State), NextIs s 0 cq.toNat 0xE8 e u ∧ adminQueue u cq.toNat = true ∧ journalCheck u e.desc m ≠ 0) ∧
    (∃ (cq : BitVec 20) (m : JournalMedia) (e : Entry) (s : State) (u : State), NextIs s 0 cq.toNat 0xE8 e u ∧ adminQueue u cq.toNat = true ∧ journalCheck u e.desc m = 0) ∧
    (∃ (cq : BitVec 20) (e : Entry) (s : State) (u : State), s.cg.closing = none ∧ NextIs s 0 cq.toNat 0xE9 e u ∧ adminQueue u cq.toNat = true ∧ u.cg.jstate ≠ .opened) ∧
    (∃ (cq : BitVec 20) (e : Entry) (s : State) (u : State) (v : State), s.cg.closing = none ∧ NextIs s 0 cq.toNat 0xE9 e u ∧ adminQueue u cq.toNat = true ∧ u.cg.jstate = .opened ∧ v = { u with cg := { u.cg with jstate := .closing, closing := some (cq, e.idx) } }) ∧
    (∃ (s : State), s.cg.jstate = .closing ∧ (∃ r ∈ s.cg.records, liveRecord r = true)) :=
  ⟨⟨65535, sv, by decide +kernel⟩,
   ⟨0, grp, grouped grp sv, by decide +kernel, by decide +kernel⟩,
   ⟨0, hostGrp .closed, grouped (hostGrp .closed) sv, by decide +kernel, by decide +kernel⟩,
   ⟨0, hostGrp .closed, _, _, grouped (hostGrp .closed) sv, by decide +kernel, by decide +kernel, by decide +kernel, by decide +kernel, by decide +kernel, rfl, rfl⟩,
   ⟨sv, by decide +kernel⟩,
   ⟨5, en (dsc 0xEA [1024, 5]), ctl 0xEA [1024, 5], _, ⟨rfl, by decide +kernel⟩, by decide +kernel, by decide +kernel⟩,
   ⟨5, en (dsc 0xEA [1024, 5]), 0, hostGrp .closed, grouped (hostGrp .closed) (ctl 0xEA [1024, 5]), _, ⟨rfl, by decide +kernel⟩, by decide +kernel, by decide +kernel, by decide +kernel⟩,
   ⟨5, en (dsc 0xEA [1024, 5]), 0, hostGrp .aborted, grouped (hostGrp .aborted) (ctl 0xEA [1024, 5]), _, ⟨rfl, by decide +kernel⟩, by decide +kernel, by decide +kernel, by decide +kernel, by decide +kernel, by decide +kernel⟩,
   ⟨0, rg CG_CTRL 1 (grouped grp sv), by decide +kernel, by decide +kernel, by decide +kernel, by decide +kernel, by decide +kernel⟩,
   ⟨0x1A00, sv, by decide +kernel, by decide +kernel, by decide +kernel, by decide +kernel⟩,
   ⟨0, jgrp, jourS, _, by decide +kernel, by decide +kernel, by decide +kernel, by decide +kernel, by decide +kernel, by decide +kernel, by intro c hc; rw [show groupCmds jgrp = [0] from rfl] at hc; cases List.mem_singleton.mp hc; exact ⟨jcmd, by decide +kernel, by decide +kernel⟩, by decide +kernel, rfl⟩,
   ⟨0, grp, grouped grp sv, by decide +kernel, by decide +kernel⟩,
   ⟨0, jrec, recS .opened, by decide +kernel, by decide +kernel, by decide +kernel⟩,
   ⟨sv, by decide +kernel⟩,
   ⟨5, .blank, en (dsc 0xE8 []), ctl 0xE8 [], _, ⟨rfl, by decide +kernel⟩, by decide +kernel, by decide +kernel⟩,
   ⟨5, .blank, en (dsc 0xE8 [0x100000003, 0, 4096]), rg CG_CTRL 1 (bayS .ready (ctl 0xE8 [0x100000003, 0, 4096])), _, ⟨rfl, by decide +kernel⟩, by decide +kernel, by decide +kernel⟩,
   ⟨5, en (dsc 0xE9 []), ctl 0xE9 [], _, by decide +kernel, ⟨rfl, by decide +kernel⟩, by decide +kernel, by decide +kernel⟩,
   ⟨5, en (dsc 0xE9 []), jour .opened (ctl 0xE9 []), _, _, by decide +kernel, ⟨rfl, by decide +kernel⟩, by decide +kernel, by decide +kernel, rfl⟩,
   ⟨recS .closing, by decide +kernel, by decide +kernel⟩⟩

theorem witness_StagesInOrder : ∃ (s : State) (t : State), step s = .next t :=
  ⟨sv, sv, rfl⟩

theorem witness_DlDownActsAsHotReset : ∃ (s : State), s.life.stage ≠ 0 :=
  ⟨sv, by decide +kernel⟩

/-- MemorySpaceOff. -/
theorem witness_MemorySpaceOff :
    (∃ (fn : Fn) (s : State), (cfgOf s fn.val).memSpace = false) ∧
    (∃ (fn : Fn) (s : State), (cfgOf s fn.val).memSpace = false) ∧
    (∃ (fn : Fn) (s : State), (cfgOf s fn.val).memSpace = false ∧ linkUp s = true ∧ fnPresent s fn.val = true) ∧
    (∃ (fn : Fn) (s : State), (cfgOf s fn.val).memSpace = false ∧ linkUp s = true ∧ fnPresent s fn.val = true) ∧
    (∃ (s : State), (cfgOf s 3).memSpace = false) ∧
    (∃ (s : State), (cfgOf s 3).memSpace = false ∧ linkUp s = true) ∧
    (∃ (s : State), (cfgOf s 0).memSpace = false) ∧
    (∃ (s : State), linkUp s = true) ∧
    (∃ (s : State), linkUp s = false) :=
  ⟨⟨3, cfgd (fun c => { c with memSpace := false }), by decide +kernel⟩,
   ⟨3, cfgd (fun c => { c with memSpace := false }), by decide +kernel⟩,
   ⟨3, cfgd (fun c => { c with memSpace := false }), by decide +kernel, by decide +kernel, by decide +kernel⟩,
   ⟨3, cfgd (fun c => { c with memSpace := false }), by decide +kernel, by decide +kernel, by decide +kernel⟩,
   ⟨cfgd (fun c => { c with memSpace := false }), by decide +kernel⟩,
   ⟨cfgd (fun c => { c with memSpace := false }), by decide +kernel, by decide +kernel⟩,
   ⟨cfgd (fun c => { c with memSpace := false }), by decide +kernel⟩,
   ⟨sv, by decide +kernel⟩,
   ⟨.reset, by decide +kernel⟩⟩

theorem witness_FuseSensing : ∃ (s : State), s.life.stage = 1 ∧ s.life.fusesSensed = false ∧ tabSorted none s.regs = true :=
  ⟨lv (fun l => { l with stage := 1, fusesSensed := false }), by decide +kernel, by decide +kernel, by decide +kernel⟩

/-- L1IdleTime. -/
theorem witness_L1IdleTime :
    (∃ (s : State), setupOpen s = true ∧ tabSorted none s.regs = true) ∧
    (∃ (s : State), s.link.idleTicks < l1Idle s) :=
  ⟨⟨sv, by decide +kernel, by decide +kernel⟩,
   ⟨rg HL_L1_CTRL 1 sv, by decide +kernel⟩⟩

theorem witness_StepKeepsLegal : ∃ (s : State) (t : State), s.legal ∧ step s = .next t :=
  ⟨sv, sv, by unfold State.legal State.memsWf State.stageLegal; decide +kernel, rfl⟩

end Sys2Proof.Tests.Slice0
end

section
/-! Every command advances the block as `Advances` says, and with it every step; the order of the stages (R35). -/
namespace Sys2Proof.Machine

/-- Every command answers a next state, and leaves the stage, raises it by one, or returns to stage 0 or 1 (R35). Only the
first three can raise the stage: `bootEnable`, `stage3Entry`, and the register write that carries boot_enable. -/
theorem exec_advances (c : Instr) (s : State) : AdvancesRes anyPart s (exec c s) := by
  cases c with
  | bootEnable => exact execBootEnable_advances s rfl
  | stage3Entry => exact execStage3Entry_advances s rfl
  | registerWrite fn off four v => exact execRegisterWrite_advances fn off four v s rfl
  | vddAonGood pb01 pb23 => exact KeepsRes.advances (execVddAonGood_keeps pb01 pb23 (.refl _ s) rfl)
  | plantReferenceStable => exact KeepsRes.advances (execPlantReferenceStable_keeps (.refl _ s) rfl)
  | bypassStart => exact KeepsRes.advances (execBypassStart_keeps (.refl _ s) rfl)
  | bypassFrame port frame fcsOk => exact KeepsRes.advances (execBypassFrame_keeps port frame fcsOk (.refl _ s) rfl)
  | vddAonLoss => exact KeepsRes.advances (execVddAonLoss_keeps (.refl _ s))
  | perstAssert => exact KeepsRes.advances (execPerstAssert_keeps (.refl _ s))
  | perstRelease => exact KeepsRes.advances (execPerstRelease_keeps (.refl _ s) rfl)
  | fuseSenseDone => exact KeepsRes.advances (execFuseSenseDone_keeps (.refl _ s) rfl)
  | bistDone fail => exact KeepsRes.advances (execBistDone_keeps fail (.refl _ s) rfl)
  | dramTrainDone failed => exact KeepsRes.advances (execDramTrainDone_keeps failed (.refl _ s) rfl)
  | stage1Done => exact KeepsRes.advances (execStage1Done_keeps (.refl _ s) rfl)
  | rrsPeriodEnd => exact KeepsRes.advances (execRrsPeriodEnd_keeps (.refl _ s) rfl)
  | configurationRequest fn off => exact KeepsRes.advances (execConfigurationRequest_keeps fn off (.refl _ s) rfl)
  | configWrite fn field v => exact KeepsRes.advances (execConfigWrite_keeps fn field v (.refl _ s) rfl)
  | goService => exact KeepsRes.advances (execGoService_keeps (.refl _ s) rfl)
  | bootDescriptorFetch d => exact KeepsRes.advances (execBootDescriptorFetch_keeps d (.refl _ s) rfl)
  | bootLoad img => exact KeepsRes.advances (execBootLoad_keeps img (.refl _ s) rfl)
  | bootFuse img => exact KeepsRes.advances (execBootFuse_keeps img (.refl _ s) rfl)
  | fuseLinkBurn verified => exact KeepsRes.advances (execFuseLinkBurn_keeps verified (.refl _ s) rfl)
  | hotReset => exact KeepsRes.advances (execHotReset_keeps (.refl _ s) rfl)
  | dlDown => exact KeepsRes.advances (execDlDown_keeps (.refl _ s) rfl)
  | flrPf0 => exact KeepsRes.advances (execFlrPf0_keeps (.refl _ s) rfl)
  | flr fn => exact KeepsRes.advances (execFlr_keeps fn (.refl _ s) rfl)
  | flrDone fn => exact KeepsRes.advances (execFlrDone_keeps fn (.refl _ s) rfl)
  | d3hotEntry fn => exact KeepsRes.advances (execD3hotEntry_keeps fn (.refl _ s) rfl)
  | d0Return fn => exact KeepsRes.advances (execD0Return_keeps fn (.refl _ s) rfl)
  | busMasterEnableClear fn => exact KeepsRes.advances (execBusMasterEnableClear_keeps fn (.refl _ s) rfl)
  | busMasterEnableSet fn => exact KeepsRes.advances (execBusMasterEnableSet_keeps fn (.refl _ s) rfl)
  | pasidEnableChange fn on => exact KeepsRes.advances (execPasidEnableChange_keeps fn on (.refl _ s) rfl)
  | linkTrain speed width flit => exact KeepsRes.advances (execLinkTrain_keeps speed width flit (.refl _ s) rfl)
  | badShapeAccess fn off access => exact KeepsRes.advances (execBadShapeAccess_keeps fn off access (.refl _ s) rfl)
  | peerWrite off data err => exact KeepsRes.advances (execPeerWrite_keeps off data err (.refl _ s) rfl)
  | peerRead off => exact KeepsRes.advances (execPeerRead_keeps off (.refl _ s) rfl)
  | pwCommit v => exact KeepsRes.advances (execPwCommit_keeps v (.refl _ s) rfl)
  | quiesce v => exact KeepsRes.advances (execQuiesce_keeps v (.refl _ s) rfl)
  | ptmTrigger cyc => exact KeepsRes.advances (execPtmTrigger_keeps cyc (.refl _ s) rfl)
  | ptmPeriod cyc => exact KeepsRes.advances (execPtmPeriod_keeps cyc (.refl _ s) rfl)
  | ptmResponse master prop cyc => exact KeepsRes.advances (execPtmResponse_keeps master prop cyc (.refl _ s) rfl)
  | ptmTimeout => exact KeepsRes.advances (execPtmTimeout_keeps (.refl _ s) rfl)
  | readCompletion fn epoch work r => exact KeepsRes.advances (execReadCompletion_keeps fn epoch work r (.refl _ s) rfl)
  | completionTimeout fn work => exact KeepsRes.advances (execCompletionTimeout_keeps fn work (.refl _ s) rfl)
  | l1Entry => exact KeepsRes.advances (execL1Entry_keeps (.refl _ s) rfl)
  | magicPacket port => exact KeepsRes.advances (execMagicPacket_keeps port (.refl _ s) rfl)
  | laneSignalChange port gain => exact KeepsRes.advances (execLaneSignalChange_keeps port gain (.refl _ s) rfl)
  | ppsInLoss => exact KeepsRes.advances (execPpsInLoss_keeps (.refl _ s) rfl)
  | cloveTick => exact KeepsRes.advances (execCloveTick_keeps (.refl _ s) rfl)
  | paceWindow completions => exact KeepsRes.advances (execPaceWindow_keeps completions (.refl _ s) rfl)
  | clearExtremes => exact KeepsRes.advances (execClearExtremes_keeps (.refl _ s) rfl)
  | temp sensor => exact KeepsRes.advances (execTemp_keeps sensor (.refl _ s) rfl)
  | vcore => exact KeepsRes.advances (execVcore_keeps (.refl _ s) rfl)
  | thermTrip => exact KeepsRes.advances (execThermTrip_keeps (.refl _ s) rfl)
  | hint fn page chunk bytes intakeFull => exact KeepsRes.advances (execHint_keeps fn page chunk bytes intakeFull (.refl _ s) rfl)
  | doorbellRecordReturn fn fq r => exact KeepsRes.advances (execDoorbellRecordReturn_keeps fn fq r (.refl _ s) rfl)
  | sweep fn inst => exact KeepsRes.advances (execSweep_keeps fn inst (.refl _ s) rfl)
  | descriptorFetch fn fq r ecc => exact KeepsRes.advances (execDescriptorFetch_keeps fn fq r ecc (.refl _ s) rfl)
  | completionBatch fn fq => exact KeepsRes.advances (execCompletionBatch_keeps fn fq (.refl _ s) rfl)
  | nop fn fq => exact KeepsRes.advances (execNop_keeps fn fq (.refl _ s) rfl)
  | countDelta fn fq => exact KeepsRes.advances (execCountDelta_keeps fn fq (.refl _ s) rfl)
  | queueConfig cq => exact KeepsRes.advances (execQueueConfig_keeps cq (.refl _ s) rfl)
  | queueEnable cq => exact KeepsRes.advances (execQueueEnable_keeps cq (.refl _ s) rfl)
  | queueDisable cq => exact KeepsRes.advances (execQueueDisable_keeps cq (.refl _ s) rfl)
  | disableDone fn fq => exact KeepsRes.advances (execDisableDone_keeps fn fq (.refl _ s) rfl)
  | queueResume cq => exact KeepsRes.advances (execQueueResume_keeps cq (.refl _ s) rfl)
  | evqConfig cq => exact KeepsRes.advances (execEvqConfig_keeps cq (.refl _ s) rfl)
  | qeCtlEnable => exact KeepsRes.advances (execQeCtlEnable_keeps (.refl _ s) rfl)
  | qeCtlDisable => exact KeepsRes.advances (execQeCtlDisable_keeps (.refl _ s) rfl)
  | consumerRecordReturn fn fevq r => exact KeepsRes.advances (execConsumerRecordReturn_keeps fn fevq r (.refl _ s) rfl)
  | overflowReread fn fevq => exact KeepsRes.advances (execOverflowReread_keeps fn fevq (.refl _ s) rfl)
  | interruptMessage g => exact KeepsRes.advances (execInterruptMessage_keeps g (.refl _ s) rfl)
  | instEnable cq => exact KeepsRes.advances (execInstEnable_keeps cq (.refl _ s) rfl)
  | instDisable cq => exact KeepsRes.advances (execInstDisable_keeps cq (.refl _ s) rfl)
  | instReset cq => exact KeepsRes.advances (execInstReset_keeps cq (.refl _ s) rfl)
  | dlogEpoch cq => exact KeepsRes.advances (execDlogEpoch_keeps cq (.refl _ s) rfl)
  | drainComplete fn inst => exact KeepsRes.advances (execDrainComplete_keeps fn inst (.refl _ s) rfl)
  | fnShareWrite fn v => exact KeepsRes.advances (execFnShareWrite_keeps fn v (.refl _ s) rfl)
  | instRegisterWrite fn inst wordB v => exact KeepsRes.advances (execInstRegisterWrite_keeps fn inst wordB v (.refl _ s) rfl)
  | npModeWrite v => exact KeepsRes.advances (execNpModeWrite_keeps v (.refl _ s) rfl)
  | networkFrameReceive port frame fcsOk overflow cyc => exact KeepsRes.advances (execNetworkFrameReceive_keeps port frame fcsOk overflow cyc (.refl _ s) rfl)
  | networkLinkUp port => exact KeepsRes.advances (execNetworkLinkUp_keeps port (.refl _ s) rfl)
  | deal pl => exact KeepsRes.advances (execDeal_keeps pl (.refl _ s) rfl)
  | parseNop pl unit err => exact KeepsRes.advances (execParseNop_keeps pl unit err (.refl _ s) rfl)
  | parseMov pl unit err => exact KeepsRes.advances (execParseMov_keeps pl unit err (.refl _ s) rfl)
  | parseAdd pl unit err => exact KeepsRes.advances (execParseAdd_keeps pl unit err (.refl _ s) rfl)
  | parseSub pl unit err => exact KeepsRes.advances (execParseSub_keeps pl unit err (.refl _ s) rfl)
  | parseAnd pl unit err => exact KeepsRes.advances (execParseAnd_keeps pl unit err (.refl _ s) rfl)
  | parseOr pl unit err => exact KeepsRes.advances (execParseOr_keeps pl unit err (.refl _ s) rfl)
  | parseXor pl unit err => exact KeepsRes.advances (execParseXor_keeps pl unit err (.refl _ s) rfl)
  | parseShl pl unit err => exact KeepsRes.advances (execParseShl_keeps pl unit err (.refl _ s) rfl)
  | parseShr pl unit err => exact KeepsRes.advances (execParseShr_keeps pl unit err (.refl _ s) rfl)
  | parseCmpeq pl unit err => exact KeepsRes.advances (execParseCmpeq_keeps pl unit err (.refl _ s) rfl)
  | parseCmplt pl unit err => exact KeepsRes.advances (execParseCmplt_keeps pl unit err (.refl _ s) rfl)
  | parseTest pl unit err => exact KeepsRes.advances (execParseTest_keeps pl unit err (.refl _ s) rfl)
  | parseRange pl unit err => exact KeepsRes.advances (execParseRange_keeps pl unit err (.refl _ s) rfl)
  | parseAdvance pl unit err => exact KeepsRes.advances (execParseAdvance_keeps pl unit err (.refl _ s) rfl)
  | parseSetcur pl unit err => exact KeepsRes.advances (execParseSetcur_keeps pl unit err (.refl _ s) rfl)
  | parseMark pl unit err => exact KeepsRes.advances (execParseMark_keeps pl unit err (.refl _ s) rfl)
  | parseTag pl unit err => exact KeepsRes.advances (execParseTag_keeps pl unit err (.refl _ s) rfl)
  | parseTunnel pl unit err => exact KeepsRes.advances (execParseTunnel_keeps pl unit err (.refl _ s) rfl)
  | parseEmit pl unit err => exact KeepsRes.advances (execParseEmit_keeps pl unit err (.refl _ s) rfl)
  | parseSetf pl unit err => exact KeepsRes.advances (execParseSetf_keeps pl unit err (.refl _ s) rfl)
  | parseCsum pl unit err => exact KeepsRes.advances (execParseCsum_keeps pl unit err (.refl _ s) rfl)
  | parseHash pl unit err => exact KeepsRes.advances (execParseHash_keeps pl unit err (.refl _ s) rfl)
  | parseMalf pl unit err => exact KeepsRes.advances (execParseMalf_keeps pl unit err (.refl _ s) rfl)
  | stepLimit pl unit => exact KeepsRes.advances (execStepLimit_keeps pl unit (.refl _ s) rfl)
  | reorderRelease pl src => exact KeepsRes.advances (execReorderRelease_keeps pl src (.refl _ s) rfl)
  | classifyStage pl frame err => exact KeepsRes.advances (execClassifyStage_keeps pl frame err (.refl _ s) rfl)
  | headerEdit pl frame => exact KeepsRes.advances (execHeaderEdit_keeps pl frame (.refl _ s) rfl)
  | epochFlip pl => exact KeepsRes.advances (execEpochFlip_keeps pl (.refl _ s) rfl)
  | actWrite cq => exact KeepsRes.advances (execActWrite_keeps cq (.refl _ s) rfl)
  | jtNodeWrite cq r => exact KeepsRes.advances (execJtNodeWrite_keeps cq r (.refl _ s) rfl)
  | jtRuleWrite cq r => exact KeepsRes.advances (execJtRuleWrite_keeps cq r (.refl _ s) rfl)
  | jtRootWrite cq => exact KeepsRes.advances (execJtRootWrite_keeps cq (.refl _ s) rfl)
  | dirWrite cq => exact KeepsRes.advances (execDirWrite_keeps cq (.refl _ s) rfl)
  | staWrite cq => exact KeepsRes.advances (execStaWrite_keeps cq (.refl _ s) rfl)
  | lpmWrite cq => exact KeepsRes.advances (execLpmWrite_keeps cq (.refl _ s) rfl)
  | staFlush cq => exact KeepsRes.advances (execStaFlush_keeps cq (.refl _ s) rfl)
  | hashSeedWrite pl v => exact KeepsRes.advances (execHashSeedWrite_keeps pl v (.refl _ s) rfl)
  | learnRequest pl => exact KeepsRes.advances (execLearnRequest_keeps pl (.refl _ s) rfl)
  | learnApply pl => exact KeepsRes.advances (execLearnApply_keeps pl (.refl _ s) rfl)
  | ageTick pl => exact KeepsRes.advances (execAgeTick_keeps pl (.refl _ s) rfl)
  | txSend fn fq r => exact KeepsRes.advances (execTxSend_keeps fn fq r (.refl _ s) rfl)
  | txLaunch fn fq r => exact KeepsRes.advances (execTxLaunch_keeps fn fq r (.refl _ s) rfl)
  | txPipe fn fq r => exact KeepsRes.advances (execTxPipe_keeps fn fq r (.refl _ s) rfl)
  | rxBuf fn fq => exact KeepsRes.advances (execRxBuf_keeps fn fq (.refl _ s) rfl)
  | rxDeliver fn fq ecc => exact KeepsRes.advances (execRxDeliver_keeps fn fq ecc (.refl _ s) rfl)
  | spillReturn leaf => exact KeepsRes.advances (execSpillReturn_keeps leaf (.refl _ s) rfl)
  | scheduleChoice port err cyc => exact KeepsRes.advances (execScheduleChoice_keeps port err cyc (.refl _ s) rfl)
  | bucketSweep b => exact KeepsRes.advances (execBucketSweep_keeps b (.refl _ s) rfl)
  | pfcRefresh port k => exact KeepsRes.advances (execPfcRefresh_keeps port k (.refl _ s) rfl)
  | pfcXon port k => exact KeepsRes.advances (execPfcXon_keeps port k (.refl _ s) rfl)
  | pfcReceive port prios quanta => exact KeepsRes.advances (execPfcReceive_keeps port prios quanta (.refl _ s) rfl)
  | pfcPauseExpiry port k => exact KeepsRes.advances (execPfcPauseExpiry_keeps port k (.refl _ s) rfl)
  | tmLeafWrite cq => exact KeepsRes.advances (execTmLeafWrite_keeps cq (.refl _ s) rfl)
  | tmGroupWrite cq => exact KeepsRes.advances (execTmGroupWrite_keeps cq (.refl _ s) rfl)
  | tmClassWrite cq => exact KeepsRes.advances (execTmClassWrite_keeps cq (.refl _ s) rfl)
  | tmMeterWrite cq => exact KeepsRes.advances (execTmMeterWrite_keeps cq (.refl _ s) rfl)
  | bufCtrlWrite v => exact KeepsRes.advances (execBufCtrlWrite_keeps v (.refl _ s) rfl)
  | plantFrameReceive port frame overflow cyc => exact KeepsRes.advances (execPlantFrameReceive_keeps port frame overflow cyc (.refl _ s) rfl)
  | plantRelease port ecc => exact KeepsRes.advances (execPlantRelease_keeps port ecc (.refl _ s) rfl)
  | plantFrameEnd port fcsOk cyc => exact KeepsRes.advances (execPlantFrameEnd_keeps port fcsOk cyc (.refl _ s) rfl)
  | streamWrite cq => exact KeepsRes.advances (execStreamWrite_keeps cq (.refl _ s) rfl)
  | gateIntervalEnd blk => exact KeepsRes.advances (execGateIntervalEnd_keeps blk (.refl _ s) rfl)
  | cycleStart blk => exact KeepsRes.advances (execCycleStart_keeps blk (.refl _ s) rfl)
  | scheduleChange blk cyc => exact KeepsRes.advances (execScheduleChange_keeps blk cyc (.refl _ s) rfl)
  | scheduleSwitch blk => exact KeepsRes.advances (execScheduleSwitch_keeps blk (.refl _ s) rfl)
  | launchEligible leaf => exact KeepsRes.advances (execLaunchEligible_keeps leaf (.refl _ s) rfl)
  | launchLate leaf => exact KeepsRes.advances (execLaunchLate_keeps leaf (.refl _ s) rfl)
  | ckStep v cyc => exact KeepsRes.advances (execCkStep_keeps v cyc (.refl _ s) rfl)
  | timeLatch cyc => exact KeepsRes.advances (execTimeLatch_keeps cyc (.refl _ s) rfl)
  | cloveRef => exact KeepsRes.advances (execCloveRef_keeps (.refl _ s) rfl)
  | ppsOutEdge => exact KeepsRes.advances (execPpsOutEdge_keeps (.refl _ s) rfl)
  | ppsInEdge cyc => exact KeepsRes.advances (execPpsInEdge_keeps cyc (.refl _ s) rfl)
  | arm pair cyc => exact KeepsRes.advances (execArm_keeps pair cyc (.refl _ s) rfl)
  | disarm pair => exact KeepsRes.advances (execDisarm_keeps pair (.refl _ s) rfl)
  | release pair cyc => exact KeepsRes.advances (execRelease_keeps pair cyc (.refl _ s) rfl)
  | takeoverTime pair => exact KeepsRes.advances (execTakeoverTime_keeps pair (.refl _ s) rfl)
  | pairTaken pair cyc => exact KeepsRes.advances (execPairTaken_keeps pair cyc (.refl _ s) rfl)
  | rxImageFlip port => exact KeepsRes.advances (execRxImageFlip_keeps port (.refl _ s) rfl)
  | imgPut fq r seqBefore seqAfter => exact KeepsRes.advances (execImgPut_keeps fq r seqBefore seqAfter (.refl _ s) rfl)
  | imgGet fq flipped back => exact KeepsRes.advances (execImgGet_keeps fq flipped back (.refl _ s) rfl)
  | igCtrlWrite v => exact KeepsRes.advances (execIgCtrlWrite_keeps v (.refl _ s) rfl)
  | ctxWrite cq r => exact KeepsRes.advances (execCtxWrite_keeps cq r (.refl _ s) rfl)
  | ctxClear cq => exact KeepsRes.advances (execCtxClear_keeps cq (.refl _ s) rfl)
  | contextFill g ecc => exact KeepsRes.advances (execContextFill_keeps g ecc (.refl _ s) rfl)
  | cxCtrlWrite v => exact KeepsRes.advances (execCxCtrlWrite_keeps v (.refl _ s) rfl)
  | msgPost fn fq => exact KeepsRes.advances (execMsgPost_keeps fn fq (.refl _ s) rfl)
  | mailboxDelivery core mbox => exact KeepsRes.advances (execMailboxDelivery_keeps core mbox (.refl _ s) rfl)
  | turnLimit core => exact KeepsRes.advances (execTurnLimit_keeps core (.refl _ s) rfl)
  | longStallEnd core t => exact KeepsRes.advances (execLongStallEnd_keeps core t (.refl _ s) rfl)
  | threadSwitch core => exact KeepsRes.advances (execThreadSwitch_keeps core (.refl _ s) rfl)
  | fcAdd core t err => exact KeepsRes.advances (execFcAdd_keeps core t err (.refl _ s) rfl)
  | fcSub core t err => exact KeepsRes.advances (execFcSub_keeps core t err (.refl _ s) rfl)
  | fcAnd core t err => exact KeepsRes.advances (execFcAnd_keeps core t err (.refl _ s) rfl)
  | fcOr core t err => exact KeepsRes.advances (execFcOr_keeps core t err (.refl _ s) rfl)
  | fcXor core t err => exact KeepsRes.advances (execFcXor_keeps core t err (.refl _ s) rfl)
  | fcShl core t err => exact KeepsRes.advances (execFcShl_keeps core t err (.refl _ s) rfl)
  | fcShr core t err => exact KeepsRes.advances (execFcShr_keeps core t err (.refl _ s) rfl)
  | fcSar core t err => exact KeepsRes.advances (execFcSar_keeps core t err (.refl _ s) rfl)
  | fcSeq core t err => exact KeepsRes.advances (execFcSeq_keeps core t err (.refl _ s) rfl)
  | fcSlt core t err => exact KeepsRes.advances (execFcSlt_keeps core t err (.refl _ s) rfl)
  | fcSltu core t err => exact KeepsRes.advances (execFcSltu_keeps core t err (.refl _ s) rfl)
  | fcMul core t err => exact KeepsRes.advances (execFcMul_keeps core t err (.refl _ s) rfl)
  | fcMulhu core t err => exact KeepsRes.advances (execFcMulhu_keeps core t err (.refl _ s) rfl)
  | fcDstep core t err => exact KeepsRes.advances (execFcDstep_keeps core t err (.refl _ s) rfl)
  | fcSltu128 core t err => exact KeepsRes.advances (execFcSltu128_keeps core t err (.refl _ s) rfl)
  | fcClz core t err => exact KeepsRes.advances (execFcClz_keeps core t err (.refl _ s) rfl)
  | fcPopc core t err => exact KeepsRes.advances (execFcPopc_keeps core t err (.refl _ s) rfl)
  | fcBswap core t err => exact KeepsRes.advances (execFcBswap_keeps core t err (.refl _ s) rfl)
  | fcAddi core t err => exact KeepsRes.advances (execFcAddi_keeps core t err (.refl _ s) rfl)
  | fcAndi core t err => exact KeepsRes.advances (execFcAndi_keeps core t err (.refl _ s) rfl)
  | fcOri core t err => exact KeepsRes.advances (execFcOri_keeps core t err (.refl _ s) rfl)
  | fcXori core t err => exact KeepsRes.advances (execFcXori_keeps core t err (.refl _ s) rfl)
  | fcShli core t err => exact KeepsRes.advances (execFcShli_keeps core t err (.refl _ s) rfl)
  | fcShri core t err => exact KeepsRes.advances (execFcShri_keeps core t err (.refl _ s) rfl)
  | fcSari core t err => exact KeepsRes.advances (execFcSari_keeps core t err (.refl _ s) rfl)
  | fcSeqi core t err => exact KeepsRes.advances (execFcSeqi_keeps core t err (.refl _ s) rfl)
  | fcSlti core t err => exact KeepsRes.advances (execFcSlti_keeps core t err (.refl _ s) rfl)
  | fcSltui core t err => exact KeepsRes.advances (execFcSltui_keeps core t err (.refl _ s) rfl)
  | fcExtu core t err => exact KeepsRes.advances (execFcExtu_keeps core t err (.refl _ s) rfl)
  | fcMovi core t err => exact KeepsRes.advances (execFcMovi_keeps core t err (.refl _ s) rfl)
  | fcLim core t err => exact KeepsRes.advances (execFcLim_keeps core t err (.refl _ s) rfl)
  | fcLd core t err => exact KeepsRes.advances (execFcLd_keeps core t err (.refl _ s) rfl)
  | fcSt core t err => exact KeepsRes.advances (execFcSt_keeps core t err (.refl _ s) rfl)
  | fcSwap core t err => exact KeepsRes.advances (execFcSwap_keeps core t err (.refl _ s) rfl)
  | fcFadd core t err => exact KeepsRes.advances (execFcFadd_keeps core t err (.refl _ s) rfl)
  | fcCas core t err => exact KeepsRes.advances (execFcCas_keeps core t err (.refl _ s) rfl)
  | fcBc core t err => exact KeepsRes.advances (execFcBc_keeps core t err (.refl _ s) rfl)
  | fcJal core t err => exact KeepsRes.advances (execFcJal_keeps core t err (.refl _ s) rfl)
  | fcJr core t err => exact KeepsRes.advances (execFcJr_keeps core t err (.refl _ s) rfl)
  | fcClaim core t err => exact KeepsRes.advances (execFcClaim_keeps core t err (.refl _ s) rfl)
  | fcPut core t err => exact KeepsRes.advances (execFcPut_keeps core t err (.refl _ s) rfl)
  | fcSend core t err => exact KeepsRes.advances (execFcSend_keeps core t err (.refl _ s) rfl)
  | fcRecv core t err => exact KeepsRes.advances (execFcRecv_keeps core t err (.refl _ s) rfl)
  | fcPoll core t err => exact KeepsRes.advances (execFcPoll_keeps core t err (.refl _ s) rfl)
  | fcHalt core t err => exact KeepsRes.advances (execFcHalt_keeps core t err (.refl _ s) rfl)
  | fcWait core t err => exact KeepsRes.advances (execFcWait_keeps core t err (.refl _ s) rfl)
  | fcTime core t err => exact KeepsRes.advances (execFcTime_keeps core t err (.refl _ s) rfl)
  | fcTick core t err => exact KeepsRes.advances (execFcTick_keeps core t err (.refl _ s) rfl)
  | fcTid core t err => exact KeepsRes.advances (execFcTid_keeps core t err (.refl _ s) rfl)
  | fcYield core t err => exact KeepsRes.advances (execFcYield_keeps core t err (.refl _ s) rfl)
  | fcBkpt core t err => exact KeepsRes.advances (execFcBkpt_keeps core t err (.refl _ s) rfl)
  | fcFault core t err => exact KeepsRes.advances (execFcFault_keeps core t err (.refl _ s) rfl)
  | dmaRd core t r err => exact KeepsRes.advances (execDmaRd_keeps core t r err (.refl _ s) rfl)
  | dmaWr core t err => exact KeepsRes.advances (execDmaWr_keeps core t err (.refl _ s) rfl)
  | pktRead core t err => exact KeepsRes.advances (execPktRead_keeps core t err (.refl _ s) rfl)
  | pktWrite core t err => exact KeepsRes.advances (execPktWrite_keeps core t err (.refl _ s) rfl)
  | pktSend core t err => exact KeepsRes.advances (execPktSend_keeps core t err (.refl _ s) rfl)
  | pktFree core t err => exact KeepsRes.advances (execPktFree_keeps core t err (.refl _ s) rfl)
  | pktNew core t err => exact KeepsRes.advances (execPktNew_keeps core t err (.refl _ s) rfl)
  | lookup core t err => exact KeepsRes.advances (execLookup_keeps core t err (.refl _ s) rfl)
  | crypt core t err => exact KeepsRes.advances (execCrypt_keeps core t err (.refl _ s) rfl)
  | count core t err => exact KeepsRes.advances (execCount_keeps core t err (.refl _ s) rfl)
  | gopen core t err => exact KeepsRes.advances (execGopen_keeps core t err (.refl _ s) rfl)
  | gjoin core t err => exact KeepsRes.advances (execGjoin_keeps core t err (.refl _ s) rfl)
  | gclose core t err => exact KeepsRes.advances (execGclose_keeps core t err (.refl _ s) rfl)
  | kill core t => exact KeepsRes.advances (execKill_keeps core t (.refl _ s) rfl)
  | start core t => exact KeepsRes.advances (execStart_keeps core t (.refl _ s) rfl)
  | coreHalt core => exact KeepsRes.advances (execCoreHalt_keeps core (.refl _ s) rfl)
  | thaw core => exact KeepsRes.advances (execThaw_keeps core (.refl _ s) rfl)
  | stop core t => exact KeepsRes.advances (execStop_keeps core t (.refl _ s) rfl)
  | resume core t => exact KeepsRes.advances (execResume_keeps core t (.refl _ s) rfl)
  | debugStep core t => exact KeepsRes.advances (execDebugStep_keeps core t (.refl _ s) rfl)
  | closedWait core => exact KeepsRes.advances (execClosedWait_keeps core (.refl _ s) rfl)
  | hkHeartbeat => exact KeepsRes.advances (execHkHeartbeat_keeps (.refl _ s) rfl)
  | stRead fq idx sgl => exact KeepsRes.advances (execStRead_keeps fq idx sgl (.refl _ s) rfl)
  | stWrite fq idx sgl r => exact KeepsRes.advances (execStWrite_keeps fq idx sgl r (.refl _ s) rfl)
  | stFlush fq idx => exact KeepsRes.advances (execStFlush_keeps fq idx (.refl _ s) rfl)
  | stZero fq idx => exact KeepsRes.advances (execStZero_keeps fq idx (.refl _ s) rfl)
  | stTrim fq idx => exact KeepsRes.advances (execStTrim_keeps fq idx (.refl _ s) rfl)
  | stCmpwrite fq idx cmp r => exact KeepsRes.advances (execStCmpwrite_keeps fq idx cmp r (.refl _ s) rfl)
  | nsConfig cq => exact KeepsRes.advances (execNsConfig_keeps cq (.refl _ s) rfl)
  | stElogConfig cq => exact KeepsRes.advances (execStElogConfig_keeps cq (.refl _ s) rfl)
  | admission => exact KeepsRes.advances (execAdmission_keeps (.refl _ s) rfl)
  | lockGrant cmd => exact KeepsRes.advances (execLockGrant_keeps cmd (.refl _ s) rfl)
  | packCompletion bay cid sf data failLba => exact KeepsRes.advances (execPackCompletion_keeps bay cid sf data failLba (.refl _ s) rfl)
  | bayPowerOn bay => exact KeepsRes.advances (execBayPowerOn_keeps bay (.refl _ s) rfl)
  | bayPowerOff bay force => exact KeepsRes.advances (execBayPowerOff_keeps bay force (.refl _ s) rfl)
  | presenceChange bay present => exact KeepsRes.advances (execPresenceChange_keeps bay present (.refl _ s) rfl)
  | powerSettle bay => exact KeepsRes.advances (execPowerSettle_keeps bay (.refl _ s) rfl)
  | bayLinkUp bay speed width => exact KeepsRes.advances (execBayLinkUp_keeps bay speed width (.refl _ s) rfl)
  | bayTrainingTimeout bay => exact KeepsRes.advances (execBayTrainingTimeout_keeps bay (.refl _ s) rfl)
  | bayInitDone bay ident => exact KeepsRes.advances (execBayInitDone_keeps bay ident (.refl _ s) rfl)
  | bayReadyTimeout bay => exact KeepsRes.advances (execBayReadyTimeout_keeps bay (.refl _ s) rfl)
  | packFailure bay cfs => exact KeepsRes.advances (execPackFailure_keeps bay cfs (.refl _ s) rfl)
  | shutdownComplete bay => exact KeepsRes.advances (execShutdownComplete_keeps bay (.refl _ s) rfl)
  | attentionButton bay => exact KeepsRes.advances (execAttentionButton_keeps bay (.refl _ s) rfl)
  | lifePoll => exact KeepsRes.advances (execLifePoll_keeps (.refl _ s) rfl)
  | pollAnswer bay ok pct crit => exact KeepsRes.advances (execPollAnswer_keeps bay ok pct crit (.refl _ s) rfl)
  | lifeThresholdWrite bay warn ro => exact KeepsRes.advances (execLifeThresholdWrite_keeps bay warn ro (.refl _ s) rfl)
  | nsRebuild cq => exact KeepsRes.advances (execNsRebuild_keeps cq (.refl _ s) rfl)
  | rebuildChunk slot res => exact KeepsRes.advances (execRebuildChunk_keeps slot res (.refl _ s) rfl)
  | commitPoint slot => exact KeepsRes.advances (execCommitPoint_keeps slot (.refl _ s) rfl)
  | journalSubmit slot => exact KeepsRes.advances (execJournalSubmit_keeps slot (.refl _ s) rfl)
  | retireAppend slot => exact KeepsRes.advances (execRetireAppend_keeps slot (.refl _ s) rfl)
  | journalOpen cq media => exact KeepsRes.advances (execJournalOpen_keeps cq media (.refl _ s) rfl)
  | journalClose cq => exact KeepsRes.advances (execJournalClose_keeps cq (.refl _ s) rfl)
  | cgDiscard cq => exact KeepsRes.advances (execCgDiscard_keeps cq (.refl _ s) rfl)
  | cgCtrlWrite v => exact KeepsRes.advances (execCgCtrlWrite_keeps v (.refl _ s) rfl)
  | snapshot n cyc => exact KeepsRes.advances (execSnapshot_keeps n cyc (.refl _ s) rfl)
  | windowRead w => exact KeepsRes.advances (execWindowRead_keeps w (.refl _ s) rfl)
  | windowWrite w => exact KeepsRes.advances (execWindowWrite_keeps w (.refl _ s) rfl)
  | mctpMessage kind body => exact KeepsRes.advances (execMctpMessage_keeps kind body (.refl _ s) rfl)
  | jtagInstruction x => exact KeepsRes.advances (execJtagInstruction_keeps x (.refl _ s) rfl)
  | networkLinkDown port => exact KeepsRes.advances (execNetworkLinkDown_keeps port (.refl _ s) rfl)
  | plantLinkUp port => exact KeepsRes.advances (execPlantLinkUp_keeps port (.refl _ s) rfl)
  | plantLinkDown port => exact KeepsRes.advances (execPlantLinkDown_keeps port (.refl _ s) rfl)
  | tempSensorRead die stack0 stack1 => exact KeepsRes.advances (execTempSensorRead_keeps die stack0 stack1 (.refl _ s) rfl)
  | vppFuseChange inWindow => exact KeepsRes.advances (execVppFuseChange_keeps inWindow (.refl _ s) rfl)
  | plantReferenceLoss => exact KeepsRes.advances (execPlantReferenceLoss_keeps (.refl _ s) rfl)

/-- A step that answers a next state idles on an empty queue, or is the front command's advance. -/
theorem step_cases {s t : State} (h : step s = .next t) :
    t = s ∨ ∃ c rest, s.pending = c :: rest ∧ Advances anyPart { s with pending := rest } t := by
  unfold step at h
  split at h
  · exact .inl (Host.Outcome.next.inj h).symm
  · next c rest hp =>
    obtain ⟨u, hu, hadv⟩ := exec_advances c { s with pending := rest }
    obtain rfl := Host.Outcome.next.inj (hu.symm.trans h)
    exact .inr ⟨c, rest, hp, hadv⟩

/-- Settles O54: an idle step keeps the stage, and a command's step moves it as its advance says. -/
theorem stagesInOrder : Obligations.StagesInOrder := by
  unfold Obligations.StagesInOrder
  intro s t h
  obtain rfl | ⟨c, rest, -, hadv⟩ := step_cases h
  · exact .inl rfl
  · exact hadv.stage

end Sys2Proof.Machine
end

section
/-! Fuse sensing: the vote on three copies, the count of the bits on which they disagree, and the correctable fault (R50). -/
namespace Sys2Proof.Machine

/-! ### The vote on three copies -/

/-- A bit of the majority is the vote of the three bits. -/
theorem majority_getLsbD {n : Nat} (a b c : BitVec n) (i : Nat) : (majority a b c).getLsbD i =
    ((a.getLsbD i && b.getLsbD i) || (a.getLsbD i && c.getLsbD i) || (b.getLsbD i && c.getLsbD i)) := by
  simp only [majority, BitVec.getLsbD_or, BitVec.getLsbD_and]

/-- Three bits differ where the first differs from one of the others. -/
theorem xor_or_xor_eq_not_all_equal (x y z : Bool) : ((x ^^ y) || (x ^^ z)) = !(x == y && x == z) := by
  cases x <;> cases y <;> cases z <;> rfl

/-- The count of disagreeing bits is the number of places where the three bits are not all equal. -/
theorem disagree_eq_length_filter {n : Nat} (a b c : BitVec n) : disagree a b c =
    ((List.range n).filter (fun i => !(a.getLsbD i == b.getLsbD i && a.getLsbD i == c.getLsbD i))).length := by
  simp only [disagree, popcount, BitVec.getLsbD_or, BitVec.getLsbD_xor, xor_or_xor_eq_not_all_equal]

/-! ### What a counted error leaves of configuration space and of other registers -/

/-- Neither a signalled vector nor a log entry writes configuration space. -/
@[simp] theorem signalMsix_cfg (fn : Fn) (v : Nat) (s : State) : (signalMsix fn v s).link.cfg = s.link.cfg := by
  unfold signalMsix; split
  · split <;> rfl
  · rfl

@[simp] theorem signalLog_cfg (s : State) : (signalLog s).link.cfg = s.link.cfg := by
  unfold signalLog; extract_lets hold due; split
  · exact signalMsix_cfg ..
  · rfl

@[simp] theorem postLogAt_cfg (c k b : Nat) (x y z : Word) (s : State) :
    (postLogAt c k b x y z s).link.cfg = s.link.cfg := by
  simp only [postLogAt, signalLog_cfg, putReg_leaves]

@[simp] theorem addErrAt_cfg (o lo n : Nat) (s : State) : (addErrAt o lo n s).link.cfg = s.link.cfg := by
  unfold addErrAt; simp only; split
  · exact postLogAt_cfg ..
  · rfl

@[simp] theorem signalLog_regs (s : State) : (signalLog s).regs = s.regs := by
  obtain ⟨l, o, h⟩ := signalLog_frame s
  rw [h]

/-- A log entry leaves the registers below the log's. -/
theorem getReg_postLogAt_below {s : State} (hs : tabSorted none s.regs = true) {o : Nat} (ho : o < FX_LOG_SEQ)
    (c k b : Nat) (x y z : Word) : getReg (postLogAt c k b x y z s) o = getReg s o := by
  have hseq : FX_LOG_SEQ = 0x180008 := rfl
  have hentry : ∀ m j, o ≠ FX_LOG_ENTRY m j := fun m j => by unfold FX_LOG_ENTRY; omega
  have hsig : ∀ u, getReg (signalLog u) o = getReg u o := fun u => by rw [getReg, signalLog_regs, getReg]
  have hput : ∀ {u p} (v : Word), tabSorted none u.regs = true ∧ getReg u o = getReg s o → o ≠ p →
      tabSorted none (putReg p v u).regs = true ∧ getReg (putReg p v u) o = getReg s o :=
    fun v h hp => ⟨sorted_putReg h.1 _ v, (getReg_put_other h.1 v hp).trans h.2⟩
  exact (hsig _).trans
    (hput _ (hput _ (hput _ (hput _ (hput _ ⟨hs, rfl⟩ (hentry _ _)) (hentry _ _)) (hentry _ _)) (hentry _ _)) ho.ne).2

/-- An error counter below the log counts up to its largest value. -/
theorem rf_addErrAt_same {s : State} (hs : tabSorted none s.regs = true) {o lo : Nat} (ho : o < FX_LOG_SEQ)
    (hlo : lo + 32 ≤ 64) (n : Nat) : rf (addErrAt o lo n s) o lo 32 = min 0xFFFFFFFF (rf s o lo 32 + n) := by
  have hput : rf (putF o lo 32 (min 0xFFFFFFFF (rf s o lo 32 + n)) s) o lo 32 = min 0xFFFFFFFF (rf s o lo 32 + n) := by
    rw [rf_putF_same hs hlo, Nat.mod_eq_of_lt (by omega)]
  unfold addErrAt; simp only; split
  · exact (congrArg (fld · lo 32) (getReg_postLogAt_below (sorted_putF hs ..) ho ..)).trans hput
  · exact hput

/-! ### What an error report sets -/

@[simp] theorem aerReport_regs (fn : Fn) (a : Aer) (s : State) : (aerReport fn a s).regs = s.regs := by
  obtain ⟨l, o, n, h⟩ := aerReport_frame fn a s
  rw [h]

/-- Configuration space written with anything but its reset value reads back, sorted or not. -/
theorem cfgOf_putCfg_of_ne {fn : Nat} {c : FnCfg} (hc : c ≠ .reset) (s : State) : cfgOf (putCfg fn c s) fn = c :=
  tabGet_set_ne _ _ hc

/-- A corrected internal error sets its correctable status bit, and no other bit of that status. -/
theorem aerReport_correctedInternal_corStatus (fn : Fn) (s : State) :
    (cfgOf (aerReport fn .correctedInternal s) fn.val).aerCorStatus =
      (cfgOf s fn.val).aerCorStatus ||| aerCorBit .correctedInternal := by
  have hrep : cfgOf (aerReport fn .correctedInternal s) fn.val = cfgOf (aerRecord .correctedInternal fn s) fn.val := by
    unfold aerReport; simp only; split <;> rfl
  have hrec : aerRecord .correctedInternal fn s =
      aerBits fn (aerUncBit .correctedInternal) (aerCorBit .correctedInternal) s := rfl
  rw [hrep, hrec, aerBits, cfgOf_putCfg_of_ne]
  intro h
  have := congrArg (fun c => c.aerCorStatus.getLsbD 14) h
  simp [FnCfg.reset, aerCorBit] at this

/-! ### Fuse sensing -/

/-- Sensing in stage 1 takes the majority, and counts and reports the bits on which the copies disagree where there are
any (R50). -/
theorem execFuseSenseDone_stage1 {s : State} (hst : s.life.stage = 1) (hf : s.life.fusesSensed = false) :
    ∃ u : State, u.life.sensed = protMajority s.life.fuses ∧ u.regs = s.regs ∧ u.link = s.link ∧
      execFuseSenseDone s = .next (if fuseDisagree s.life.fuses = 0 then u
        else aerReport 0 .correctedInternal (addErr FS_SENSE_DISAGREE (fuseDisagree s.life.fuses) u)) := by
  unfold execFuseSenseDone
  rw [if_pos ⟨hst, by rw [hf]; rfl⟩]
  refine ⟨_, ?_, ?_, ?_, rfl⟩ <;> rfl

/-- The disagreeing bits counted: the sensed fuses stay, the counter rises by their number and the correctable status bit
is set. -/
theorem countDisagree_effect {u : State} (hs : tabSorted none u.regs = true) (n : Nat) :
    (aerReport 0 .correctedInternal (addErr FS_SENSE_DISAGREE n u)).life.sensed = u.life.sensed ∧
    rf (aerReport 0 .correctedInternal (addErr FS_SENSE_DISAGREE n u)) FS_SENSE_DISAGREE 0 32 =
      min 0xFFFFFFFF (rf u FS_SENSE_DISAGREE 0 32 + n) ∧
    (cfgOf (aerReport 0 .correctedInternal (addErr FS_SENSE_DISAGREE n u)) 0).aerCorStatus =
      (cfgOf u 0).aerCorStatus ||| aerCorBit .correctedInternal := by
  refine ⟨by rw [aerReport_life, addErr, addErrAt_life], ?_, ?_⟩
  · rw [rf, getReg, aerReport_regs]
    exact rf_addErrAt_same hs (by decide) (by decide) n
  · rw [show (0 : Nat) = (0 : Fn).val from rfl, aerReport_correctedInternal_corStatus, cfgOf, addErr, addErrAt_cfg, cfgOf]

/-- Settles O57: the vote, the count of disagreeing bits and the correctable fault. -/
theorem fuseSensing : Obligations.FuseSensing := by
  unfold Obligations.FuseSensing
  refine ⟨fun s hst hf hs => ?_, fun _ => majority_getLsbD, fun _ => disagree_eq_length_filter,
    fun _ => ⟨rfl, rfl, rfl, rfl, rfl, rfl⟩⟩
  obtain ⟨u, hsensed, hregs, hlink, hexec⟩ := execFuseSenseDone_stage1 hst hf
  have hrf : rf s FS_SENSE_DISAGREE 0 32 = rf u FS_SENSE_DISAGREE 0 32 := by rw [rf, getReg, ← hregs]; rfl
  have hcfg : cfgOf s 0 = cfgOf u 0 := by rw [cfgOf, ← hlink]; rfl
  refine ⟨_, hexec, ?_⟩
  rw [hrf, hcfg, ← hsensed]
  by_cases hn : fuseDisagree s.life.fuses = 0
  · rw [if_pos hn, if_pos hn, hn]
    have hlt : rf u FS_SENSE_DISAGREE 0 32 < 2 ^ 32 := Nat.mod_lt _ (by decide)
    exact ⟨rfl, by omega, by simp⟩
  · rw [if_neg hn, if_neg hn]
    exact countDisagree_effect (hregs ▸ hs) _

end Sys2Proof.Machine
end

section
/-! The host link: a DL_Down beside a hot reset (R95), the BARs of a function whose Memory Space Enable is 0 (R84), and the
idle time before an L1 request (R108). -/
namespace Sys2Proof.Machine

/-! ### Hot reset and DL_Down -/

/-- Outside stage 0 a hot reset repeats stage 1 in full with reset cause 3 (R65, R66). -/
theorem execHotReset_of_stage {s : State} (h : s.life.stage ≠ 0) : execHotReset s = .next (stage1Full 3 s) := by
  rw [execHotReset, if_neg h]

@[simp] theorem stage1Full_life (cause : BitVec 8) (s : State) : (stage1Full cause s).life = lifeStage1 s.life cause true :=
  rfl

theorem stage1Full_cleared (cause : BitVec 8) (s : State) : (stage1Full cause s).cleared := enterStage1_cleared ..

/-- Settles O55: both commands are one function of the state, which outside stage 0 repeats stage 1 in full. -/
theorem dlDownActsAsHotReset : Obligations.DlDownActsAsHotReset := by
  unfold Obligations.DlDownActsAsHotReset
  have heq : ∀ s, exec .dlDown s = execHotReset s := fun _ => rfl
  refine ⟨heq, fun s hs => ⟨stage1Full 3 s, ?_, rfl, rfl, stage1Full_cleared 3 s, rfl⟩⟩
  rw [heq, execHotReset_of_stage hs]

/-! ### Closed BARs -/

theorem tlpDropped_of_linkUp {s : State} (h : linkUp s = true) : tlpDropped s = linkBusy s := if_pos h

theorem tlpDropped_of_linkDown {s : State} (h : linkUp s = false) : tlpDropped s = s := by
  rw [tlpDropped, h]; rfl

theorem tlpDropped_eq_or (s : State) : tlpDropped s = s ∨ tlpDropped s = linkBusy s := by
  unfold tlpDropped; split
  · exact .inr rfl
  · exact .inl rfl

theorem barOpen_of_memSpaceOff {s : State} {fn : Nat} (h : (cfgOf s fn).memSpace = false) : barOpen s fn = false := by
  simp [barOpen, h]

/-- Setup space lies in BAR0 of PF0: while that is closed, a command that writes it is a dropped TLP. -/
theorem setupWrite_of_barClosed {s : State} (h : barOpen s 0 = false) (f : State → State) : setupWrite s f = tlpDropped s := by
  simp [setupWrite, setupOpen, h]

/-- A write of a wrong shape to a closed BAR0 is dropped. -/
theorem badShapeWrite_of_barClosed {fn : Fn} {s : State} (hl : linkUp s = true) (hp : fnPresent s fn.val = true)
    (h : barOpen s fn.val = false) (off : BitVec 26) : execBadShapeAccess fn off .write s = .next (linkBusy s) := by
  simp [execBadShapeAccess, hl, hp, h, tlpDropped]

/-- Reads of a closed BAR0 or BAR2 are answered Unsupported Request. -/
theorem badShapeRead_of_barClosed {fn : Fn} {s : State} (hl : linkUp s = true) (hp : fnPresent s fn.val = true)
    (h : barOpen s fn.val = false) (off : BitVec 26) (len : BitVec 13) :
    execBadShapeAccess fn off (.read0 len) s = .next (refuseRead fn s) ∧
    execBadShapeAccess fn off (.read2 len) s = .next (refuseRead fn s) := by
  simp [execBadShapeAccess, hl, hp, h]

/-- A register write to a closed BAR0 is dropped, whatever its shape: at most the idle time starts again. -/
theorem execRegisterWrite_of_barClosed {fn : Fn} {s : State} (h : barOpen s fn.val = false) (off : BitVec 26)
    (four : Bool) (v : BitVec 64) :
    execRegisterWrite fn off four v s = .next s ∨ execRegisterWrite fn off four v s = .next (linkBusy s) := by
  unfold execRegisterWrite
  by_cases hshape : off.toNat % (if four then 4 else 8) ≠ 0
  · rw [if_pos hshape, execBadShapeAccess]
    split
    · exact .inl rfl
    · simp only [h]
      exact (tlpDropped_eq_or s).imp (congrArg _) (congrArg _)
  · rw [if_neg hshape, h]
    exact (tlpDropped_eq_or s).imp (congrArg _) (congrArg _)

/-! ### What an error report of the link changes -/

/-- From `s` to `t` only the link, the outputs and the count of free values changed, and no Memory Space Enable. -/
structure ReportsOnly (s t : State) : Prop where
  frame : ∃ l o n, t = { s with link := l, out := o, freeCtr := n }
  memSpace : ∀ m, (cfgOf t m).memSpace = (cfgOf s m).memSpace

theorem ReportsOnly.refl (s : State) : ReportsOnly s s := ⟨⟨_, _, _, rfl⟩, fun _ => rfl⟩

theorem ReportsOnly.trans {r s t : State} (h : ReportsOnly r s) (k : ReportsOnly s t) : ReportsOnly r t := by
  obtain ⟨⟨l, o, n, rfl⟩, hm⟩ := h
  obtain ⟨⟨l', o', n', rfl⟩, km⟩ := k
  exact ⟨⟨l', o', n', rfl⟩, fun m => (km m).trans (hm m)⟩

theorem linkBusy_reportsOnly (s : State) : ReportsOnly s (linkBusy s) := ⟨⟨_, _, _, rfl⟩, fun _ => rfl⟩

theorem emit_reportsOnly (x : Out) (s : State) : ReportsOnly s (emit x s) := ⟨⟨_, _, _, rfl⟩, fun _ => rfl⟩

theorem useFree_reportsOnly (s : State) : ReportsOnly s (useFree s) := ⟨⟨_, _, _, rfl⟩, fun _ => rfl⟩

/-- Configuration space written with anything but its reset value leaves every other function's, sorted or not. -/
theorem cfgOf_putCfg_other_of_ne {fn m : Nat} {c : FnCfg} (hc : c ≠ .reset) (hm : m ≠ fn) (s : State) :
    cfgOf (putCfg fn c s) m = cfgOf s m := by
  simp only [cfgOf, putCfg, tabGet, tabSet, if_neg hc, tabFind_insert_other _ _ hm]

/-- Configuration space written with its Memory Space Enable as it was. -/
theorem putCfg_reportsOnly {fn : Nat} {c : FnCfg} {s : State} (hc : c ≠ .reset) (hm : c.memSpace = (cfgOf s fn).memSpace) :
    ReportsOnly s (putCfg fn c s) := by
  refine ⟨⟨_, _, _, rfl⟩, fun m => ?_⟩
  by_cases h : m = fn
  · rw [h, cfgOf_putCfg_of_ne hc, hm]
  · rw [cfgOf_putCfg_other_of_ne hc h]

/-- Every condition has a status bit. -/
theorem aerUncBit_ne_zero_or_aerCorBit_ne_zero (a : Aer) : aerUncBit a ≠ 0 ∨ aerCorBit a ≠ 0 := by
  cases a <;> decide

/-- A status bit set makes a configuration space other than after reset, so that the write is read back. -/
theorem aerBits_reportsOnly (a : Aer) (fn : Fn) (s : State) : ReportsOnly s (aerBits fn (aerUncBit a) (aerCorBit a) s) := by
  refine putCfg_reportsOnly (fun h => ?_) rfl
  have hunc : (cfgOf s fn.val).aerUncStatus ||| aerUncBit a = 0#32 := congrArg FnCfg.aerUncStatus h
  have hcor : (cfgOf s fn.val).aerCorStatus ||| aerCorBit a = 0#32 := congrArg FnCfg.aerCorStatus h
  rw [BitVec.or_eq_zero_iff] at hunc hcor
  exact (aerUncBit_ne_zero_or_aerCorBit_ne_zero a).elim (· hunc.2) (· hcor.2)

theorem aerHeaderLog_reportsOnly (fn : Fn) (a : Aer) (s : State) : ReportsOnly s (aerHeaderLog fn a s) := by
  unfold aerHeaderLog; simp only; split
  · refine .trans (.trans (putCfg_reportsOnly (fun h => ?_) ?_) (useFree_reportsOnly _)) (useFree_reportsOnly _)
    · cases congrArg FnCfg.aerFirst h
    · rfl
  · exact .refl s

theorem aerRecord_reportsOnly (a : Aer) (fn : Fn) (s : State) : ReportsOnly s (aerRecord a fn s) :=
  (aerHeaderLog_reportsOnly fn a s).trans (aerBits_reportsOnly a fn _)

theorem aerMessage_reportsOnly (fn : Fn) (a : Aer) (s : State) : ReportsOnly s (linkBusy (emit (.aer fn a) s)) :=
  (emit_reportsOnly _ s).trans (linkBusy_reportsOnly _)

theorem aerReport_reportsOnly (fn : Fn) (a : Aer) (s : State) : ReportsOnly s (aerReport fn a s) := by
  unfold aerReport; simp only; split
  · exact aerRecord_reportsOnly a fn s
  · exact (aerRecord_reportsOnly a fn s).trans (aerMessage_reportsOnly fn a _)

theorem foldl_aerRecord_reportsOnly (a : Aer) (fns : List Fn) (s : State) :
    ReportsOnly s (fns.foldl (fun s fn => aerRecord a fn s) s) := by
  induction fns generalizing s with
  | nil => exact .refl s
  | cons fn fns ih => exact (aerRecord_reportsOnly a fn s).trans (ih _)

theorem aerLink_reportsOnly (a : Aer) (s : State) : ReportsOnly s (aerLink a s) := by
  unfold aerLink; simp only; split
  · exact (foldl_aerRecord_reportsOnly a _ s).trans (aerMessage_reportsOnly _ a _)
  · exact foldl_aerRecord_reportsOnly a _ s

theorem tlpError_reportsOnly (fn : Fn) (e : TlpErr) (s : State) : ReportsOnly s (tlpError fn e s).1 := by
  cases e with
  | receiver | badDllp | dllpProtocol | malformed => exact aerLink_reportsOnly _ s
  | ecrc =>
    unfold tlpError; simp only; split
    · exact aerReport_reportsOnly fn _ s
    · exact .refl s
  | none | poisoned => exact .refl s

/-- A peer write into a closed BAR4 is dropped: the errors of its TLP and the Unsupported Request are all it leaves. -/
theorem execPeerWrite_of_memSpaceOff {s : State} (h : (cfgOf s 3).memSpace = false) (off : BitVec 30) (d : Bytes)
    (x : TlpErr) : ∃ t, execPeerWrite off d x s = .next t ∧ ReportsOnly s t := by
  have herr : ReportsOnly s (tlpError 3 x (linkBusy s)).1 := (linkBusy_reportsOnly s).trans (tlpError_reportsOnly 3 x _)
  have hclosed : barOpen (tlpError 3 x (linkBusy s)).1 3 = false := barOpen_of_memSpaceOff ((herr.memSpace 3).trans h)
  unfold execPeerWrite; simp only [hclosed]
  split
  · exact ⟨s, rfl, .refl s⟩
  · split
    · exact ⟨_, rfl, herr⟩
    · exact ⟨_, rfl, herr.trans (aerReport_reportsOnly 3 _ _)⟩

/-- Settles O56: Memory Space Enable 0 closes the BARs, and each command is what it is behind a closed BAR. -/
theorem memorySpaceOff : Obligations.MemorySpaceOff := by
  unfold Obligations.MemorySpaceOff
  refine ⟨fun fn off four v s h => ?_, fun fn p c n full s h => ?_, fun fn off s h hl hp => ?_,
    fun fn off len s h hl hp => ?_, fun off d x s h => ?_, fun off s _ hl => ?_, fun f s h => ?_,
    fun s => ⟨tlpDropped_of_linkUp, tlpDropped_of_linkDown⟩⟩
  · exact execRegisterWrite_of_barClosed (barOpen_of_memSpaceOff h) off four v
  · show execHint fn p c n full s = _
    rw [execHint, barOpen_of_memSpaceOff h]; rfl
  · exact badShapeWrite_of_barClosed hl hp (barOpen_of_memSpaceOff h) off
  · exact badShapeRead_of_barClosed hl hp (barOpen_of_memSpaceOff h) off len
  · obtain ⟨t, ht, ⟨l, o, n, rfl⟩, -⟩ := execPeerWrite_of_memSpaceOff h off d x
    exact ⟨_, ht, rfl, rfl, rfl⟩
  · show execPeerRead off s = _
    rw [execPeerRead, if_pos hl]
  · exact setupWrite_of_barClosed (barOpen_of_memSpaceOff h) f

/-! ### A register written by its field types -/

/-- Bit of a register after a write by the field types: the written bit in an RW field, the old bit elsewhere, and 0
where a 1 is written to a W1C bit (R10). -/
theorem bit_plainValue (r : RegRow) (old m v : Word) (i : Nat) : bit (plainValue r old m v) i =
    ((if bit r.rw i && bit m i then bit v i else bit old i) && !(bit v i && bit r.w1c i && bit m i)) := by
  by_cases hi : i < 64
  · simp only [bit, plainValue, BitVec.getLsbD_and, BitVec.getLsbD_or, BitVec.getLsbD_not, hi, decide_true, Bool.true_and]
    by_cases hr : r.rw.getLsbD i = true <;> by_cases hm : m.getLsbD i = true <;> simp [hr, hm]
  · have hout : ∀ w : Word, bit w i = false := fun w => BitVec.getLsbD_of_ge w i (by omega)
    simp [hout]

/-- A field of RW bits, all of them written, reads as the value written. -/
theorem fld_plainValue_rw {r : RegRow} {m : Word} {lo len : Nat} (hrw : ∀ i < len, bit r.rw (lo + i) = true)
    (hm : ∀ i < len, bit m (lo + i) = true) (hc : ∀ i < len, bit r.w1c (lo + i) = false) (old v : Word) :
    fld (plainValue r old m v) lo len = fld v lo len := by
  apply Nat.eq_of_testBit_eq; intro i
  rw [testBit_fld, testBit_fld, bit_plainValue]
  by_cases hi : i < len
  · simp [hrw i hi, hm i hi, hc i hi]
  · simp [hi]

/-- A field without an RW and a W1C bit reads as before. -/
theorem fld_plainValue_kept {r : RegRow} {lo len : Nat} (hrw : ∀ i < len, bit r.rw (lo + i) = false)
    (hc : ∀ i < len, bit r.w1c (lo + i) = false) (old m v : Word) :
    fld (plainValue r old m v) lo len = fld old lo len := by
  apply Nat.eq_of_testBit_eq; intro i
  rw [testBit_fld, testBit_fld, bit_plainValue]
  by_cases hi : i < len
  · simp [hrw i hi, hc i hi]
  · simp [hi]

/-! ### The idle time before an L1 request -/

/-- The register row of HL_L1_CTRL: l1_idle is an RW field at bits 15:0. -/
def rowL1Ctrl : RegRow := ⟨0x30018, 0x0, 1, 0x0, 1, 0xFFFF#64, 0x0#64, 0x0#64, 0x8#64⟩

theorem regRow_HL_L1_CTRL : regRow HL_L1_CTRL = some rowL1Ctrl := by decide

theorem blockOf_HL_L1_CTRL : blockOf HL_L1_CTRL = some ⟨blkHL, 0x30000, 16⟩ := by decide

/-- No effect of its own stands for a write of HL_L1_CTRL, whose offset no family of such registers holds. -/
theorem ownWrite_HL_L1_CTRL (low : Bool) (w : Word) (s : State) : ownWrite HL_L1_CTRL low w s = none := by
  have hnet : unformed s HL_L1_CTRL = false := rfl
  have hqe : qeCtlHeld s HL_L1_CTRL = false := by rw [qeCtlHeld, Bool.and_assoc]; exact Bool.and_false _
  have hdbg : debugHeld s HL_L1_CTRL = false := by rw [debugHeld, Bool.and_assoc]; exact Bool.and_false _
  unfold ownWrite
  rw [hnet, hqe, hdbg]
  rfl

/-- Nothing follows the fields of HL_L1_CTRL. -/
theorem afterWrite_HL_L1_CTRL (low : Bool) (old act : Word) (s : State) : afterWrite HL_L1_CTRL low old act s = s := rfl

/-- A write of the whole of HL_L1_CTRL, with setup space open, is one by its field types. -/
theorem registerWrite_HL_L1_CTRL {s : State} (h : s.life.stage1Done = true) (v : Word) :
    registerWrite 0 HL_L1_CTRL false v s =
      putReg HL_L1_CTRL (plainValue rowL1Ctrl (getReg s HL_L1_CTRL) (BitVec.allOnes 64) v) s := by
  have hopen : blockOpen s blkHL = true := by simp [blockOpen, h]
  have hrow : registerWrite 0 HL_L1_CTRL false v s = writeRow HL_L1_CTRL rowL1Ctrl (BitVec.allOnes 64) v s := by
    show writePf0 HL_L1_CTRL (BitVec.allOnes 64) v s = _
    rw [writePf0, if_neg (by decide)]
    simp only [blockOf_HL_L1_CTRL, hopen, regRow_HL_L1_CTRL]
    rfl
  rw [hrow, writeRow, ownWrite_HL_L1_CTRL]
  rfl

/-- The idle time in force is l1_idle, 0 acting as 1. -/
theorem l1Idle_eq (s : State) : l1Idle s = if rf s HL_L1_CTRL 0 16 = 0 then 1 else rf s HL_L1_CTRL 0 16 := by
  unfold l1Idle; split <;> omega

/-- No L1 request before the idle time (R91, R108). -/
theorem execL1Entry_of_idle_lt {s : State} (h : s.link.idleTicks < l1Idle s) : execL1Entry s = .next s := by
  rw [execL1Entry, decide_eq_false (Nat.not_le.mpr h), Bool.and_false]
  rfl

/-- Settles O58: the default, the write by the field types, the idle time in force and the refusal before it. -/
theorem l1IdleTime : Obligations.L1IdleTime := by
  unfold Obligations.L1IdleTime
  refine ⟨by decide, fun v s hopen hs => ?_, l1Idle_eq, fun s h => execL1Entry_of_idle_lt h⟩
  obtain ⟨hbar, hdone⟩ : barOpen s 0 = true ∧ s.life.stage1Done = true := by simpa [setupOpen] using hopen
  have hexec : exec (.registerWrite 0 (BitVec.ofNat 26 HL_L1_CTRL) false v) s =
      .next (registerWrite 0 HL_L1_CTRL false v (linkBusy s)) := by
    show execRegisterWrite 0 (BitVec.ofNat 26 HL_L1_CTRL) false v s = _
    rw [execRegisterWrite, if_neg (by decide), if_pos (by simp [hbar, fnPresent])]
    rfl
  have hs' : tabSorted none (linkBusy s).regs = true := hs
  refine ⟨_, hexec, ?_⟩
  rw [registerWrite_HL_L1_CTRL (s := linkBusy s) hdone, rf, rf, getReg_put_same hs']
  refine ⟨fld_plainValue_rw (by decide) (by decide) (by decide) _ _, fld_plainValue_kept (by decide) (by decide) _ _ _,
    fun o ho => getReg_put_other hs' _ ho⟩

end Sys2Proof.Machine
end

section
/-! Every command keeps the parts that its footprint does not name, and every step keeps a legal state legal. -/
namespace Sys2Proof.Machine

/-- The mask of the parts of a list. -/
def partMask (ps : List Part) : Nat := ps.foldr (fun p m => 2 ^ p.idx ||| m) 0

theorem Part.idx_injective : Function.Injective Part.idx := fun p q => by cases p <;> cases q <;> decide

/-- A part that the list does not name is not in its mask. -/
theorem testBit_partMask {p : Part} {ps : List Part} (h : p ∉ ps) : (partMask ps).testBit p.idx = false := by
  induction ps with
  | nil => exact Nat.zero_testBit _
  | cons q ps ih =>
    obtain ⟨hq, hps⟩ : p ≠ q ∧ p ∉ ps := by simpa using h
    rw [partMask, List.foldr_cons, Nat.testBit_or, Nat.testBit_two_pow_of_ne (fun e => hq (Part.idx_injective e).symm)]
    exact (Bool.false_or _).trans (ih hps)

/-- Every command changes only the parts of its footprint, unless it leaves the block in stage 0 or 1. -/
theorem exec_advances_footprint (c : Instr) (s : State) : AdvancesRes (partMask (footprint c)) s (exec c s) := by
  cases c with dsimp only [footprint]
  | bootEnable => exact execBootEnable_advances s rfl
  | stage3Entry => exact execStage3Entry_advances s rfl
  | registerWrite fn off four v => exact execRegisterWrite_advances fn off four v s rfl
  | vddAonGood pb01 pb23 => exact KeepsRes.advances (execVddAonGood_keeps pb01 pb23 (.refl _ s) rfl)
  | plantReferenceStable => exact KeepsRes.advances (execPlantReferenceStable_keeps (.refl _ s) rfl)
  | bypassStart => exact KeepsRes.advances (execBypassStart_keeps (.refl _ s) rfl)
  | bypassFrame port frame fcsOk => exact KeepsRes.advances (execBypassFrame_keeps port frame fcsOk (.refl _ s) rfl)
  | vddAonLoss => exact KeepsRes.advances (execVddAonLoss_keeps (.refl _ s))
  | perstAssert => exact KeepsRes.advances (execPerstAssert_keeps (.refl _ s))
  | perstRelease => exact KeepsRes.advances (execPerstRelease_keeps (.refl _ s) rfl)
  | fuseSenseDone => exact KeepsRes.advances (execFuseSenseDone_keeps (.refl _ s) rfl)
  | bistDone fail => exact KeepsRes.advances (execBistDone_keeps fail (.refl _ s) rfl)
  | dramTrainDone failed => exact KeepsRes.advances (execDramTrainDone_keeps failed (.refl _ s) rfl)
  | stage1Done => exact KeepsRes.advances (execStage1Done_keeps (.refl _ s) rfl)
  | rrsPeriodEnd => exact KeepsRes.advances (execRrsPeriodEnd_keeps (.refl _ s) rfl)
  | configurationRequest fn off => exact KeepsRes.advances (execConfigurationRequest_keeps fn off (.refl _ s) rfl)
  | configWrite fn field v => exact KeepsRes.advances (execConfigWrite_keeps fn field v (.refl _ s) rfl)
  | goService => exact KeepsRes.advances (execGoService_keeps (.refl _ s) rfl)
  | bootDescriptorFetch d => exact KeepsRes.advances (execBootDescriptorFetch_keeps d (.refl _ s) rfl)
  | bootLoad img => exact KeepsRes.advances (execBootLoad_keeps img (.refl _ s) rfl)
  | bootFuse img => exact KeepsRes.advances (execBootFuse_keeps img (.refl _ s) rfl)
  | fuseLinkBurn verified => exact KeepsRes.advances (execFuseLinkBurn_keeps verified (.refl _ s) rfl)
  | hotReset => exact KeepsRes.advances (execHotReset_keeps (.refl _ s) rfl)
  | dlDown => exact KeepsRes.advances (execDlDown_keeps (.refl _ s) rfl)
  | flrPf0 => exact KeepsRes.advances (execFlrPf0_keeps (.refl _ s) rfl)
  | flr fn => exact KeepsRes.advances (execFlr_keeps fn (.refl _ s) rfl)
  | flrDone fn => exact KeepsRes.advances (execFlrDone_keeps fn (.refl _ s) rfl)
  | d3hotEntry fn => exact KeepsRes.advances (execD3hotEntry_keeps fn (.refl _ s) rfl)
  | d0Return fn => exact KeepsRes.advances (execD0Return_keeps fn (.refl _ s) rfl)
  | busMasterEnableClear fn => exact KeepsRes.advances (execBusMasterEnableClear_keeps fn (.refl _ s) rfl)
  | busMasterEnableSet fn => exact KeepsRes.advances (execBusMasterEnableSet_keeps fn (.refl _ s) rfl)
  | pasidEnableChange fn on => exact KeepsRes.advances (execPasidEnableChange_keeps fn on (.refl _ s) rfl)
  | linkTrain speed width flit => exact KeepsRes.advances (execLinkTrain_keeps speed width flit (.refl _ s) rfl)
  | badShapeAccess fn off access => exact KeepsRes.advances (execBadShapeAccess_keeps fn off access (.refl _ s) rfl)
  | peerWrite off data err => exact KeepsRes.advances (execPeerWrite_keeps off data err (.refl _ s) rfl)
  | peerRead off => exact KeepsRes.advances (execPeerRead_keeps off (.refl _ s) rfl)
  | pwCommit v => exact KeepsRes.advances (execPwCommit_keeps v (.refl _ s) rfl)
  | quiesce v => exact KeepsRes.advances (execQuiesce_keeps v (.refl _ s) rfl)
  | ptmTrigger cyc => exact KeepsRes.advances (execPtmTrigger_keeps cyc (.refl _ s) rfl)
  | ptmPeriod cyc => exact KeepsRes.advances (execPtmPeriod_keeps cyc (.refl _ s) rfl)
  | ptmResponse master prop cyc => exact KeepsRes.advances (execPtmResponse_keeps master prop cyc (.refl _ s) rfl)
  | ptmTimeout => exact KeepsRes.advances (execPtmTimeout_keeps (.refl _ s) rfl)
  | readCompletion fn epoch work r => exact KeepsRes.advances (execReadCompletion_keeps fn epoch work r (.refl _ s) rfl)
  | completionTimeout fn work => exact KeepsRes.advances (execCompletionTimeout_keeps fn work (.refl _ s) rfl)
  | l1Entry => exact KeepsRes.advances (execL1Entry_keeps (.refl _ s) rfl)
  | magicPacket port => exact KeepsRes.advances (execMagicPacket_keeps port (.refl _ s) rfl)
  | laneSignalChange port gain => exact KeepsRes.advances (execLaneSignalChange_keeps port gain (.refl _ s) rfl)
  | ppsInLoss => exact KeepsRes.advances (execPpsInLoss_keeps (.refl _ s) rfl)
  | cloveTick => exact KeepsRes.advances (execCloveTick_keeps (.refl _ s) rfl)
  | paceWindow completions => exact KeepsRes.advances (execPaceWindow_keeps completions (.refl _ s) rfl)
  | clearExtremes => exact KeepsRes.advances (execClearExtremes_keeps (.refl _ s) rfl)
  | temp sensor => exact KeepsRes.advances (execTemp_keeps sensor (.refl _ s) rfl)
  | vcore => exact KeepsRes.advances (execVcore_keeps (.refl _ s) rfl)
  | thermTrip => exact KeepsRes.advances (execThermTrip_keeps (.refl _ s) rfl)
  | hint fn page chunk bytes intakeFull => exact KeepsRes.advances (execHint_keeps fn page chunk bytes intakeFull (.refl _ s) rfl)
  | doorbellRecordReturn fn fq r => exact KeepsRes.advances (execDoorbellRecordReturn_keeps fn fq r (.refl _ s) rfl)
  | sweep fn inst => exact KeepsRes.advances (execSweep_keeps fn inst (.refl _ s) rfl)
  | descriptorFetch fn fq r ecc => exact KeepsRes.advances (execDescriptorFetch_keeps fn fq r ecc (.refl _ s) rfl)
  | completionBatch fn fq => exact KeepsRes.advances (execCompletionBatch_keeps fn fq (.refl _ s) rfl)
  | nop fn fq => exact KeepsRes.advances (execNop_keeps fn fq (.refl _ s) rfl)
  | countDelta fn fq => exact KeepsRes.advances (execCountDelta_keeps fn fq (.refl _ s) rfl)
  | queueConfig cq => exact KeepsRes.advances (execQueueConfig_keeps cq (.refl _ s) rfl)
  | queueEnable cq => exact KeepsRes.advances (execQueueEnable_keeps cq (.refl _ s) rfl)
  | queueDisable cq => exact KeepsRes.advances (execQueueDisable_keeps cq (.refl _ s) rfl)
  | disableDone fn fq => exact KeepsRes.advances (execDisableDone_keeps fn fq (.refl _ s) rfl)
  | queueResume cq => exact KeepsRes.advances (execQueueResume_keeps cq (.refl _ s) rfl)
  | evqConfig cq => exact KeepsRes.advances (execEvqConfig_keeps cq (.refl _ s) rfl)
  | qeCtlEnable => exact KeepsRes.advances (execQeCtlEnable_keeps (.refl _ s) rfl)
  | qeCtlDisable => exact KeepsRes.advances (execQeCtlDisable_keeps (.refl _ s) rfl)
  | consumerRecordReturn fn fevq r => exact KeepsRes.advances (execConsumerRecordReturn_keeps fn fevq r (.refl _ s) rfl)
  | overflowReread fn fevq => exact KeepsRes.advances (execOverflowReread_keeps fn fevq (.refl _ s) rfl)
  | interruptMessage g => exact KeepsRes.advances (execInterruptMessage_keeps g (.refl _ s) rfl)
  | instEnable cq => exact KeepsRes.advances (execInstEnable_keeps cq (.refl _ s) rfl)
  | instDisable cq => exact KeepsRes.advances (execInstDisable_keeps cq (.refl _ s) rfl)
  | instReset cq => exact KeepsRes.advances (execInstReset_keeps cq (.refl _ s) rfl)
  | dlogEpoch cq => exact KeepsRes.advances (execDlogEpoch_keeps cq (.refl _ s) rfl)
  | drainComplete fn inst => exact KeepsRes.advances (execDrainComplete_keeps fn inst (.refl _ s) rfl)
  | fnShareWrite fn v => exact KeepsRes.advances (execFnShareWrite_keeps fn v (.refl _ s) rfl)
  | instRegisterWrite fn inst wordB v => exact KeepsRes.advances (execInstRegisterWrite_keeps fn inst wordB v (.refl _ s) rfl)
  | npModeWrite v => exact KeepsRes.advances (execNpModeWrite_keeps v (.refl _ s) rfl)
  | networkFrameReceive port frame fcsOk overflow cyc => exact KeepsRes.advances (execNetworkFrameReceive_keeps port frame fcsOk overflow cyc (.refl _ s) rfl)
  | networkLinkUp port => exact KeepsRes.advances (execNetworkLinkUp_keeps port (.refl _ s) rfl)
  | deal pl => exact KeepsRes.advances (execDeal_keeps pl (.refl _ s) rfl)
  | parseNop pl unit err => exact KeepsRes.advances (execParseNop_keeps pl unit err (.refl _ s) rfl)
  | parseMov pl unit err => exact KeepsRes.advances (execParseMov_keeps pl unit err (.refl _ s) rfl)
  | parseAdd pl unit err => exact KeepsRes.advances (execParseAdd_keeps pl unit err (.refl _ s) rfl)
  | parseSub pl unit err => exact KeepsRes.advances (execParseSub_keeps pl unit err (.refl _ s) rfl)
  | parseAnd pl unit err => exact KeepsRes.advances (execParseAnd_keeps pl unit err (.refl _ s) rfl)
  | parseOr pl unit err => exact KeepsRes.advances (execParseOr_keeps pl unit err (.refl _ s) rfl)
  | parseXor pl unit err => exact KeepsRes.advances (execParseXor_keeps pl unit err (.refl _ s) rfl)
  | parseShl pl unit err => exact KeepsRes.advances (execParseShl_keeps pl unit err (.refl _ s) rfl)
  | parseShr pl unit err => exact KeepsRes.advances (execParseShr_keeps pl unit err (.refl _ s) rfl)
  | parseCmpeq pl unit err => exact KeepsRes.advances (execParseCmpeq_keeps pl unit err (.refl _ s) rfl)
  | parseCmplt pl unit err => exact KeepsRes.advances (execParseCmplt_keeps pl unit err (.refl _ s) rfl)
  | parseTest pl unit err => exact KeepsRes.advances (execParseTest_keeps pl unit err (.refl _ s) rfl)
  | parseRange pl unit err => exact KeepsRes.advances (execParseRange_keeps pl unit err (.refl _ s) rfl)
  | parseAdvance pl unit err => exact KeepsRes.advances (execParseAdvance_keeps pl unit err (.refl _ s) rfl)
  | parseSetcur pl unit err => exact KeepsRes.advances (execParseSetcur_keeps pl unit err (.refl _ s) rfl)
  | parseMark pl unit err => exact KeepsRes.advances (execParseMark_keeps pl unit err (.refl _ s) rfl)
  | parseTag pl unit err => exact KeepsRes.advances (execParseTag_keeps pl unit err (.refl _ s) rfl)
  | parseTunnel pl unit err => exact KeepsRes.advances (execParseTunnel_keeps pl unit err (.refl _ s) rfl)
  | parseEmit pl unit err => exact KeepsRes.advances (execParseEmit_keeps pl unit err (.refl _ s) rfl)
  | parseSetf pl unit err => exact KeepsRes.advances (execParseSetf_keeps pl unit err (.refl _ s) rfl)
  | parseCsum pl unit err => exact KeepsRes.advances (execParseCsum_keeps pl unit err (.refl _ s) rfl)
  | parseHash pl unit err => exact KeepsRes.advances (execParseHash_keeps pl unit err (.refl _ s) rfl)
  | parseMalf pl unit err => exact KeepsRes.advances (execParseMalf_keeps pl unit err (.refl _ s) rfl)
  | stepLimit pl unit => exact KeepsRes.advances (execStepLimit_keeps pl unit (.refl _ s) rfl)
  | reorderRelease pl src => exact KeepsRes.advances (execReorderRelease_keeps pl src (.refl _ s) rfl)
  | classifyStage pl frame err => exact KeepsRes.advances (execClassifyStage_keeps pl frame err (.refl _ s) rfl)
  | headerEdit pl frame => exact KeepsRes.advances (execHeaderEdit_keeps pl frame (.refl _ s) rfl)
  | epochFlip pl => exact KeepsRes.advances (execEpochFlip_keeps pl (.refl _ s) rfl)
  | actWrite cq => exact KeepsRes.advances (execActWrite_keeps cq (.refl _ s) rfl)
  | jtNodeWrite cq r => exact KeepsRes.advances (execJtNodeWrite_keeps cq r (.refl _ s) rfl)
  | jtRuleWrite cq r => exact KeepsRes.advances (execJtRuleWrite_keeps cq r (.refl _ s) rfl)
  | jtRootWrite cq => exact KeepsRes.advances (execJtRootWrite_keeps cq (.refl _ s) rfl)
  | dirWrite cq => exact KeepsRes.advances (execDirWrite_keeps cq (.refl _ s) rfl)
  | staWrite cq => exact KeepsRes.advances (execStaWrite_keeps cq (.refl _ s) rfl)
  | lpmWrite cq => exact KeepsRes.advances (execLpmWrite_keeps cq (.refl _ s) rfl)
  | staFlush cq => exact KeepsRes.advances (execStaFlush_keeps cq (.refl _ s) rfl)
  | hashSeedWrite pl v => exact KeepsRes.advances (execHashSeedWrite_keeps pl v (.refl _ s) rfl)
  | learnRequest pl => exact KeepsRes.advances (execLearnRequest_keeps pl (.refl _ s) rfl)
  | learnApply pl => exact KeepsRes.advances (execLearnApply_keeps pl (.refl _ s) rfl)
  | ageTick pl => exact KeepsRes.advances (execAgeTick_keeps pl (.refl _ s) rfl)
  | txSend fn fq r => exact KeepsRes.advances (execTxSend_keeps fn fq r (.refl _ s) rfl)
  | txLaunch fn fq r => exact KeepsRes.advances (execTxLaunch_keeps fn fq r (.refl _ s) rfl)
  | txPipe fn fq r => exact KeepsRes.advances (execTxPipe_keeps fn fq r (.refl _ s) rfl)
  | rxBuf fn fq => exact KeepsRes.advances (execRxBuf_keeps fn fq (.refl _ s) rfl)
  | rxDeliver fn fq ecc => exact KeepsRes.advances (execRxDeliver_keeps fn fq ecc (.refl _ s) rfl)
  | spillReturn leaf => exact KeepsRes.advances (execSpillReturn_keeps leaf (.refl _ s) rfl)
  | scheduleChoice port err cyc => exact KeepsRes.advances (execScheduleChoice_keeps port err cyc (.refl _ s) rfl)
  | bucketSweep b => exact KeepsRes.advances (execBucketSweep_keeps b (.refl _ s) rfl)
  | pfcRefresh port k => exact KeepsRes.advances (execPfcRefresh_keeps port k (.refl _ s) rfl)
  | pfcXon port k => exact KeepsRes.advances (execPfcXon_keeps port k (.refl _ s) rfl)
  | pfcReceive port prios quanta => exact KeepsRes.advances (execPfcReceive_keeps port prios quanta (.refl _ s) rfl)
  | pfcPauseExpiry port k => exact KeepsRes.advances (execPfcPauseExpiry_keeps port k (.refl _ s) rfl)
  | tmLeafWrite cq => exact KeepsRes.advances (execTmLeafWrite_keeps cq (.refl _ s) rfl)
  | tmGroupWrite cq => exact KeepsRes.advances (execTmGroupWrite_keeps cq (.refl _ s) rfl)
  | tmClassWrite cq => exact KeepsRes.advances (execTmClassWrite_keeps cq (.refl _ s) rfl)
  | tmMeterWrite cq => exact KeepsRes.advances (execTmMeterWrite_keeps cq (.refl _ s) rfl)
  | bufCtrlWrite v => exact KeepsRes.advances (execBufCtrlWrite_keeps v (.refl _ s) rfl)
  | plantFrameReceive port frame overflow cyc => exact KeepsRes.advances (execPlantFrameReceive_keeps port frame overflow cyc (.refl _ s) rfl)
  | plantRelease port ecc => exact KeepsRes.advances (execPlantRelease_keeps port ecc (.refl _ s) rfl)
  | plantFrameEnd port fcsOk cyc => exact KeepsRes.advances (execPlantFrameEnd_keeps port fcsOk cyc (.refl _ s) rfl)
  | streamWrite cq => exact KeepsRes.advances (execStreamWrite_keeps cq (.refl _ s) rfl)
  | gateIntervalEnd blk => exact KeepsRes.advances (execGateIntervalEnd_keeps blk (.refl _ s) rfl)
  | cycleStart blk => exact KeepsRes.advances (execCycleStart_keeps blk (.refl _ s) rfl)
  | scheduleChange blk cyc => exact KeepsRes.advances (execScheduleChange_keeps blk cyc (.refl _ s) rfl)
  | scheduleSwitch blk => exact KeepsRes.advances (execScheduleSwitch_keeps blk (.refl _ s) rfl)
  | launchEligible leaf => exact KeepsRes.advances (execLaunchEligible_keeps leaf (.refl _ s) rfl)
  | launchLate leaf => exact KeepsRes.advances (execLaunchLate_keeps leaf (.refl _ s) rfl)
  | ckStep v cyc => exact KeepsRes.advances (execCkStep_keeps v cyc (.refl _ s) rfl)
  | timeLatch cyc => exact KeepsRes.advances (execTimeLatch_keeps cyc (.refl _ s) rfl)
  | cloveRef => exact KeepsRes.advances (execCloveRef_keeps (.refl _ s) rfl)
  | ppsOutEdge => exact KeepsRes.advances (execPpsOutEdge_keeps (.refl _ s) rfl)
  | ppsInEdge cyc => exact KeepsRes.advances (execPpsInEdge_keeps cyc (.refl _ s) rfl)
  | arm pair cyc => exact KeepsRes.advances (execArm_keeps pair cyc (.refl _ s) rfl)
  | disarm pair => exact KeepsRes.advances (execDisarm_keeps pair (.refl _ s) rfl)
  | release pair cyc => exact KeepsRes.advances (execRelease_keeps pair cyc (.refl _ s) rfl)
  | takeoverTime pair => exact KeepsRes.advances (execTakeoverTime_keeps pair (.refl _ s) rfl)
  | pairTaken pair cyc => exact KeepsRes.advances (execPairTaken_keeps pair cyc (.refl _ s) rfl)
  | rxImageFlip port => exact KeepsRes.advances (execRxImageFlip_keeps port (.refl _ s) rfl)
  | imgPut fq r seqBefore seqAfter => exact KeepsRes.advances (execImgPut_keeps fq r seqBefore seqAfter (.refl _ s) rfl)
  | imgGet fq flipped back => exact KeepsRes.advances (execImgGet_keeps fq flipped back (.refl _ s) rfl)
  | igCtrlWrite v => exact KeepsRes.advances (execIgCtrlWrite_keeps v (.refl _ s) rfl)
  | ctxWrite cq r => exact KeepsRes.advances (execCtxWrite_keeps cq r (.refl _ s) rfl)
  | ctxClear cq => exact KeepsRes.advances (execCtxClear_keeps cq (.refl _ s) rfl)
  | contextFill g ecc => exact KeepsRes.advances (execContextFill_keeps g ecc (.refl _ s) rfl)
  | cxCtrlWrite v => exact KeepsRes.advances (execCxCtrlWrite_keeps v (.refl _ s) rfl)
  | msgPost fn fq => exact KeepsRes.advances (execMsgPost_keeps fn fq (.refl _ s) rfl)
  | mailboxDelivery core mbox => exact KeepsRes.advances (execMailboxDelivery_keeps core mbox (.refl _ s) rfl)
  | turnLimit core => exact KeepsRes.advances (execTurnLimit_keeps core (.refl _ s) rfl)
  | longStallEnd core t => exact KeepsRes.advances (execLongStallEnd_keeps core t (.refl _ s) rfl)
  | threadSwitch core => exact KeepsRes.advances (execThreadSwitch_keeps core (.refl _ s) rfl)
  | fcAdd core t err => exact KeepsRes.advances (execFcAdd_keeps core t err (.refl _ s) rfl)
  | fcSub core t err => exact KeepsRes.advances (execFcSub_keeps core t err (.refl _ s) rfl)
  | fcAnd core t err => exact KeepsRes.advances (execFcAnd_keeps core t err (.refl _ s) rfl)
  | fcOr core t err => exact KeepsRes.advances (execFcOr_keeps core t err (.refl _ s) rfl)
  | fcXor core t err => exact KeepsRes.advances (execFcXor_keeps core t err (.refl _ s) rfl)
  | fcShl core t err => exact KeepsRes.advances (execFcShl_keeps core t err (.refl _ s) rfl)
  | fcShr core t err => exact KeepsRes.advances (execFcShr_keeps core t err (.refl _ s) rfl)
  | fcSar core t err => exact KeepsRes.advances (execFcSar_keeps core t err (.refl _ s) rfl)
  | fcSeq core t err => exact KeepsRes.advances (execFcSeq_keeps core t err (.refl _ s) rfl)
  | fcSlt core t err => exact KeepsRes.advances (execFcSlt_keeps core t err (.refl _ s) rfl)
  | fcSltu core t err => exact KeepsRes.advances (execFcSltu_keeps core t err (.refl _ s) rfl)
  | fcMul core t err => exact KeepsRes.advances (execFcMul_keeps core t err (.refl _ s) rfl)
  | fcMulhu core t err => exact KeepsRes.advances (execFcMulhu_keeps core t err (.refl _ s) rfl)
  | fcDstep core t err => exact KeepsRes.advances (execFcDstep_keeps core t err (.refl _ s) rfl)
  | fcSltu128 core t err => exact KeepsRes.advances (execFcSltu128_keeps core t err (.refl _ s) rfl)
  | fcClz core t err => exact KeepsRes.advances (execFcClz_keeps core t err (.refl _ s) rfl)
  | fcPopc core t err => exact KeepsRes.advances (execFcPopc_keeps core t err (.refl _ s) rfl)
  | fcBswap core t err => exact KeepsRes.advances (execFcBswap_keeps core t err (.refl _ s) rfl)
  | fcAddi core t err => exact KeepsRes.advances (execFcAddi_keeps core t err (.refl _ s) rfl)
  | fcAndi core t err => exact KeepsRes.advances (execFcAndi_keeps core t err (.refl _ s) rfl)
  | fcOri core t err => exact KeepsRes.advances (execFcOri_keeps core t err (.refl _ s) rfl)
  | fcXori core t err => exact KeepsRes.advances (execFcXori_keeps core t err (.refl _ s) rfl)
  | fcShli core t err => exact KeepsRes.advances (execFcShli_keeps core t err (.refl _ s) rfl)
  | fcShri core t err => exact KeepsRes.advances (execFcShri_keeps core t err (.refl _ s) rfl)
  | fcSari core t err => exact KeepsRes.advances (execFcSari_keeps core t err (.refl _ s) rfl)
  | fcSeqi core t err => exact KeepsRes.advances (execFcSeqi_keeps core t err (.refl _ s) rfl)
  | fcSlti core t err => exact KeepsRes.advances (execFcSlti_keeps core t err (.refl _ s) rfl)
  | fcSltui core t err => exact KeepsRes.advances (execFcSltui_keeps core t err (.refl _ s) rfl)
  | fcExtu core t err => exact KeepsRes.advances (execFcExtu_keeps core t err (.refl _ s) rfl)
  | fcMovi core t err => exact KeepsRes.advances (execFcMovi_keeps core t err (.refl _ s) rfl)
  | fcLim core t err => exact KeepsRes.advances (execFcLim_keeps core t err (.refl _ s) rfl)
  | fcLd core t err => exact KeepsRes.advances (execFcLd_keeps core t err (.refl _ s) rfl)
  | fcSt core t err => exact KeepsRes.advances (execFcSt_keeps core t err (.refl _ s) rfl)
  | fcSwap core t err => exact KeepsRes.advances (execFcSwap_keeps core t err (.refl _ s) rfl)
  | fcFadd core t err => exact KeepsRes.advances (execFcFadd_keeps core t err (.refl _ s) rfl)
  | fcCas core t err => exact KeepsRes.advances (execFcCas_keeps core t err (.refl _ s) rfl)
  | fcBc core t err => exact KeepsRes.advances (execFcBc_keeps core t err (.refl _ s) rfl)
  | fcJal core t err => exact KeepsRes.advances (execFcJal_keeps core t err (.refl _ s) rfl)
  | fcJr core t err => exact KeepsRes.advances (execFcJr_keeps core t err (.refl _ s) rfl)
  | fcClaim core t err => exact KeepsRes.advances (execFcClaim_keeps core t err (.refl _ s) rfl)
  | fcPut core t err => exact KeepsRes.advances (execFcPut_keeps core t err (.refl _ s) rfl)
  | fcSend core t err => exact KeepsRes.advances (execFcSend_keeps core t err (.refl _ s) rfl)
  | fcRecv core t err => exact KeepsRes.advances (execFcRecv_keeps core t err (.refl _ s) rfl)
  | fcPoll core t err => exact KeepsRes.advances (execFcPoll_keeps core t err (.refl _ s) rfl)
  | fcHalt core t err => exact KeepsRes.advances (execFcHalt_keeps core t err (.refl _ s) rfl)
  | fcWait core t err => exact KeepsRes.advances (execFcWait_keeps core t err (.refl _ s) rfl)
  | fcTime core t err => exact KeepsRes.advances (execFcTime_keeps core t err (.refl _ s) rfl)
  | fcTick core t err => exact KeepsRes.advances (execFcTick_keeps core t err (.refl _ s) rfl)
  | fcTid core t err => exact KeepsRes.advances (execFcTid_keeps core t err (.refl _ s) rfl)
  | fcYield core t err => exact KeepsRes.advances (execFcYield_keeps core t err (.refl _ s) rfl)
  | fcBkpt core t err => exact KeepsRes.advances (execFcBkpt_keeps core t err (.refl _ s) rfl)
  | fcFault core t err => exact KeepsRes.advances (execFcFault_keeps core t err (.refl _ s) rfl)
  | dmaRd core t r err => exact KeepsRes.advances (execDmaRd_keeps core t r err (.refl _ s) rfl)
  | dmaWr core t err => exact KeepsRes.advances (execDmaWr_keeps core t err (.refl _ s) rfl)
  | pktRead core t err => exact KeepsRes.advances (execPktRead_keeps core t err (.refl _ s) rfl)
  | pktWrite core t err => exact KeepsRes.advances (execPktWrite_keeps core t err (.refl _ s) rfl)
  | pktSend core t err => exact KeepsRes.advances (execPktSend_keeps core t err (.refl _ s) rfl)
  | pktFree core t err => exact KeepsRes.advances (execPktFree_keeps core t err (.refl _ s) rfl)
  | pktNew core t err => exact KeepsRes.advances (execPktNew_keeps core t err (.refl _ s) rfl)
  | lookup core t err => exact KeepsRes.advances (execLookup_keeps core t err (.refl _ s) rfl)
  | crypt core t err => exact KeepsRes.advances (execCrypt_keeps core t err (.refl _ s) rfl)
  | count core t err => exact KeepsRes.advances (execCount_keeps core t err (.refl _ s) rfl)
  | gopen core t err => exact KeepsRes.advances (execGopen_keeps core t err (.refl _ s) rfl)
  | gjoin core t err => exact KeepsRes.advances (execGjoin_keeps core t err (.refl _ s) rfl)
  | gclose core t err => exact KeepsRes.advances (execGclose_keeps core t err (.refl _ s) rfl)
  | kill core t => exact KeepsRes.advances (execKill_keeps core t (.refl _ s) rfl)
  | start core t => exact KeepsRes.advances (execStart_keeps core t (.refl _ s) rfl)
  | coreHalt core => exact KeepsRes.advances (execCoreHalt_keeps core (.refl _ s) rfl)
  | thaw core => exact KeepsRes.advances (execThaw_keeps core (.refl _ s) rfl)
  | stop core t => exact KeepsRes.advances (execStop_keeps core t (.refl _ s) rfl)
  | resume core t => exact KeepsRes.advances (execResume_keeps core t (.refl _ s) rfl)
  | debugStep core t => exact KeepsRes.advances (execDebugStep_keeps core t (.refl _ s) rfl)
  | closedWait core => exact KeepsRes.advances (execClosedWait_keeps core (.refl _ s) rfl)
  | hkHeartbeat => exact KeepsRes.advances (execHkHeartbeat_keeps (.refl _ s) rfl)
  | stRead fq idx sgl => exact KeepsRes.advances (execStRead_keeps fq idx sgl (.refl _ s) rfl)
  | stWrite fq idx sgl r => exact KeepsRes.advances (execStWrite_keeps fq idx sgl r (.refl _ s) rfl)
  | stFlush fq idx => exact KeepsRes.advances (execStFlush_keeps fq idx (.refl _ s) rfl)
  | stZero fq idx => exact KeepsRes.advances (execStZero_keeps fq idx (.refl _ s) rfl)
  | stTrim fq idx => exact KeepsRes.advances (execStTrim_keeps fq idx (.refl _ s) rfl)
  | stCmpwrite fq idx cmp r => exact KeepsRes.advances (execStCmpwrite_keeps fq idx cmp r (.refl _ s) rfl)
  | nsConfig cq => exact KeepsRes.advances (execNsConfig_keeps cq (.refl _ s) rfl)
  | stElogConfig cq => exact KeepsRes.advances (execStElogConfig_keeps cq (.refl _ s) rfl)
  | admission => exact KeepsRes.advances (execAdmission_keeps (.refl _ s) rfl)
  | lockGrant cmd => exact KeepsRes.advances (execLockGrant_keeps cmd (.refl _ s) rfl)
  | packCompletion bay cid sf data failLba => exact KeepsRes.advances (execPackCompletion_keeps bay cid sf data failLba (.refl _ s) rfl)
  | bayPowerOn bay => exact KeepsRes.advances (execBayPowerOn_keeps bay (.refl _ s) rfl)
  | bayPowerOff bay force => exact KeepsRes.advances (execBayPowerOff_keeps bay force (.refl _ s) rfl)
  | presenceChange bay present => exact KeepsRes.advances (execPresenceChange_keeps bay present (.refl _ s) rfl)
  | powerSettle bay => exact KeepsRes.advances (execPowerSettle_keeps bay (.refl _ s) rfl)
  | bayLinkUp bay speed width => exact KeepsRes.advances (execBayLinkUp_keeps bay speed width (.refl _ s) rfl)
  | bayTrainingTimeout bay => exact KeepsRes.advances (execBayTrainingTimeout_keeps bay (.refl _ s) rfl)
  | bayInitDone bay ident => exact KeepsRes.advances (execBayInitDone_keeps bay ident (.refl _ s) rfl)
  | bayReadyTimeout bay => exact KeepsRes.advances (execBayReadyTimeout_keeps bay (.refl _ s) rfl)
  | packFailure bay cfs => exact KeepsRes.advances (execPackFailure_keeps bay cfs (.refl _ s) rfl)
  | shutdownComplete bay => exact KeepsRes.advances (execShutdownComplete_keeps bay (.refl _ s) rfl)
  | attentionButton bay => exact KeepsRes.advances (execAttentionButton_keeps bay (.refl _ s) rfl)
  | lifePoll => exact KeepsRes.advances (execLifePoll_keeps (.refl _ s) rfl)
  | pollAnswer bay ok pct crit => exact KeepsRes.advances (execPollAnswer_keeps bay ok pct crit (.refl _ s) rfl)
  | lifeThresholdWrite bay warn ro => exact KeepsRes.advances (execLifeThresholdWrite_keeps bay warn ro (.refl _ s) rfl)
  | nsRebuild cq => exact KeepsRes.advances (execNsRebuild_keeps cq (.refl _ s) rfl)
  | rebuildChunk slot res => exact KeepsRes.advances (execRebuildChunk_keeps slot res (.refl _ s) rfl)
  | commitPoint slot => exact KeepsRes.advances (execCommitPoint_keeps slot (.refl _ s) rfl)
  | journalSubmit slot => exact KeepsRes.advances (execJournalSubmit_keeps slot (.refl _ s) rfl)
  | retireAppend slot => exact KeepsRes.advances (execRetireAppend_keeps slot (.refl _ s) rfl)
  | journalOpen cq media => exact KeepsRes.advances (execJournalOpen_keeps cq media (.refl _ s) rfl)
  | journalClose cq => exact KeepsRes.advances (execJournalClose_keeps cq (.refl _ s) rfl)
  | cgDiscard cq => exact KeepsRes.advances (execCgDiscard_keeps cq (.refl _ s) rfl)
  | cgCtrlWrite v => exact KeepsRes.advances (execCgCtrlWrite_keeps v (.refl _ s) rfl)
  | snapshot n cyc => exact KeepsRes.advances (execSnapshot_keeps n cyc (.refl _ s) rfl)
  | windowRead w => exact KeepsRes.advances (execWindowRead_keeps w (.refl _ s) rfl)
  | windowWrite w => exact KeepsRes.advances (execWindowWrite_keeps w (.refl _ s) rfl)
  | mctpMessage kind body => exact KeepsRes.advances (execMctpMessage_keeps kind body (.refl _ s) rfl)
  | jtagInstruction x => exact KeepsRes.advances (execJtagInstruction_keeps x (.refl _ s) rfl)
  | networkLinkDown port => exact KeepsRes.advances (execNetworkLinkDown_keeps port (.refl _ s) rfl)
  | plantLinkUp port => exact KeepsRes.advances (execPlantLinkUp_keeps port (.refl _ s) rfl)
  | plantLinkDown port => exact KeepsRes.advances (execPlantLinkDown_keeps port (.refl _ s) rfl)
  | tempSensorRead die stack0 stack1 => exact KeepsRes.advances (execTempSensorRead_keeps die stack0 stack1 (.refl _ s) rfl)
  | vppFuseChange inWindow => exact KeepsRes.advances (execVppFuseChange_keeps inWindow (.refl _ s) rfl)
  | plantReferenceLoss => exact KeepsRes.advances (execPlantReferenceLoss_keeps (.refl _ s) rfl)

/-- Settles O2: a command's advance within the mask of its footprint, in the words of the statement. -/
theorem everyCommandCompletes : Obligations.EveryCommandCompletes := by
  unfold Obligations.EveryCommandCompletes
  exact fun c s => (exec_advances_footprint c s).changes _ fun _ => testBit_partMask

/-- Settles O60: an idle step keeps the state, and a command's advance keeps a legal state legal. -/
theorem stepKeepsLegal : Obligations.StepKeepsLegal := by
  unfold Obligations.StepKeepsLegal
  intro s t hlegal h
  obtain rfl | ⟨c, rest, -, hadv⟩ := step_cases h
  · exact hlegal
  · exact hadv.legal hlegal

/-- Settles O59: no memory and no register is listed at reset, and stage 0 needs neither supply nor start step. -/
theorem resetLegal : Obligations.ResetLegal := by
  unfold Obligations.ResetLegal State.legal State.memsWf State.stageLegal
  exact ⟨⟨rfl, rfl, rfl, rfl, rfl⟩, (absurd rfl ·), fun _ => rfl, (absurd · (by decide))⟩

/-- Settles O1: the front command is what a step matches on, and an empty queue idles. -/
theorem stepRunsFront : Obligations.StepRunsFront := by
  unfold Obligations.StepRunsFront
  refine ⟨fun _ _ _ => rfl, fun s h => ?_⟩
  rw [step, h]

end Sys2Proof.Machine
end

section
/-! The start of the block: its state at reset, the returns to stage 0 and 1, the steps of stage 1, the entries to stages 2
and 3, and the boot ring. -/
namespace Sys2Proof.Machine

/-! ### The state at reset -/

/-- Settles O3: every table is empty, so each read gives what an unlisted key reads as. -/
theorem resetState : Obligations.ResetState := by
  unfold Obligations.ResetState
  exact ⟨rfl, rfl, rfl, fun _ => rfl, by decide, by decide, fun _ => rfl, fun _ => rfl, fun _ _ => rfl, fun _ => rfl, rfl,
    rfl, rfl, rfl, fun _ => rfl⟩

/-! ### Returns to stage 0 and 1 -/

/-- The entry to stage 0 that PERST# makes (R65, R69). -/
def stage0 (s : State) : State :=
  enterStage1 { lifeStage1 s.life s.life.resetCause false with
    stage := 0, perst := true, powerUp := s.life.powerUp, jtag := .idcode } Link.reset s

theorem stage1Flr_life (s : State) : (stage1Flr s).life =
    { lifeStage1 s.life 4 s.life.rrs with
      flrStage := true, fusesSensed := s.life.fusesSensed, bistDone := true, dramDone := true,
      bistFail := s.life.bistFail, identityBad := s.life.identityBad } := enterStage1_life ..

theorem stage1Flr_linkUp (s : State) : (stage1Flr s).link.up = s.link.up := by
  rw [stage1Flr, enterStage1_link]; rfl

/-- Settles O5: each return is one entry to stage 0 or 1, which leaves the block cleared with the start state it is given. -/
theorem returnsToStage1 : Obligations.ReturnsToStage1 := by
  unfold Obligations.ReturnsToStage1
  refine ⟨fun s hgood => ?_, fun s hgood hperst => ?_, fun s hstage => ?_, fun s => rfl, fun s hstage hrrs => ?_⟩
  · have hexec : exec .perstAssert s = .next (stage0 s) := by
      show execPerstAssert s = _
      rw [execPerstAssert, hgood]; rfl
    exact ⟨stage0 s, hexec, rfl, rfl, enterStage1_link .., enterStage1_cleared .., rfl⟩
  · have hexec : exec .perstRelease s = .next (stage1Full (if s.life.powerUp then 1 else 2) s) := by
      show execPerstRelease s = _
      rw [execPerstRelease, hgood, hperst]; rfl
    refine ⟨_, hexec, ?_⟩
    rw [stage1Full_life]
    exact ⟨rfl, rfl, rfl, rfl, rfl, rfl, rfl, rfl, stage1Full_cleared _ s, rfl⟩
  · refine ⟨stage1Full 3 s, execHotReset_of_stage hstage, ?_⟩
    rw [stage1Full_life]
    exact ⟨rfl, rfl, rfl, rfl, rfl, rfl, rfl, stage1Full_cleared 3 s, rfl⟩
  · have hexec : exec .flrPf0 s = .next (stage1Flr s) := by
      show execFlrPf0 s = _
      simp [execFlrPf0, hstage, hrrs]
    refine ⟨stage1Flr s, hexec, ?_⟩
    rw [stage1Flr_life]
    exact ⟨rfl, rfl, rfl, rfl, rfl, rfl, rfl, stage1Flr_linkUp s, enterStage1_cleared .., rfl⟩

/-! ### The steps of stage 1 -/

@[simp] theorem addErr_life (off n : Nat) (s : State) : (addErr off n s).life = s.life := addErrAt_life ..

/-- Sensing in stage 1 gives the start state its steps (R43, R47, R50). -/
theorem execFuseSenseDone_life {s : State} (hst : s.life.stage = 1) (hf : s.life.fusesSensed = false) :
    ∃ t, execFuseSenseDone s = .next t ∧ t.life =
      { s.life with fusesSensed := true, smbusUp := true, sensed := protMajority s.life.fuses,
                    identity := s.life.fuses.identity, identityBad := !identityGood s.life.fuses.identity } := by
  refine ⟨_, by rw [execFuseSenseDone, if_pos ⟨hst, by rw [hf]; rfl⟩], ?_⟩
  split <;> simp

/-- Settles O6: each step of stage 1 under its guard. -/
theorem stage1Steps : Obligations.Stage1Steps := by
  unfold Obligations.Stage1Steps
  refine ⟨fun s hst hf => execFuseSenseDone_life hst hf, fun s hst hb => ?_, fun f s hst hb => ?_, fun s hst hd => ?_,
    fun s hst hd => ?_, fun s hst hf hb hd => ?_, fun s h => ?_, fun s => rfl⟩
  · show execBistDone none s = _
    simp [execBistDone, hst, hb]
  · refine ⟨_, ?_, postLog_life .., rfl⟩
    show execBistDone (some f) s = _
    simp [execBistDone, hst, hb, logBistFail, blkDV]
  · show execDramTrainDone false s = _
    simp [execDramTrainDone, hst, hd]
  · exact ⟨_, (if_pos ⟨hst, by rw [hd]; rfl⟩ : execDramTrainDone true s = _).trans (if_pos rfl), postLog_life ..⟩
  · show execStage1Done s = _
    simp [execStage1Done, hst, hf, hb, hd]
  · show execStage1Done s = _
    rw [execStage1Done, if_neg]
    rintro ⟨hst, hf, hb, hd⟩
    simp [hst, hf, hb, hd] at h

/-! ### The entries to stages 2 and 3 -/

theorem execBootEnable_closed {s : State} (h : s.life.stage ≠ 1 ∨ barOpen s 0 = false) :
    execBootEnable s = .next (tlpDropped s) := by
  rw [execBootEnable, if_neg]
  rintro ⟨hst, hbar⟩
  simp [hst, hbar] at h

theorem execGoService_closed {s : State} (h : s.life.stage ≠ 2 ∨ barOpen s 0 = false) :
    execGoService s = .next (tlpDropped s) := by
  rw [execGoService, if_neg]
  rintro ⟨hst, hbar⟩
  simp [hst, hbar] at h

theorem execStage3Entry_waits {s : State} (h : s.life.stage ≠ 2 ∨ s.life.goPending = false ∨ s.life.boot ≠ none) :
    execStage3Entry s = .next s := by
  rw [execStage3Entry, if_neg]
  rintro ⟨hst, hgo, hboot⟩
  simp [hst, hgo, Option.isNone_iff_eq_none.mp hboot] at h

/-- A change of a status page changes the link and the outputs only. -/
theorem pageChanged_frame (fn : Nat) (s : State) : ∃ l o, pageChanged fn s = { s with link := l, out := o } := by
  unfold pageChanged; split
  · exact ⟨_, _, rfl⟩
  · exact (signalMsix_frame ..).imp fun _ => .imp fun _ h => h

@[simp] theorem pageIf_im (b : Bool) (fn : Nat) (s : State) : (pageIf b fn s).im = s.im := by
  unfold pageIf; split
  · obtain ⟨l, o, h⟩ := pageChanged_frame fn s
    rw [h]
  · rfl

/-- An instance written with anything but its reset value reads back. -/
theorem instOf_putInst_of_ne {fn i : Nat} {x : Inst} (hx : x ≠ Inst.none) (s : State) :
    instOf (putInst fn i x s) fn i = x := by
  rw [putInst, instOf, pageIf_im]
  exact tabGet_set_ne _ _ hx

/-- Settles O7: the writes of boot_enable and go_service and the entry to service, each under its guard. -/
theorem stagesOfService : Obligations.StagesOfService := by
  unfold Obligations.StagesOfService
  refine ⟨fun s hst hbar hdone hfail => ?_, fun s hst hbar h => ?_, fun s h => execBootEnable_closed h,
    fun s hst hbar => ?_, fun s h => execGoService_closed h, fun s u hst hgo hboot hhk hparse hu => ⟨?_, ?_⟩,
    fun s hst hgo hboot h => ?_, fun s h => execStage3Entry_waits h⟩
  · show execBootEnable s = _
    simp [execBootEnable, hst, hbar, hdone, hfail]
  · show execBootEnable s = _
    rw [execBootEnable, if_pos ⟨hst, hbar⟩, if_neg]
    rcases h with h | h <;> simp [h]
  · show execGoService s = _
    simp [execGoService, hst, hbar]
  · show execStage3Entry s = _
    simp [execStage3Entry, hst, hgo, hboot, hhk, hparse, hu, instOf, pagesStage]
  · rw [instOf_putInst_of_ne (fun e => by cases congrArg Inst.state e)]
  · show execStage3Entry s = _
    simp only [execStage3Entry, hst, hgo, hboot]
    rcases h with h | h <;> simp [h]

/-! ### The boot ring -/

/-- A fetch of a ready ring reads the descriptor at the head and takes it (R55). -/
theorem execBootDescriptorFetch_data {b : Bytes} {s : State} (h : bootReady s = true) :
    execBootDescriptorFetch (.data b, .good) s = .next (bootTake (bootHead s) (slice b 0 64)
      (hostRead 0 none (bootAddr s (bootHead s)) 64 .bootDescriptor s)) := by
  simp [execBootDescriptorFetch, h, eccCount]

/-- A read of host memory leaves the registers, so the boot ring is where it was. -/
@[simp] theorem hostRead_regs (fn : Fn) (p : Option (BitVec 20)) (a n : Nat) (w : ReadWork) (s : State) :
    (hostRead fn p a n w s).regs = s.regs := by
  obtain ⟨l, o, h⟩ := hostRead_frame fn p a n w s
  rw [h]

@[simp] theorem hostRead_life (fn : Fn) (p : Option (BitVec 20)) (a n : Nat) (w : ReadWork) (s : State) :
    (hostRead fn p a n w s).life = s.life := by
  obtain ⟨l, o, h⟩ := hostRead_frame fn p a n w s
  rw [h]

theorem bootSize_congr {s t : State} (h : t.regs = s.regs) : bootSize t = bootSize s := by
  have hrf : rf t SB_BOOT_RING 0 4 = rf s SB_BOOT_RING 0 4 := by rw [rf, rf, getReg, getReg, h]
  simp only [bootSize, hrf]

theorem bootHead_congr {s t : State} (h : t.regs = s.regs) : bootHead t = bootHead s := by
  simp only [bootHead, rf, getReg, h]

theorem badBootDesc_congr {s t : State} (h : t.regs = s.regs) (k : BitVec 32) (d : Bytes) :
    badBootDesc t k d = badBootDesc s k d := by
  simp only [badBootDesc, bootSize_congr h]

theorem bootTake_done {s : State} {k : BitVec 32} {d : Bytes} (hlap : fld (leWord d 0) 0 2 = lapOf (bootSize s) k)
    (hdone : 2 ≤ fld (leWord d 0) 2 2) : bootTake k d s = bootPass s := by
  simp [bootTake, hlap, hdone]

theorem bootTake_bad {s : State} {k : BitVec 32} {d : Bytes} (hdone : fld (leWord d 0) 2 2 < 2)
    (hbad : badBootDesc s k d = true) : bootTake k d s = bootComplete k d 1 s := by
  simp [bootTake, Nat.not_le.mpr hdone, hbad]

theorem bootTake_good {s : State} {k : BitVec 32} {d : Bytes} (hdone : fld (leWord d 0) 2 2 < 2)
    (hbad : badBootDesc s k d = false) :
    bootTake k d s = { s with life := { s.life with boot := some { index := k, desc := d } } } := by
  simp [bootTake, Nat.not_le.mpr hdone, hbad]

/-- The head after it passed a descriptor. -/
theorem bootHead_bootPass {s : State} (hs : tabSorted none s.regs = true) : bootHead (bootPass s) = bootHead s + 1 := by
  simp only [bootPass, bootHead, rf, getReg_put_same hs, fld]
  apply BitVec.eq_of_toNat_eq
  simp

/-- The registers stay in rising order over a log entry. -/
theorem sorted_postLogAt {s : State} (hs : tabSorted none s.regs = true) (c k b : Nat) (x y z : Word) :
    tabSorted none (postLogAt c k b x y z s).regs = true := by
  unfold postLogAt; simp only [signalLog_regs]
  exact sorted_putReg (sorted_putReg (sorted_putReg (sorted_putReg (sorted_putReg hs _ _) _ _) _ _) _ _) _ _

/-- A read that fails with Unsupported Request passes the head, with a log entry (R55, R89). -/
theorem execBootDescriptorFetch_ur {s : State} (h : bootReady s = true) :
    ∃ u, u.regs = s.regs ∧ u.life = s.life ∧ execBootDescriptorFetch (.ur, .good) s = .next (signalMsix 0 1 (bootPass
      (postLog logDmaFail 0 blkHL (BitVec.ofNat 64 (0 + 0x103 * 2 ^ 16)) (BitVec.ofNat 64 (bootAddr s (bootHead s))) u))) := by
  refine ⟨hostRead 0 none (bootAddr s (bootHead s)) 64 .bootDescriptor s, hostRead_regs .., hostRead_life .., ?_⟩
  simp [execBootDescriptorFetch, h, eccCount, dmaFailEntry, readFailure]

/-- An image of a length inside the limits is read, checked and, where it passes, loaded (R57). -/
theorem execBootLoad_data {b : Bytes} {x : BootDesc} {s : State} (hx : bootServing s 1 = some x)
    (hlo : 512 ≤ le x.desc 0x18 4) (hhi : le x.desc 0x18 4 ≤ 512 + 2 ^ 24) :
    execBootLoad (.data b) s = .next (bootComplete x.index x.desc
      (imageStatus (readImage (le x.desc 0x10 8) (le x.desc 0x18 4) s) false (slice b 0 (le x.desc 0x18 4)))
      (if imageStatus (readImage (le x.desc 0x10 8) (le x.desc 0x18 4) s) false (slice b 0 (le x.desc 0x18 4)) = 0
        then loadImage (slice b 0 (le x.desc 0x18 4)) (readImage (le x.desc 0x10 8) (le x.desc 0x18 4) s)
        else readImage (le x.desc 0x10 8) (le x.desc 0x18 4) s)) := by
  have hlen : ¬ (le x.desc 0x18 4 < 512 ∨ 512 + 2 ^ 24 < le x.desc 0x18 4) := by omega
  simp only [execBootLoad, hx, takeImage, if_neg hlen]

theorem execBootLoad_badLength {img : Read} {x : BootDesc} {s : State} (hx : bootServing s 1 = some x)
    (h : le x.desc 0x18 4 < 512 ∨ 512 + 2 ^ 24 < le x.desc 0x18 4) :
    execBootLoad img s = .next (bootComplete x.index x.desc 3 s) := by
  simp only [execBootLoad, hx, takeImage, if_pos h]
  rfl

/-- A fuse authorisation of a length inside the limits is read, checked and, where it passes, starts its burn (R61). -/
theorem execBootFuse_data {b : Bytes} {x : BootDesc} {s : State} (hx : bootServing s 2 = some x)
    (hlo : 512 ≤ le x.desc 0x18 4) (hhi : le x.desc 0x18 4 ≤ 512 + 2 ^ 24) :
    let u := readImage (le x.desc 0x10 8) (le x.desc 0x18 4) s
    let p := slice (slice b 0 (le x.desc 0x18 4)) 512 16
    let st := if imageStatus u true (slice b 0 (le x.desc 0x18 4)) ≠ 0 then
      imageStatus u true (slice b 0 (le x.desc 0x18 4)) else fuseStatus u p
    execBootFuse (.data b) s = .next (if st ≠ 0 ∨ fuseLinks u p = [] then bootComplete x.index x.desc st u
        else { u with life := { u.life with burn := some ⟨fuseLinks u p⟩ } }) := by
  have hlen : ¬ (le x.desc 0x18 4 < 512 ∨ 512 + 2 ^ 24 < le x.desc 0x18 4) := by omega
  simp only [execBootFuse, hx, takeImage, if_neg hlen]
  exact (apply_ite Host.Outcome.next _ _ _).symm

/-- Settles O8: the fetch by what the descriptor is, the two boot opcodes by their checks, and the burn link by link. -/
theorem bootRing : Obligations.BootRing := by
  unfold Obligations.BootRing
  refine ⟨fun b s hr hdone hlap => ?_, fun b s hr hdone hbad => ?_, fun b s hr hdone hbad => ?_, fun s hr hs => ?_,
    fun b x st s u hx hlo hhi hu hst => ?_, fun img x s hx h => execBootLoad_badLength hx h,
    fun b p x st s u hx hlo hhi hu hp hst => ?_, fun l m rest s hb => ?_, fun l rest s hb => ?_⟩
  · refine (execBootDescriptorFetch_data hr).trans (congrArg _ (bootTake_done ?_ hdone))
    rw [bootSize_congr (hostRead_regs ..), hlap]
  · refine (execBootDescriptorFetch_data hr).trans (congrArg _ (bootTake_bad hdone ?_))
    rw [badBootDesc_congr (hostRead_regs ..), hbad]
  · refine ⟨_, (execBootDescriptorFetch_data hr).trans (congrArg _ (bootTake_good hdone ?_)), ?_, ?_, ?_⟩
    · rw [badBootDesc_congr (hostRead_regs ..), hbad]
    · rw [hostRead_life]
    · exact hostRead_regs ..
    · exact hostRead_out _ _ _ _ _ _ rfl
  · obtain ⟨u, hregs, hlife, hexec⟩ := execBootDescriptorFetch_ur hr
    have hu : tabSorted none u.regs = true := hregs ▸ hs
    refine ⟨_, hexec, ?_, ?_⟩
    · rw [signalMsix_life, bootPass, (putReg_leaves ..).2.2.2.2.1, postLog_life, hlife]
    · rw [bootHead_congr (signalMsix_regs ..), postLog, bootHead_bootPass (sorted_postLogAt hu ..), ← bootHead_congr hregs]
      simp only [bootHead, rf, getReg_postLogAt_below hu (show SB_BOOT_HEAD < FX_LOG_SEQ by decide)]
  · subst hu hst
    exact execBootLoad_data hx hlo hhi
  · subst hu hp hst
    exact execBootFuse_data hx hlo hhi
  · show execFuseLinkBurn true s = _
    simp [execFuseLinkBurn, hb, emit]
  · show execFuseLinkBurn false s = _
    simp [execFuseLinkBurn, hb]

end Sys2Proof.Machine
end

section
/-! The host link: configuration requests, power states, peer windows and precision time measurement. -/
namespace Sys2Proof.Machine

/-! ### Configuration requests and writes -/

theorem cfgReachable_iff {s : State} {fn : Fn} : cfgReachable s fn = true ↔
    linkUp s = true ∧ s.life.rrs = false ∧ s.link.flr.getLsbD fn.val = false ∧ fnPresent s fn.val = true := by
  simp [cfgReachable, and_assoc]

/-- Settles O9: the four outcomes of a request in their order, the device identities, and a write by its reach. -/
theorem configuration : Obligations.Configuration := by
  unfold Obligations.Configuration
  refine ⟨fun fn off s hup => ?_, fun fn off s hup h => ?_, fun fn off s hup hrrs hflr hfn => ?_, fun fn off s h => ?_,
    fun s => ⟨rfl, rfl, rfl, rfl⟩, fun fn f v s h => ?_, fun fn f v s h => ?_⟩
  · show execConfigurationRequest fn off s = _
    simp [execConfigurationRequest, hup]
  · show execConfigurationRequest fn off s = _
    rcases h with h | h <;> simp [execConfigurationRequest, hup, h]
  · show execConfigurationRequest fn off s = _
    rw [execConfigurationRequest, hup, hrrs, hflr, hfn]
    rfl
  · obtain ⟨hup, hrrs, hflr, hfn⟩ := cfgReachable_iff.mp h
    show execConfigurationRequest fn off s = _
    rw [execConfigurationRequest, hup, hrrs, hflr, hfn]
    rfl
  · show execConfigWrite fn f v s = _
    rw [execConfigWrite, if_pos h]
  · show execConfigWrite fn f v s = _
    rw [execConfigWrite, h]
    rfl

/-! ### FLR, Bus Master Enable, power states and PASID Enable -/

/-- A change of PASID Enable faults the instances that are ON but instance 0 (R151). -/
theorem execPasidEnableChange_change {fn : Fn} {on : Bool} {s : State} (h : cfgReachable s fn = true)
    (hne : (cfgOf s fn.val).pasidEnable ≠ on) : execPasidEnableChange fn on s =
      .next (((liveInsts s fn.val).filter (fun i => i != 0 && (instOf s fn.val i).state == .on)).foldl
        (fun s i => instanceFault fn i 0 0 s) (linkBusy (putCfg fn.val { cfgOf s fn.val with pasidEnable := on } s))) := by
  simp only [execPasidEnableChange, h, bne_iff_ne.mpr hne]
  rfl

/-- Settles O10: each event under its guard, and what it leaves where its guard fails. -/
theorem functionPower : Obligations.FunctionPower := by
  unfold Obligations.FunctionPower
  refine ⟨fun fn s hfn h => ?_, fun fn s h => ?_, fun fn s h => ?_, fun fn s h hbme => ?_, fun fn s h hbme => ?_,
    fun fn s hbme => ?_, fun fn s hbme => ?_, fun fn s u h hd3 hu => ?_, fun fn s u h hd3 hu => ?_,
    fun fn on s h hne hzero => ?_, fun fn on i s h hne hlive hi hon => ?_, fun fn s => ?_⟩
  · show execFlr fn s = _
    simp [execFlr, hfn, h]
  · show execFlrDone fn s = _
    simp [execFlrDone, h]
  · show execFlrDone fn s = _
    simp [execFlrDone, h]
  · show execBusMasterEnableClear fn s = _
    simp [execBusMasterEnableClear, h, hbme]
  · show execBusMasterEnableSet fn s = _
    simp [execBusMasterEnableSet, h, hbme]
  · show execBusMasterEnableSet fn s = _
    simp [execBusMasterEnableSet, hbme]
  · show execBusMasterEnableClear fn s = _
    simp [execBusMasterEnableClear, hbme]
  · show execD3hotEntry fn s = _
    simp [execD3hotEntry, h, hd3, hu]
  · show execD0Return fn s = _
    simp [execD0Return, h, hd3, hu]
  · have hnone : (liveInsts s fn.val).filter (fun i => i != 0 && (instOf s fn.val i).state == .on) = [] :=
      List.filter_eq_nil_iff.mpr fun i hi => by simp [hzero i hi]
    exact (execPasidEnableChange_change h hne).trans (by rw [hnone]; rfl)
  · have hone : (liveInsts s fn.val).filter (fun i => i != 0 && (instOf s fn.val i).state == .on) = [i] := by
      simp [hlive, hi, hon]
    exact (execPasidEnableChange_change h hne).trans (by rw [hone]; rfl)
  · show execPasidEnableChange fn _ s = _
    simp [execPasidEnableChange]

/-! ### Accesses of a wrong shape and reads -/

theorem linkUp_of_barOpen {s : State} {fn : Nat} (h : barOpen s fn = true) : linkUp s = true := by
  simp only [barOpen, Bool.and_eq_true] at h
  exact h.1.1

/-- A naturally aligned 8-byte read is one completion of the word. -/
theorem completeRead_word (off : Nat) (h : off % 8 = 0) (fn : Fn) (w : Word) (s : State) :
    completeRead fn off (slice (leBytes 8 w.toNat) (off % 8) 8) s =
      linkBusy (emit (.readCompletion fn (leBytes 8 w.toNat)) s) := by
  have hrun : rcbSplit 8 off 8 = [(off, 8)] := by
    have h64 : 8 ≤ 64 - off % 64 := by omega
    simp [rcbSplit, Nat.min_eq_left h64]
  have hslice : slice (leBytes 8 w.toNat) 0 8 = leBytes 8 w.toNat := rfl
  rw [h, hslice, completeRead, show (leBytes 8 w.toNat).length = 8 from rfl, hrun, List.foldl_cons, List.foldl_nil,
    Nat.sub_self, hslice]

/-- What an access of a wrong shape counts in PF0, and in the other functions (R81, R519). -/
theorem countBar0_zero (off : Nat) (s : State) : countBar0 0 off s = countUnmapped off s := if_pos rfl

theorem countBar0_of_ne {fn : Fn} (h : fn ≠ 0) (off : Nat) (s : State) :
    countBar0 fn off s = addErr (blockErrOff (blockNum blkDV)) 1 s := if_neg h

/-- A read of the right shape of a word of PF0 that a chapter assigns, other than the latch of the time (R81, R320). -/
theorem readBar0_word {off : Nat} {s : State} {w : Word} (h8 : off % 8 = 0) (hns : off ≠ CK_TIME_NS)
    (hw : bar0Word s 0 off = (w, false)) :
    readBar0 0 off 8 s = linkBusy (emit (.readCompletion 0 (leBytes 8 w.toNat)) s) := by
  have hoff : off / 8 * 8 = off := by omega
  have hw' : bar0Word s (0 : Fn).val off = (w, false) := hw
  unfold readBar0
  rw [hoff, if_neg (fun h => hns h.2)]
  dsimp only
  rw [hw']
  exact completeRead_word off h8 0 w s

/-! ### Peer writes -/

/-- A peer write over a live link to a PF3 that exists, whose TLP has no error of its own. -/
theorem execPeerWrite_clean {off : BitVec 30} {d : Bytes} {err : TlpErr} {s : State} (hup : linkUp s = true)
    (hfn : fnPresent s 3 = true) (herr : tlpError 3 err (linkBusy s) = (linkBusy s, false)) :
    execPeerWrite off d err s =
      if !barOpen s 3 then .next (aerReport 3 .unsupportedRequest (linkBusy s))
      else if err = .poisoned then .next (missPeer off.toNat .poisonedTlp (linkBusy s))
      else match ((List.range 16).map (activeWindow s)).find? (fun x =>
          x.enable && decide (0 < x.len) && decide (x.bar ≤ off.toNat) && decide (off.toNat + d.length ≤ x.bar + x.len)) with
        | none => .next (missPeer off.toNat .unsupportedRequest (linkBusy s))
        | some x => .next (landWrite (d.length + 1) (x.dev + (off.toNat - x.bar)) d (linkBusy s)) := by
  simp only [execPeerWrite, hup, hfn, herr]
  rfl

/-- No window takes the bytes. -/
theorem find_window_none {s : State} {o n : Nat} (h : ∀ k, k < 16 → (activeWindow s k).enable = true →
      o < (activeWindow s k).bar ∨ (activeWindow s k).bar + (activeWindow s k).len < o + n ∨ (activeWindow s k).len = 0) :
    ((List.range 16).map (activeWindow s)).find? (fun x =>
      x.enable && decide (0 < x.len) && decide (x.bar ≤ o) && decide (o + n ≤ x.bar + x.len)) = none := by
  rw [List.find?_eq_none]
  intro x hx
  obtain ⟨k, hk, rfl⟩ := List.mem_map.mp hx
  have hmiss := h k (List.mem_range.mp hk)
  simp only [Bool.and_eq_true, decide_eq_true_eq]
  rintro ⟨⟨⟨hen, hlen⟩, hlo⟩, hhi⟩
  have := hmiss hen
  omega

/-- The first enabled window takes the bytes that lie in it. -/
theorem find_window_first {s : State} {o k n : Nat} (hn : n < 16) (hen : (activeWindow s n).enable = true)
    (hlen : 0 < (activeWindow s n).len) (hlo : (activeWindow s n).bar ≤ o)
    (hhi : o + k ≤ (activeWindow s n).bar + (activeWindow s n).len) (hfirst : ∀ m, m < n → (activeWindow s m).enable = false) :
    ((List.range 16).map (activeWindow s)).find? (fun x =>
      x.enable && decide (0 < x.len) && decide (x.bar ≤ o) && decide (o + k ≤ x.bar + x.len)) = some (activeWindow s n) := by
  rw [List.find?_map, List.find?_range_eq_some.mpr]
  · rfl
  · refine ⟨by simp [hen, hlen, hlo, hhi], List.mem_range.mpr hn, fun m hm => by simp [hfirst m hm]⟩

/-! ### PW_COMMIT -/

/-- A fold over the first numbers of a function that changes the state at one of them only. -/
theorem foldl_range_single {α : Type} {f : α → Nat → α} {n k : Nat} (hn : n < k) (hf : ∀ a m, m ≠ n → f a m = a) (a : α) :
    (List.range k).foldl f a = f a n := by
  have hid : ∀ l : List Nat, n ∉ l → ∀ a, l.foldl f a = a := by
    intro l hl
    induction l with
    | nil => exact fun _ => rfl
    | cons x l ih =>
      intro a
      obtain ⟨hx, hl⟩ : n ≠ x ∧ n ∉ l := by simpa using hl
      rw [List.foldl_cons, hf a x hx.symm, ih hl]
  obtain ⟨j, rfl⟩ := Nat.exists_eq_add_of_lt hn
  rw [show n + j + 1 = (n + 1) + j by omega, List.range_add, List.foldl_append,
    hid (List.map _ _) (by simp only [List.mem_map, not_exists, not_and]; omega), List.range_succ, List.foldl_append,
    hid (List.range n) (by simp)]
  rfl

/-- A register after one was written. -/
theorem getReg_putReg {s : State} (hs : tabSorted none s.regs = true) (off o : Nat) (v : Word) :
    getReg (putReg off v s) o = if o = off then v else getReg s o := by
  split
  · next h => rw [h, getReg_put_same hs]
  · next h => exact getReg_put_other hs v h

/-- The windows' words are none of them the commit register. -/
theorem commitRefused_putF_commit {s : State} (hs : tabSorted none s.regs = true) (lo len v sel : Nat) :
    commitRefused (putF HL_PW_COMMIT lo len v s) sel = commitRefused s sel := by
  have hreg : ∀ o, o ≠ HL_PW_COMMIT → getReg (putF HL_PW_COMMIT lo len v s) o = getReg s o :=
    fun o ho => getReg_put_other hs _ ho
  have hrange : ∀ p q : Nat → Bool, (∀ n < 16, p n = q n) → (List.range 16).any p = (List.range 16).any q :=
    fun p q h => by
      rw [Bool.eq_iff_iff, List.any_eq_true, List.any_eq_true]
      constructor <;> rintro ⟨n, hn, hp⟩ <;> exact ⟨n, hn, by simpa [h n (List.mem_range.mp hn)] using hp⟩
  have hwin : ∀ n < 16, nextWindow (putF HL_PW_COMMIT lo len v s) sel n = nextWindow s sel n := fun n hn => by
    have hne : HL_PW_ACTIVE_A n ≠ HL_PW_COMMIT ∧ HL_PW_ACTIVE_B n ≠ HL_PW_COMMIT ∧ HL_PW_SHADOW_A n ≠ HL_PW_COMMIT ∧
        HL_PW_SHADOW_B n ≠ HL_PW_COMMIT := by
      simp only [HL_PW_ACTIVE_A, HL_PW_ACTIVE_B, HL_PW_SHADOW_A, HL_PW_SHADOW_B, HL_PW_COMMIT]; omega
    obtain ⟨h1, h2, h3, h4⟩ := hne
    simp only [nextWindow, activeWindow, hreg _ h1, hreg _ h2, hreg _ h3, hreg _ h4]
  unfold commitRefused
  refine hrange _ _ fun n hn => ?_
  have hothers : (List.range 16).any (fun m => m != n &&
        windowsOverlap (nextWindow s sel n) (nextWindow (putF HL_PW_COMMIT lo len v s) sel m)) =
      (List.range 16).any (fun m => m != n && windowsOverlap (nextWindow s sel n) (nextWindow s sel m)) :=
    hrange _ _ fun m hm => by rw [hwin m hm]
  rw [hwin n hn]
  dsimp only
  rw [hothers]

/-- The shadow set of a window becomes its active set. -/
def copyWindow (n : Nat) (s : State) : State :=
  putReg (HL_PW_ACTIVE_B n) (getReg s (HL_PW_SHADOW_B n)) (putReg (HL_PW_ACTIVE_A n) (getReg s (HL_PW_SHADOW_A n)) s)

/-- A commit of one window that is not refused copies that window alone (R104). -/
theorem pwCommit_single {n : Nat} {s : State} (hs : tabSorted none s.regs = true) (hn : n < 16)
    (h : commitRefused s (2 ^ n) = false) :
    ∃ f, pwCommit (BitVec.ofNat 64 (2 ^ n)) s = copyWindow n (putF HL_PW_COMMIT 16 16 f s) := by
  have hlt : 2 ^ n < 2 ^ 16 := Nat.pow_lt_pow_right (by norm_num) hn
  have hsel : fld (BitVec.ofNat 64 (2 ^ n)) 0 16 = 2 ^ n := by
    rw [fld, BitVec.toNat_ofNat, Nat.mod_eq_of_lt (hlt.trans (by norm_num)), Nat.shiftRight_zero, Nat.mod_eq_of_lt hlt]
  refine ⟨(getReg s HL_PW_COMMIT &&& ~~~ BitVec.ofNat 64 (2 ^ n)).toNat / 2 ^ 16, ?_⟩
  unfold pwCommit
  dsimp only
  rw [hsel, commitRefused_putF_commit hs, if_neg (by simp [h]), foldl_range_single hn, if_pos (Nat.testBit_two_pow_self)]
  · rfl
  · intro a m hm
    rw [if_neg (by simp [Nat.testBit_two_pow_of_ne hm.symm])]

/-- What the registers of the windows read once a window's shadow set was copied. -/
theorem getReg_copyWindow {n : Nat} {s : State} (hs : tabSorted none s.regs = true) :
    getReg (copyWindow n s) (HL_PW_ACTIVE_A n) = getReg s (HL_PW_SHADOW_A n) ∧
    getReg (copyWindow n s) (HL_PW_ACTIVE_B n) = getReg s (HL_PW_SHADOW_B n) ∧
    ∀ m, m < 16 → m ≠ n → getReg (copyWindow n s) (HL_PW_ACTIVE_A m) = getReg s (HL_PW_ACTIVE_A m) := by
  have hA : ∀ m, HL_PW_ACTIVE_A m ≠ HL_PW_ACTIVE_B n := fun m => by
    simp only [HL_PW_ACTIVE_A, HL_PW_ACTIVE_B]; omega
  refine ⟨?_, getReg_put_same (sorted_putReg hs ..) _ _, fun m _ hne => ?_⟩
  · exact (getReg_put_other (sorted_putReg hs ..) _ (hA n)).trans (getReg_put_same hs _ _)
  · refine (getReg_put_other (sorted_putReg hs ..) _ (hA m)).trans (getReg_put_other hs _ ?_)
    simp only [HL_PW_ACTIVE_A]; omega

theorem setupWrite_of_open {s : State} (h : setupOpen s = true) (f : State → State) : setupWrite s f = linkBusy (f s) :=
  if_pos h

theorem setupWrite_of_closed {s : State} (h : setupOpen s = false) (f : State → State) : setupWrite s f = tlpDropped s :=
  if_neg (by simp [h])

/-- Settles O12: each access by its BAR, its shape and its error, and a commit of one window. -/
theorem peerWindows : Obligations.PeerWindows := by
  unfold Obligations.PeerWindows
  refine ⟨fun fn off len s hup hfn hbar => ⟨?_, ?_, ?_⟩, fun off s hbar => ?_, fun fn off len s h0 hfn hbar hshape => ?_,
    fun fn off len s hfn hbar => ?_, fun off w s hbar h8 hns hw => ?_, fun off d s hbar hfn => ?_,
    fun off d s hup hfn => ⟨?_, fun hecrc => ?_, fun hbar => ?_⟩, fun off d s hbar hfn hmiss => ?_,
    fun off d n s hbar hfn hn hen hlen hlo hhi hfirst => ?_, fun off s hup => ?_, fun v s hopen => ?_, fun v s hopen => ?_,
    fun v s hclosed => ⟨?_, ?_⟩, fun n s hn hs hopen hcommit => ?_⟩
  · show execBadShapeAccess fn off (.read0 len) s = _
    simp [execBadShapeAccess, hup, hfn, hbar, refuseRead]
  · show execBadShapeAccess fn off (.read2 len) s = _
    simp [execBadShapeAccess, hup, hfn, hbar, refuseRead]
  · show execBadShapeAccess fn off .write s = _
    simp [execBadShapeAccess, hup, hfn, hbar, tlpDropped]
  · show execBadShapeAccess 0 off .write s = _
    simp [execBadShapeAccess, linkUp_of_barOpen hbar, hbar, badShape, fnPresent, countBar0_zero]
  · show execBadShapeAccess fn off (.read0 len) s = _
    simp [execBadShapeAccess, linkUp_of_barOpen hbar, hfn, hbar, hshape, refuseRead, badShape, countBar0_of_ne h0]
  · show execBadShapeAccess fn off (.read2 len) s = _
    simp [execBadShapeAccess, linkUp_of_barOpen hbar, hfn, hbar]
  · show execBadShapeAccess 0 off (.read0 8) s = _
    simp [execBadShapeAccess, linkUp_of_barOpen hbar, fnPresent, hbar, rightShape, h8, readBar0_word h8 hns hw]
  · show execPeerWrite off d .poisoned s = _
    rw [execPeerWrite_clean (linkUp_of_barOpen hbar) hfn rfl, hbar]
    rfl
  · show execPeerWrite off d .malformed s = _
    simp [execPeerWrite, hup, hfn, tlpError]
  · have herr : tlpError 3 .ecrc (linkBusy s) = (aerReport 3 .ecrcError (linkBusy s), true) := if_pos hecrc
    show execPeerWrite off d .ecrc s = _
    simp [execPeerWrite, hup, hfn, herr]
  · show execPeerWrite off d .none s = _
    rw [execPeerWrite_clean hup hfn rfl, hbar]
    rfl
  · show execPeerWrite off d .none s = _
    rw [execPeerWrite_clean (linkUp_of_barOpen hbar) hfn rfl, hbar, find_window_none hmiss]
    rfl
  · show execPeerWrite off d .none s = _
    rw [execPeerWrite_clean (linkUp_of_barOpen hbar) hfn rfl, hbar, find_window_first hn hen hlen hlo hhi hfirst]
    rfl
  · show execPeerRead off s = _
    rw [execPeerRead, if_pos hup]
  · show execPwCommit v s = _
    rw [execPwCommit, setupWrite_of_open hopen]
  · show execQuiesce v s = _
    rw [execQuiesce, setupWrite_of_open hopen]
  · exact congrArg _ (setupWrite_of_closed hclosed _)
  · exact congrArg _ (setupWrite_of_closed hclosed _)
  · obtain ⟨f, hcopy⟩ := pwCommit_single hs hn hcommit
    have hneA : HL_PW_SHADOW_A n ≠ HL_PW_COMMIT := by simp only [HL_PW_SHADOW_A, HL_PW_COMMIT]; omega
    have hneB : HL_PW_SHADOW_B n ≠ HL_PW_COMMIT := by simp only [HL_PW_SHADOW_B, HL_PW_COMMIT]; omega
    have hneActive : ∀ m < 16, HL_PW_ACTIVE_A m ≠ HL_PW_COMMIT := fun m hm => by
      simp only [HL_PW_ACTIVE_A, HL_PW_COMMIT]; omega
    obtain ⟨hA, hB, hothers⟩ := getReg_copyWindow (sorted_putF hs HL_PW_COMMIT 16 16 f)
    have hleft : ∀ {o}, o ≠ HL_PW_COMMIT → getReg (putF HL_PW_COMMIT 16 16 f s) o = getReg s o := getReg_put_other hs _
    refine ⟨_, congrArg Host.Outcome.next ((setupWrite_of_open hopen _).trans (congrArg linkBusy hcopy)), hA.trans (hleft hneA),
      hB.trans (hleft hneB), fun m hm hmn => (hothers m hm hmn).trans (hleft (hneActive m hm))⟩

/-! ### Precision time measurement -/

/-- The four results of an exchange in their registers. -/
def ptmResults (t1 t4 master prop : Word) (s : State) : State :=
  putReg HL_PTM_MASTER master (putReg HL_PTM_PROP prop (putReg HL_PTM_T1 t1 (putReg HL_PTM_T4 t4 s)))

theorem sorted_ptmResults {s : State} (hs : tabSorted none s.regs = true) (t1 t4 m p : Word) :
    tabSorted none (ptmResults t1 t4 m p s).regs = true :=
  sorted_putReg (sorted_putReg (sorted_putReg (sorted_putReg hs ..) ..) ..) ..

/-- A register once the results are written. -/
theorem getReg_ptmResults {s : State} (hs : tabSorted none s.regs = true) (t1 t4 m p : Word) (o : Nat) :
    getReg (ptmResults t1 t4 m p s) o = if o = HL_PTM_MASTER then m else if o = HL_PTM_PROP then p
      else if o = HL_PTM_T1 then t1 else if o = HL_PTM_T4 then t4 else getReg s o := by
  rw [ptmResults, getReg_putReg (sorted_putReg (sorted_putReg (sorted_putReg hs ..) ..) ..),
    getReg_putReg (sorted_putReg (sorted_putReg hs ..) ..), getReg_putReg (sorted_putReg hs ..), getReg_putReg hs]

/-- Settles O13: a start by what triggers it, the four results and the count of a response, and a time-out. -/
theorem precisionTime : Obligations.PrecisionTime := by
  unfold Obligations.PrecisionTime
  refine ⟨fun c s hopen hptm => ?_, fun c s hopen hptm => ?_, fun c s hauto hdue => ?_, fun c s h => ?_,
    fun m p c t1 s hptm hs => ?_, fun t1 s hptm => ?_, fun s hptm => ?_⟩
  · show execPtmTrigger c s = _
    simp [execPtmTrigger, setupWrite, hopen, ptmStart, hptm]
  · show execPtmTrigger c s = _
    simp [execPtmTrigger, setupWrite, hopen, ptmStart, hptm]
  · show execPtmPeriod c s = _
    simp [execPtmPeriod, ptmIsDue, hauto, hdue, ptmPeriod]
  · show execPtmPeriod c s = _
    rcases h with h | h <;> simp [execPtmPeriod, ptmIsDue, h]
  · show ∃ t, execPtmResponse m p c s = .next t ∧ _
    simp only [execPtmResponse, hptm]
    have hctrl : HL_PTM_CTRL ≠ HL_PTM_MASTER ∧ HL_PTM_CTRL ≠ HL_PTM_PROP ∧ HL_PTM_CTRL ≠ HL_PTM_T1 ∧
        HL_PTM_CTRL ≠ HL_PTM_T4 := by decide
    obtain ⟨hmaster, hprop, ht1, ht4⟩ := hctrl
    have hres := getReg_ptmResults (s := linkBusy { s with link := { s.link with ptm := none } }) hs t1
      (time64 (clockAt s c.val)) m (p.setWidth 64)
    have hsort := sorted_ptmResults (s := linkBusy { s with link := { s.link with ptm := none } }) hs t1
      (time64 (clockAt s c.val)) m (p.setWidth 64)
    refine ⟨_, rfl, ?_, ?_, ?_, ?_, ?_, rfl⟩
    · exact (getReg_put_other hsort _ ht1.symm).trans (hres _)
    · exact (getReg_put_other hsort _ ht4.symm).trans (hres _)
    · exact (getReg_put_other hsort _ hmaster.symm).trans (hres _)
    · exact (getReg_put_other hsort _ hprop.symm).trans (hres _)
    · refine (rf_putF_same hsort (by norm_num)).trans (congrArg (fun w => (fld w 32 32 + 1) % 2 ^ 32) ?_)
      exact (hres _).trans (by rw [if_neg hmaster, if_neg hprop, if_neg ht1, if_neg ht4]; rfl)
  · show execPtmTimeout s = _
    simp [execPtmTimeout, hptm]
  · show execPtmTimeout s = _
    simp [execPtmTimeout, hptm]

end Sys2Proof.Machine
end

section
/-! Register space, the monitors, device faults and Clove time. -/
namespace Sys2Proof.Machine

/-! ### Register writes, snapshots and windows -/

/-- The register row of the first words of the windows' shadow sets. -/
def rowPwShadowA : RegRow := ⟨0x31000, 0x10, 16, 0x0, 1, 0x1FFFFF3FFFFFC1#64, 0x0#64, 0x0#64, 0x0#64⟩

theorem regRow_HL_PW_SHADOW_A_zero : regRow (HL_PW_SHADOW_A 0) = some rowPwShadowA := by decide

theorem blockOf_HL_PW_SHADOW_A_zero : blockOf (HL_PW_SHADOW_A 0) = some ⟨blkHL, 0x30000, 16⟩ := by decide

/-- No effect of its own stands for a write of a shadow set. -/
theorem ownWrite_HL_PW_SHADOW_A_zero (low : Bool) (w : Word) (s : State) : ownWrite (HL_PW_SHADOW_A 0) low w s = none := by
  have hnet : unformed s (HL_PW_SHADOW_A 0) = false := rfl
  have hqe : qeCtlHeld s (HL_PW_SHADOW_A 0) = false := by rw [qeCtlHeld, Bool.and_assoc]; exact Bool.and_false _
  have hdbg : debugHeld s (HL_PW_SHADOW_A 0) = false := by rw [debugHeld, Bool.and_assoc]; exact Bool.and_false _
  unfold ownWrite
  rw [hnet, hqe, hdbg]
  rfl

/-- A write of the whole of window 0's first shadow word, with setup space open, sets its RW bits. -/
theorem registerWrite_HL_PW_SHADOW_A_zero {s : State} (h : s.life.stage1Done = true) (v : Word) :
    registerWrite 0 (HL_PW_SHADOW_A 0) false v s = putReg (HL_PW_SHADOW_A 0)
      ((getReg s (HL_PW_SHADOW_A 0) &&& ~~~ 0x1FFFFF3FFFFFC1#64) ||| (v &&& 0x1FFFFF3FFFFFC1#64)) s := by
  have hopen : blockOpen s blkHL = true := by simp [blockOpen, h]
  have hrow : registerWrite 0 (HL_PW_SHADOW_A 0) false v s =
      writeRow (HL_PW_SHADOW_A 0) rowPwShadowA (BitVec.allOnes 64) v s := by
    show writePf0 (HL_PW_SHADOW_A 0) (BitVec.allOnes 64) v s = _
    rw [writePf0, if_neg (by decide)]
    simp only [blockOf_HL_PW_SHADOW_A_zero, hopen, regRow_HL_PW_SHADOW_A_zero]
    rfl
  have hplain : plainValue rowPwShadowA (getReg s (HL_PW_SHADOW_A 0)) (BitVec.allOnes 64) v =
      (getReg s (HL_PW_SHADOW_A 0) &&& ~~~ 0x1FFFFF3FFFFFC1#64) ||| (v &&& 0x1FFFFF3FFFFFC1#64) := by
    simp only [plainValue, rowPwShadowA, BitVec.and_allOnes, BitVec.and_zero, BitVec.not_zero]
  rw [hrow, writeRow, ownWrite_HL_PW_SHADOW_A_zero, ← hplain]
  rfl

/-- What a window's control register holds once an operation ended (R524). -/
theorem winEnd_ctrl {s : State} (hs : tabSorted none s.regs = true) (w k : Nat) :
    getReg (winEnd w k s) (DV_WIN_CTRL w) = setFld (setFld (setBit (getReg s (DV_WIN_CTRL w)) 3 true) 8 8 k) 32 32
      (rf s (DV_WIN_CTRL w) 32 32 + 1) := getReg_put_same hs _ _

/-- Settles O15: a write by its alignment and its BAR, the bits of a plain write, and the ends of window operations. -/
theorem registerSpace : Obligations.RegisterSpace := by
  unfold Obligations.RegisterSpace
  refine ⟨fun fn off four v s hal hbar hfn => ?_, fun fn off four v s hal h => ?_, fun fn off four v s hal => ?_,
    fun v s hopen => ?_, fun r old m v i _ => ?_, fun n c s hopen => ?_, fun w s hopen hst => ?_, fun w s hopen hst => ?_,
    fun w wr k s hopen hst h0 h5 => ?_, fun w k s hs hk => ⟨?_, ?_, ?_⟩⟩
  · show execRegisterWrite fn off four v s = _
    rw [execRegisterWrite, if_neg (by simp [hal]), if_pos (by simp [hbar, hfn])]
  · show execRegisterWrite fn off four v s = _
    rw [execRegisterWrite, if_neg (by simp [hal]), if_neg (by rcases h with h | h <;> simp [h])]
  · show execRegisterWrite fn off four v s = _
    rw [execRegisterWrite, if_pos hal]
    rfl
  · obtain ⟨hbar, hdone⟩ : barOpen s 0 = true ∧ s.life.stage1Done = true := by simpa [setupOpen] using hopen
    have hexec : exec (.registerWrite 0 (BitVec.ofNat 26 (HL_PW_SHADOW_A 0)) false v) s =
        .next (registerWrite 0 (HL_PW_SHADOW_A 0) false v (linkBusy s)) := by
      show execRegisterWrite 0 (BitVec.ofNat 26 (HL_PW_SHADOW_A 0)) false v s = _
      rw [execRegisterWrite, if_neg (by decide), if_pos (by simp [hbar, fnPresent])]
      rfl
    exact ⟨_, hexec, registerWrite_HL_PW_SHADOW_A_zero (s := linkBusy s) hdone v⟩
  · refine (bit_plainValue r old m v i).trans ?_
    simp only [bit]
    by_cases hc : (r.w1c.getLsbD i && m.getLsbD i && v.getLsbD i) = true
    · obtain ⟨⟨hw, hm⟩, hv⟩ : (r.w1c.getLsbD i = true ∧ m.getLsbD i = true) ∧ v.getLsbD i = true := by simpa using hc
      simp only [hw, hm, hv, Bool.and_true, Bool.not_true, Bool.and_false, if_true]
    · have hclear : (v.getLsbD i && r.w1c.getLsbD i && m.getLsbD i) = false := by
        rw [Bool.and_assoc, Bool.and_comm]; exact Bool.not_eq_true _ ▸ hc
      rw [if_neg hc, hclear, Bool.not_false, Bool.and_true]
      rfl
  · show execSnapshot n c s = _
    rw [execSnapshot, setupWrite_of_open hopen]
  · show execWindowRead w s = _
    rw [execWindowRead, setupWrite_of_open hopen, winGo, hst]
    rfl
  · show execWindowWrite w s = _
    rw [execWindowWrite, setupWrite_of_open hopen, winGo, hst]
    rfl
  · have hgo : winGo w.val wr s = winEnd w.val k s := by
      unfold winGo
      rw [hst]
      exact (if_neg h0).trans (if_neg h5)
    cases wr with
    | true =>
      show execWindowWrite w s = _
      rw [execWindowWrite, setupWrite_of_open hopen, hgo]
    | false =>
      show execWindowRead w s = _
      rw [execWindowRead, setupWrite_of_open hopen, hgo]
  · rw [rb, winEnd_ctrl hs, bit_setFld (by norm_num), bit_setFld (by norm_num)]
    simp [bit_setBit_same]
  · rw [rf, winEnd_ctrl hs, fld_setFld_other (by norm_num) (by norm_num), fld_setFld_same (by norm_num)]
    exact Nat.mod_eq_of_lt hk
  · rw [rf, winEnd_ctrl hs, fld_setFld_same (by norm_num)]

/-! ### Monitors, management and JTAG -/

/-- A part of a field that was set reads as that part of its value. -/
theorem fld_setFld_part {w : Word} {lo len v a n : Nat} (h : lo + len ≤ 64) (hlo : lo ≤ a) (hhi : a + n ≤ lo + len) :
    fld (setFld w lo len v) a n = (v >>> (a - lo)) % 2 ^ n := by
  apply Nat.eq_of_testBit_eq; intro i
  rw [testBit_fld, bit_setFld h, Nat.testBit_mod_two_pow, Nat.testBit_shiftRight]
  by_cases hi : i < n
  · rw [if_pos (by omega), show a + i - lo = a - lo + i by omega]
  · simp [hi]

/-- The hottest of a list of sensors is numbered no higher than its length. -/
theorem hottest_index_le (xs : List (BitVec 8)) (i : Nat) (best : Nat × Int) :
    (hottest xs i best).1 ≤ max best.1 (i + xs.length - 1) := by
  induction xs generalizing i best with
  | nil => exact le_max_left _ _
  | cons x xs ih =>
    refine (ih ..).trans ?_
    simp only [List.length_cons]
    split <;> omega

theorem wrapInt_lt (len : Nat) (z : Int) : wrapInt len z < 2 ^ len := by
  have := Int.emod_lt_of_pos z (show (0 : Int) < ((2 ^ len : Nat) : Int) by positivity)
  unfold wrapInt
  omega

/-- The fields of a word of the temperatures (R549). -/
theorem tempWord_fields {a b c d e f g : Nat} (ha : a < 2 ^ 8) (hb : b < 2 ^ 8) (hc : c < 2 ^ 8) (hd : d < 2 ^ 8)
    (he : e < 2 ^ 8) (hf : f < 2) (hg : g < 2) {w : Word} (hw : w = BitVec.ofNat 64 (a + b * 2 ^ 8 + c * 2 ^ 16 + d * 2 ^ 24
      + e * 2 ^ 32 + f * 2 ^ 40 + g * 2 ^ 41)) :
    fld w 24 8 = d ∧ fld w 32 8 = e ∧ fld w 40 1 = f ∧ fld w 41 1 = g := by
  subst hw
  simp only [fld, BitVec.toNat_ofNat, Nat.shiftRight_eq_div_pow]
  omega

theorem bit_eq_fld (w : Word) (i : Nat) : bit w i = true ↔ fld w i 1 = 1 := by
  have h := testBit_fld w i 1 0
  have hlt : fld w i 1 < 2 := Nat.mod_lt _ (by norm_num)
  rw [show (decide (0 < 1) && bit w (i + 0)) = bit w i by simp] at h
  rw [← h]
  interval_cases fld w i 1 <;> simp

/-- The flag of a stack above 95 °C (R549). -/
def hotFlag (b : BitVec 8) : Nat := if 95 < signed 8 b.toNat then 1 else 0

theorem hotFlag_lt (b : BitVec 8) : hotFlag b < 2 := by unfold hotFlag; split <;> norm_num

theorem hotFlag_eq_one (b : BitVec 8) : hotFlag b = 1 ↔ 95 < signed 8 b.toNat := by unfold hotFlag; split <;> simp [*]

/-- A read of the sensors writes one word of the temperatures (R549). -/
theorem execTempSensorRead_word {s : State} (hst : s.life.stage ≠ 0) (hs : tabSorted none s.regs = true) (x : BitVec 8)
    (xs : List (BitVec 8)) (a b : BitVec 8) : ∃ t n i p, execTempSensorRead (x :: xs) a b s = .next t ∧ n < 2 ^ 8 ∧
      i < 2 ^ 8 ∧ p < 2 ^ 8 ∧ t.mon.tempSeen = true ∧ getReg t DV_TEMP = BitVec.ofNat 64 (n + i * 2 ^ 8 + p * 2 ^ 16 +
        a.toNat * 2 ^ 24 + b.toNat * 2 ^ 32 + hotFlag a * 2 ^ 40 + hotFlag b * 2 ^ 41) := by
  have hidx : (hottest (xs.take 15) 1 (0, signed 8 x.toNat)).1 < 2 ^ 8 := by
    have hle := hottest_index_le (xs.take 15) 1 (0, signed 8 x.toNat)
    have hlen := List.length_take_le 15 xs
    have hzero : ((0, signed 8 x.toNat) : Nat × Int).1 = 0 := rfl
    omega
  refine ⟨_, _, _, _, if_neg hst, wrapInt_lt 8 _, hidx, wrapInt_lt 8 _, ?_, getReg_put_same (s := { s with mon := _ }) hs _ _⟩
  rfl

/-- What a tick of the PMBus master sends (R554): nothing, or one read. -/
theorem tickPmbus_out (s : State) : (tickPmbus s).out = s.out ∨ ∃ a v, (tickPmbus s).out = .pmbusRead a v :: s.out := by
  unfold tickPmbus
  split
  · exact .inl rfl
  dsimp only
  split
  · exact .inl rfl
  split
  · exact .inl rfl
  split
  · exact .inl rfl
  all_goals exact .inr ⟨_, _, rfl⟩

/-- Settles O16: the monitors' registers by their fields, the management answers, JTAG by its lock, and the PMBus. -/
theorem monitors : Obligations.Monitors := by
  unfold Obligations.Monitors
  refine ⟨fun cs s hon hst => ?_, fun cs s hoff => ?_, fun c w => rfl, fun s hopen hs => ?_, fun s haon => ?_,
    fun b s => rfl, fun x xs a b s hst hs => ?_, fun k m s hdown => ?_, fun m s hup hhk => ?_, fun m s hup => ?_,
    fun s hst => ?_, fun s hst hlock => ?_, fun s hst hsense => ?_, fun s hst hsense hlock => ?_,
    fun s => ⟨fun hhk => ?_, tickPmbus_out s⟩⟩
  · show execPaceWindow cs s = _
    rw [execPaceWindow, if_pos ⟨hon, hst⟩]
  · show execPaceWindow cs s = _
    rw [execPaceWindow, if_neg (by simp [hoff])]
  · refine ⟨_, congrArg Host.Outcome.next (setupWrite_of_open hopen _), ?_, ?_, ?_, ?_⟩
    · exact (congrArg (fld · 16 16) (getReg_put_same hs _ _)).trans
        (fld_setFld_part (by norm_num) (by norm_num) (by norm_num))
    · exact (congrArg (fld · 32 16) (getReg_put_same hs _ _)).trans
        (fld_setFld_part (by norm_num) (by norm_num) (by norm_num))
    · exact rf_putF_field hs (by norm_num) (by norm_num)
    · exact rf_putF_field hs (by norm_num) (by norm_num)
  · show execThermTrip s = _
    rw [execThermTrip, if_pos haon]
    rfl
  · obtain ⟨t, n, i, p, hexec, hn, hi, hp, hseen, hreg⟩ := execTempSensorRead_word hst hs x xs a b
    obtain ⟨h24, h32, h40, h41⟩ := tempWord_fields hn hi hp a.isLt b.isLt (hotFlag_lt a) (hotFlag_lt b) hreg
    refine ⟨t, hexec, h24, h32, hseen, ?_, ?_⟩
    · rw [rb, bit_eq_fld, h40, hotFlag_eq_one]
    · rw [rb, bit_eq_fld, h41, hotFlag_eq_one]
  · show execMctpMessage k m s = _
    simp [execMctpMessage, hdown]
  · show execMctpMessage .vendor m s = _
    simp [execMctpMessage, hup, hkRuns, hhk]
  · show execMctpMessage .control m s = _
    simp [execMctpMessage, hup, hkRuns]
  · show execJtagInstruction .idcode s = _
    simp [execJtagInstruction, hst, jtagIdcode]
  · show execJtagInstruction .debug s = _
    simp [execJtagInstruction, hlock]
  · show execJtagInstruction .debug s = _
    simp [execJtagInstruction, hsense]
  · show execJtagInstruction .debug s = _
    simp [execJtagInstruction, hst, hsense, hlock]
  · rw [tickPmbus, hhk]
    rfl

/-! ### Device faults -/

theorem signalMsix_linkUp (fn : Fn) (v : Nat) (s : State) : (signalMsix fn v s).link.up = s.link.up := by
  unfold signalMsix
  split
  · split <;> rfl
  · rfl

theorem signalLog_linkUp (s : State) : (signalLog s).link.up = s.link.up := by
  unfold signalLog
  cases s.link.logSignalled with
  | none => exact signalMsix_linkUp ..
  | some t =>
    simp only
    split
    · exact signalMsix_linkUp ..
    · rfl

theorem postLogAt_linkUp (c k b : Nat) (x y z : Word) (s : State) : (postLogAt c k b x y z s).link.up = s.link.up := by
  unfold postLogAt
  simp only [signalLog_linkUp, putReg_leaves]

theorem aerReport_linkUp (fn : Fn) (a : Aer) (s : State) : (aerReport fn a s).link.up = s.link.up := by
  unfold aerReport aerRecord aerHeaderLog aerBits
  simp only
  split <;> (try split) <;> rfl

theorem postFaultEntry_life (s : State) : (postFaultEntry s).life = s.life := by
  unfold postFaultEntry
  split
  · rfl
  · exact postLogAt_life ..

theorem postFaultEntry_linkUp (s : State) : (postFaultEntry s).link.up = s.link.up := by
  unfold postFaultEntry
  split
  · rfl
  · exact postLogAt_linkUp ..

/-- The record of a device fault at a time (R516). -/
def faultRec (cause block detail : Nat) (s : State) : FaultRec :=
  { cause := BitVec.ofNat 8 cause, block := BitVec.ofNat 5 block, detail := BitVec.ofNat 32 detail, time := now64 s }

theorem recordFault_rrs (r : FaultRec) (l : Life) : (recordFault r l).rrs = l.rrs := by
  unfold recordFault
  split <;> rfl

/-- A device fault records itself and enters stage 1, the link as it was (R505). -/
theorem deviceFault_life {s : State} (h : s.life.stage ≠ 0) (cause block detail : Nat) :
    (deviceFault cause block detail s).life =
      lifeStage1 (recordFault (faultRec cause block detail s) s.life) 5 s.life.rrs := by
  unfold deviceFault
  rw [if_neg h]
  dsimp only
  have hrrs := recordFault_rrs (faultRec cause block detail s) s.life
  split <;> simp only [postLog_life, postFaultEntry_life, enterStage1_life, aerReport_life] <;> rw [← hrrs] <;> rfl

theorem deviceFault_linkUp {s : State} (h : s.life.stage ≠ 0) (cause block detail : Nat) :
    (deviceFault cause block detail s).link.up = s.link.up := by
  unfold deviceFault
  rw [if_neg h]
  dsimp only
  split
  · rw [postLog, postLogAt_linkUp, postFaultEntry_linkUp, enterStage1_link]
    exact aerReport_linkUp ..
  · rw [postFaultEntry_linkUp, enterStage1_link]
    exact aerReport_linkUp ..

theorem recordFault_latch (r : FaultRec) (l : Life) : (recordFault r l).faultLatch = some r := by
  unfold recordFault
  split <;> rfl

/-- Settles O17: what a device fault records, and the stage and the reset cause that it leaves. -/
theorem deviceFaults : Obligations.DeviceFaults := by
  unfold Obligations.DeviceFaults
  refine ⟨fun x s hst => ?_, fun s hst => ?_, fun s hst hhk hbeat => ?_, fun x s hst hnone => ?_,
    fun x f s hst hsome hsat => ?_⟩
  · have hlife := deviceFault_life hst 1 blkDV x.toNat
    refine ⟨_, faultRec 1 blkDV x.toNat s, rfl, ?_, rfl, ?_, rfl, ?_, ?_, ?_, deviceFault_linkUp hst ..⟩
    · rw [hlife]; exact recordFault_latch ..
    · exact (BitVec.ofNat_toNat ..)
    all_goals rw [hlife]; rfl
  · have hlife := deviceFault_life hst 2 blkDV 0
    refine ⟨_, faultRec 2 blkDV 0 s, rfl, ?_, rfl, ?_, ?_⟩
    · rw [hlife]; exact recordFault_latch ..
    all_goals rw [hlife]; rfl
  · have hne : s.life.stage ≠ 0 := fun h => by simp [h] at hst
    have hlife := deviceFault_life hne 4 blkFC 0
    have hexec : exec .hkHeartbeat s = .next (deviceFault 4 blkFC 0 s) := by
      show execHkHeartbeat s = _
      rw [execHkHeartbeat, if_neg (by simp [hhk]; omega)]
    refine ⟨_, faultRec 4 blkFC 0 s, hexec, ?_, rfl, ?_, ?_⟩
    · rw [hlife]; exact recordFault_latch ..
    all_goals rw [hlife]; rfl
  · have hlife := deviceFault_life hst 1 blkDV x.toNat
    refine ⟨_, rfl, ?_⟩
    rw [hlife]
    simp [recordFault, hnone, lifeStage1]
  · have hlife := deviceFault_life hst 1 blkDV x.toNat
    refine ⟨_, rfl, ?_⟩
    rw [hlife]
    simp [recordFault, hsome, hsat, lifeStage1]

/-! ### Clove time -/

/-- Two states of one time: the tick, the time base and the steps of the start are the same. -/
def SameTime (s t : State) : Prop :=
  t.ticks = s.ticks ∧ t.clk = s.clk ∧ t.mon.rateCyc = s.mon.rateCyc ∧ t.life = s.life

theorem SameTime.refl (s : State) : SameTime s s := ⟨rfl, rfl, rfl, rfl⟩

theorem SameTime.trans {s t u : State} (h : SameTime s t) (k : SameTime t u) : SameTime s u := by
  obtain ⟨h1, h2, h3, h4⟩ := h
  obtain ⟨k1, k2, k3, k4⟩ := k
  exact ⟨k1.trans h1, k2.trans h2, k3.trans h3, k4.trans h4⟩

theorem SameTime.foldl {α : Type} {f : State → α → State} (h : ∀ u x, SameTime u (f u x)) (l : List α) (s : State) :
    SameTime s (l.foldl f s) := by
  induction l generalizing s with
  | nil => exact .refl s
  | cons x l ih => exact (h s x).trans (ih _)

theorem tickLink_sameTime (s : State) : SameTime s (tickLink s) := by
  unfold tickLink
  split <;> exact ⟨rfl, rfl, rfl, rfl⟩

theorem tickCores_sameTime (s : State) : SameTime s (tickCores s) :=
  .foldl (fun u c => by split <;> exact ⟨rfl, rfl, rfl, rfl⟩) _ _

theorem tickHeart_sameTime (s : State) : SameTime s (tickHeart s) := by
  unfold tickHeart
  split <;> exact ⟨rfl, rfl, rfl, rfl⟩

theorem tickCb_sameTime (s : State) : SameTime s (tickCb s) :=
  .foldl (fun u e => by dsimp only; split <;> exact ⟨rfl, rfl, rfl, rfl⟩) _ _

theorem channelMode_sameTime (c : Nat) (s : State) : SameTime s (channelMode c s) := by
  unfold channelMode
  dsimp only
  split <;> split <;> exact ⟨rfl, rfl, rfl, rfl⟩

theorem tickChannels_sameTime (s : State) : SameTime s (tickChannels s) := .foldl (fun u c => channelMode_sameTime c u) _ _

theorem tickPmbus_sameTime (s : State) : SameTime s (tickPmbus s) := by
  unfold tickPmbus
  split
  · exact .refl s
  dsimp only
  split
  · exact ⟨rfl, rfl, rfl, rfl⟩
  split
  · exact ⟨rfl, rfl, rfl, rfl⟩
  split <;> exact ⟨rfl, rfl, rfl, rfl⟩

theorem tickLog_sameTime (s : State) : SameTime s (tickLog s) := by
  unfold tickLog
  split
  · obtain ⟨l, o, h⟩ := signalLog_frame s
    rw [h]
    exact ⟨rfl, rfl, rfl, rfl⟩
  · exact .refl s

/-- Whatever a tick does after it advanced the time base leaves the time. -/
theorem execCloveTick_time {s : State} (h : s.life.stage ≠ 0) :
    ∃ t, execCloveTick s = .next t ∧ SameTime (tickTime s) t := by
  refine ⟨tickLog (tickPmbus (tickChannels (tickCb (tickHeart (tickCores (tickLink (tickTime s))))))), ?_, ?_⟩
  · rw [execCloveTick, if_neg h]
  · refine .trans ?_ (tickLog_sameTime _)
    refine .trans ?_ (tickPmbus_sameTime _)
    refine .trans ?_ (tickChannels_sameTime _)
    refine .trans ?_ (tickCb_sameTime _)
    refine .trans ?_ (tickHeart_sameTime _)
    exact (tickLink_sameTime _).trans (tickCores_sameTime _)

/-- The nanoseconds and the fraction of a word of a time (R320). -/
theorem nsWord_fields (c : Clock) {n : Nat} (hn : n < 2 ^ 16) {w : Word}
    (hw : w = BitVec.ofNat 64 (nsWord c + n * 2 ^ 48)) :
    fld w 0 32 = c.ns.toNat ∧ fld w 32 16 = c.frac.toNat ∧ fld w 48 16 = n := by
  have hns := c.ns.isLt
  have hfrac := c.frac.isLt
  subst hw
  simp only [fld, nsWord, BitVec.toNat_ofNat, Nat.shiftRight_eq_div_pow]
  omega

theorem getReg_linkBusy (s : State) (off : Nat) : getReg (linkBusy s) off = getReg s off := rfl

/-- A latch holds the whole time of its cycle (R320). -/
theorem execTimeLatch_words {s : State} (hopen : setupOpen s = true) (hs : tabSorted none s.regs = true) (c : Cyc) :
    ∃ t, execTimeLatch c s = .next t ∧ getReg t CK_TIME_SEC = BitVec.ofNat 64 (clockAt s c.val).sec.toNat ∧
      rf t CK_TIME_NS 0 32 = (clockAt s c.val).ns.toNat ∧ rf t CK_TIME_NS 32 16 = (clockAt s c.val).frac.toNat := by
  unfold execTimeLatch
  dsimp only
  rw [setupWrite_of_open hopen]
  generalize clockAt s c.val = x
  have hns := (getReg_put_other (sorted_putReg hs ..) (BitVec.ofNat 64 x.sec.toNat)
    (show CK_TIME_NS ≠ CK_TIME_SEC by decide)).trans (getReg_put_same hs CK_TIME_NS (BitVec.ofNat 64 (nsWord x)))
  obtain ⟨h0, h32, -⟩ := nsWord_fields x (n := 0) (by norm_num) (hns.trans (by rw [Nat.zero_mul, Nat.add_zero]))
  refine ⟨_, rfl, ?_⟩
  rw [rf, rf, getReg_linkBusy, getReg_linkBusy]
  exact ⟨getReg_put_same (sorted_putReg hs ..) _ _, h0, h32⟩

/-- An edge of PPS_IN latches the whole time of its cycle and counts (R322). -/
theorem execPpsInEdge_words {s : State} (hdone : s.life.stage1Done = true) (hs : tabSorted none s.regs = true) (c : Cyc) :
    ∃ t, execPpsInEdge c s = .next t ∧ getReg t CK_PPS_IN_SEC = BitVec.ofNat 64 (clockAt s c.val).sec.toNat ∧
      rf t CK_PPS_IN_NS 0 32 = (clockAt s c.val).ns.toNat ∧
      rf t CK_PPS_IN_NS 48 16 = (rf s CK_PPS_IN_NS 48 16 + 1) % 2 ^ 16 := by
  unfold execPpsInEdge
  dsimp only
  rw [if_pos hdone]
  generalize clockAt s c.val = x
  have hcount : (rf s CK_PPS_IN_NS 48 16 + 1) % 65536 < 2 ^ 16 := Nat.mod_lt _ (by norm_num)
  generalize (rf s CK_PPS_IN_NS 48 16 + 1) % 65536 = n at hcount ⊢
  have hns := (getReg_put_other (sorted_putReg hs ..) (BitVec.ofNat 64 x.sec.toNat)
    (show CK_PPS_IN_NS ≠ CK_PPS_IN_SEC by decide)).trans
    (getReg_put_same hs CK_PPS_IN_NS (BitVec.ofNat 64 (nsWord x + n * 2 ^ 48)))
  obtain ⟨h0, -, h48⟩ := nsWord_fields x hcount hns
  exact ⟨_, rfl, getReg_put_same (sorted_putReg hs ..) _ _, h0, h48⟩

/-- Settles O18: the time after a tick, the two ends of a step, the words of a latch and of an edge, and the pins. -/
theorem cloveTime : Obligations.CloveTime := by
  unfold Obligations.CloveTime
  refine ⟨fun s hst => ?_, fun s hst => ?_, fun c n _ => ?_, fun v c s hopen hlo hhi => ?_, fun v c s hopen hlo => ?_,
    fun c s hopen hs => ?_, fun s hsel => ?_, fun s hsel => ?_, fun s hst hen hsec => ?_, fun c s hdone hs => ?_⟩
  · obtain ⟨t, hexec, hticks, hclk, hcyc, hlife⟩ := execCloveTick_time hst
    exact ⟨t, hexec, hticks, hclk, hcyc, hlife⟩
  · show execCloveTick s = _
    rw [execCloveTick, if_pos hst]
  · show (BitVec.ofNat 32 (_ % 1000000000)).toNat < 1000000000
    rw [BitVec.toNat_ofNat]
    exact (Nat.mod_le _ _).trans_lt (Nat.mod_lt _ (by norm_num))
  · show execCkStep v c s = _
    rw [execCkStep, setupWrite_of_open hopen, ckStep, if_neg (by omega)]
  · show execCkStep v c s = _
    rw [execCkStep, setupWrite_of_open hopen, ckStep, if_pos (.inl hlo)]
  · exact execTimeLatch_words hopen hs c
  · show execCloveRef s = _
    rw [execCloveRef, if_pos hsel]
    rfl
  · show execCloveRef s = _
    rw [execCloveRef, if_neg (by simp [hsel])]
  · show execPpsOutEdge s = _
    rw [execPpsOutEdge, if_pos (by simp [inService, hst, hen, hsec])]
    rfl
  · exact execPpsInEdge_words hdone hs c

end Sys2Proof.Machine
end

section
/-! The queue engine: the entry that runs next, NOP and COUNT_DELTA, hints, doorbell records, sweeps, fetches, completions,
queue management and events. -/
namespace Sys2Proof.Machine

/-! ### The entry that runs -/

/-- The next entry of a queue runs in the state that the waiting members have been tried in. -/
theorem nextEntry_of_nextIs {s u : State} {fn fq op : Nat} {e : Entry} (h : NextIs s fn fq op e u)
    (run : Entry → State → State) : nextEntry fn fq op run s = run e u := by
  obtain ⟨rfl, hnext⟩ := h
  unfold nextEntry
  dsimp only
  rw [hnext]

/-- With no entry of the opcode next, nothing runs. -/
theorem nextEntry_of_none {s : State} {fn fq op : Nat} (h : entryWith (joinWaiting fn fq s) fn fq op = none)
    (run : Entry → State → State) : nextEntry fn fq op run s = joinWaiting fn fq s := by
  unfold nextEntry
  dsimp only
  rw [h]

/-- An entry of NOP or COUNT_DELTA runs, past its commit point or next. -/
theorem nextCounted_of_countedIs {s u : State} {fn fq op : Nat} {e : Entry} (h : CountedIs s fn fq op e u)
    (run : Entry → State → State) : nextCounted fn fq op run s = run e u := by
  unfold nextCounted
  rcases h with ⟨hpast, rfl⟩ | ⟨hpast, hnext⟩
  · rw [hpast]
  · rw [hpast]
    exact nextEntry_of_nextIs hnext run

/-- An opcode of the queues of PF0 instance 0 runs. -/
theorem adminRun_of_adminIs {s u : State} {cq op : Nat} {e : Entry} (h : AdminIs s cq op e u) (run : Entry → State → State) :
    adminRun op cq run s = run e u := by
  obtain ⟨hnext, hadmin⟩ := h
  exact (nextEntry_of_nextIs hnext _).trans (if_pos hadmin)

/-! ### NOP and COUNT_DELTA -/

/-- An entry that does not fail finishes by its record alone (R134). -/
theorem finish_good (fn fq st : Nat) (idx aux : BitVec 32) (r : Option Bytes) (s : State) :
    finish fn fq idx false st aux r s = markDone fn fq idx false st aux r s := rfl

/-- Settles O22: each opcode in a group and outside one, the pair that the deltas reach, and the entry that finishes. -/
theorem nopAndCountDelta : Obligations.NopAndCountDelta := by
  unfold Obligations.NopAndCountDelta
  refine ⟨fun fn fq e s u h hg => ?_, fun fn fq e g s u h hg => ?_, fun fn fq e p s u h hg hp => ?_, fun pl p a b s hs => ?_,
    fun fn fq s hpast hnone => ?_, fun fn fq st idx aux r s => rfl⟩
  · show execNop fn fq s = _
    rw [execNop, nextCounted_of_countedIs h, runNop, hg]
  · show execNop fn fq s = _
    rw [execNop, nextCounted_of_countedIs h, runNop, hg]
  · show execCountDelta fn fq s = _
    rw [execCountDelta, nextCounted_of_countedIs h, runCountDelta]
    dsimp only
    rw [hp, hg]
  · exact tabGet_set_same hs _ _
  · show execNop fn fq s = _
    rw [execNop, nextCounted, hpast]
    exact congrArg _ (nextEntry_of_none hnone _)

/-! ### Hints, doorbell records and sweeps -/

/-- The fields of a hint of a queue and an advisory index (R128). -/
theorem hintChunk_fields {q a : Nat} (hq : q < 2 ^ 20) (ha : a < 2 ^ 32) {w : Word} (hw : w = BitVec.ofNat 64 (q + a * 2 ^ 32)) :
    fld w 0 20 = q ∧ fld w 20 10 = 0 ∧ bit w 30 = false ∧ bit w 31 = false ∧ fld w 32 32 = a := by
  have h30 : bit w 30 = true ↔ fld w 30 1 = 1 := bit_eq_fld w 30
  have h31 : bit w 31 = true ↔ fld w 31 1 = 1 := bit_eq_fld w 31
  rw [← Bool.not_eq_true, ← Bool.not_eq_true, h30, h31]
  subst hw
  simp only [fld, BitVec.toNat_ofNat, Nat.shiftRight_eq_div_pow]
  omega

/-- A hint that breaks a rule is dropped (R128). -/
theorem hint_dropped {fn : Fn} {i : Nat} {c : Word} {n : Nat} {full : Bool} {s : State}
    (h : n ≠ 8 ∨ full = true ∨ instOn s fn.val i = false ∨ fld c 20 10 ≠ 0) : hint fn i c n full s = dropHint s := by
  unfold hint
  dsimp only
  rw [if_pos]
  rcases h with h | h | h | h
  · exact .inl h
  · exact .inr (.inl h)
  · exact .inr (.inr (.inl (by simp [h])))
  · exact .inr (.inr (.inr (.inl h)))

/-- A hint of a running queue is accepted and counted (R128). -/
theorem hint_queue {fn : Fn} {i q a : Nat} {s : State} (hq : q < 2 ^ 20) (ha : a < 2 ^ 32) (hon : instOn s fn.val i = true)
    (hshare : q < share s .queues fn.val) (hrun : (queueOf s fn.val (i * share s .queues fn.val + q)).qstate = .running) :
    hint fn i (BitVec.ofNat 64 (q + a * 2 ^ 32)) 8 false s =
      queueHint fn (i * share s .queues fn.val + q) a (addStat QE_HINT_ACCEPTED 1 s) := by
  obtain ⟨h0, h20, h30, h31, h32⟩ := hintChunk_fields hq ha rfl
  unfold hint
  simp only [h0, h20, h30, h31, h32, hon]
  rw [if_neg (by simp), if_neg (by simp), if_neg]
  simp only [not_or, not_le, ne_eq, not_not]
  exact ⟨hshare, hrun⟩

/-- A queue that was written with something reads back. -/
theorem queueOf_putQueue {x : Queue} (h : x ≠ Queue.none) (fn fq : Nat) (s : State) :
    queueOf (putQueue fn fq x s) fn fq = x := tabGet_set_ne _ _ h

/-- A running queue is not one that was never configured. -/
theorem Queue.ne_none_of_running {q : Queue} (h : q.qstate = .running) : q ≠ Queue.none := by
  rintro rfl
  cases h

/-- A record read comes back to a running queue of an ON instance that waits for it (R119). -/
theorem execDoorbellRecordReturn_data {fn : Fn} {fq : BitVec 20} {q : Queue} {s v u : State}
    (hv : v = hostReadDone fn (.doorbell fq) s) (hq : q = { queueOf v fn.val fq.toNat with reading := false })
    (hread : (queueOf v fn.val fq.toNat).reading = true) (hrun : q.qstate = .running) (hu : u = putQueue fn.val fq.toNat q v)
    (hon : instOn u fn.val (queueInst u fn.val fq.toNat) = true) (b : Bytes) :
    execDoorbellRecordReturn fn fq (.data b) s = .next (if badProd q (BitVec.ofNat 32 (le b 0 4)) then
      stopRecord fn fq.toNat 0x114 u
    else issueOwed fn fq.toNat
      (putQueue fn.val fq.toNat { q with pSeen := BitVec.ofNat 32 (le b 0 4), holdFetch := false } u)) := by
  have hback : queueOf u fn.val fq.toNat = q := hu ▸ queueOf_putQueue (Queue.ne_none_of_running hrun) ..
  rw [execDoorbellRecordReturn, recordReturn, BitVec.ofNat_toNat, BitVec.setWidth_eq, ← hv]
  dsimp only
  rw [hread, ← hq, ← hu, hback, hrun, hon]
  rfl

/-- Settles O19: a hint by its checks, a record by its P, and a sweep by its instance. -/
theorem doorbells : Obligations.Doorbells := by
  unfold Obligations.Doorbells
  refine ⟨fun fn p c s hbar hfn => ?_, fun fn p c n full s hbar hfn h => ?_, fun fn p c n full s hbar => ?_,
    fun fn p q a s u hbar hfn hu hon hshare hrun => ?_, fun fn fq r s v hv hread => ?_,
    fun fn fq b q s v u hv hq hread hrun hu hon hgood => ?_, fun fn fq b q s v u hv hq hread hrun hu hon hbad => ?_,
    fun fn inst s hen hdue hoff => ?_, fun fn inst fq s t hen hdue hon hqs howner hsweep hrun ht => ?_⟩
  · show execHint fn p c 8 false s = _
    rw [execHint, if_pos (by simp [hbar, hfn])]
  · show execHint fn p c n full s = _
    rw [execHint, if_pos (by simp [hbar, hfn]), hint_dropped]
    exact h
  · show execHint fn p c n full s = _
    rw [execHint, if_neg (by simp [hbar])]
  · show execHint fn p _ 8 false s = _
    rw [execHint, if_pos (by simp [hbar, hfn]), hu]
    exact congrArg _ (hint_queue q.isLt a.isLt hon hshare hrun)
  · show execDoorbellRecordReturn fn fq r s = _
    rw [execDoorbellRecordReturn, recordReturn, BitVec.ofNat_toNat, BitVec.setWidth_eq, ← hv]
    dsimp only
    rw [hread]
    rfl
  · exact execDoorbellRecordReturn_data hv hq hread hrun hu hon b |>.trans (congrArg _ (if_neg (by simp [hgood])))
  · exact execDoorbellRecordReturn_data hv hq hread hrun hu hon b |>.trans (congrArg _ (if_pos hbad))
  · show execSweep fn inst s = _
    unfold execSweep
    dsimp only
    rw [if_neg (by simp [hen, hdue]), hoff]
    rfl
  · have hone : (queuesOf s fn.val).filter (fun fq => queueInst s fn.val fq == inst.toNat && bit (queueOf s fn.val fq).w0 4 &&
        (queueOf s fn.val fq).qstate == .running) = [fq] := by
      simp [hqs, howner, hsweep, hrun]
    show execSweep fn inst s = _
    unfold execSweep
    dsimp only
    rw [if_neg (by simp [hen, hdue]), hone, hon, ht]
    rfl

/-! ### Fetches -/

/-- A fetch of a queue that may fetch and has an entry to fetch (R123). -/
theorem fetchDescriptor_data {fn : Fn} {fq : BitVec 20} {q : Queue} {k : BitVec 32} {s u : State}
    (hu : u = joinWaiting fn.val fq.toNat s) (hmay : mayFetch u fn.val fq.toNat = true) (hq : q = queueOf u fn.val fq.toNat)
    (hk : k = nextFetch q q.entries.length q.fetch) (hne : k ≠ q.pSeen) (b : Bytes) :
    fetchDescriptor fn fq.toNat (.data b) s = takeDescriptor fn fq.toNat k (slice b 0 64)
      (instRead fn (queueInst (putQueue fn.val fq.toNat { q with fetch := k } u) fn.val fq.toNat) (entryAddr q k) 64
        (.descriptor fq) (putQueue fn.val fq.toNat { q with fetch := k } u)) := by
  unfold fetchDescriptor
  dsimp only
  rw [← hu, hmay, ← hq, ← hk, if_neg (by simp), if_neg hne, BitVec.ofNat_toNat, BitVec.setWidth_eq]

/-- Settles O20: a fetch by what the queue may do, and the checks of a descriptor in their order. -/
theorem fetches : Obligations.Fetches := by
  unfold Obligations.Fetches
  refine ⟨fun fn fq b s u hu hmay => ?_, fun fn fq b q k s u v hu hmay hq hk hne hv => ?_, fun fn fq k d s hrun hmember => ?_,
    fun s fn fq q k d hlap => ?_, fun s fn fq q k d hlap hst hop => ?_, fun s fn fq q k d hlap hst hop hres => ?_⟩
  · show Host.Outcome.next (fetchDescriptor fn fq.toNat (.data b) s) = _
    unfold fetchDescriptor
    dsimp only
    rw [← hu, hmay]
    rfl
  · exact congrArg Host.Outcome.next ((fetchDescriptor_data hu hmay hq hk hne b).trans (by rw [hv]))
  · have hphase : (if (commitsAtFetch (lef d 0 4 8) && !bit (leWord d 0) 14) = true then Phase.past else .fetched) =
        if lef d 0 4 8 = 0xF0 ∨ lef d 0 4 8 = 0xF1 then .past else .fetched := by
      simp [commitsAtFetch, hmember]
    unfold takeDescriptor
    dsimp only
    rw [hrun]
    dsimp only
    rw [hphase, if_neg (by simp [groupMember, newEntry, hmember])]
  · have hfirst : fld (leWord d 0) 0 2 ≠ lapOf (ringSize q) k ∨ fld (leWord d 0) 2 2 = 0 := .inl hlap
    unfold checkEntry
    exact if_pos hfirst
  · have hlap' : fld (leWord d 0) 0 2 = lapOf (ringSize q) k := hlap
    have hst' : fld (leWord d 0) 2 2 = 1 := hst
    have hop' : opValid (queueKind q) (fld (leWord d 0) 4 8) = false := hop
    simp [checkEntry, hlap', hst', hop']
  · have hlap' : fld (leWord d 0) 0 2 = lapOf (ringSize q) k := hlap
    have hst' : fld (leWord d 0) 2 2 = 1 := hst
    have hop' : opValid (queueKind q) (fld (leWord d 0) 4 8) = true := hop
    simp [checkEntry, hlap', hst', hop', hres]

/-! ### Completions -/

/-- No entry of the head's index leaves the list as it is. -/
theorem advanceHead_of_ne {es : List Entry} {h : BitVec 32} (hne : ∀ e ∈ es, e.idx ≠ h) : advanceHead es h = (es, h) := by
  cases es with
  | nil => rfl
  | cons e es => rw [advanceHead, if_neg fun h => hne e List.mem_cons_self h.1]

/-- Settles O21: a batch by the queue's state and its instance, and the steps of the head. -/
theorem completionBatches : Obligations.CompletionBatches := by
  unfold Obligations.CompletionBatches
  refine ⟨fun fn fq s h => ?_, fun fn fq s u hrun hdma hon hu hmoved => ?_, fun fn fq s hrun hdma hoff => ?_,
    fun es h hne => advanceHead_of_ne hne, fun e es h hidx hphase => ?_⟩
  · show execCompletionBatch fn fq s = _
    rw [execCompletionBatch]
    rcases h with h | h <;> simp [writesCompletions, h]
  · show execCompletionBatch fn fq s = _
    unfold execCompletionBatch
    dsimp only
    rw [if_neg (by simp [writesCompletions, hrun, hdma]), hon, ← hu, hmoved]
    rfl
  · show execCompletionBatch fn fq s = _
    unfold execCompletionBatch
    dsimp only
    rw [if_neg (by simp [writesCompletions, hrun, hdma]), hoff]
    rfl
  · rw [advanceHead]
    simp [hidx, hphase]

/-! ### Queue management -/

/-- Settles O23: each opcode by the checks its target passes, the end of a disable, and QE_CTL_SETUP. -/
theorem queueManagement : Obligations.QueueManagement := by
  unfold Obligations.QueueManagement
  refine ⟨fun cq e st s u h hst => ?_, fun cq e s u h hgood hbar hdis => ?_, fun cq e s u h hgood hbar hdis => ?_,
    fun cq e q s u h hgood hself hq => ?_, fun cq e q s u h hgood hbar hq hstop hr => ?_,
    fun cq e q s u h hgood hbar hq hstop hr hr' => ?_, fun cq e fn n s u h hfn hn hpres hpool hen hlo hhi hoff => ?_,
    fun fn fq s h => ?_, fun fn fq s h => ?_, fun s hopen hbusy hst hshare hcfg => ?_,
    fun s hopen hbusy hst hshare hdis => ?_, fun s hopen hbusy => ⟨?_, ?_⟩⟩
  · show execQueueConfig cq s = _
    rw [execQueueConfig, adminRun_of_adminIs h, hst]
  · show execQueueEnable cq s = _
    rw [execQueueEnable, adminRun_of_adminIs h]
    simp [hgood, hbar, hdis]
  · show execQueueEnable cq s = _
    rw [execQueueEnable, adminRun_of_adminIs h]
    simp [hgood, hbar, hdis]
  · show execQueueDisable cq s = _
    rw [execQueueDisable, adminRun_of_adminIs h]
    dsimp only
    rw [if_neg (by simp only [hgood, not_or]; exact ⟨by simp, hself⟩), ← hq]
    cases q.qstate <;> rfl
  · show execQueueResume cq s = _
    rw [execQueueResume, adminRun_of_adminIs h]
    dsimp only
    rw [← hq, hr]
    rcases hstop with hstop | hstop <;> simp [hgood, hbar, hstop]
  · show execQueueResume cq s = _
    rw [execQueueResume, adminRun_of_adminIs h]
    dsimp only
    rw [← hq]
    have hnext : BitVec.ofNat 32 (le e.desc 0x18 4) ≠ q.latched + 1#32 := hr'
    rcases hstop with hstop | hstop <;> simp [hgood, hbar, hstop, hr, hnext]
  · show execEvqConfig cq s = _
    rw [execEvqConfig, adminRun_of_adminIs h]
    dsimp only
    rw [← hfn, ← hn, if_neg (by simp [hpres]; omega), hen, if_neg (by simp), if_neg (by omega), hoff]
    rfl
  · show execDisableDone fn fq s = _
    rw [execDisableDone, if_pos h]
  · show execDisableDone fn fq s = _
    rw [execDisableDone, if_neg (by simp [h])]
  · show execQeCtlEnable s = _
    rw [execQeCtlEnable, setupWrite_of_open hopen]
    simp [hbusy, inService, hst, hshare, hcfg]
  · show execQeCtlDisable s = _
    rw [execQeCtlDisable, setupWrite_of_open hopen]
    simp [hbusy, inService, hst, Nat.not_le.mpr hshare, hdis]
  · show execQeCtlEnable s = _
    rw [execQeCtlEnable, setupWrite_of_open hopen, if_pos hbusy]
  · show execQeCtlDisable s = _
    rw [execQeCtlDisable, setupWrite_of_open hopen, if_pos hbusy]

/-! ### Event queues and interrupt messages -/

/-- A consumer record read that an event queue waits for comes back, with no arming to check (R143). -/
theorem execConsumerRecordReturn_data {fn : Fn} {n : BitVec 16} {e : Evq} {s v : State}
    (hv : v = hostReadDone fn (.consumer n) s) (he : e = evqOf v fn.val n.toNat) (hread : e.reading = true)
    (hen : bit e.w0 0 = true) (harm : e.armCheck = false) (b : Bytes) :
    execConsumerRecordReturn fn n (.data b, .good) s = .next (rereadConsumer fn n.toNat e.reread (consumerSeen fn n.toNat
      (putEvq fn.val n.toNat
        { e with reading := false, armCheck := false, reread := none, consSeen := BitVec.ofNat 32 (le b 0 4) } v))) := by
  unfold execConsumerRecordReturn
  dsimp only
  rw [← hv, ← he, if_neg (by simp [hread, hen])]
  dsimp only [eccCount]
  unfold consumerReturn
  dsimp only
  rw [← he, harm]
  rfl

/-- Settles O24: the record that an event queue waits for, the reads that an overflow and a hint owe, and a message. -/
theorem eventsAndMessages : Obligations.EventsAndMessages := by
  unfold Obligations.EventsAndMessages
  refine ⟨fun fn n b e s v hv he hread hen harm hre => ?_, fun fn n b arm e s v hv he hread hen harm hre => ?_,
    fun fn n r ecc s v hv hread => ?_, fun fn n s hen hover => ?_, fun g s h => ?_, fun g s h => ?_, fun fn n ev s h => ?_⟩
  · exact (execConsumerRecordReturn_data hv he hread hen harm b).trans (by rw [hre]; rfl)
  · exact (execConsumerRecordReturn_data hv he hread hen harm b).trans (by rw [hre])
  · show execConsumerRecordReturn fn n (r, ecc) s = _
    unfold execConsumerRecordReturn
    dsimp only
    rw [← hv, if_pos (by simp [hread])]
  · show execOverflowReread fn n s = _
    simp [execOverflowReread, hen, hover]
  · have hexec : execInterruptMessage (g, .good) s = .next (sendMessage g.toNat s) := by
      unfold execInterruptMessage
      dsimp only
      rw [if_neg (by simp [h])]
      rfl
    refine ⟨_, hexec, ?_⟩
    unfold sendMessage
    rw [if_pos h]
    exact ⟨rfl, rfl, rfl, rfl, rfl⟩
  · show execInterruptMessage (g, .good) s = _
    unfold execInterruptMessage
    dsimp only
    rw [if_pos (by simp [h])]
  · unfold postEvent
    dsimp only
    rw [if_pos (by simp [h])]
    rfl

end Sys2Proof.Machine
end

section
/-! Instances: their opcodes, drains, shares and registers. -/
namespace Sys2Proof.Machine

/-! ### The opcodes of an instance -/

/-- An instance that its function holds, with a PASID where it needs one, passes the check of R152. -/
theorem instEnable_allowed {u : State} {fn i : Nat} (hi : i < instCount u fn) (hfn : fnPresent u fn = true)
    (hpasid : i = 0 ∨ (cfgOf u fn).pasidEnable = true) :
    ¬ (instCount u fn ≤ i ∨ (!fnPresent u fn) = true ∨ (i ≠ 0 ∧ (!(cfgOf u fn).pasidEnable) = true)) := by
  rintro (h | h | ⟨h0, h⟩)
  · omega
  · simp [hfn] at h
  · rcases hpasid with h' | h'
    · exact h0 h'
    · simp [h'] at h

/-- Settles O25: each opcode on its target by the checks in their order; PF0 instance 0 fails the first. -/
theorem instanceOpcodes : Obligations.InstanceOpcodes := by
  unfold Obligations.InstanceOpcodes
  refine ⟨fun cq e fn i s u h ht hm hi hfn hpasid hoff hbind hqs => ?_, fun cq e fn i s u h ht hm hi hfn hpasid hstate => ?_,
    fun cq e fn i s u h ht hm hon hqs => ?_, fun cq e fn i fq s u h ht hm hon hq hq' => ?_,
    fun cq e fn i s u h ht hm hstate => ?_, fun cq e fn i sz x s u h ht hi hfn hsz hsize hx => ?_,
    fun cq e op c s u hc h ht => ?_⟩
  · show execInstEnable cq s = _
    rw [execInstEnable, adminRun_of_adminIs h, ← ht]
    dsimp only at hqs ⊢
    simp only [hm, if_neg (instEnable_allowed hi hfn hpasid), hoff, hbind, hqs, Bool.false_eq_true, if_false, ne_eq,
      not_true_eq_false, if_true, List.foldl_nil]
  · show execInstEnable cq s = _
    rw [execInstEnable, adminRun_of_adminIs h, ← ht]
    dsimp only
    simp only [hm, if_neg (instEnable_allowed hi hfn hpasid), if_pos hstate, Bool.false_eq_true, if_false]
    rfl
  · have hnone : (instQueues u fn i).any (fun fq => (queueOf u fn fq).qstate != .disabled) = false := by
      simpa using hqs
    show execInstDisable cq s = _
    rw [execInstDisable, adminRun_of_adminIs h, ← ht]
    simp [hm, hon, hnone]
  · have hsome : (instQueues u fn i).any (fun fq => (queueOf u fn fq).qstate != .disabled) = true := by
      rw [List.any_eq_true]
      exact ⟨fq, hq, by simpa using hq'⟩
    show execInstDisable cq s = _
    rw [execInstDisable, adminRun_of_adminIs h, ← ht]
    simp [hm, hon, hsome]
  · show execInstReset cq s = _
    rw [execInstReset, adminRun_of_adminIs h, ← ht]
    simp [hm, hstate]
  · show execDlogEpoch cq s = _
    rw [execDlogEpoch, adminRun_of_adminIs h, ← ht]
    dsimp only
    rw [if_neg (by simp [hfn, ← hsz]; omega), ← hsz, ← hx]
  · have hm : mgmtTarget (instTarget e.desc) = true := by rw [ht]; rfl
    rcases hc with ⟨rfl, rfl⟩ | ⟨rfl, rfl⟩ | ⟨rfl, rfl⟩
    · show execInstEnable cq s = _
      rw [execInstEnable, adminRun_of_adminIs h]
      simp [hm]
    · show execInstDisable cq s = _
      rw [execInstDisable, adminRun_of_adminIs h]
      simp [hm]
    · show execInstReset cq s = _
      rw [execInstReset, adminRun_of_adminIs h]
      simp [hm]

/-! ### Drains, shares and registers -/

/-- Settles O26: the end of a drain, and the two registers by what stands in the way of their writes. -/
theorem drainsAndShares : Obligations.DrainsAndShares := by
  unfold Obligations.DrainsAndShares
  refine ⟨fun fn i c s hdrain hdone => ?_, fun fn i s h => ?_, fun x => ⟨rfl, ?_, rfl⟩,
    fun fn v s hopen hclear hne hmax hfree => ?_, fun fn v s hopen hclear hne h => ?_, fun fn i v s hopen hi hoff => ?_,
    fun fn i v s hopen h => ?_⟩
  · show execDrainComplete fn i s = _
    simp [execDrainComplete, hdrain, hdone]
  · show execDrainComplete fn i s = _
    unfold execDrainComplete
    dsimp only
    split
    · rfl
    · next c hdrain =>
      rw [if_neg]
      rcases h with h | h
      · rw [h] at hdrain; cases hdrain
      · simp [h]
  · cases x <;> rfl
  · show execFnShareWrite fn v s = _
    rw [execFnShareWrite, setupWrite_of_open hopen]
    simp [fnShareWrite, hclear, hne, hmax, hfree]
  · show execFnShareWrite fn v s = _
    rw [execFnShareWrite, setupWrite_of_open hopen]
    rcases h with h | h <;> simp [fnShareWrite, hclear, hne, h, Nat.not_le.mpr]
  · show execInstRegisterWrite fn i false v s = _
    rw [execInstRegisterWrite, setupWrite_of_open hopen]
    simp [Nat.not_le.mpr hi, hoff]
  · show execInstRegisterWrite fn i false v s = _
    rw [execInstRegisterWrite, setupWrite_of_open hopen]
    rcases h with h | h <;> simp [h]

end Sys2Proof.Machine
end

section
/-! The bulk pipelines: network ports and receipt, dealing and reorder release. -/
namespace Sys2Proof.Machine

/-! ### Network ports and receipt -/

/-- The record of a frame received at a network port. -/
def receivedFrame (p : NPort) (b : Bytes) (ok : Bool) (c : Cyc) (u : State) : Frame :=
  rxFrame u b ok 0 p.val (p.val / 2) (clockShift (clockAt u c.val) (-(65536 * rxCorr u p.val)))
    (clockShift (clockAt u c.val) (((b.length + 4) * 8 * 65536 / portRate u : Nat))) u.tm.nextBuf

/-- A frame of a port that is up, once the codewords of its FEC and its octets are counted (R198, R280). -/
theorem execNetworkFrameReceive_up {p : NPort} {b : Bytes} {ok ov : Bool} {n : BitVec 16 × BitVec 16} {c : Cyc} {s v u : State}
    (hup : netUp s p.val = true) (hv : v = addErr (NP_FEC_UNCORRECTED p.val) n.2.toNat (addStat (NP_FEC_CORRECTED p.val) n.1.toNat s))
    (hu : u = addStat (NP_RX_OCTETS p.val) (b.length + 4) (addStat (NP_RX_FRAMES p.val) 1 v)) :
    execNetworkFrameReceive p b (ok, n) ov c s = .next (
      if ov then addErr (NP_RX_OVERFLOW p.val) 1 v
      else if maxFrame u p.val < b.length + 4 then addErr (NP_RX_TOO_LONG p.val) 1 u
      else if !(admitIngress p.val b u).2 then (admitIngress p.val b u).1
      else queueFrame (p.val / 2) p.val (addFrame (receivedFrame p b ok c u) (admitIngress p.val b u).1).2
        (addFrame (receivedFrame p b ok c u) (admitIngress p.val b u).1).1) := by
  unfold execNetworkFrameReceive netReceive
  dsimp only
  rw [if_neg (by simp [hup]), ← hv, ← hu]
  rfl

/-- A frame that was written reads back. -/
theorem frameOf_putFrame (f : Nat) (x : Frame) (s : State) : frameOf (putFrame f x s) f = some x :=
  tabFind_insert_same _ _ _

/-- A frame's place in a queue is no part of its record. -/
theorem frameOf_queueFrame (pl src g f : Nat) (s : State) : frameOf (queueFrame pl src g s) f = frameOf s f := rfl

/-- A write of NP_MODE that does not clear refused (R172). -/
theorem npModeWrite_kept {v : Word} (hclear : bit v 2 = false) (s : State) : npModeWrite v s =
    if fld v 0 2 = 3 ∨ (List.range 8).any (fun n => rb s (NP_PORT_CTRL n) 0) then putB NP_MODE 2 true s
    else putF NP_MODE 0 2 (fld v 0 2) s := by
  unfold npModeWrite
  rw [hclear]
  rfl

/-- Settles O27: the lane mode by the ports' enables, the links, and a frame by what receipt finds in order. -/
theorem networkPorts : Obligations.NetworkPorts := by
  unfold Obligations.NetworkPorts
  refine ⟨fun v s hopen hclear hm hports => ?_, fun v n s hopen hclear hn hport => ?_, fun p s hen hdown => ?_,
    fun p s hdis => ?_, fun p s hup => ?_, fun p s hdown => ?_, fun p b ok ov n c s hdown => ?_,
    fun p b ok n c s v hup hv => ?_, fun p b ok n c s v u hup hv hu hlong => ?_,
    fun p b ok n c s v u hup hv hu hlen hadmit => ?_, fun p b ok n c s v u hup hv hu hlen hadmit => ?_⟩
  · have hnone : (List.range 8).any (fun n => rb s (NP_PORT_CTRL n) 0) = false := by
      rw [List.any_eq_false]
      exact fun n hn => by simp [hports n (List.mem_range.mp hn)]
    show execNpModeWrite v s = _
    rw [execNpModeWrite, setupWrite_of_open hopen, npModeWrite_kept hclear, if_neg (by simp only [hm, hnone]; simp)]
  · have hsome : (List.range 8).any (fun n => rb s (NP_PORT_CTRL n) 0) = true :=
      List.any_eq_true.mpr ⟨n, List.mem_range.mpr hn, hport⟩
    show execNpModeWrite v s = _
    rw [execNpModeWrite, setupWrite_of_open hopen, npModeWrite_kept hclear, if_pos (.inr hsome)]
  · show execNetworkLinkUp p s = _
    simp [execNetworkLinkUp, hen, hdown]
  · show execNetworkLinkUp p s = _
    simp [execNetworkLinkUp, hdis]
  · show execNetworkLinkDown p s = _
    rw [execNetworkLinkDown, netDown, if_pos hup]
  · show execNetworkLinkDown p s = _
    rw [execNetworkLinkDown, netDown, if_neg (by simp [hdown])]
  · show execNetworkFrameReceive p b (ok, n) ov c s = _
    rw [execNetworkFrameReceive, netReceive, if_pos (by simp [hdown])]
  · exact (execNetworkFrameReceive_up hup hv rfl).trans (by rw [if_pos rfl])
  · exact (execNetworkFrameReceive_up hup hv hu).trans (by rw [if_neg (by simp), if_pos hlong])
  · have hexec := (execNetworkFrameReceive_up (ok := ok) (ov := false) (c := c) hup hv hu).trans (by
      rw [if_neg (by simp), if_neg (Nat.not_lt.mpr hlen), if_neg (by simp [hadmit])])
    exact ⟨_, _, receivedFrame p b ok c u, hexec, rfl, (frameOf_queueFrame ..).trans (frameOf_putFrame ..),
      rfl, rfl, rfl, rfl, rfl, rfl, rfl⟩
  · exact (execNetworkFrameReceive_up hup hv hu).trans (by
      rw [if_neg (by simp), if_neg (Nat.not_lt.mpr hlen), if_pos (by simp [hadmit])])

/-! ### Dealing and reorder release -/

/-- A correctable fault changes no source of a pipeline. -/
theorem srcOf_correctable (off pl src : Nat) (s : State) : srcOf (correctable off s) pl src = srcOf s pl src := by
  obtain ⟨l, o, n, r, h⟩ := correctable_frame off s
  rw [h]
  rfl

/-- The oldest entry of a source whose parse is done leaves the reorder buffer (R176). -/
theorem execReorderRelease_done {pl : BulkPl} {x : Source} {f : Nat} {rest : List Nat} {y : Frame} {s u : State}
    (hrob : (srcOf s pl.val (sourceNum x)).rob = f :: rest) (hf : frameOf s f = some y) (hdone : y.result ≠ .pending)
    (hu : u = putSrc pl.val (sourceNum x) { srcOf s pl.val (sourceNum x) with rob := rest } s) :
    execReorderRelease pl (x, .good) s = .next (
      if !y.fcsOk then
        advanceRetired pl.val (freeFrame f (if sourceNum x < 8 then addErr (NP_RX_FCS_ERR (sourceNum x)) 1 u else u))
      else match y.result with
        | .malformed r => malformedAction pl.val f r.toNat u
        | _ => enterChain pl.val (sourceNum x) f y u) := by
  unfold execReorderRelease
  dsimp only [eccCount]
  rw [if_neg (by simp [hrob])]
  unfold reorderRelease
  dsimp only
  rw [hrob]
  dsimp only
  rw [hf]
  dsimp only
  subst hu
  exact congrArg Host.Outcome.next (if_neg hdone)

/-- Settles O28: what is dealt, the oldest entry by its parse and its FCS, and a run at its step limit. -/
theorem dealAndRelease : Obligations.DealAndRelease := by
  unfold Obligations.DealAndRelease
  refine ⟨fun pl src left f w s hchoice hhead hunit => ?_, fun pl s hchoice => ?_, fun pl x f rest y s hrob hf hpend => ?_,
    fun pl x f rest y s u hrob hf hres hfcs hu => ?_, fun pl x f rest y r s u hrob hf hres hfcs hu => ?_,
    fun pl n f rest y s u hrob hf hres hfcs hu => ?_, fun pl x s hrob => ⟨?_, ?_⟩,
    fun pl w fid f s hunit hf hsteps => ?_, fun pl w s hsteps => ?_⟩
  · show execDeal pl s = _
    rw [execDeal, deal, hchoice]
    dsimp only
    rw [hhead, hunit]
  · show execDeal pl s = _
    rw [execDeal, deal, hchoice]
  · show execReorderRelease pl (x, .good) s = _
    simp [execReorderRelease, eccCount, reorderRelease, hrob, hf, hpend]
  · exact (execReorderRelease_done hrob hf (by simp [hres]) hu).trans (by rw [hfcs, hres]; rfl)
  · exact (execReorderRelease_done hrob hf (by simp [hres]) hu).trans (by rw [hfcs, hres]; rfl)
  · have hnum : sourceNum (.net n) < 8 := n.isLt
    exact (execReorderRelease_done (x := .net n) hrob hf hres hu).trans (by rw [hfcs, if_pos hnum]; rfl)
  · show execReorderRelease pl (x, .bad) s = _
    rw [execReorderRelease, if_neg (by simpa using hrob)]
  · show execReorderRelease pl (x, .corrected) s = execReorderRelease pl (x, .good) (correctable FX_CORR_SRAM s)
    unfold execReorderRelease
    rw [srcOf_correctable, if_neg (by simpa using hrob), if_neg (by simpa using hrob)]
    rfl
  · show execStepLimit pl w s = _
    unfold execStepLimit
    dsimp only
    rw [hunit]
    dsimp only
    rw [hf]
    dsimp only
    rw [if_pos hsteps]
    rfl
  · show execStepLimit pl w s = _
    unfold execStepLimit
    dsimp only
    split
    · rfl
    split
    · rfl
    rw [if_neg (Nat.not_le.mpr hsteps)]

end Sys2Proof.Machine
end

section
/-! Parse microwords, the classification chain and the header editor. -/
namespace Sys2Proof.Machine

/-! ### The end of a word -/

/-- A word that is ready, read without error, meets what the command carries (R207). -/
theorem parseWord_ready {s : State} {pl w op fid : Nat} {f : Frame} {u : ParseUnit} {m : MicroWord} {a b : BitVec 32}
    (h : WordReady s pl w op fid f u m a b) {err : ParseErr} (herr : err ≠ .controlStore) :
    parseWord op pl w err s = wordActs op pl w fid f u m err s := by
  obtain ⟨p, hp, hm⟩ := h.word
  unfold parseWord
  dsimp only
  rw [h.unit_, h.frame]
  dsimp only
  rw [h.held]
  dsimp only
  rw [if_neg (Nat.not_le.mpr h.steps), if_neg herr, hp, hm]
  rfl

/-- A legal word of the operation is the command's. -/
theorem WordReady.wordIs {s : State} {pl w op fid : Nat} {f : Frame} {u : ParseUnit} {m : MicroWord} {a b : BitVec 32}
    (h : WordReady s pl w op fid f u m a b) : wordIs op m = true := by
  simp [Machine.wordIs, h.op_]

/-- A ready word without an error runs (R207). -/
theorem parseWord_none {s : State} {pl w op fid : Nat} {f : Frame} {u : ParseUnit} {m : MicroWord} {a b : BitVec 32}
    (h : WordReady s pl w op fid f u m a b) :
    parseWord op pl w .none s = endWord pl w fid f (runWord m u f (storeSize pl)) s := by
  rw [parseWord_ready h (by simp)]
  simp [wordActs, h.wordIs, h.legal]

/-- A ready word whose operation acts goes on to its stack and its next address (R207). -/
theorem parseWord_ok {s : State} {pl w op fid : Nat} {f : Frame} {u v : ParseUnit} {m : MicroWord} {a b : BitVec 32}
    {d : Option (BitVec 32)} (h : WordReady s pl w op fid f u m a b) (hop : operate op m.imm a b u = .ok v d) :
    parseWord op pl w .none s = endWord pl w fid f (finishWord m a (writeDst m.dst d v) (storeSize pl)) s := by
  obtain ⟨x, hx, ha, hb⟩ := h.operands
  rw [parseWord_none h, runWord, hx]
  dsimp only
  rw [← ha, ← hb, h.op_, hop]

/-- A ready word whose operation is malformed ends its run (R206). -/
theorem parseWord_bad {s : State} {pl w op fid : Nat} {f : Frame} {u : ParseUnit} {m : MicroWord} {a b : BitVec 32}
    {r : BitVec 7} (h : WordReady s pl w op fid f u m a b) (hop : operate op m.imm a b u = .bad r) :
    parseWord op pl w .none s = unitMalformed pl w fid f r s := by
  obtain ⟨x, hx, ha, hb⟩ := h.operands
  rw [parseWord_none h, runWord, hx]
  dsimp only
  rw [← ha, ← hb, h.op_, hop]
  rfl

/-- Settles O29: each operation by what it makes of the unit, and each error under any operation. -/
theorem parseWords : Obligations.ParseWords := by
  unfold Obligations.ParseWords
  refine ⟨fun pl w fid f u m a b s => ?_, fun pl w fid f u m a b s => ?_, fun pl w fid f u m a b s => ?_,
    fun pl w op fid f u m a b s h => ⟨?_, ?_, ?_⟩⟩
  · exact ⟨fun h => congrArg _ (parseWord_ok h rfl), fun h => congrArg _ (parseWord_ok h rfl),
      fun h => congrArg _ (parseWord_ok h rfl), fun h => congrArg _ (parseWord_ok h rfl),
      fun h => congrArg _ (parseWord_ok h rfl), fun h => congrArg _ (parseWord_ok h rfl),
      fun h => congrArg _ (parseWord_ok h rfl), fun h => congrArg _ (parseWord_ok h rfl),
      fun h => congrArg _ (parseWord_ok h rfl)⟩
  · exact ⟨fun h => congrArg _ (parseWord_ok h rfl), fun h => congrArg _ (parseWord_ok h rfl),
      fun h => congrArg _ (parseWord_ok h rfl), fun h => congrArg _ (parseWord_ok h rfl),
      fun h => congrArg _ (parseWord_ok h rfl), fun h => congrArg _ (parseWord_ok h rfl)⟩
  · refine ⟨fun h => congrArg _ (parseWord_ok h rfl), fun h hn => ?_, fun h hn => ?_, fun h hl => ?_, fun h hl => ?_,
      fun h => congrArg _ (parseWord_ok h rfl), fun h => congrArg _ (parseWord_ok h rfl),
      fun h => congrArg _ (parseWord_ok h rfl), fun h => congrArg _ (parseWord_ok h rfl),
      fun h => congrArg _ (parseWord_bad h rfl)⟩
    · exact ⟨_, congrArg _ (parseWord_ok h (if_neg (Nat.not_le.mpr hn))), rfl, rfl⟩
    · exact congrArg _ (parseWord_bad h (if_pos hn))
    · have hlayer : BitVec.ofNat 2 (u.layer.toNat + 1) = u.layer + 1 := by
        apply BitVec.eq_of_toNat_eq
        simp [BitVec.toNat_add]
      exact ⟨_, congrArg _ (parseWord_ok h (if_neg hl)), hlayer, rfl⟩
    · exact congrArg _ (parseWord_bad h (if_pos hl))
  · rw [parseWord_ready h (by simp)]
    simp [wordActs, h.wordIs, h.legal]
  · unfold parseWord
    dsimp only
    rw [h.unit_, h.frame]
    dsimp only
    rw [h.held]
    dsimp only
    rw [if_neg (Nat.not_le.mpr h.steps), if_pos rfl]
  · rw [parseWord_ready h (by simp)]
    simp [wordActs, h.wordIs]

/-! ### The chain and the header editor -/

/-- A correctable fault changes no frame. -/
theorem frameOf_correctable (off f : Nat) (s : State) : frameOf (correctable off s) f = frameOf s f := by
  obtain ⟨l, o, n, r, h⟩ := correctable_frame off s
  rw [h]
  rfl

/-- Settles O30: a stage and the editor by where the frame stands, and their errors. -/
theorem chainAndEditor : Obligations.ChainAndEditor := by
  unfold Obligations.ChainAndEditor
  refine ⟨fun pl f x st s hf hloc hpl => ?_, fun pl f x st s hf hloc hpl hre => ?_, fun pl f e s hf => ⟨?_, ?_⟩,
    fun pl f x r s hf hloc hpl hout hedit => ?_, fun pl f x b l s hf hloc hpl hout hedit hdisp => ?_,
    fun pl f x s hf hloc => ?_, fun pl f x s hf => ⟨?_, fun hprog => ?_, fun hprog => ?_⟩,
    fun pl f x st s hf hloc hpl => ?_⟩
  · show execClassifyStage pl f .none s = _
    simp [execClassifyStage, classifyStage, hf, hloc, hpl]
  · show execClassifyStage pl f .residueOnce s = _
    simp [execClassifyStage, classifyStage, hf, hloc, hpl, hre, keyMalformed]
  · show execClassifyStage pl f e s = _
    rw [execClassifyStage, classifyStage, hf]
  · show execHeaderEdit pl (f, .good) s = _
    unfold execHeaderEdit
    rw [hf]
  · show execHeaderEdit pl (f, .good) s = _
    simp [execHeaderEdit, eccCount, headerEdit, hf, hloc, hpl, hout, hedit]
  · show execHeaderEdit pl (f, .good) s = _
    simp [execHeaderEdit, eccCount, headerEdit, hf, hloc, hpl, hout, hedit, hdisp]
  · show execHeaderEdit pl (f, .good) s = _
    simp [execHeaderEdit, eccCount, headerEdit, hf, hloc]
  · show execHeaderEdit pl (f, .corrected) s = execHeaderEdit pl (f, .good) (correctable FX_CORR_DRAM s)
    unfold execHeaderEdit
    rw [frameOf_correctable, hf]
    rfl
  · show execHeaderEdit pl (f, .bad) s = _
    unfold execHeaderEdit
    rw [hf]
    exact congrArg _ (if_neg hprog)
  · show execHeaderEdit pl (f, .bad) s = execHeaderEdit pl (f, .good) s
    unfold execHeaderEdit
    rw [hf]
    exact congrArg _ (if_pos hprog)
  · show execClassifyStage pl f .corrected s = _
    simp [execClassifyStage, classifyStage, hf, hloc, hpl, eccCount]

end Sys2Proof.Machine
end

section
/-! Table epochs, table writes, learning and aging. -/
namespace Sys2Proof.Machine

/-- A table stays in rising order when an entry is set. -/
theorem tabSorted_set {α : Type} [DecidableEq α] {d : Nat → α} {t : Tab α} (hs : tabSorted none t = true) (n : Nat) (x : α) :
    tabSorted none (tabSet d t n x) = true := by
  unfold tabSet
  split
  · exact tabSorted_erase hs n
  · exact tabSorted_insert hs x (by simp)

/-! ### What a frame of an epoch reads -/

/-- The last of the updates is the latest where no other has a later tag (R241). -/
theorem latest_append_last {l : List (BitVec 32 × Bytes)} {z : BitVec 32 × Bytes} (h : ∀ y ∈ l, epochLe y.1 z.1 = true) :
    latest (l ++ [z]) = some z := by
  induction l with
  | nil => rfl
  | cons y l ih =>
    obtain ⟨hy, hl⟩ := List.forall_mem_cons.mp h
    rw [List.cons_append, latest, ih hl]
    exact if_pos hy

/-- What a frame of an epoch sees of a pending update: its tag and its value. -/
def seenUpdate (k : TabKind) (pl key : Nat) (e : BitVec 32) (x : Shadow) : Option (BitVec 32 × Bytes) :=
  if x.kind = k ∧ x.pl.toNat = pl ∧ x.key = key then
    x.tag.bind (fun t => if epochLe t e then some (t, x.value) else none)
  else none

theorem visible_eq (s : State) (k : TabKind) (pl key : Nat) (e : BitVec 32) :
    visible s k pl key e = s.tab.shadows.filterMap (seenUpdate k pl key e) := by
  refine congrArg (List.filterMap · s.tab.shadows) (funext fun x => ?_)
  unfold seenUpdate
  cases x.tag <;> rfl

/-- An update that is seen is one of the entry, with a tag that the epoch reaches. -/
theorem seenUpdate_eq_some {k : TabKind} {pl key : Nat} {e : BitVec 32} {x : Shadow} {y : BitVec 32 × Bytes} :
    seenUpdate k pl key e x = some y ↔ (x.kind = k ∧ x.pl.toNat = pl ∧ x.key = key) ∧ x.tag = some y.1 ∧
      epochLe y.1 e = true ∧ x.value = y.2 := by
  unfold seenUpdate
  split
  · next hkey =>
    obtain ⟨t, v⟩ := y
    simp only [hkey, and_self, true_and, Option.bind_eq_some_iff]
    constructor
    · rintro ⟨u, hu, hv⟩
      split at hv
      · next hle =>
        obtain ⟨rfl, rfl⟩ := Prod.mk.injEq .. ▸ Option.some.inj hv
        exact ⟨hu, hle, rfl⟩
      · cases hv
    · rintro ⟨ht, hle, rfl⟩
      exact ⟨t, ht, if_pos hle⟩
  · next hkey => simp [hkey]

/-! ### Epoch counters -/

/-- The two counters of a word of CL_EPOCH. -/
theorem epochWord_fields (cur ret : BitVec 32) :
    BitVec.ofNat 32 (fld (BitVec.ofNat 64 (cur.toNat + ret.toNat * 2 ^ 32)) 0 32) = cur ∧
    BitVec.ofNat 32 (fld (BitVec.ofNat 64 (cur.toNat + ret.toNat * 2 ^ 32)) 32 32) = ret := by
  have hc := cur.isLt
  have hr := ret.isLt
  constructor <;> apply BitVec.eq_of_toNat_eq <;>
    simp only [fld, BitVec.toNat_ofNat, Nat.shiftRight_eq_div_pow] <;> omega

/-- A write of the counters of a pipeline leaves the lane mode, and sets the counters of its home (R242). -/
theorem getReg_putEpoch {s : State} (hs : tabSorted none s.regs = true) (pl : Nat) (cur ret : BitVec 32) :
    getReg (putEpoch pl cur ret s) (CL_EPOCH (epochHome s pl)) = BitVec.ofNat 64 (cur.toNat + ret.toNat * 2 ^ 32) ∧
    getReg (putEpoch pl cur ret s) NP_MODE = getReg s NP_MODE := by
  have hne : ∀ p, NP_MODE ≠ CL_EPOCH p := fun p => by simp only [NP_MODE, CL_EPOCH]; omega
  have hpair : CL_EPOCH (pl / 2 * 2) ≠ CL_EPOCH (pl / 2 * 2 + 1) := by simp only [CL_EPOCH]; omega
  unfold putEpoch epochHome lowerOf epochMates
  split
  · simp only [List.foldl_cons, List.foldl_nil]
    exact ⟨(getReg_put_other (sorted_putReg hs ..) _ hpair).trans (getReg_put_same hs _ _),
      (getReg_put_other (sorted_putReg hs ..) _ (hne _)).trans (getReg_put_other hs _ (hne _))⟩
  · exact ⟨getReg_put_same hs _ _, getReg_put_other hs _ (hne _)⟩

/-- The home of a pipeline's counters hangs on the lane mode alone. -/
theorem epochHome_congr {s t : State} (h : getReg t NP_MODE = getReg s NP_MODE) (pl : Nat) :
    epochHome t pl = epochHome s pl := by
  have hpooled : pooled t pl = pooled s pl := by rw [pooled, pooled, rf, rf, h]
  rw [epochHome, epochHome, lowerOf, lowerOf, hpooled]

/-- Settles O31: what a frame reads, the counters and the flip, a flush by its checks, and the hash seed by the use of the table. -/
theorem tableEpochs : Obligations.TableEpochs := by
  unfold Obligations.TableEpochs
  refine ⟨fun s k pl key e h => ?_, fun s k pl key e t x l hl hk hpl hkey ht hle hlast => ?_, fun pl s heq hpend => ?_,
    fun pl s h => ?_, fun pl cur ret s hs => ?_, fun cq e s u h hg hmask => ?_, fun cq e s u h hg => ?_,
    fun pl v s hopen huse hs => ?_, fun pl v s hopen huse hs => ?_⟩
  · have hnone : visible s k pl key e = [] := by
      rw [visible_eq, List.filterMap_eq_nil_iff]
      intro x hx
      rw [Option.eq_none_iff_forall_ne_some]
      intro y hy
      obtain ⟨⟨hk, hpl, hkey⟩, ht, hle, -⟩ := seenUpdate_eq_some.mp hy
      simp [h x hx hk hpl hkey _ ht] at hle
    rw [entryAt, hnone]
    rfl
  · have hx : seenUpdate k pl key e x = some (t, x.value) := seenUpdate_eq_some.mpr ⟨⟨hk, hpl, hkey⟩, ht, hle, rfl⟩
    have hvis : visible s k pl key e = l.filterMap (seenUpdate k pl key e) ++ [(t, x.value)] := by
      rw [visible_eq, hl, List.filterMap_append, List.filterMap_cons_some hx]
      rfl
    rw [entryAt, hvis, latest_append_last]
    intro y hy
    obtain ⟨z, hz, hzy⟩ := List.mem_filterMap.mp hy
    exact hlast z hz _ (seenUpdate_eq_some.mp hzy).2.1
  · show execEpochFlip pl s = _
    rw [execEpochFlip, if_pos ⟨heq, hpend⟩]
  · show execEpochFlip pl s = _
    rw [execEpochFlip, if_neg (by rcases h with h | h <;> simp [h])]
  · obtain ⟨hword, hmode⟩ := getReg_putEpoch hs pl.val cur ret
    obtain ⟨hcur, hret⟩ := epochWord_fields cur ret
    rw [epochCurrent, epochRetired, epochHome_congr hmode, rf, rf, hword]
    exact ⟨hcur, hret⟩
  · show execStaFlush cq s = _
    rw [execStaFlush, nextEntry_of_nextIs h]
    simp [staFlush, hg, hmask]
  · show execStaFlush cq s = _
    rw [execStaFlush, nextEntry_of_nextIs h]
    simp [staFlush, hg]
  · exact ⟨_, congrArg Host.Outcome.next ((setupWrite_of_open hopen _).trans (congrArg linkBusy (if_pos huse))),
      getReg_put_same hs _ _⟩
  · have hne : FT_HASH_SEED pl.val ≠ FT_STATION_USE pl.val := by simp only [FT_HASH_SEED, FT_STATION_USE]; omega
    exact ⟨_, congrArg Host.Outcome.next ((setupWrite_of_open hopen _).trans (congrArg linkBusy (if_neg huse))),
      getReg_put_other hs _ hne, rb_putB_same hs (by norm_num)⟩

/-! ### Table writes -/

/-- A write of a queue that no group holds runs its plan (R244). -/
theorem tableWrite_of_nextIs {s u : State} {cq op : Nat} {e : Entry} (h : NextIs s 0 cq op e u) (hg : e.group = none)
    (plan : State → Bytes → Plan) : tableWrite cq op plan s = runPlan cq e (plan u e.desc) u := by
  have hre : reissued u e = false := by rw [reissued, hg]
  have hinfo : memberInfo e (plan u e.desc) = none := by
    unfold memberInfo
    rw [hg]
    split
    · next h => cases h
    · rfl
  rw [tableWrite, nextEntry_of_nextIs h, hre, hg, hinfo]

/-- The slots that a write takes leave the pending updates, the flips, the registers and the start. -/
theorem foldl_reserveKey_leaves (k : TabKind) (keys : List (Nat × Nat × Bytes)) (s : State) :
    (keys.foldl (fun s x => reserveKey k x s) s).tab.shadows = s.tab.shadows ∧
    (keys.foldl (fun s x => reserveKey k x s) s).tab.flips = s.tab.flips ∧
    (keys.foldl (fun s x => reserveKey k x s) s).regs = s.regs ∧
    (keys.foldl (fun s x => reserveKey k x s) s).life = s.life := by
  induction keys generalizing s with
  | nil => exact ⟨rfl, rfl, rfl, rfl⟩
  | cons x keys ih =>
    obtain ⟨h1, h2, h3, h4⟩ := ih (reserveKey k x s)
    have hone : (reserveKey k x s).tab.shadows = s.tab.shadows ∧ (reserveKey k x s).tab.flips = s.tab.flips ∧
        (reserveKey k x s).regs = s.regs ∧ (reserveKey k x s).life = s.life := by
      unfold reserveKey
      split <;> exact ⟨rfl, rfl, rfl, rfl⟩
    exact ⟨h1.trans hone.1, h2.trans hone.2.1, h3.trans hone.2.2.1, h4.trans hone.2.2.2⟩

/-- A write with room takes its slots and waits for its flip (R241, R244). -/
theorem runPlan_write {cq : BitVec 20} {e : Entry} (hg : e.group = none) {k : TabKind} {keys : List (Nat × Nat × Bytes)}
    {u : State} (hroom : shadowRoom u (keys.map (fun x => x.1)) = true) :
    (runPlan cq.toNat e (.write k keys) u).tab.flips = u.tab.flips ++
      [{ fq := cq, idx := e.idx, pls := keys.map (fun x => (BitVec.ofNat 3 x.1, none)) }] ∧
    (runPlan cq.toNat e (.write k keys) u).tab.shadows = u.tab.shadows ++ keys.map (fun x =>
      { pl := BitVec.ofNat 3 x.1, kind := k, key := x.2.1, value := x.2.2, tag := none, group := none,
        writer := some (cq, e.idx) }) ∧
    (runPlan cq.toNat e (.write k keys) u).regs = u.regs ∧ (runPlan cq.toNat e (.write k keys) u).life = u.life := by
  obtain ⟨hshadows, hflips, hregs, hlife⟩ := foldl_reserveKey_leaves k keys u
  unfold runPlan
  dsimp only
  rw [hg]
  dsimp only
  rw [if_neg (by simp [hroom]), BitVec.ofNat_toNat, BitVec.setWidth_eq]
  exact ⟨congrArg (· ++ _) hflips, congrArg (· ++ _) hshadows, hregs, hlife⟩

/-- Keys of main entries of a kind are apart by the pipeline and the entry. -/
theorem tableKey_inj {k : TabKind} {p q a b : Nat} (ha : a < 2 ^ 160) (hb : b < 2 ^ 160) :
    tableKey k p a = tableKey k q b ↔ p = q ∧ a = b := by
  unfold tableKey
  omega

/-- A main entry once one was written. -/
theorem mainEntry_putMain {s : State} (hs : tabSorted none s.tab.main = true) (k : TabKind) {p q a b : Nat} (v : Bytes)
    (ha : a < 2 ^ 160) (hb : b < 2 ^ 160) :
    mainEntry (putMain k q b v s) k p a = if p = q ∧ a = b then v else mainEntry s k p a := by
  split
  · next h => rw [h.1, h.2]; exact tabGet_set_same hs _ _
  · next h => exact tabGet_set_other hs _ (fun h' => h ((tableKey_inj ha hb).mp h'))

theorem sorted_putMain {s : State} (hs : tabSorted none s.tab.main = true) (k : TabKind) (pl key : Nat) (v : Bytes) :
    tabSorted none (putMain k pl key v s).tab.main = true :=
  tabSorted_set (d := fun _ => []) hs (tableKey k pl key) v

/-- A run of entries written to one pipeline. -/
def writeRunIn (k : TabKind) (q first size : Nat) (b : Bytes) (n : Nat) (s : State) : State :=
  (List.range n).foldl (fun s i => putMain k q (first + i) (slice b (size * i) size) s) s

theorem writeRunIn_succ (k : TabKind) (q first size : Nat) (b : Bytes) (n : Nat) (s : State) :
    writeRunIn k q first size b (n + 1) s =
      putMain k q (first + n) (slice b (size * n) size) (writeRunIn k q first size b n s) := by
  simp only [writeRunIn, List.range_succ, List.foldl_append, List.foldl_cons, List.foldl_nil]

theorem sorted_writeRunIn {s : State} (hs : tabSorted none s.tab.main = true) (k : TabKind) (q first size : Nat) (b : Bytes)
    (n : Nat) : tabSorted none (writeRunIn k q first size b n s).tab.main = true := by
  induction n with
  | zero => exact hs
  | succ n ih => rw [writeRunIn_succ]; exact sorted_putMain ih ..

/-- What a main entry reads after a run was written to a pipeline (R245). -/
theorem mainEntry_writeRunIn {s : State} (hs : tabSorted none s.tab.main = true) (k : TabKind) (p q first size i n : Nat)
    (b : Bytes) (hn : first + n ≤ 262144) (hi : first + i < 262144) :
    mainEntry (writeRunIn k q first size b n s) k p (first + i) =
      if p = q ∧ i < n then slice b (size * i) size else mainEntry s k p (first + i) := by
  induction n with
  | zero => rw [if_neg (by omega)]; rfl
  | succ n ih =>
    rw [writeRunIn_succ, mainEntry_putMain (sorted_writeRunIn hs ..) k _ (by omega) (by omega), ih (by omega)]
    by_cases hin : i = n
    · subst hin
      by_cases hpq : p = q <;> simp [hpq]
    · rw [if_neg (by omega)]
      exact if_congr (by omega) rfl rfl

/-- What a main entry reads after a run was written to every named pipeline (R245). -/
theorem mainEntry_writeRun {s : State} (hs : tabSorted none s.tab.main = true) (k : TabKind) (pls : List Nat)
    (p first size i n : Nat) (b : Bytes) (hn : first + n ≤ 262144) (hi : i < n) :
    mainEntry (writeRun k pls first size b n s) k p (first + i) =
      if p ∈ pls then slice b (size * i) size else mainEntry s k p (first + i) := by
  show mainEntry (pls.foldl (fun s q => writeRunIn k q first size b n s) s) k p (first + i) = _
  induction pls generalizing s with
  | nil => rfl
  | cons q pls ih =>
    rw [List.foldl_cons, ih (sorted_writeRunIn hs ..), mainEntry_writeRunIn hs k p q first size i n b hn (by omega)]
    by_cases hp : p ∈ pls
    · simp [hp]
    · by_cases hpq : p = q <;> simp [hp, hpq, hi]

/-- Settles O32: a write by its plan and its room, and a run by its checks and its entries. -/
theorem tableWrites : Obligations.TableWrites := by
  unfold Obligations.TableWrites
  refine ⟨fun cq op c plan e s u hc h hg => ?_, fun cq r e s u h hg => ?_, fun cq b e mask n first s u h hg hm hn hf hmask h0 hlim => ?_,
    fun cq b e mask n first s u h hg hm hn hf hmask h0 hlim => ?_,
    fun k pls first size n p i b s hs _ hp hi hlim => ?_⟩
  · have hexec : exec c s = .next (runPlan cq.toNat e (plan u e.desc) u) := by
      rcases hc with ⟨rfl, rfl, rfl⟩ | ⟨rfl, rfl, rfl⟩ | ⟨rfl, rfl, rfl⟩ | ⟨rfl, rfl, rfl⟩ | ⟨rfl, rfl, rfl⟩ | ⟨rfl, rfl, rfl⟩ <;>
        exact congrArg Host.Outcome.next (tableWrite_of_nextIs h hg _)
    refine ⟨fun k keys hplan hroom => ?_, fun k keys hplan hroom => ?_, fun st hplan => ?_, fun st hplan => ?_⟩
    · exact ⟨_, hexec, hplan ▸ runPlan_write hg hroom⟩
    · rw [hexec, hplan]
      simp [runPlan, hg, hroom]
    · rw [hexec, hplan]
      rfl
    · rw [hexec, hplan]
      rfl
  · show execJtNodeWrite cq r s = _
    rw [execJtNodeWrite, nextEntry_of_nextIs h]
    simp [juniperWrite, hg]
  · show execJtNodeWrite cq (.data b) s = _
    rw [execJtNodeWrite, nextEntry_of_nextIs h, juniperWrite]
    dsimp only
    rw [hg, ← hm, ← hn, ← hf, hmask, if_neg (by simp), if_neg (by simp), if_neg (by omega)]
  · show execJtRuleWrite cq (.data b) s = _
    rw [execJtRuleWrite, nextEntry_of_nextIs h, juniperWrite]
    dsimp only
    rw [hg, ← hm, ← hn, ← hf, hmask, if_neg (by simp), if_neg (by simp), if_neg (by omega)]
  · rw [mainEntry_writeRun hs k pls p first size i n b hlim hi, if_pos hp]

/-! ### Learning and aging -/

/-- No point is before itself by way of another: the order of points is asymmetric. -/
theorem pointLt_asymm {a b : Nat × Nat} (h : pointLt a b = true) : pointLt b a = false := by
  simp only [pointLt, Bool.or_eq_true, Bool.and_eq_true, decide_eq_true_eq, beq_iff_eq, Bool.or_eq_false_iff,
    Bool.and_eq_false_iff, decide_eq_false_iff_not, beq_eq_false_iff_ne] at *
  omega

/-- Not to be before is transitive. -/
theorem not_pointLt_trans {a b c : Nat × Nat} (h : pointLt a b = false) (k : pointLt b c = false) : pointLt a c = false := by
  simp only [pointLt, Bool.or_eq_false_iff, Bool.and_eq_false_iff, decide_eq_false_iff_not, beq_eq_false_iff_ne] at *
  omega

theorem earliest_eq_none {qs : List LearnReq} : earliest qs = none ↔ qs = [] := by
  cases qs with
  | nil => exact iff_of_true rfl rfl
  | cons q qs =>
    refine iff_of_false (fun h => ?_) (List.cons_ne_nil _ _)
    rw [earliest] at h
    split at h
    · cases h
    · split at h <;> cases h

/-- No held request is before the earliest (R258). -/
theorem earliest_le {qs : List LearnReq} {q r : LearnReq} (h : earliest qs = some q) (hr : r ∈ qs) :
    pointLt (learnOrder r) (learnOrder q) = false := by
  induction qs generalizing q with
  | nil => cases hr
  | cons x qs ih =>
    rw [earliest] at h
    cases hqs : earliest qs with
    | none =>
      rw [hqs] at h
      obtain rfl := Option.some.inj h
      rcases List.mem_cons.mp hr with rfl | hr
      · simp [pointLt]
      · rw [earliest_eq_none.mp hqs] at hr
        cases hr
    | some y =>
      rw [hqs] at h
      dsimp only at h
      split at h
      · next hlt =>
        obtain rfl := Option.some.inj h
        rcases List.mem_cons.mp hr with rfl | hr
        · exact pointLt_asymm hlt
        · exact ih hqs hr
      · next hlt =>
        obtain rfl := Option.some.inj h
        rcases List.mem_cons.mp hr with rfl | hr
        · simp [pointLt]
        · exact not_pointLt_trans (ih hqs hr) (Bool.not_eq_true _ ▸ hlt)

/-- now advances, and the tick's end is noted (R262). -/
def ageAdvanced (pl : Nat) (s : State) : State :=
  putF (FT_AGE_CTRL pl) 48 16 (ageNow s pl + 1)
    { s with tab := { s.tab with ageLast := tabSet (fun _ => 0) s.tab.ageLast pl (ageDue s pl) } }

theorem ageTick_eq (pl : Nat) (s : State) : ageTick pl s = if rb (ageAdvanced pl s) (FT_AGE_CTRL pl) 0 then
    ((stationsOf (ageAdvanced pl s) pl).filter (fun x => aged (ageAdvanced pl s) pl x.2)).foldl
      (fun s x => removeStation pl x.1 x.2 s) (ageAdvanced pl s)
    else ageAdvanced pl s := rfl

/-- age_en is no part of now. -/
theorem rb_ageAdvanced {s : State} (hs : tabSorted none s.regs = true) (pl : Nat) :
    rb (ageAdvanced pl s) (FT_AGE_CTRL pl) 0 = rb s (FT_AGE_CTRL pl) 0 :=
  rb_putF_field (s := { s with tab := { s.tab with ageLast := _ } }) hs (by norm_num) (by norm_num)

/-- Settles O33: a request by its order point and the room of the hold set, and a tick by when it is due. -/
theorem learningAndAging : Obligations.LearningAndAging := by
  unfold Obligations.LearningAndAging
  refine ⟨fun pl l q rest p s hl harr hlast hlate => ?_, fun pl l q rest s hl harr hlast hfull => ?_,
    fun pl l q rest s hs hl harr hlast hroom => ?_, fun pl q s hq hend => ?_, fun pl q s hq hend => ?_, fun pl s hdue => ?_,
    fun pl s hdue hen hs => ?_, fun pl s u v hdue hen hs hv hu => ?_, fun pl s => rfl, fun qs q r hq hr => earliest_le hq hr⟩
  · show execLearnRequest pl s = _
    simp [execLearnRequest, ← hl, harr, hlast, hlate]
  · show execLearnRequest pl s = _
    simp [execLearnRequest, ← hl, harr, hlast, hfull]
  · have hexec : execLearnRequest pl s = .next (putLearner pl.val { l with arriving := rest, hold := l.hold ++ [q] }
        (putLearner pl.val { l with arriving := rest } s)) := by
      simp [execLearnRequest, ← hl, harr, hlast, Nat.not_le.mpr hroom]
    exact ⟨_, hexec, tabGet_set_same (tabSorted_set (d := fun _ => Learner.empty) hs pl.val _) _ _, rfl⟩
  · show execLearnApply pl s = _
    simp [execLearnApply, hq, hend]
  · show execLearnApply pl s = _
    simp [execLearnApply, hq, hend]
  · show execAgeTick pl s = _
    rw [execAgeTick, if_neg (by simpa [ageTickDue] using hdue)]
  · refine ⟨ageAdvanced pl.val s, ?_, rf_putF_same (s := { s with tab := _ }) hs (by norm_num), rfl⟩
    show execAgeTick pl s = _
    rw [execAgeTick, if_pos (show ageTickDue s pl.val = true from decide_eq_true hdue), ageTick_eq, rb_ageAdvanced hs, hen]
    rfl
  · have hu : u = ageAdvanced pl.val s := by rw [hu, hv]; rfl
    show execAgeTick pl s = _
    rw [execAgeTick, if_pos (show ageTickDue s pl.val = true from decide_eq_true hdue), ageTick_eq, rb_ageAdvanced hs, hen,
      if_pos rfl, hu]

end Sys2Proof.Machine
end

section
/-! Host frames, receive rings, token buckets, the schedule choice and priority flow control. -/
namespace Sys2Proof.Machine

/-! ### Host frames and receive rings -/

/-- TX_SEND and TX_LAUNCH run their entry alike (R189). -/
theorem exec_txEntry {fn : Fn} {fq : BitVec 20} {r : Read} {op : Nat} {launch : Bool} {c : Instr} {e : Entry} {s u : State}
    (hc : (op = 1 ∧ launch = false ∧ c = .txSend fn fq r) ∨ (op = 2 ∧ launch = true ∧ c = .txLaunch fn fq r))
    (h : NextIs s fn.val fq.toNat op e u) : exec c s = .next (txRun fn fq.toNat launch r e u) := by
  rcases hc with ⟨rfl, rfl, rfl⟩ | ⟨rfl, rfl, rfl⟩
  · exact congrArg Host.Outcome.next (nextEntry_of_nextIs h _)
  · exact congrArg Host.Outcome.next (nextEntry_of_nextIs h _)

/-- A built frame goes to admission as it stands in the buffer (R285). -/
theorem txOffer_eq {fn : Fn} {fq f : Nat} {launch : Bool} {e : Entry} {fr : Bytes} {s x : State}
    (h : hostFrame fn.val fq e fr 0 (if launch then some (leWord e.desc 0x38) else none) s.tm.nextBuf
      (freshBuf fr.length s) = (x, f)) :
    txOffer fn fq launch e fr s = txAdmit fn.val fq e (engineRef (queueOf s fn.val fq) % 2 ^ 20) f fr s x := by
  unfold txOffer
  dsimp only
  rw [h]

/-- RX_DELIVER on the oldest frame of a queue and the entry it goes to (R193). -/
theorem rxDeliver_head {fn : Fn} {fq k f : Nat} {fs : List Nat} {e : Entry} {x : Frame} {s : State} (hk : k = queueKey fn.val fq)
    (hd : deliveringOf s k = f :: fs) (he : rxEntry s fn.val fq = some e) (hf : frameOf s f = some x) :
    rxDeliver fn fq .good s = (if le e.desc 0x18 2 < x.len then
        freeFrame f (addErr (PL_RX_BUF_SHORT x.pl.toNat) 1 (putDelivering k fs s))
      else finish fn.val fq e.idx false 0 (BitVec.ofNat 32 (be x.mdata 8 4)) (some (rxResults x))
        (freeFrame f (instWrite fn (queueInst (putDelivering k fs s) fn.val fq) e.gen true (le e.desc 0x10 8) x.bytes
          (putDelivering k fs s)).1)) ∧
    rxDeliver fn fq .bad s = arrayError blkTM 0x50 (freeNow (putDelivering k fs s)).toNat
      (useFree (freeFrame f (putDelivering k fs s))) := by
  have hf' : frameOf (putDelivering k fs s) f = some x := hf
  unfold rxDeliver
  dsimp only [eccCount]
  rw [← hk, hd, he]
  dsimp only
  rw [hf']
  exact ⟨rfl, rfl⟩

/-- Settles O34: each entry by its check, its read and its admission; a delivery by the room of its buffer; a spill return by
what is read of its cells. -/
theorem hostFrames : Obligations.HostFrames := by
  unfold Obligations.HostFrames
  refine ⟨fun fn fq r op launch c e s u hc h hb hst => ?_, fun fn fq b op launch c e fr f s u v w x hc h hb hst hv hbuild hx => ?_,
    fun fn fq r op launch c e fr f s u x hc h hb hx => ?_, fun fn fq r e s u h hlen => ?_,
    fun fn fq b e n s u v w h hn hlo hhi hv hadm => ?_, fun fn fq b e n f x s u v w y h hn hlo hhi hv hadm hy hx => ?_,
    fun fn fq e s u h => ?_, fun fn fq k f fs e x s hk hd he hf hlen => ?_, fun fn fq k f fs e x s u hk hd he hf hlen hu => ?_,
    fun fn fq k f fs e x s u hk hd he hf hu => ?_, fun l f x b s u hfind hu hx hb => ?_, fun l f s hfind => ?_,
    fun l ecc s hnone => ?_⟩
  · rw [exec_txEntry hc h, txRun, hb]
    exact congrArg _ (if_pos hst)
  · rw [exec_txEntry hc h, txRun, hb]
    dsimp only
    rw [if_neg (by simp [hst]), ← hv, hbuild]
    exact congrArg _ (txOffer_eq hx)
  · rw [exec_txEntry hc h, txRun, hb]
    exact congrArg _ (txOffer_eq hx)
  · show execTxPipe fn fq r s = _
    rw [execTxPipe, nextEntry_of_nextIs h]
    exact congrArg _ (if_pos hlen)
  · show execTxPipe fn fq (.data b) s = _
    rw [execTxPipe, nextEntry_of_nextIs h, txPipeRun]
    dsimp only
    rw [← hn, if_neg (by omega), ← hv, hadm]
    rfl
  · show execTxPipe fn fq (.data b) s = _
    rw [execTxPipe, nextEntry_of_nextIs h, txPipeRun]
    dsimp only
    rw [← hn, if_neg (by omega), ← hv, hadm, if_neg (by simp), hy]
    dsimp only
    rw [hx]
  · exact congrArg Host.Outcome.next (nextEntry_of_nextIs h _)
  · show Host.Outcome.next (rxDeliver fn fq.toNat .good s) = _
    rw [(rxDeliver_head hk hd he hf).1, if_pos hlen]
  · show Host.Outcome.next (rxDeliver fn fq.toNat .good s) = _
    rw [(rxDeliver_head hk hd he hf).1, if_neg (by omega), hu]
    rfl
  · show Host.Outcome.next (rxDeliver fn fq.toNat .bad s) = _
    rw [(rxDeliver_head hk hd he hf).2, hu]
  · show execSpillReturn (l, .good) s = _
    rw [execSpillReturn, hfind]
    dsimp only [eccCount]
    rw [← hu, bringBack, hx]
    dsimp only
    rw [hb]
  · constructor
    · show execSpillReturn (l, .corrected) s = _
      rw [execSpillReturn, hfind]
      rfl
    · show execSpillReturn (l, .bad) s = _
      rw [execSpillReturn, hfind]
  · show execSpillReturn (l, ecc) s = _
    rw [execSpillReturn, List.find?_eq_none.mpr (by simpa using hnone)]

/-! ### Token buckets -/

theorem touch_last (b : TokenBucket) (t : BitVec 32) : (touch b t).last = t := rfl

/-- A touch leaves no bucket above sixteen times its burst (R293). -/
theorem touch_tokens_le (b : TokenBucket) (t : BitVec 32) : (touch b t).tokens ≤ 16 * (touch b t).burst.toNat := min_le_right ..

/-- With no values waiting a touch is the refill up to its tick (R294). -/
theorem touch_of_none {b : TokenBucket} (h : b.pending = none) (t : BitVec 32) :
    touch b t = { refill b (tickDiff t b.last) with last := t } := by
  unfold touch applyPending
  rw [h]

/-- Values accepted with none waiting wait for the next tick (R295). -/
theorem acceptValues_of_none {b : TokenBucket} (h : b.pending = none) (t : BitVec 32) (en : Bool) (r u : BitVec 24) :
    acceptValues b t en r u =
      { refill b (tickDiff t b.last) with last := t, pending := some (en, r, u), effective := t + 1 } := by
  unfold acceptValues
  rw [touch_of_none h]
  simp [refill, h]

/-- At its effective tick a bucket has the values that waited (R294). -/
theorem touch_at_effective {b : TokenBucket} {en : Bool} {r u : BitVec 24} (h : b.pending = some (en, r, u)) :
    (touch b b.effective).rate = r ∧ (touch b b.effective).burst = u ∧ (touch b b.effective).en = en := by
  unfold touch applyPending
  rw [h]
  dsimp only
  rw [if_pos (by simp [tickDiff])]
  exact ⟨rfl, rfl, rfl⟩

/-- Settles O35: refill and touch, the values that wait, what a bucket lets pass and is charged, and the sweep of each kind. -/
theorem tokenBuckets : Obligations.TokenBuckets := by
  unfold Obligations.TokenBuckets
  refine ⟨fun b n => ⟨min_le_right .., fun h => min_eq_left h⟩, fun b t => ⟨touch_last b t, touch_tokens_le b t⟩,
    fun b t en r u h => ?_, fun b t h hen => ?_, fun b t n h h0 => ?_, fun n s => rfl, fun n s => rfl, fun p s => rfl,
    fun n s => rfl, fun n s => rfl, fun b s u h => ?_⟩
  · have haccept := acceptValues_of_none h t en r u
    have hpend : (acceptValues b t en r u).pending = some (en, r, u) := rfl
    have heff : (acceptValues b t en r u).effective = t + 1 := by rw [haccept]
    refine ⟨by rw [haccept]; rfl, by rw [haccept]; rfl, by rw [haccept]; rfl, heff, ?_⟩
    simpa only [heff] using touch_at_effective hpend
  · unfold shaperEligible
    rw [touch_of_none h]
    simp [refill, hen]
  · unfold debit
    dsimp only
    omega
  · obtain rfl : sweep b (tickNow s) s = u := Host.Outcome.next.inj h
    exact ⟨rfl, rfl⟩

/-! ### The schedule choice -/

/-- Below port 8 nothing is longer than a gate (R327). -/
theorem dropOversize_network {p : Nat} (hp : p < 8) (s : State) : dropOversize p s = s := if_pos (.inl hp)

/-- The choice on a network port with an eligible leaf (R290, R291). -/
theorem scheduleChoice_chosen {p cyc l f : Nat} {ls fs : List Nat} {y : Path} {x : Frame} {s u : State} (hp : p < 8)
    (hport : portEligible s p = true) (hls : eligibleLeaves s p (clockNs (clockAt s cyc)) = l :: ls)
    (hpath : choosePath p (l :: ls) s = (u, y)) (hleaf : (leafOf s y.leaf).frames = f :: fs) (hf : frameOf s f = some x) :
    scheduleChoice p .none cyc s = startChosen p y f x .none cyc u := by
  unfold scheduleChoice
  rw [if_neg (by simp [hport]), dropOversize_network hp]
  dsimp only
  rw [hls]
  dsimp only
  rw [hpath]
  dsimp only
  rw [hleaf]
  dsimp only [List.head?_cons]
  rw [hf]

theorem loseDeficit_leaves (k c : Nat) (b : Bool) (s : State) : (loseDeficit k c b s).tm.leaves = s.tm.leaves := by
  unfold loseDeficit
  split <;> rfl

theorem settleEmpty_leaves (l : Nat) (s : State) : (settleEmpty l s).tm.leaves = s.tm.leaves := by
  simp only [settleEmpty, loseDeficit_leaves]

/-- A leaf keeps the frames it is left with. -/
theorem frames_keepFrames {l : Nat} {fs : List Nat} {s : State} (hs : tabSorted none s.tm.leaves = true) :
    (leafOf (keepFrames l fs s) l).frames = fs := by
  unfold keepFrames leafOf
  dsimp only
  rw [settleEmpty_leaves]
  refine (congrArg Leaf.frames (tabGet_set_same hs l _)).trans ?_
  split <;> rfl

theorem sorted_keepFrames {l : Nat} {fs : List Nat} {s : State} (hs : tabSorted none s.tm.leaves = true) :
    tabSorted none (keepFrames l fs s).tm.leaves = true := by
  unfold keepFrames
  dsimp only
  rw [settleEmpty_leaves]
  exact tabSorted_set (d := fun _ => Leaf.empty) hs l _

/-- Settles O36: a port that is not eligible, one without an eligible leaf, and the head frame that is current or stale. -/
theorem scheduleChoiceOfPorts : Obligations.ScheduleChoice := by
  unfold Obligations.ScheduleChoice
  refine ⟨fun p e c s h => ?_, fun p e c s hp hnone => ?_, fun p c l ls y f fs x s u hp hport hls hpath hleaf hf hfresh => ?_,
    fun p c l ls y f fs x s u hp hport hls hpath hleaf hf hstale => ?_, fun p l s hs => ?_⟩
  · show Host.Outcome.next (scheduleChoice p.val e c.val s) = _
    rw [scheduleChoice, if_pos (by simp [h])]
  · show Host.Outcome.next (scheduleChoice p.val e c.val s) = _
    rw [scheduleChoice, dropOversize_network hp]
    dsimp only
    rw [hnone, ite_self]
  · show Host.Outcome.next (scheduleChoice p.val .none c.val s) = _
    rw [scheduleChoice_chosen hp hport hls hpath hleaf hf, startChosen, if_neg (by simp [hfresh])]
    dsimp only [startError]
    rw [if_pos (by omega)]
  · show Host.Outcome.next (scheduleChoice p.val .none c.val s) = _
    rw [scheduleChoice_chosen hp hport hls hpath hleaf hf, startChosen, if_pos hstale]
  · have hkeep := sorted_keepFrames (l := l) (fs := (leafOf s l).frames.drop 1) hs
    refine (congrArg Leaf.frames (tabGet_set_same hkeep l _)).trans ?_
    exact frames_keepFrames hs

/-! ### Priority flow control -/

/-- The frame that returns a priority to XON carries it with quanta 0 (R282). -/
theorem sendPfc_xon {p : NPort} {k : Fin 8} {s : State} (h : rb s (TM_PORT_C p.val) (32 + k.val) = false) :
    ∃ pr q, (sendPfc p (some k.val) s).out = .pfcFrame p pr q :: s.out ∧ pr.getLsbD k.val = true ∧ q[k.val]? = some 0 := by
  have hoff : (xoffBits s p.val).testBit k.val = false := by
    rw [xoffBits, rf, testBit_fld, ← rb, h, Bool.and_false]
  refine ⟨_, _, rfl, ?_, ?_⟩
  · rw [BitVec.getLsbD_ofNat, Nat.testBit_or, Nat.testBit_two_pow_self]
    simp
  · simp [hoff]

/-- A pause or a release of a priority changes no other register than the port's own TM_PORT_C (R283). -/
theorem pausePrio_other {n k q o : Nat} {s : State} (hs : tabSorted none s.regs = true) (ho : o ≠ TM_PORT_C n) :
    getReg (pausePrio n k q s) o = getReg s o ∧ tabSorted none (pausePrio n k q s).regs = true := by
  unfold pausePrio
  split
  · exact ⟨rfl, hs⟩
  · split
    · exact ⟨getReg_put_other hs _ ho, sorted_putB hs ..⟩
    · exact ⟨getReg_put_other (s := { s with tm := _ }) hs _ ho, sorted_putB (s := { s with tm := _ }) hs ..⟩

/-- The priorities that a received PFC pauses or releases leave the other registers (R283). -/
theorem foldl_pausePrio_other {n o : Nat} (ho : o ≠ TM_PORT_C n) (b : Nat → Bool) (q : Nat → Nat) (ks : List Nat) {s : State}
    (hs : tabSorted none s.regs = true) :
    getReg (ks.foldl (fun s k => if b k then pausePrio n k (q k) s else s) s) o = getReg s o := by
  induction ks generalizing s with
  | nil => rfl
  | cons k ks ih =>
    rw [List.foldl_cons]
    split
    · obtain ⟨hget, hsorted⟩ := pausePrio_other (k := k) (q := q k) hs ho
      exact (ih hsorted).trans hget
    · exact ih hs

/-- Settles O37: a refresh and a return to XON by their conditions, a received PFC by its count and its priorities, and the
end of a pause. -/
theorem priorityFlowControl : Obligations.PriorityFlowControl := by
  unfold Obligations.PriorityFlowControl
  refine ⟨fun p k s hx ht => ?_, fun p k s hx => ⟨?_, ?_⟩, fun p k s hx hroom hs => ?_, fun p pr q s hup hs => ?_,
    fun p pr q s hdown => ?_, fun n k s hn hk hen hs => ⟨?_, fun q hq => ?_⟩, fun p k s hx ht => ?_⟩
  · show execPfcRefresh p k s = _
    simp [execPfcRefresh, hx, ht]
  · show execPfcRefresh p k s = _
    simp [execPfcRefresh, hx]
  · show execPfcXon p k s = _
    simp [execPfcXon, hx]
  · have hexec : exec (.pfcXon p k) s = .next (sendPfc p (some k.val) (putB (TM_PORT_C p.val) (32 + k.val) false s)) := by
      show execPfcXon p k s = _
      simp [execPfcXon, hx, hroom]
    have hclear := rb_putB_same hs (o := TM_PORT_C p.val) (i := 32 + k.val) (b := false) (by omega)
    have hsort := sorted_putB hs (TM_PORT_C p.val) (32 + k.val) false
    refine ⟨_, hexec, ?_, sendPfc_xon hclear⟩
    refine Eq.trans (congrArg (bit · _) (getReg_put_other hsort _ ?_)) hclear
    simp only [TM_PORT_C, TM_PORT_D]
    omega
  · have hsort : tabSorted none (addStat (TM_PORT_E p.val) 1 s).regs = true := sorted_putReg hs ..
    refine ⟨_, congrArg Host.Outcome.next (if_neg (by simp [hup])), ?_⟩
    rw [foldl_pausePrio_other (by simp only [TM_PORT_C, TM_PORT_E]; omega) pr.getLsbD (fun k => (q.getD k 0).toNat) _ hsort]
    exact getReg_put_same hs ..
  · exact congrArg Host.Outcome.next (if_pos (by simp [hdown]))
  · rw [pausePrio, if_neg (by simp [hen]), if_pos rfl]
    exact rb_putB_same hs (by omega)
  · rw [pausePrio, if_neg (by simp [hen]), if_neg hq]
    exact rb_putB_same (s := { s with tm := _ }) hs (by omega)
  · show execPfcPauseExpiry p k s = _
    simp [execPfcPauseExpiry, hx, ht]

end Sys2Proof.Machine
end

section
/-! The plant side: receipt and release, gate schedules and launch times, takeover, the cyclic image engine. -/
namespace Sys2Proof.Machine

/-! ### Receipt, release and frame recovery -/

/-- PLANT_FRAME_RECEIVE in the order of its tests (R307). -/
theorem plantReceive_taken {p : PPort} {b : Bytes} {cyc : Nat} {t : Clock} {s u : State}
    (ht : t = clockShift (clockAt s cyc) (-(65536 * rxCorr s (8 + p.val)))) (htake : plantTakes s p.val (clockNs t) = true)
    (hu : u = addStat (PP_RX_OCTETS p.val) (b.length + 4) (addStat (PP_RX_FRAMES p.val) 1 s))
    (hlen : b.length + 4 ≤ maxFrame u (8 + p.val)) : plantReceive p.val b false cyc s =
      (let r := admitIngress (8 + p.val) b u
       if !r.2 then r.1 else
       let a := addFrame (rxFrame u b true 4 p.val 4 t t u.tm.nextBuf) r.1
       let rx : PlantRx := { frame := a.2, port := p, ended := none, released := false, handoff := none,
                             deposit := none, learns := false, recovered := none, copies := [] }
       plantDeal 8 (queueFrame 4 (plantSrc p.val) a.2 (addRx rx a.1))) := by
  unfold plantReceive
  dsimp only
  rw [← ht, if_neg (by simp [htake]), if_neg (by simp), ← hu, if_neg (by omega),
    show Fin.ofNat 4 p.val = p from Fin.ext (Nat.mod_eq_of_lt p.isLt)]

/-- The frame that is arriving at a port ends good before its release (R308). -/
theorem plantEnd_good {p : PPort} {cyc : Nat} {r : PlantRx} {x : Frame} {s : State}
    (hr : s.plant.rx.find? (fun r => r.port.val == p.val && r.ended.isNone) = some r) (hf : frameOf s r.frame = some x)
    (hrel : r.released = false) : plantEnd p.val true cyc s = plantDeal 8 (mapRx r.frame (fun y => { y with ended := some true })
      (putFrame r.frame { x with fcsOk := true, endTime := clockAt s cyc } s)) := by
  unfold plantEnd
  rw [hr]
  dsimp only
  rw [if_pos rfl, hf, if_neg (by simp [hrel])]

section
variable {p : PPort} {e : Ecc} {f : Nat} {rest : List Nat} {x : Frame} {r : PlantRx} {s : State}
  (hrob : (srcOf s 4 (plantSrc p.val)).rob = f :: rest) (hf : frameOf s f = some x)
  (hr : s.plant.rx.find? (fun r => r.frame == f) = some r)
include hrob hf hr

/-- The oldest entry of a port's reorder buffer waits for its parse (R308). -/
theorem plantRelease_pending (hpend : x.result = .pending) : plantRelease p.val e s = s := by
  unfold plantRelease
  dsimp only
  rw [hrob]
  dsimp only
  rw [hf, hr]
  dsimp only
  rw [if_pos hpend]

/-- One whose FCS proved bad is freed (R308). -/
theorem plantRelease_bad (hdone : x.result ≠ .pending) (hend : r.ended = some false) : plantRelease p.val e s =
    plantDeal 8 (advanceRetired 4 (dropRx f (freeFrame f
      (putSrc 4 (plantSrc p.val) { srcOf s 4 (plantSrc p.val) with rob := rest } s)))) := by
  unfold plantRelease
  dsimp only
  rw [hrob]
  dsimp only
  rw [hf, hr]
  dsimp only
  rw [if_neg hdone, if_pos hend]

/-- Any other is released, and settled where its last bit is in (R308, R309). -/
theorem plantRelease_good {y : Frame} {u v : State} (hdone : x.result ≠ .pending) (hend : r.ended ≠ some false)
    (hy : y = { x with loc := .plant, record := splice x.record 0 (beBytes 2 x.len) })
    (hu : u = mapRx f (fun z => { z with released := true }) (putFrame f y
      (putSrc 4 (plantSrc p.val) { srcOf s 4 (plantSrc p.val) with rob := rest } s)))
    (hv : v = advanceRetired 4 (match y.result with
        | .malformed reason => malformedAction 4 f reason.toNat u
        | _ => plantChain f y e u)) : plantRelease p.val e s =
      plantDeal 8 (match r.ended, v.plant.rx.find? (fun z => z.frame == f) with
        | some ok, some z => settleRx z ok v
        | _, _ => v) := by
  unfold plantRelease
  dsimp only
  rw [hrob]
  dsimp only
  rw [hf, hr]
  dsimp only
  rw [if_neg hdone, if_neg hend]
  subst hv hu hy
  exact rfl

end

/-- A numbered frame that its function passed is discarded when it comes again (R317). -/
theorem cbRecover_twice {h seq : Nat} {s : State} (hs : tabSorted none s.plant.cb = true) (hany : (cbOf s h).takeAny = true) :
    (cbRecover h seq s).2 = true ∧ (cbRecover h seq (cbRecover h seq s).1).2 = false := by
  have hfirst : cbRecover h seq s =
      (putCb h { cbOf s h with
                 takeAny := false, recHigh := BitVec.ofNat 16 seq, recVector := 1,
                 passed := (cbOf s h).passed + 1, lastPass := s.ticks } s, true) := if_pos hany
  rw [hfirst]
  refine ⟨rfl, ?_⟩
  unfold cbRecover
  rw [show cbOf (putCb h _ s) h = _ from tabGet_set_same hs h _]
  have hd : signed 16 (seq + 65536 - (BitVec.ofNat 16 seq).toNat) = 0 := by
    simp only [signed, BitVec.toNat_ofNat]
    omega
  dsimp only
  rw [hd, if_neg (by simp), if_neg (by simp only [cbHistory]; omega), if_pos le_rfl, if_pos (by decide)]

/-- Settles O39: a frame at a port by what the port does with it, its end, its release by its parse and its FCS, and the
numbers of a function. -/
theorem plantReceipt : Obligations.PlantReceipt := by
  unfold Obligations.PlantReceipt
  refine ⟨fun p b o c t s ht htake => ?_, fun p b c t s ht htake => ?_,
    fun p b c t s u v w f ht htake hu hlen hadm hadd => ?_, fun p ok c s hnone => ?_, fun p c r x s hr hf hrel => ?_,
    fun p e s hrob => ?_, fun p e f rest x r s hrob hf hr hpend => ?_, fun p e f rest x r s hrob hf hr hdone hend => ?_,
    fun p e f rest x y r s u v hrob hf hr hdone hend hy hu hv => ⟨fun hnone => ?_, fun z hsome hz => ?_⟩,
    fun h seq s hs hany => cbRecover_twice hs hany, fun h s hs => ⟨rfl, ?_⟩⟩
  · show Host.Outcome.next (plantReceive p.val b o c.val s) = _
    rw [plantReceive, ← ht]
    exact congrArg _ (if_pos (by simp [htake]))
  · show Host.Outcome.next (plantReceive p.val b true c.val s) = _
    rw [plantReceive, ← ht]
    exact congrArg _ ((if_neg (by simp [htake])).trans (if_pos rfl))
  · show Host.Outcome.next (plantReceive p.val b false c.val s) = _
    rw [plantReceive_taken ht htake hu hlen, hadm]
    dsimp only
    rw [if_neg (by simp), hadd]
  · show Host.Outcome.next (plantEnd p.val ok c.val s) = _
    have hfind : s.plant.rx.find? (fun r => r.port.val == p.val && r.ended.isNone) = none :=
      List.find?_eq_none.mpr fun r hr => by
        simpa [Option.isSome_iff_ne_none] using hnone r hr
    rw [plantEnd, hfind]
  · exact congrArg Host.Outcome.next (plantEnd_good hr hf hrel)
  · show Host.Outcome.next (plantRelease p.val e s) = _
    unfold plantRelease
    dsimp only
    rw [hrob]
  · exact congrArg Host.Outcome.next (plantRelease_pending hrob hf hr hpend)
  · exact congrArg Host.Outcome.next (plantRelease_bad hrob hf hr hdone hend)
  · refine congrArg Host.Outcome.next ((plantRelease_good hrob hf hr hdone hend hy hu hv).trans ?_)
    rw [hnone]
  · refine congrArg Host.Outcome.next ((plantRelease_good hrob hf hr hdone hend hy hu hv).trans ?_)
    rw [hsome, hz]
  · exact congrArg CbFn.genNext (tabGet_set_same hs h _)

/-! ### Gate schedules and launch times -/

/-- A schedule that is placed keeps its sets (R328). -/
theorem placeSched_sets (x : Sched) (t : Nat) : (placeSched x t).oper = x.oper ∧ (placeSched x t).pending = x.pending := by
  unfold placeSched
  split
  · exact ⟨rfl, rfl⟩
  · dsimp only
    split <;> exact ⟨rfl, rfl⟩

/-- The first start lies at or after a time, on the cycles of the set (R326). -/
theorem firstStart_spec {o : SchedSet} (ho : 0 < o.cycle) (c : Nat) :
    c ≤ firstStart o c ∧ o.base ≤ firstStart o c ∧ (firstStart o c - o.base) % o.cycle = 0 := by
  unfold firstStart
  split
  · next h => exact ⟨h, le_rfl, by simp⟩
  · have hdiv := Nat.div_add_mod (c - o.base + o.cycle - 1) o.cycle
    have hmod := Nat.mod_lt (c - o.base + o.cycle - 1) ho
    rw [Nat.mul_comm] at hdiv
    refine ⟨by omega, by omega, ?_⟩
    rw [Nat.add_sub_cancel_left, Nat.mul_mod_left]

/-- A schedule that switches has its pending set as its oper set (R326). -/
theorem scheduleSwitch_due {n : Nat} {o : SchedSet} {a : Nat} {s : State} (hp : (schedOf s n).pending = some (o, a))
    (ha : timeReached s a = true) : ∃ y : Sched, y.oper = some o ∧ y.pending = none ∧ scheduleSwitch n s =
      putF (PP_SCHED_F n) 0 32 o.cycle (putB (PP_SCHED_C n) 33 true (putB (PP_SCHED_C n) 34 false (putSched n y s))) := by
  refine ⟨_, ?_, ?_, (?_ : scheduleSwitch n s = putF (PP_SCHED_F n) 0 32 o.cycle (putB (PP_SCHED_C n) 33 true
    (putB (PP_SCHED_C n) 34 false (putSched n (if a < clockNs s.clk then
      placeSched { schedOf s n with pending := none, oper := some o, past := (a, (schedOf s n).oper) :: (schedOf s n).past }
        (clockNs s.clk)
    else { placeSched { schedOf s n with pending := none, oper := some o, past := (a, (schedOf s n).oper) :: (schedOf s n).past } a
        with next := a }) s))))⟩
  · split <;> simp [placeSched_sets]
  · split <;> simp [placeSched_sets]
  · unfold scheduleSwitch
    dsimp only
    rw [hp]
    dsimp only
    rw [if_neg (by simp [ha])]

/-- A cycle starts once its time has come and no set is pending (R325). -/
theorem cycleStart_due {n k : Nat} {ecc : Ecc} {o : SchedSet} {s : State} (hoper : (schedOf s n).oper = some o)
    (hpend : (schedOf s n).pending = none) (hnow : timeReached s (schedOf s n).next = true) : cycleStart n k ecc s =
      (let u := putF (PP_SCHED_F n) 32 32 (rf s (PP_SCHED_F n) 32 32 + 1) (putSched n (startCycle (schedOf s n) o) s)
       if 4 ≤ n then u else
       let v := imageBoundary n (schedOf s n).next k ecc u
       if n % 2 = 0 then watchdog (n / 2) (schedOf s n).next v else v) := by
  unfold cycleStart
  dsimp only
  rw [hoper]
  dsimp only
  rw [hpend]
  dsimp only
  rw [if_neg (by simp [hnow])]

/-- A log entry changes no register but the log's (R509). -/
theorem getReg_postLogAt_other {s : State} (hs : tabSorted none s.regs = true) {r : Nat} (hr : r < FX_LOG_SEQ) (c k b : Nat)
    (x y z : Word) : getReg (postLogAt c k b x y z s) r = getReg s r := by
  have hlog (n j : Nat) : r ≠ FX_LOG_ENTRY n j := by
    simp only [FX_LOG_SEQ, FX_LOG_ENTRY] at *
    omega
  have hsignal (t : State) : getReg (signalLog t) r = getReg t r := by
    rw [getReg, signalLog_regs, ← getReg]
  unfold postLogAt
  dsimp only
  rw [hsignal, getReg_put_other (sorted_putReg (sorted_putReg (sorted_putReg (sorted_putReg hs ..) ..) ..) ..) _ hr.ne,
    getReg_put_other (sorted_putReg (sorted_putReg (sorted_putReg hs ..) ..) ..) _ (hlog _ _),
    getReg_put_other (sorted_putReg (sorted_putReg hs ..) ..) _ (hlog _ _),
    getReg_put_other (sorted_putReg hs ..) _ (hlog _ _), getReg_put_other hs _ (hlog _ _)]

/-- An error counter changes no register but its own and the log's (R511). -/
theorem getReg_addErr_other {s : State} (hs : tabSorted none s.regs = true) {r off : Nat} (hoff : r ≠ off)
    (hr : r < FX_LOG_SEQ) (n : Nat) : getReg (addErr off n s) r = getReg s r := by
  unfold addErr addErrAt
  dsimp only
  split
  · exact (getReg_postLogAt_other (sorted_putF hs ..) hr ..).trans (getReg_put_other hs _ hoff)
  · exact getReg_put_other hs _ hoff

/-- Settles O40: the ends of intervals, a change and its switch, cycle starts of both kinds, and a launch frame's lead and
bound. -/
theorem gatesAndLaunches : Obligations.GatesAndLaunches := by
  unfold Obligations.GatesAndLaunches
  refine ⟨fun n x p e s hx hpos he hend => ?_, fun n s hpos => ?_, fun n c s hopen hs hbad => ?_, fun n c s hopen hsize hcyc => ?_,
    fun o c ho => firstStart_spec ho c, fun n o a s hs hsch hp ha => ?_, fun n s hp => ?_, fun n o k ecc s hn hoper hpend hnow => ?_,
    fun n o k ecc s u hn hoper hpend hnow hu => ?_, fun n k ecc s hnow => ?_, fun x o => ?_,
    fun l f fs h w p now s hl hf hw hp h8 h12 hnow hlead => ?_,
    fun l f fs h w p now s hl hf hw hp h8 h12 hnow hlate hbound hdrop hs => ?_⟩
  · show execGateIntervalEnd n s = _
    unfold execGateIntervalEnd
    dsimp only
    rw [← hx, hpos]
    dsimp only
    rw [he]
    exact congrArg _ (if_pos hend)
  · show execGateIntervalEnd n s = _
    unfold execGateIntervalEnd
    dsimp only
    rw [hpos]
  · refine ⟨_, congrArg Host.Outcome.next (setupWrite_of_open hopen _), ?_, ?_⟩
    · rw [scheduleChange]
      dsimp only
      rw [if_pos hbad, rb, getReg_linkBusy]
      exact rb_putB_same hs (by omega)
    · rw [scheduleChange]
      dsimp only
      rw [if_pos hbad]
      rfl
  · refine congrArg Host.Outcome.next ((setupWrite_of_open hopen _).trans ?_)
    rw [scheduleChange]
    dsimp only
    rw [if_neg (by omega)]
  · obtain ⟨y, hoper, hpend, hswitch⟩ := scheduleSwitch_due hp ha
    have hFC : PP_SCHED_C n.val ≠ PP_SCHED_F n.val := by simp only [PP_SCHED_C, PP_SCHED_F]; omega
    have hs1 : tabSorted none (putSched n.val y s).regs = true := hs
    have hs2 := sorted_putB hs1 (PP_SCHED_C n.val) 34 false
    have hs3 := sorted_putB hs2 (PP_SCHED_C n.val) 33 true
    have hget : schedOf (scheduleSwitch n.val s) n.val = y := by
      rw [hswitch]
      exact tabGet_set_same hsch _ _
    refine ⟨_, rfl, by rw [hget, hoper], by rw [hget, hpend], ?_, ?_, ?_⟩
    · rw [hswitch, rb_putF_other hs3 hFC, rb_putB_bit hs2 (by omega) (by omega), rb_putB_same hs1 (by omega)]
    · rw [hswitch, rb_putF_other hs3 hFC, rb_putB_same hs2 (by omega)]
    · rw [hswitch, rf_putF_same hs3 (by omega)]
  · show Host.Outcome.next (scheduleSwitch n.val s) = _
    unfold scheduleSwitch
    dsimp only
    rw [hp]
  · exact congrArg Host.Outcome.next ((cycleStart_due hoper hpend hnow).trans (if_pos hn))
  · subst hu
    exact congrArg Host.Outcome.next ((cycleStart_due hoper hpend hnow).trans (if_neg (by omega)))
  · show Host.Outcome.next (cycleStart n.val k.toNat ecc s) = _
    unfold cycleStart
    dsimp only
    split
    · rfl
    · rw [if_pos (by simp [hnow])]
  · unfold startCycle
    dsimp only
    split <;> exact ⟨rfl, rfl⟩
  · show execLaunchEligible l s = _
    unfold execLaunchEligible
    dsimp only
    rw [hl]
    dsimp only
    rw [hf]
    dsimp only
    rw [hw]
    dsimp only
    rw [← hp, ← hnow, if_pos ⟨h8, h12, hlead⟩]
  · show execLaunchLate l s = _
    unfold execLaunchLate
    dsimp only
    rw [hl]
    dsimp only
    rw [hf]
    dsimp only
    rw [hw]
    dsimp only
    have hkeep : rb (addErr (PP_LAUNCH_LATE (p - 8)) 1 s) (PP_PORT_B (p - 8)) 32 = false := by
      rw [rb, getReg_addErr_other hs _ _ 1, ← rb, hdrop]
      · simp only [PP_PORT_B, PP_LAUNCH_LATE]
        omega
      · simp only [PP_PORT_B, FX_LOG_SEQ]
        omega
    rw [← hp, ← hnow, if_pos ⟨h8, h12, hlate, hbound⟩, if_neg (by simp [hkeep])]

/-! ### Takeover -/

/-- A pair that is written is the pair read back (R331). -/
theorem pairOf_putPair {p : Fin 2} {s : State} (h : s.plant.pairs.length = 2) (x : PairSt) :
    pairOf (putPair p.val x s) p.val = x := by
  have hset : (s.plant.pairs.set p.val x).getD p.val .reset = x := by
    rw [List.getD_eq_getElem _ _ (by simp [h]; omega)]
    exact List.getElem_set_self _
  unfold pairOf putPair pageIf
  split
  · obtain ⟨l, o, hpage⟩ := pageChanged_frame 3 { s with plant := { s.plant with pairs := s.plant.pairs.set p.val x } }
    rw [hpage]
    exact hset
  · exact hset

/-- An arm with result 0 passed every check (R332). -/
theorem armResult_eq_zero {p t now : Nat} {s : State} (h : armResult s p t now = 0) :
    now + 10000 ≤ t ∧ pairChecks s p t = 0 := by
  unfold armResult at h
  dsimp only at h
  split at h
  · next hfirst => exact absurd h hfirst.1
  · split at h
    · simp at h
    · next htime =>
      split at h
      · exact ⟨by omega, h⟩
      · exact ⟨by omega, h⟩
      · simp at h

/-- The checks pass only in service (R332). -/
theorem inService_of_pairChecks {p t : Nat} {s : State} (h : pairChecks s p t = 0) : inService s = true := by
  by_contra hno
  unfold pairChecks at h
  dsimp only at h
  split at h
  · simp at h
  · split at h
    · simp at h
    · rw [if_pos (by simp [hno])] at h
      simp at h

/-- A change of a status page changes no register (R531). -/
theorem rb_pageChanged (fn o i : Nat) (s : State) : rb (pageChanged fn s) o i = rb s o i := by
  obtain ⟨l, out, h⟩ := pageChanged_frame fn s
  rw [h]
  rfl

/-- Settles O41: each operation of a pair in its state and out of it, and the links of the ports. -/
theorem takeoverOfPairs : Obligations.Takeover := by
  unfold Obligations.Takeover
  refine ⟨fun p c r s hopen hs hr hne => ?_, fun p c s hopen hlen h0 => ?_,
    fun p t now s h => ⟨inService_of_pairChecks (armResult_eq_zero h).2, armResult_eq_zero h⟩,
    fun p s hopen hst hlen => ?_, fun p s hopen hst => ?_, fun p c s hopen _ => ?_, fun p s hst hnow hok => ?_,
    fun p r s hst hnow hr hne => ?_, fun p c s hst => ?_, fun q s hs hserv hen hdown => ?_, fun q s hup => ?_, fun q s hdown => ?_⟩
  · have harm : arm p.val c.val s = pairResult p.val r s := by
      unfold arm
      dsimp only
      rw [← hr, if_neg hne]
    refine ⟨_, congrArg Host.Outcome.next (setupWrite_of_open hopen _), ?_, ?_⟩
    · rw [harm, rf, getReg_linkBusy]
      exact rf_putF_same hs (by omega)
    · rw [harm]
      rfl
  · have harm : arm p.val c.val s =
        putPair p.val { state := .armed, takeAt := takeTime s p.val } (pairResult p.val 0 s) := by
      unfold arm
      dsimp only
      rw [h0, if_pos rfl]
    refine ⟨_, congrArg Host.Outcome.next (setupWrite_of_open hopen _), ?_⟩
    rw [harm]
    exact pairOf_putPair (s := pairResult p.val 0 s) hlen _
  · refine ⟨_, congrArg Host.Outcome.next (setupWrite_of_open hopen _), ?_⟩
    rw [unarm, hst]
    exact pairOf_putPair hlen _
  · refine congrArg Host.Outcome.next ((setupWrite_of_open hopen _).trans (congrArg linkBusy ?_))
    unfold unarm
    split
    · next h => exact absurd h hst
    · rfl
  · exact congrArg Host.Outcome.next (setupWrite_of_open hopen _)
  · show Host.Outcome.next (takeover p.val s) = _
    unfold takeover
    dsimp only
    rw [hst]
    dsimp only
    rw [if_neg (by simp [hnow]), if_pos hok]
  · show Host.Outcome.next (takeover p.val s) = _
    unfold takeover
    dsimp only
    rw [hst]
    dsimp only
    rw [if_neg (by simp [hnow]), ← hr, if_neg hne, unarm, hst]
  · show execPairTaken p c s = _
    unfold execPairTaken
    dsimp only
    rw [hst]
  · refine ⟨_, congrArg Host.Outcome.next (if_pos (by simp [hserv, hen, hdown])), ?_⟩
    rw [rb_pageChanged, rb_putB_same (sorted_putB hs ..) (by omega)]
  · exact congrArg Host.Outcome.next (if_pos hup)
  · exact congrArg Host.Outcome.next (if_neg (by simp [hdown]))

/-! ### The cyclic image engine -/

/-- IMG_PUT on the entry that its channel serves (R340). -/
theorem execImgPut_of_transfer {fq : BitVec 20} {r : Read} {x y : Word} {e : Entry} {s u : State}
    (hu : u = channelMode (imgChannel s fq.toNat) (joinWaiting 3 fq.toNat s)) (he : imgTransfer u fq.toNat 0x60 = some e) :
    execImgPut fq r x (y, .good) s = .next (if imgCheck u fq.toNat e ≠ 0 then
      imgFail fq.toNat e (imgCheck u fq.toNat e) (imgRetries e) u else imgPut fq.toNat r x y e u) := by
  unfold execImgPut
  dsimp only
  rw [← hu, he]
  rfl

/-- IMG_GET on the entry that its channel serves (R340). -/
theorem execImgGet_of_transfer {fq : BitVec 20} {fl : Bool} {r : Read} {e : Entry} {s u : State}
    (hu : u = channelMode (imgChannel s fq.toNat) (joinWaiting 3 fq.toNat s)) (he : imgTransfer u fq.toNat 0x61 = some e) :
    execImgGet fq fl (r, .good) s = .next (if imgCheck u fq.toNat e ≠ 0 then
      imgFail fq.toNat e (imgCheck u fq.toNat e) (imgRetries e) u else imgGet fq.toNat fl r .good e u) := by
  unfold execImgGet
  dsimp only
  rw [← hu, he]

theorem rf_linkBusy (s : State) (o a n : Nat) : rf (linkBusy s) o a n = rf s o a n := by rw [rf, getReg_linkBusy, ← rf]

theorem rb_linkBusy (s : State) (o i : Nat) : rb (linkBusy s) o i = rb s o i := by rw [rb, getReg_linkBusy, ← rb]

/-- A write of IG_CTRL after its W1C bit: the region first, then enable (R350). -/
theorem igCtrlWrite_eq {s : State} (hs : tabSorted none s.regs = true) (v : Word) : ∃ u : State,
    tabSorted none u.regs = true ∧ rf u IG_CTRL 1 6 = rf s IG_CTRL 1 6 ∧ igCtrlWrite v s = putB IG_CTRL 0 (bit v 0)
      (if rb s IG_CTRL 0 || decide (59 < fld v 1 6) then putB IG_CTRL 7 true u else putF IG_CTRL 1 6 (fld v 1 6) u) := by
  refine ⟨if bit v 7 then putB IG_CTRL 7 false s else s, ?_, ?_, rfl⟩
  · split
    · exact sorted_putB hs ..
    · exact hs
  · split
    · exact rf_putB_field hs (by omega) (by omega)
    · rfl

/-- Settles O42: the flips, IMG_PUT and IMG_GET by their checks and their one attempt, and IG_CTRL with the engine on and
off. -/
theorem images : Obligations.Images := by
  unfold Obligations.Images
  refine ⟨fun p b s hb howed => ?_, fun p s hnone => ?_, fun b i s hs => tabGet_set_same hs _ _, fun b i s hfresh => ?_,
    fun fq r x y e s u hu he hchk => ?_, fun fq b x y e i host s u v hu he hchk hi hhost hrb hv => ?_,
    fun fq fl r e s u hu he hchk => ?_, fun fq r e x b host s u v hu he hchk hx hv hb hhost hrb => ?_,
    fun i off b s hwf => memRead_write_same hwf _ _, fun v s hopen hs hon => ?_, fun v s hopen hs hoff hbase => ?_⟩
  · show execRxImageFlip p s = _
    rw [execRxImageFlip, hb]
    exact congrArg _ (if_neg (by simp [howed]))
  · show execRxImageFlip p s = _
    rw [execRxImageFlip, hnone]
  · exact if_neg (by simp [hfresh])
  · exact (execImgPut_of_transfer hu he).trans (congrArg _ (if_pos hchk))
  · refine (execImgPut_of_transfer hu he).trans (congrArg _ ((if_neg (by simp [hchk])).trans ?_))
    subst hi hhost hv
    unfold imgPut
    dsimp only
    simp only [hrb, Bool.false_eq_true, if_false, Bool.false_and]
  · exact (execImgGet_of_transfer hu he).trans (congrArg _ (if_pos hchk))
  · refine (execImgGet_of_transfer hu he).trans (congrArg _ ((if_neg (by simp [hchk])).trans ?_))
    subst hx hhost hv hb
    unfold imgGet imgFront
    dsimp only [eccCount]
    simp only [hrb, Bool.false_eq_true, if_false]
  · refine ⟨_, congrArg Host.Outcome.next (setupWrite_of_open hopen _), ?_⟩
    obtain ⟨u, hsu, hbase, hwrite⟩ := igCtrlWrite_eq hs v
    have hs7 := sorted_putB hsu IG_CTRL 7 true
    rw [rf_linkBusy, rb_linkBusy, rb_linkBusy, hwrite, if_pos (by simp [hon]), rf_putB_field hs7 (by omega) (by omega),
      rf_putB_field hsu (by omega) (by omega), rb_putB_bit hs7 (by omega) (by omega)]
    exact ⟨hbase, rb_putB_same hsu (by omega), rb_putB_same hs7 (by omega)⟩
  · refine ⟨_, congrArg Host.Outcome.next (setupWrite_of_open hopen _), ?_⟩
    obtain ⟨u, hsu, -, hwrite⟩ := igCtrlWrite_eq hs v
    have hsf := sorted_putF hsu IG_CTRL 1 6 (fld v 1 6)
    rw [rf_linkBusy, rb_linkBusy, hwrite, if_neg (by simp [hoff, hbase]), rf_putB_field hsf (by omega) (by omega),
      rf_putF_same hsu (by omega)]
    exact ⟨Nat.mod_eq_of_lt (by omega), rb_putB_same hsf (by omega)⟩

end Sys2Proof.Machine
end

section
/-! Flow contexts, and the arithmetic of the flow cores. -/
namespace Sys2Proof.Machine

/-! ### Flow contexts -/

/-- A context entry outside a group runs (R356). -/
theorem ctxEntry_of_nextIs {s u : State} {cq op : Nat} {e : Entry} (h : NextIs s 0 cq op e u) (hg : e.group = none)
    (run : Entry → State → State) : ctxEntry cq op run s = run e u := by
  unfold ctxEntry
  rw [nextEntry_of_nextIs h, hg]
  cases reissued u e <;> rfl

/-- CTX_WRITE with its image read (R356, R357). -/
theorem ctxWrite_data {cq g : Nat} {e : Entry} {b : Bytes} {u v : State} (hg : ctlContext e.desc = some g)
    (hv : v = entryRead 0 cq e (leWord e.desc 0x18).toNat 256 u) : ctxWrite cq e (.data b) u =
      if ctxCheck v (slice b 0 256) ≠ 0 then finish 0 cq e.idx true (ctxCheck v (slice b 0 256)) 0 none v
      else ctxCommit cq e g (some (slice b 0 256)) v := by
  unfold ctxWrite
  rw [hg, hv]

/-- Outside a group a checked context entry applies at once (R358). -/
theorem ctxCommit_single {cq g : Nat} {e : Entry} {img : Option Bytes} {s : State} (hg : e.group = none) :
    ctxCommit cq e g img s = finish 0 cq e.idx false 0 0 none (applyCtxWrite g img s) := by
  unfold ctxCommit
  rw [hg]

theorem evictCtx_regs (g : Nat) (s : State) : (evictCtx g s).regs = s.regs := by
  unfold evictCtx
  split <;> rfl

theorem flushCtxs_regs (s : State) : (flushCtxs s).regs = s.regs := by
  have hfold (l : List (Nat × Cached)) (u : State) : (l.foldl (fun s e => evictCtx e.1 s) u).regs = u.regs := by
    induction l generalizing u with
    | nil => rfl
    | cons e l ih => rw [List.foldl_cons, ih, evictCtx_regs]
  exact hfold ..

/-- The fields of a word of CX_CTRL (R368). -/
theorem cxCtrlWord_fields {a b c : Nat} (ha : a < 2 ^ 7) (hb : b < 2) (hc : c < 2 ^ 12) :
    fld (BitVec.ofNat 64 (a + 2 ^ 7 * b + 2 ^ 8 * c)) 0 7 = a ∧ fld (BitVec.ofNat 64 (a + 2 ^ 7 * b + 2 ^ 8 * c)) 8 12 = c := by
  simp only [fld, BitVec.toNat_ofNat, Nat.shiftRight_eq_div_pow]
  omega

/-- Settles O43: each entry by its context number and its image, a fill by what the cache and the DRAM hold, and the fields
of CX_CTRL. -/
theorem contexts : Obligations.Contexts := by
  unfold Obligations.Contexts
  refine ⟨fun cq r op c e s u hc h hg hbad => ?_, fun cq b e g s u v h hgrp hg hv hok => ?_,
    fun cq b e g s u v h hgrp hg hv hbad => ?_, fun cq e g s u h hgrp hg => ?_, fun g x ecc s hx => ?_, fun g s hmiss => ?_,
    fun g c s u hmiss hu hc => ?_, fun v s hopen hs => ?_⟩
  · rcases hc with ⟨rfl, rfl⟩ | ⟨rfl, rfl⟩
    · show execCtxWrite cq r s = _
      rw [execCtxWrite, ctxEntry_of_nextIs h hg, ctxWrite, hbad]
    · show execCtxClear cq s = _
      rw [execCtxClear, ctxEntry_of_nextIs h hg, hbad]
  · show execCtxWrite cq (.data b) s = _
    rw [execCtxWrite, ctxEntry_of_nextIs h hgrp, ctxWrite_data hg hv, if_neg (by simp [hok]), ctxCommit_single hgrp]
  · show execCtxWrite cq (.data b) s = _
    rw [execCtxWrite, ctxEntry_of_nextIs h hgrp, ctxWrite_data hg hv, if_pos hbad]
  · show execCtxClear cq s = _
    rw [execCtxClear, ctxEntry_of_nextIs h hgrp, hg]
    dsimp only
    rw [ctxCommit_single hgrp]
  · show execContextFill g ecc s = _
    rw [execContextFill, hx]
  · show execContextFill g .good s = _
    rw [execContextFill, hmiss]
    rfl
  · show execContextFill g .bad s = _
    subst hu hc
    rw [execContextFill, hmiss]
    rfl
  · refine ⟨_, congrArg Host.Outcome.next (setupWrite_of_open hopen _), ?_⟩
    rw [rf_linkBusy, rf_linkBusy]
    dsimp only
    have hsflush (b : Bool) : tabSorted none (if b then s else flushCtxs s).regs = true := by
      split
      · exact hs
      · rw [flushCtxs_regs]
        exact hs
    rw [rf, rf, getReg_put_same (hsflush _)]
    have hregion (b : Bool) (x y : Word) : (if b then fld x 0 7 else fld y 0 7) < 2 ^ 7 := by
      split <;> exact Nat.mod_lt _ (by norm_num)
    have hb2n (b : Bool) : b2n b < 2 := by cases b <;> decide
    have hevq : fld v 8 12 < 2 ^ 12 := Nat.mod_lt _ (by norm_num)
    refine ⟨(cxCtrlWord_fields (hregion ..) (hb2n _) hevq).2, (cxCtrlWord_fields (hregion ..) (hb2n _) hevq).1.trans ?_⟩
    by_cases hok : fld v 0 7 ≤ 119 ∧ anyContext s = false
    · rw [if_pos hok, if_neg (by simp [hok])]
    · rw [if_neg hok, if_pos, rf]
      by_cases hbig : 119 < fld v 0 7
      · simp [hbig]
      · have hany : anyContext s = true := by
          by_contra hno
          exact hok ⟨by omega, by simpa using hno⟩
        simp [hany]

/-! ### Division by DSTEP -/

/-- The register of a division after `k` steps: remainder above, below it the bits of the dividend still to come and the
`k` bits of the quotient (R401). -/
def divReg (n k q r : Nat) : Nat := r * 2 ^ 32 + (n % 2 ^ (32 - k) * 2 ^ k + q)

/-- The next bit of a dividend. -/
def divBit (n k : Nat) : Nat := n / 2 ^ (31 - k) % 2

/-- What remains of the dividend splits into its next bit and the rest. -/
theorem divReg_double {n k q r : Nat} (hk : k < 32) :
    2 * divReg n k q r = (2 * r + divBit n k) * 2 ^ 32 + (n % 2 ^ (31 - k) * 2 ^ (k + 1) + 2 * q) := by
  have hsplit : n % 2 ^ (32 - k) = divBit n k * 2 ^ (31 - k) + n % 2 ^ (31 - k) := by
    rw [show 32 - k = (31 - k) + 1 by omega, pow_succ, Nat.mod_mul, divBit]
    ring
  have hpow : 2 ^ (31 - k) * 2 ^ (k + 1) = 2 ^ 32 := by
    rw [← pow_add]
    congr 1
    omega
  unfold divReg
  rw [hsplit]
  calc 2 * (r * 2 ^ 32 + ((divBit n k * 2 ^ (31 - k) + n % 2 ^ (31 - k)) * 2 ^ k + q))
      = 2 * r * 2 ^ 32 + divBit n k * (2 ^ (31 - k) * 2 ^ (k + 1)) + (n % 2 ^ (31 - k) * 2 ^ (k + 1) + 2 * q) := by ring
    _ = _ := by rw [hpow]; ring

/-- One step brings the next bit of the dividend into the remainder and one bit into the quotient (R401). -/
theorem dstep_divReg {n k q r d : Nat} (hk : k < 32) (hq : q < 2 ^ k) (hr : r < 2 ^ 31) (hd : d < 2 ^ 32) :
    dstep (BitVec.ofNat 64 (divReg n k q r)) (BitVec.ofNat 64 d) = BitVec.ofNat 64
      (if d ≤ 2 * r + divBit n k then divReg n (k + 1) (2 * q + 1) (2 * r + divBit n k - d)
       else divReg n (k + 1) (2 * q) (2 * r + divBit n k)) := by
  have hdouble := divReg_double (n := n) (q := q) (r := r) hk
  have hbit : divBit n k < 2 := Nat.mod_lt _ (by norm_num)
  have hlow : n % 2 ^ (31 - k) * 2 ^ (k + 1) + 2 * q < 2 ^ 32 := by
    have hrest : n % 2 ^ (31 - k) + 1 ≤ 2 ^ (31 - k) := Nat.mod_lt _ (by positivity)
    calc n % 2 ^ (31 - k) * 2 ^ (k + 1) + 2 * q < n % 2 ^ (31 - k) * 2 ^ (k + 1) + 2 ^ (k + 1) := by rw [pow_succ]; omega
      _ = (n % 2 ^ (31 - k) + 1) * 2 ^ (k + 1) := by ring
      _ ≤ 2 ^ (31 - k) * 2 ^ (k + 1) := Nat.mul_le_mul_right _ hrest
      _ = 2 ^ 32 := by rw [← pow_add]; congr 1; omega
  have heven : (n % 2 ^ (31 - k) * 2 ^ (k + 1) + 2 * q) % 2 = 0 := by
    rw [pow_succ, ← Nat.mul_assoc]
    omega
  unfold dstep divReg
  rw [show 32 - (k + 1) = 31 - k by omega]
  generalize n % 2 ^ (31 - k) * 2 ^ (k + 1) = x at *
  have htwice : (BitVec.ofNat 64 (divReg n k q r)).toNat * 2 % 2 ^ 64 = (2 * r + divBit n k) * 2 ^ 32 + (x + 2 * q) := by
    rw [BitVec.toNat_ofNat]
    omega
  have hdd : (BitVec.ofNat 64 d).toNat % 2 ^ 32 = d := by
    rw [BitVec.toNat_ofNat]
    omega
  rw [divReg] at htwice
  dsimp only
  rw [htwice, hdd]
  generalize 2 * r + divBit n k = y at *
  rw [show (y * 2 ^ 32 + (x + 2 * q)) / 2 ^ 32 = y by omega, show (y * 2 ^ 32 + (x + 2 * q)) % 2 ^ 32 = x + 2 * q by omega]
  split
  · congr 2
    omega
  · rfl

/-- The leading bits of a dividend grow by its next bit. -/
theorem leading_succ (n : Nat) {k : Nat} (hk : k < 32) : n / 2 ^ (32 - (k + 1)) = 2 * (n / 2 ^ (32 - k)) + divBit n k := by
  rw [show 32 - k = (31 - k) + 1 by omega, show 32 - (k + 1) = 31 - k by omega, pow_succ, ← Nat.div_div_eq_div_mul, divBit]
  omega

theorem leading_lt {n k : Nat} (hn : n < 2 ^ 32) (hk : k ≤ 32) : n / 2 ^ (32 - k) < 2 ^ k := by
  rw [Nat.div_lt_iff_lt_mul (by positivity), ← pow_add, show k + (32 - k) = 32 by omega]
  exact hn

/-- After `k` steps the leading `k` bits of the dividend are divided (R401). -/
theorem dstep_iterate {n d : Nat} (hn : n < 2 ^ 32) (h0 : 0 < d) (hd : d < 2 ^ 32) (k : Nat) (hk : k ≤ 32) :
    (fun a => dstep a (BitVec.ofNat 64 d))^[k] (BitVec.ofNat 64 n) =
      BitVec.ofNat 64 (divReg n k (n / 2 ^ (32 - k) / d) (n / 2 ^ (32 - k) % d)) := by
  induction k with
  | zero =>
    have hlead : n / 4294967296 = 0 := Nat.div_eq_of_lt hn
    have hrest : n % 4294967296 = n := Nat.mod_eq_of_lt hn
    simp [divReg, hlead, hrest]
  | succ k ih =>
    have hlead := leading_lt hn (by omega : k ≤ 32)
    have hpow : 2 ^ k ≤ 2 ^ 31 := Nat.pow_le_pow_right (by norm_num) (by omega)
    rw [Function.iterate_succ_apply', ih (by omega), leading_succ n (by omega)]
    generalize n / 2 ^ (32 - k) = m at *
    have hmod := Nat.mod_le m d
    have hdiv := Nat.div_le_self m d
    rw [dstep_divReg (by omega) (by omega) (by omega) hd]
    have hbit : divBit n k < 2 := Nat.mod_lt _ (by norm_num)
    have hlt := Nat.mod_lt m h0
    have hy : 2 * (m % d) + divBit n k < 2 * d := by omega
    have hwhole : 2 * m + divBit n k = d * (2 * (m / d)) + (2 * (m % d) + divBit n k) := by
      have := Nat.div_add_mod m d
      rw [Nat.mul_left_comm]
      omega
    rw [hwhole, Nat.mul_add_div h0, Nat.mul_add_mod]
    generalize 2 * (m % d) + divBit n k = y at *
    split
    · next hle =>
      rw [show y / d = 1 from Nat.div_eq_of_lt_le (by omega) (by omega), Nat.mod_eq_sub_mod hle, Nat.mod_eq_of_lt (by omega)]
    · next hgt => rw [Nat.div_eq_of_lt (not_le.mp hgt), Nat.mod_eq_of_lt (not_le.mp hgt), Nat.add_zero (2 * (m / d))]

/-- With a divisor of 0 every step takes the bit and a one (R401). -/
theorem dstep_zero_iterate {n : Nat} (hn : n < 2 ^ 32) (k : Nat) (hk : k ≤ 32) :
    (fun a => dstep a 0)^[k] (BitVec.ofNat 64 n) = BitVec.ofNat 64 (divReg n k (2 ^ k - 1) (n / 2 ^ (32 - k))) := by
  induction k with
  | zero =>
    have hlead : n / 4294967296 = 0 := Nat.div_eq_of_lt hn
    have hrest : n % 4294967296 = n := Nat.mod_eq_of_lt hn
    simp [divReg, hlead, hrest]
  | succ k ih =>
    have hlead := leading_lt hn (by omega : k ≤ 32)
    have hpow : 2 ^ k ≤ 2 ^ 31 := Nat.pow_le_pow_right (by norm_num) (by omega)
    have hpos : 0 < 2 ^ k := by positivity
    rw [Function.iterate_succ_apply', ih (by omega), leading_succ n (by omega)]
    refine (dstep_divReg (d := 0) (by omega) (by omega) (by omega) (by norm_num)).trans ?_
    rw [if_pos (Nat.zero_le _), Nat.sub_zero, show 2 * (2 ^ k - 1) + 1 = 2 ^ (k + 1) - 1 by rw [pow_succ]; omega]

/-- Settles O45: 32 steps, with a divisor and with 0. -/
theorem divideSteps : Obligations.DivideSteps := by
  unfold Obligations.DivideSteps
  refine ⟨fun n d hn h0 hd => ?_, fun n hn => ?_⟩
  · rw [dstep_iterate hn h0 hd 32 le_rfl]
    simp [divReg, Nat.mod_one]
  · rw [dstep_zero_iterate hn 32 le_rfl]
    simp [divReg, Nat.mod_one]

end Sys2Proof.Machine
end

section
/-! The instructions of the flow cores but the engine calls. -/
namespace Sys2Proof.Machine

/-! ### Register operations -/

/-- An ALU instruction but SLTU128 writes its result (R401). -/
theorem fcAlu_ready {s : State} {c t fn w : Nat} {x : Thread} (h : FcReady s c t fn w x) (hfn : fn ≠ 0x0E) :
    fcAlu fn c t .none s = short c t [(iRd w, aluResult fn (getG x (iRa w)) (getG x (iRb w)))] s := by
  rw [fcAlu, fcRun_ready h (by simp)]
  simp [hfn, fcCorrected]

/-- SLTU128 on two pairs of registers writes their comparison (R401). -/
theorem fcAlu_sltu128 {s : State} {c t w : Nat} {x : Thread} (h : FcReady s c t 0x0E w x) (ha : iRa w % 2 = 0)
    (hb : iRb w % 2 = 0) : fcAlu 0x0E c t .none s = short c t [(iRd w, sltu128 x (iRa w) (iRb w))] s := by
  rw [fcAlu, fcRun_ready h (by simp)]
  simp [ha, hb, fcCorrected]

/-- An ALUI instruction writes its result (R402). -/
theorem fcAlui_ready {s : State} {c t sub w : Nat} {x : Thread} (h : FcReady s c t (0x100 + sub) w x) :
    fcAlui sub c t .none s = short c t [(iRd w, aluiResult sub w (getG x (iRa w)))] s := by
  rw [fcAlui, fcRun_ready h (by simp)]
  simp [fcCorrected]

/-- A truth value that decides a proposition is 1 where it holds. -/
theorem flagWord_decide (p : Prop) [Decidable p] : flagWord (decide p) = if p then 1 else 0 := by
  by_cases h : p <;> simp [flagWord, h]

/-- The pairs of SLTU128 compare as 128-bit values (R401). -/
theorem sltu128_eq (x : Thread) (a b : Nat) : sltu128 x a b =
    if (getG x (a + 1) ++ getG x a) < (getG x (b + 1) ++ getG x b) then 1 else 0 := by
  have hpair (u v : Word) : (u ++ v).toNat = u.toNat * 2 ^ 64 + v.toNat := by
    rw [BitVec.toNat_append, ← Nat.shiftLeft_add_eq_or_of_lt v.isLt, Nat.shiftLeft_eq]
  rw [sltu128, flagWord_decide]
  simp only [BitVec.lt_def, hpair]

/-- EXTU is a shift and a mask (R402). -/
theorem extract_eq (a : Word) {i n : Nat} (hn : n < 64) :
    BitVec.ofNat 64 (a.toNat / 2 ^ i % 2 ^ (n + 1)) = (a >>> i) &&& BitVec.ofNat 64 (2 ^ (n + 1) - 1) := by
  apply BitVec.eq_of_toNat_eq
  have hpow : 2 ^ (n + 1) ≤ 2 ^ 64 := Nat.pow_le_pow_right (by norm_num) (by omega)
  have hpos : 0 < 2 ^ (n + 1) := by positivity
  have hlt : a.toNat / 2 ^ i % 2 ^ (n + 1) < 2 ^ (n + 1) := Nat.mod_lt _ hpos
  rw [BitVec.toNat_and, BitVec.toNat_ushiftRight, BitVec.toNat_ofNat, BitVec.toNat_ofNat, Nat.shiftRight_eq_div_pow,
    Nat.mod_eq_of_lt (by omega), Nat.mod_eq_of_lt (a := 2 ^ (n + 1) - 1) (by omega), Nat.and_two_pow_sub_one_eq_mod]

/-- The thread of an instruction that completes in its turn, and the parts of the state it leaves. -/
theorem completeTo_frame (c t : Nat) (x : Thread) (s : State) : ∃ th co r, completeTo c t x s =
    { s with regs := r, fc := { s.fc with threads := th, cores := co } } := by
  have hput (y : Thread) : ∃ th co, putThread c t y s = { s with fc := { s.fc with threads := th, cores := co } } := by
    unfold putThread requiet
    split <;> exact ⟨_, _, rfl⟩
  obtain ⟨th, co, hth⟩ := hput { x with state := if x.stepping then .stopped else .running, stepping := false, passBp := false }
  unfold completeTo countRetired
  dsimp only
  rw [hth]
  split
  · exact ⟨_, _, _, rfl⟩
  · exact ⟨_, _, s.regs, rfl⟩

/-- No other thread changes when an instruction completes. -/
theorem completeTo_thread_other {s : State} (hs : tabSorted none s.fc.threads = true) {c t d u : Nat} (x : Thread)
    (h : 8 * d + u ≠ 8 * c + t) : threadOf (completeTo c t x s) d u = threadOf s d u := by
  rw [completeTo, countRetired_threadOf]
  refine (?_ : threadOf (putThread c t _ s) d u = _)
  rw [putThread, requiet_threadOf, threadOf_put_other hs _ h]

/-- Settles O44: the value of each operation, the residue mismatch, what the end of a short instruction changes, and g0. -/
theorem flowArithmetic : Obligations.FlowArithmetic := by
  unfold Obligations.FlowArithmetic
  refine ⟨fun core t op w c x a b v s ha hb hop h => ?_, fun core t sub w c x a v i s ha hi hsub h => ?_,
    fun core t w x s h => ?_, fun core t w x s h => ?_, fun core t w x s h => ?_, fun c t n v x s hs hx hstep => ⟨?_, fun d u hne => ?_⟩,
    fun c t l s => ?_, fun x n m v hx hn => ⟨rfl, fun h0 => ?_, fun hmn => ?_⟩⟩
  · have halu (hfn : op ≠ 0x0E) (hc : exec c s = .next (fcAlu op core.val t.val .none s)) (hv : v = aluResult op a b) :
        exec c s = .next (short core.val t.val [(iRd w, v)] s) := by
      rw [hc, fcAlu_ready h hfn, hv, ha, hb]
    rcases hop with ⟨rfl, rfl, hv⟩ | ⟨rfl, rfl, hv⟩ | ⟨rfl, rfl, hv⟩ | ⟨rfl, rfl, hv⟩ | ⟨rfl, rfl, hv⟩ | ⟨rfl, rfl, hv⟩ |
      ⟨rfl, rfl, hv⟩ | ⟨rfl, rfl, hv⟩ | ⟨rfl, rfl, hv⟩ | ⟨rfl, rfl, hv⟩ | ⟨rfl, rfl, hv⟩ | ⟨rfl, rfl, hv⟩ | ⟨rfl, rfl, hv⟩ |
      ⟨rfl, rfl, hv⟩ | ⟨rfl, rfl, hea, heb, hv⟩ | ⟨rfl, rfl, hv⟩ | ⟨rfl, rfl, hv⟩ | ⟨rfl, rfl, hv⟩
    iterate 8 exact halu (by decide) rfl hv
    iterate 3 exact halu (by decide) rfl (hv.trans (flagWord_decide _).symm)
    iterate 3 exact halu (by decide) rfl hv
    · show Host.Outcome.next (fcAlu 0x0E core.val t.val .none s) = _
      rw [fcAlu_sltu128 h hea heb, sltu128_eq, hv, ha, hb]
    iterate 3 exact halu (by decide) rfl hv
  · have halui (hc : exec c s = .next (fcAlui sub core.val t.val .none s)) (hv : v = aluiResult sub w a) :
        exec c s = .next (short core.val t.val [(iRd w, v)] s) := by
      rw [hc, fcAlui_ready h, hv, ha]
    subst hi
    rcases hsub with ⟨rfl, rfl, hv⟩ | ⟨rfl, rfl, hv⟩ | ⟨rfl, rfl, hv⟩ | ⟨rfl, rfl, hv⟩ | ⟨rfl, rfl, hv⟩ | ⟨rfl, rfl, hv⟩ |
      ⟨rfl, rfl, hv⟩ | ⟨rfl, rfl, hv⟩ | ⟨rfl, rfl, hv⟩ | ⟨rfl, rfl, hv⟩ | ⟨rfl, rfl, hv⟩
    iterate 7 exact halui rfl hv
    iterate 3 exact halui rfl (hv.trans (flagWord_decide _).symm)
    · exact halui rfl (hv.trans (extract_eq a (Nat.mod_lt _ (by norm_num))).symm)
  · exact congrArg Host.Outcome.next (fcRun_ready h (by simp) _)
  · exact congrArg Host.Outcome.next (fcRun_ready h (by simp) _)
  · show Host.Outcome.next (fcAlu 0x00 core.val t.val .residue s) = _
    rw [fcAlu, fcRun_ready h (by simp)]
    simp [aluResidue, fcCorrected]
  · rw [short, completeTo_thread hs, hx]
    have hkeep : (setG x n v).stepping = false := by
      unfold setG
      split <;> exact hstep
    simp [setGs, hkeep]
  · exact completeTo_thread_other hs _ hne
  · obtain ⟨th, co, r, h⟩ := completeTo_frame c t { setGs (threadOf s c t) l with pc := pcAdd c (threadOf s c t).pc 1 } s
    rw [short, h]
    exact ⟨rfl, rfl, rfl, rfl, rfl, rfl, rfl, rfl, rfl, rfl, rfl⟩
  · rw [getG_setG v hx hn, if_pos ⟨rfl, h0⟩]
  · rw [getG_setG v hx hn, if_neg (fun h => hmn h.1)]

/-! ### Memory and branches -/

/-- Where an access fits, its first byte does (R370). -/
theorem place_first {s : State} {c t a n : Nat} (hn : 0 < n) (h : place s c t a n ≠ .bad) : place s c t a 1 ≠ .bad := by
  unfold place at *
  split
  · next h32 =>
    rw [if_pos h32] at h
    have hin : a + n ≤ 0x400000 := by
      by_contra hno
      exact h (if_neg hno)
    rw [if_pos (by omega)]
    simp
  · next h32 =>
    rw [if_neg h32] at h
    split
    · simp
    · next hslice =>
      rw [if_neg (by omega)] at h
      split
      · simp
      · next hcluster =>
        rw [if_neg (by omega)] at h
        have hin : 0x1000000000 ≤ a ∧ a + n ≤ 0x1800000000 ∧ inWindow s c (a - 0x1000000000) n = true := by
          by_contra hno
          exact h (if_neg hno)
        obtain ⟨hlo, hhi, hwin⟩ := hin
        have hone : inWindow s c (a - 0x1000000000) 1 = true := by
          simp only [inWindow, Bool.and_eq_true, decide_eq_true_eq] at hwin ⊢
          omega
        rw [if_pos ⟨hlo, by omega, hone⟩]
        simp

/-- An aligned access inside the address space goes to its place (R403). -/
theorem access_ready {s : State} {c t a n : Nat} {p : Place} (hn : 0 < n) (hplace : place s c t a n = p) (hp : p ≠ .bad)
    (hal : a % n = 0) (go : Place → State) : access c t a n s go = go p := by
  unfold access
  rw [if_neg (place_first hn (hplace ▸ hp)), if_neg (by simp [hal]), hplace]
  cases p with
  | bad => exact absurd rfl hp
  | slice k => rfl
  | cluster k => rfl
  | dram d => rfl
  | hk k => rfl

/-- An access outside the address space and one that is not aligned fault (R403, R420). -/
theorem access_faults {s : State} {c t a n : Nat} (go : Place → State) :
    (place s c t a 1 = .bad → access c t a n s go = threadFault c t 0x11 (a % 2 ^ 32) s) ∧
    (place s c t a 1 ≠ .bad → a % n ≠ 0 → access c t a n s go = threadFault c t 0x12 (a % 2 ^ 32) s) :=
  ⟨fun h => if_pos h, fun h hal => (if_neg h).trans (if_pos hal)⟩

/-- The sign extension of the low bits of a value (R403). -/
theorem signExtend_eq {len : Nat} (h : 0 < len) (v : Nat) :
    BitVec.ofNat 64 (wrapInt 64 (signed len v)) = (BitVec.ofNat len v).signExtend 64 := by
  have hint : (BitVec.ofNat len v).toInt = signed len v := by
    have hpow : 2 ^ len = 2 * 2 ^ (len - 1) := by
      rw [← pow_succ', Nat.sub_add_cancel h]
    rw [BitVec.toInt_eq_toNat_cond, BitVec.toNat_ofNat, signed]
    refine if_congr ?_ rfl rfl
    generalize 2 ^ len = p at *
    omega
  rw [BitVec.signExtend, hint]
  apply BitVec.eq_of_toNat_eq
  rw [BitVec.toNat_ofInt, BitVec.toNat_ofNat, wrapInt]
  omega

section
variable {s : State} {c t op w n a : Nat} {x : Thread} {p : Place}
  (hn : n = 2 ^ iw w 14 2) (ha : a = memAddr w x) (hplace : place s c t a n = p) (hp : p ≠ .bad) (hal : a % n = 0)
include hn ha hplace hp hal

/-- LD reads its place (R403). -/
theorem fcLoad_ready (h : FcReady s c t 0x400 w x) : fcLoad c t .none s = accessEnds c t p
    [(iRd w, if iw w 16 1 = 1 then BitVec.ofNat 64 (wrapInt 64 (signed (8 * n) (leNat (placeRead s p n))))
      else BitVec.ofNat 64 (leNat (placeRead s p n)))] s := by
  subst hn ha
  rw [fcLoad, fcRun_ready h (by simp)]
  exact (access_ready (by positivity) hplace hp hal _).trans rfl

/-- ST writes its place (R403). -/
theorem fcStore_ready (h : FcReady s c t 0x500 w x) : fcStore c t .none s =
    accessEnds c t p [] (placeWrite p (leBytes n (getG x (iRd w)).toNat) s) := by
  subst hn ha
  rw [fcStore, fcRun_ready h (by simp)]
  exact (access_ready (by positivity) hplace hp hal _).trans rfl

/-- An AMO returns the old value and stores the new one, where there is one (R404). -/
theorem fcAmo_ready {kind : Nat} (h : FcReady s c t (0x600 + kind) w x) (hcas : kind = 2 → iRd w ≠ 15) :
    fcAmo kind c t .none s = accessEnds c t p [(iRd w, BitVec.ofNat 64 (leNat (placeRead s p n)))]
      (match amoNew kind n (leNat (placeRead s p n)) ((getG x (iRd w)).toNat % 2 ^ (8 * n))
          ((getG x (iRd w + 1)).toNat % 2 ^ (8 * n)) with
        | none => s
        | some v => placeWrite p (leBytes n v) s) := by
  subst hn ha
  rw [fcAmo, fcRun_ready h (by simp), if_neg (by simpa using hcas)]
  exact (access_ready (by positivity) hplace hp hal _).trans rfl

end

/-- The condition of BC as a condition on the register's value (R405). -/
theorem bcHolds_iff {k : Nat} (hk : k < 4) (r : Word) : bcHolds k r = true ↔
    (k = 0 ∧ r = 0) ∨ (k = 1 ∧ r ≠ 0) ∨ (k = 2 ∧ r.toInt < 0) ∨ (k = 3 ∧ 0 ≤ r.toInt) := by
  have hmsb : r.getLsbD 63 = decide (r.toInt < 0) := by
    rw [← BitVec.msb_eq_toInt, BitVec.msb_eq_getLsbD_last]
  obtain rfl | rfl | rfl | rfl : k = 0 ∨ k = 1 ∨ k = 2 ∨ k = 3 := by omega
  · simp [bcHolds]
  · simp [bcHolds]
  · rw [bcHolds, hmsb]
    simp
  · rw [bcHolds, hmsb]
    simp
    · simp
    · simp
    · simp

/-- Settles O46: loads, stores and AMOs by their place, the faults of an access, what a store leaves, and the jumps. -/
theorem flowMemory : Obligations.FlowMemory := by
  unfold Obligations.FlowMemory
  refine ⟨fun core t w n a x p s h hn ha hpl hp hal hz => ?_, fun core t w n a x p s h hn ha hpl hp hal hs => ?_,
    fun core t w n a x p s h hn ha hpl hp hal => congrArg Host.Outcome.next (fcStore_ready hn ha hpl hp hal h),
    fun c core t op w n a x s hop h hn ha => ?_, fun core t w n a m x p s h hn ha hpl hp hal hm => ?_,
    fun core t w n a m x p s h hn ha hpl hp hal hm => ?_, fun core t w n a m x p s h hn ha hpl hp hal hm hrd => ?_,
    fun k b s hwf => ⟨memRead_write_same hwf _ _, fun i hi => memByte_write_other hwf _ _ hi, rfl, rfl⟩,
    fun core t w x r s h hr => ?_, fun core t w x s h => congrArg Host.Outcome.next (fcRun_ready h (by simp) _),
    fun core t w x s h => congrArg Host.Outcome.next (fcRun_ready h (by simp) _)⟩
  · refine congrArg Host.Outcome.next ((fcLoad_ready hn ha hpl hp hal h).trans ?_)
    rw [if_neg (by omega)]
  · refine congrArg Host.Outcome.next ((fcLoad_ready hn ha hpl hp hal h).trans ?_)
    rw [if_pos hs, signExtend_eq (Nat.mul_pos (by norm_num) (hn ▸ Nat.two_pow_pos _))]
  · subst hn ha
    have haccess : ∃ go, exec c s = .next (access core.val t.val (memAddr w x) (2 ^ iw w 14 2) s go) := by
      rcases hop with ⟨rfl, rfl⟩ | ⟨rfl, rfl⟩ | ⟨rfl, rfl⟩ | ⟨rfl, rfl⟩
      · exact ⟨_, congrArg Host.Outcome.next (fcRun_ready h (by simp) _)⟩
      · exact ⟨_, congrArg Host.Outcome.next (fcRun_ready h (by simp) _)⟩
      · exact ⟨_, congrArg Host.Outcome.next ((fcRun_ready h (by simp) _).trans (if_neg (by simp)))⟩
      · exact ⟨_, congrArg Host.Outcome.next ((fcRun_ready h (by simp) _).trans (if_neg (by simp)))⟩
    obtain ⟨go, hgo⟩ := haccess
    obtain ⟨hbad, hmis⟩ := access_faults (s := s) (c := core.val) (t := t.val) (a := memAddr w x) (n := 2 ^ iw w 14 2) go
    exact ⟨fun hp => hgo.trans (congrArg _ (hbad hp)), fun hp hal => hgo.trans (congrArg _ (hmis hp hal))⟩
  · refine congrArg Host.Outcome.next ((fcAmo_ready (kind := 0) hn ha hpl hp hal h (by simp)).trans ?_)
    rw [hm]
    rfl
  · refine congrArg Host.Outcome.next ((fcAmo_ready (kind := 1) hn ha hpl hp hal h (by simp)).trans ?_)
    rw [hm]
    simp [amoNew]
  · refine congrArg Host.Outcome.next ((fcAmo_ready (kind := 2) hn ha hpl hp hal h (fun _ => hrd)).trans ?_)
    rw [← hm]
    simp only [amoNew]
    split <;> simp_all
  · show execFcBc core t .none s = _
    rw [execFcBc, fcRun_ready h (by simp)]
    simp only [bcHolds_iff (k := iw w 10 2) (Nat.mod_lt _ (by norm_num)), ← hr]
    rfl

end Sys2Proof.Machine
end

section
/-! Channel and thread operations of the flow cores, and engine calls. -/
namespace Sys2Proof.Machine

/-! ### Channel and thread operations -/

/-- A ready instruction of a list of outcomes has the effect it runs with. -/
theorem fcRun_none {s : State} {c t op w : Nat} {x : Thread} (h : FcReady s c t op w x) (eff : Nat → Thread → State → State) :
    fcRun op c t .none eff s = eff w x s := fcRun_ready h (by simp) eff

/-- A channel that was set reads as set (R376). -/
theorem chanOf_putChan {s : State} (hc : tabSorted none s.fc.chans = true) (hm : tabSorted none s.fc.mboxes = true) (k : Chn)
    (x : Channel) : chanOf (putChan k x s) k = x := by
  match k with
  | .local c n => exact tabGet_set_same (d := fun _ => Channel.empty) hc (64 * c + n) x
  | .mbox c n => exact tabGet_set_same (d := fun _ => Channel.empty) hm (32 * c + n) x

/-- The oldest message that is not stale is taken (R377, R380). -/
theorem takeMsg_fresh {k : Chn} {m : Msg} {ms : List Msg} {s : State} (hmsgs : (chanOf s k).msgs = m :: ms)
    (hfresh : msgStale s m = false) : takeMsg k s = (putChan k { chanOf s k with msgs := ms } s, some m) := by
  have hdrop : dropStale k.core (m :: ms) s = (s, m :: ms) := if_neg (by simp [hfresh])
  unfold takeMsg
  rw [hmsgs, hdrop]

/-- Settles O47: each channel operation by its claim, its target and what stands in the channel, and each thread
operation. -/
theorem flowChannels : Obligations.FlowChannels := by
  unfold Obligations.FlowChannels
  refine ⟨fun core t w x k s h hx hk hhk hfree hslot hposts hcore => ?_, fun core t w x k s h hx hk hhk hheld => ?_,
    fun core t w x s h hx => ?_, fun core t w x s h hx => ?_, fun core t w c op x s hop h hx => ?_,
    fun core t w x k s h hx hcount hhk hcore => ?_, fun core t w x k m s u h h0 h11 hk htake => ?_,
    fun core t w x k s u h h0 h11 hk htake => ?_, fun core t w x k s h hk => ?_, fun k m ms s hc hm hmsgs hfresh => ?_,
    fun core t w x s h => congrArg Host.Outcome.next (fcRun_none h _), fun core t w n x s h hn => ?_,
    fun core t w x s h => ⟨_, congrArg Host.Outcome.next (fcRun_none h _), _, Nat.mod_lt _ (by norm_num), rfl⟩,
    fun core t w x s h => ?_, fun core t w x s h => congrArg Host.Outcome.next (fcRun_none h _),
    fun core t w x s h => congrArg Host.Outcome.next (fcRun_none h _), fun core t w x s h hdbg hbp => ?_,
    fun core t w x s h hdbg => ?_, fun core t w x s h => congrArg Host.Outcome.next (fcRun_none h _)⟩
  · show Host.Outcome.next (fcClaim core.val t.val .none s) = _
    rw [fcClaim, fcRun_none h]
    dsimp only
    rw [if_neg (by simp [hx]), hk]
    dsimp only
    rw [if_neg (by simp [hhk]), if_pos (by simp [hfree, hslot, hposts]), if_neg (by simp [hcore])]
  · show Host.Outcome.next (fcClaim core.val t.val .none s) = _
    rw [fcClaim, fcRun_none h]
    dsimp only
    rw [if_neg (by simp [hx]), hk]
    dsimp only
    rw [if_neg (by simp [hhk]), if_neg (by simp [hheld])]
  · show Host.Outcome.next (fcClaim core.val t.val .none s) = _
    rw [fcClaim, fcRun_none h]
    exact congrArg _ (if_pos (Option.isSome_iff_ne_none.mpr hx))
  · show Host.Outcome.next (fcPut core.val t.val .none s) = _
    rw [fcPut, fcRun_none h]
    exact congrArg _ (if_neg (by simpa using hx))
  · rcases hop with ⟨rfl, rfl⟩ | ⟨rfl, rfl⟩
    · show Host.Outcome.next (fcPut core.val t.val .none s) = _
      rw [fcPut, fcRun_none h]
      exact congrArg _ (if_pos (by simp [hx]))
    · show Host.Outcome.next (fcSend core.val t.val .none s) = _
      rw [fcSend, fcRun_none h]
      dsimp only
      rw [hx]
  · show Host.Outcome.next (fcSend core.val t.val .none s) = _
    rw [fcSend, fcRun_none h]
    dsimp only
    rw [hx]
    dsimp only
    rw [if_neg (by omega), if_neg (by simp [hhk]), if_pos hcore]
  · show Host.Outcome.next (fcRecv core.val t.val .none s) = _
    rw [fcRecv, fcRun_none h]
    dsimp only
    rw [if_neg (by omega), hk]
    dsimp only
    rw [htake]
  · show Host.Outcome.next (fcRecv core.val t.val .none s) = _
    rw [fcRecv, fcRun_none h]
    dsimp only
    rw [if_neg (by omega), hk]
    dsimp only
    rw [htake]
  · show Host.Outcome.next (fcPoll core.val t.val .none s) = _
    rw [fcPoll, fcRun_none h]
    dsimp only
    rw [hk]
  · rw [takeMsg_fresh hmsgs hfresh]
    exact ⟨rfl, congrArg Channel.msgs (chanOf_putChan hc hm k _)⟩
  · subst hn
    exact congrArg Host.Outcome.next (fcRun_none h _)
  · show execFcTick core t .none s = _
    rw [execFcTick, fcRun_none h]
    have htick : (tickNow s).setWidth 64 = BitVec.ofNat 64 (s.ticks % 2 ^ 32) := by
      apply BitVec.eq_of_toNat_eq
      simp [tickNow]
    rw [htick]
  · refine congrArg Host.Outcome.next ((fcRun_none h _).trans ?_)
    rw [if_neg (by simp [hdbg]), if_neg (by simp [hbp])]
  · refine congrArg Host.Outcome.next ((fcRun_none h _).trans ?_)
    rw [if_pos hdbg]

/-! ### Engine calls -/

/-- A ready call whose words need no correction has the effect of its body (R409). -/
theorem xcall_none {s : State} {c t call n w a : Nat} {b : Bytes} (h : CallReady s c t call n w a b) {size : Nat → Nat}
    (hn : size w = n) (body : Nat → Nat → Bytes → State → State) : xcall call size c t .none body s = body w a b s :=
  xcall_ready h (by simp) (by simp) rfl hn body

/-- A buffer of some bytes inside the address space is used (R409). -/
theorem withBuf_ready {s : State} {c t n : Nat} {a : Word} {p : Place} (hn : n ≠ 0) (hplace : place s c t a.toNat n = p)
    (hp : p ≠ .bad) (go : Place → State) : withBuf c t a n s go = go p := by
  unfold withBuf
  rw [if_neg hn, hplace]
  cases p with
  | bad => exact absurd rfl hp
  | slice k => rfl
  | cluster k => rfl
  | dram d => rfl
  | hk k => rfl

/-- A held frame is used (R412). -/
theorem withFrame_held {s : State} {c t w h f : Nat} {x : Frame} (hheld : heldFrame s c h = some f) (hf : frameOf s f = some x)
    (go : Nat → Frame → State) : withFrame c t w h s go = go f x := by
  unfold withFrame
  rw [hheld]
  dsimp only
  rw [hf]

/-- A DMA block that passes its checks has bytes, and its instance may write (R411). -/
theorem dmaCheck_passed {s : State} {b : Bytes} (h : dmaCheck s b = 0) : lef b 0x10 0 13 ≠ 0 ∧
    gateOpen s (dmaFn b).val (lef b 0x10 16 10) (BitVec.ofNat 8 (lef b 0x10 26 8)) = true ∧ dmaOn s (dmaFn b).val = true := by
  have hfn : (dmaFn b).val = lef b 0x10 13 2 := Nat.mod_eq_of_lt (Nat.mod_lt _ (by norm_num))
  rw [hfn]
  unfold dmaCheck at h
  dsimp only at h
  split at h
  · simp at h
  · next hlen =>
    split at h
    · simp at h
    · next hgate =>
      split at h
      · simp at h
      · next hdma => exact ⟨fun h0 => hlen (.inl h0), by simpa using hgate, by simpa using hdma⟩

/-- A write of an instance that may write is issued. -/
theorem instWrite_issued {s : State} {fn : Fn} {i : Nat} {gen : BitVec 8} (hgate : gateOpen s fn.val i gen = true)
    (hdma : dmaOn s fn.val = true) (ro : Bool) (addr : Nat) (data : Bytes) : (instWrite fn i gen ro addr data s).2 = true := by
  unfold instWrite
  rw [if_neg (by simp [hgate]), if_neg (by simp [hdma])]

/-- A range of 1 to 4,096 bytes that the frame holds is taken (R412). -/
theorem pktRange_frame {off len : Nat} {x : Frame} (h1 : 1 ≤ len) (h2 : len ≤ 4096) (h3 : off + len ≤ x.len) :
    pktRange false off len x = true := by
  simp [pktRange, h1, h2, h3]

/-- The handle that a core takes is none that is held (R381). -/
theorem newHandle_fresh {s : State} (h : (handlesHeld s).length < 2 ^ 18) : newHandle s ∉ handlesHeld s := by
  unfold newHandle
  dsimp only
  generalize handlesHeld s = used at *
  generalize (freeNow s).toNat = k
  cases hfind : (List.range (used.length + 1)).find? (fun i => !used.contains ((k + i) % 2 ^ 18)) with
  | some i =>
    have hi := List.find?_some hfind
    simpa using hi
  | none =>
    have hall : ∀ i < used.length + 1, (k + i) % 2 ^ 18 ∈ used := by
      simpa [List.find?_eq_none] using hfind
    have hinj : Set.InjOn (fun i => (k + i) % 2 ^ 18) (Finset.range (used.length + 1)) := fun i hi j hj hij => by
      simp only [Finset.coe_range, Set.mem_Iio] at hi hj
      dsimp only at hij
      omega
    have hcard := Finset.card_le_card_of_injOn (t := used.toFinset) _ (fun i hi => by
      simpa using hall i (Finset.mem_range.mp hi)) hinj
    have := used.toFinset_card_le
    rw [Finset.card_range] at hcard
    omega

/-- An entry that is found is listed. -/
theorem mem_of_tabFind {α : Type} {t : Tab α} {n : Nat} {x : α} (h : tabFind t n = some x) : (n, x) ∈ t := by
  induction t with
  | nil => cases h
  | cons e t ih =>
    obtain ⟨k, v⟩ := e
    unfold tabFind at h
    split at h
    · next hk =>
      obtain rfl := Option.some.inj h
      exact hk ▸ List.mem_cons_self
    · split at h
      · cases h
      · exact List.mem_cons_of_mem _ (ih h)

/-- The punts of a core are among the handles held. -/
theorem punts_handlesHeld {s : State} {c : Nat} {q : Nat × Nat} (hq : q ∈ (coreOf s c).punts) : q.1 ∈ handlesHeld s := by
  unfold coreOf tabGet at hq
  cases hfind : tabFind s.fc.cores c with
  | none =>
    rw [hfind] at hq
    cases hq
  | some x =>
    rw [hfind] at hq
    exact List.mem_flatMap.mpr ⟨_, mem_of_tabFind hfind, List.mem_map.mpr ⟨q, hq, rfl⟩⟩

/-- A frame that a core takes is held under its new handle (R381). -/
theorem heldFrame_holdFrame {s : State} (h : (handlesHeld s).length < 2 ^ 18) (c f : Nat) :
    heldFrame (holdFrame c f s).1 c (newHandle s) = some f := by
  have hcore : coreOf (holdFrame c f s).1 c = { coreOf s c with punts := (coreOf s c).punts ++ [(newHandle s, f)] } :=
    tabGet_set_ne (d := fun _ => CoreSt.reset) s.fc.cores c fun heq => by
      have := congrArg (fun x => x.punts.length) heq
      simp [CoreSt.reset] at this
  have hnew : (coreOf s c).punts.find? (fun p => p.1 == newHandle s) = none :=
    List.find?_eq_none.mpr fun q hq heq => newHandle_fresh h (beq_iff_eq.mp heq ▸ punts_handlesHeld hq)
  unfold heldFrame
  rw [hcore]
  simp [hnew]

/-- A frame of a core in the buffer with its metadata cell (R412). -/
def bufferFrame (len : Nat) (x : Frame) (s : State) : State :=
  putFrame s.pipe.nextFrame x
    { newBuf { cells := cellsFor len + 1, region := .shared, port := 15, prio := 0, users := 1 } s with
      pipe := { s.pipe with nextFrame := s.pipe.nextFrame + 1 } }

/-- The group that GOPEN opens for a thread (R416). -/
def gopenGroup (core : CoreHk) (t : Thr) (b : Bytes) (s : State) : Group :=
  newGroup s (domainOf s (lef b 8 0 2) (lef b 8 2 10)) (1024 * lef b 8 0 2 + lef b 8 2 10) (leWord b 0) 16
    (some (BitVec.ofNat 6 core.val, BitVec.ofNat 3 t.val))

/-- Settles O48: the end of a call, and each call's effect when its checks pass. -/
theorem engineCalls : Obligations.EngineCalls := by
  unfold Obligations.EngineCalls
  refine ⟨fun core t w st s hs => stall_thread hs .., fun core t w a x s h ha hmis => ?_,
    fun core t w a len b d p s h hlen hpl hp hchk => ?_, fun core t w a len b p s h hlen hpl hp hchk => ?_,
    fun core t w a off len f b p x s h hoff hlen hpl hp hheld hf hmeta h1 h2 h3 => ?_,
    fun core t w a off len f b p x s h hoff hlen hpl hp hheld hf hmeta h1 h2 h3 => ?_,
    fun core t w a f l b y x s u h hheld hf hl hedit henq => ?_, fun core t w a f b x s h hheld hf => ?_,
    fun core t w a b s h hheld => ?_, fun core t w a len b p s h hlen hpl hp h14 hmax hroom hpunts hhandles => ?_,
    fun core t w a pl kind b hit e s h hpl hkind hp4 hk1 hk4 hvar he hlook => ?_,
    fun core t w a op len b p q s h hop hop2 hlen h0 hmax hpl hp hql hq => ?_,
    fun core t w a b s h => congrArg Host.Outcome.next (xcall_none h rfl _),
    fun core t w a g fn i b s h hfn hi hen htok hgate hslot => ?_,
    fun core t w a g x y b src s h hy hg hvar hown hopen hmem hsrc hok => ?_,
    fun core t w a g x y b s h hy hg hvar hown hopen hmem => ?_, fun core t w a g x y b s h hy hg hown hopen => ?_⟩
  · refine congrArg Host.Outcome.next ((fcRun_none h _).trans ?_)
    subst ha
    exact if_pos (.inl hmis)
  · refine congrArg Host.Outcome.next ((xcall_none h rfl _).trans ?_)
    subst hlen
    rw [withBuf_ready (dmaCheck_passed hchk).1 hpl hp]
    exact if_neg (by simp [hchk])
  · refine congrArg Host.Outcome.next ((xcall_none h rfl _).trans ?_)
    obtain ⟨hpos, hgate, hdma⟩ := dmaCheck_passed hchk
    subst hlen
    rw [withBuf_ready hpos hpl hp, if_neg (by simp [hchk])]
    dsimp only
    rw [instWrite_issued hgate hdma, if_pos rfl]
  · refine congrArg Host.Outcome.next ((xcall_none h rfl _).trans ?_)
    subst hoff hlen
    rw [withBuf_ready (by omega) hpl hp, withFrame_held hheld hf]
    simp [hmeta, pktRange_frame h1 h2 h3]
  · refine congrArg Host.Outcome.next ((xcall_none h rfl _).trans ?_)
    subst hoff hlen
    rw [withBuf_ready (by omega) hpl hp, withFrame_held hheld hf]
    simp [hmeta, pktRange_frame h1 h2 h3]
  · refine congrArg Host.Outcome.next ((xcall_none h rfl _).trans ?_)
    subst hl
    rw [withFrame_held hheld hf]
    dsimp only
    rw [hedit]
    dsimp only
    rw [henq, if_pos rfl]
  · exact congrArg Host.Outcome.next ((xcall_none h rfl _).trans (withFrame_held hheld hf _))
  · refine congrArg Host.Outcome.next ((xcall_none h rfl _).trans ?_)
    rw [withFrame, hheld]
  · have hexec : exec (.pktNew core t .none) s = .next (callEnd core.val t.val w a 0 0 (leBytes 4 (newHandle s))
        (holdFrame core.val s.pipe.nextFrame (bufferFrame len (newFrame s (placeRead s p len)) s)).1) := by
      refine congrArg Host.Outcome.next ((xcall_none h rfl _).trans ?_)
      subst hlen
      rw [withBuf_ready (by omega) hpl hp, if_neg (by omega), if_neg (by omega)]
      rfl
    have hframe : frameOf (holdFrame core.val s.pipe.nextFrame (bufferFrame len (newFrame s (placeRead s p len)) s)).1
        s.pipe.nextFrame = some (newFrame s (placeRead s p len)) := frameOf_putFrame ..
    refine ⟨_, hexec, heldFrame_holdFrame (s := bufferFrame len _ s) hhandles .., fun y hy => ?_, by simp [hframe]⟩
    rw [hframe] at hy
    rw [← Option.some.inj hy]
    rfl
  · refine congrArg Host.Outcome.next ((xcall_none h rfl _).trans ?_)
    subst hpl hkind he
    dsimp only
    rw [if_neg (by omega)]
    simp [hvar, hlook]
  · refine congrArg Host.Outcome.next ((xcall_none h rfl _).trans ?_)
    subst hop hlen
    rw [if_pos hop2, cryptHash, Nat.min_eq_left hmax, withBuf_ready (by omega) hpl hp,
      withBuf_ready (by unfold digestLen; split_ifs <;> simp) hql hq, if_neg (by omega)]
  · have hexec : exec (.gopen core t .none) s = .next (callEnd core.val t.val w a 0 0x10 (leBytes 8 g)
        (putCg g (gopenGroup core t b s) (if (gopenGroup core t b s).reissue then addStat CG_REISSUES 1 s else s))) := by
      refine congrArg Host.Outcome.next ((xcall_none h rfl _).trans ?_)
      subst hfn hi
      dsimp only
      rw [if_neg (by simp [hen]), if_neg htok, if_neg (by simp [hgate]), hslot]
      rfl
    refine ⟨_, _, hexec, rfl, rfl, by rw [hfn, hi]; rfl, rfl, by split <;> rfl⟩
  · have hexec (q : Place) (hq : withBuf core.val t.val (leWord b 0x18) (if lef b 0 4 8 == 0xD0 then 256 else 0) s
        (fun src => joinDescriptor core.val t.val w g x b src s) = joinDescriptor core.val t.val w g x b q s) :
        exec (.gjoin core t .none) s = .next (joinDescriptor core.val t.val w g x b q s) := by
      refine congrArg Host.Outcome.next ((xcall_none h (size := fun w => if iw w 24 1 = 1 then 24 else 72) (if_neg (by omega)) _).trans (Eq.trans ?_ hq))
      subst hy hg
      dsimp only
      rw [hown]
      simp [hvar, hopen, Nat.not_le.mpr hmem]
    by_cases hop : lef b 0 4 8 = 0xD0
    · refine ⟨src, fun _ => rfl, hexec src ?_⟩
      rw [if_pos (by simp [hop]), withBuf_ready (by norm_num) hsrc.symm (hok.resolve_right (by simp [hop]))]
    · exact ⟨.bad, fun h => absurd h hop, hexec .bad (by rw [if_neg (by simp [hop]), withBuf, if_pos rfl])⟩
  · refine congrArg Host.Outcome.next ((xcall_none h (size := fun w => if iw w 24 1 = 1 then 24 else 72) (if_pos hvar) _).trans ?_)
    subst hy hg
    dsimp only
    rw [if_neg (by simp [hvar]), withBuf, if_pos rfl, hown]
    simp [hvar, hopen, Nat.not_le.mpr hmem]
  · refine congrArg Host.Outcome.next ((xcall_none h rfl _).trans ?_)
    subst hy hg
    dsimp only
    rw [hown]
    dsimp only
    rw [if_neg (by simp [hopen]), if_neg (by simp [hopen])]

end Sys2Proof.Machine
end

section
/-! Turns, stalls, thread control, debug, closed waits and CORE_MSG. -/
namespace Sys2Proof.Machine

/-! ### Threads -/

/-- A core that is not the housekeeping core has eight threads. -/
theorem threadsOf_core (core : Core) : threadsOf core.val = List.range 8 := if_neg (by omega)

/-- A stall that is done, or no wait at all, has nothing to try again (R378, R417). -/
theorem retries_none {s : State} {c t : Nat} (h : (threadOf s c t).done = true ∨ (threadOf s c t).wait = .none) :
    retryJoin c t (retrySend c t s) = s := by
  have hsend : retrySend c t s = s := by
    unfold retrySend
    dsimp only
    split
    · next hw hd _ => simp [hw, hd] at h
    · rfl
  rw [hsend]
  unfold retryJoin
  dsimp only
  split
  · next hw => exact if_pos (h.resolve_right (by simp [hw]))
  · rfl

/-- A debug write acts while debug is open and the core has the thread (R387). -/
theorem debugWrite_open {s : State} (hopen : setupOpen s = true) (hdbg : debugLocked s = false) (core : Core) (t : Thr)
    (f : Thread → State → State) : debugWrite core.castSucc.val t.val s f = linkBusy (f (threadOf s core.val t.val) s) := by
  refine (setupWrite_of_open hopen _).trans (congrArg linkBusy (if_neg ?_))
  have ht : (threadsOf core.castSucc.val).contains t.val = true := by
    rw [Fin.val_castSucc, threadsOf_core]
    simp
  rw [hdbg, ht]
  simp

/-- While debug is locked a debug write changes nothing (R387). -/
theorem debugWrite_locked {s : State} (hopen : setupOpen s = true) (hdbg : debugLocked s = true) (c t : Nat)
    (f : Thread → State → State) : debugWrite c t s f = linkBusy s :=
  (setupWrite_of_open hopen _).trans (congrArg linkBusy (if_pos (by simp [hdbg])))

/-! ### CORE_MSG -/

/-- A message to a mailbox that is not enabled fails its entry (R382). -/
theorem postMessage_disabled {s : State} {fn fq : Nat} {e : Entry} {tg : Nat × Nat} (htg : tg = msgTarget (queueOf s fn fq))
    (hoff : mboxEnabled s tg.1 tg.2 = false) : postMessage fn fq e s = (finish fn fq e.idx true 0x0600 0 none s, true) := by
  subst htg
  exact if_pos (by simp [hoff])

/-- A message that finds a slot completes its entry and is visible (R378). -/
theorem postMessage_slot {s : State} {fn fq : Nat} {e : Entry} {tg : Nat × Nat} (htg : tg = msgTarget (queueOf s fn fq))
    (hon : mboxEnabled s tg.1 tg.2 = true) (hslot : slotFree (.mbox tg.1 tg.2) (chanOf s (.mbox tg.1 tg.2)) = true) :
    postMessage fn fq e s = (finish fn fq e.idx false 0 0 none (publish (.mbox tg.1 tg.2)
      { header := msgHeader s fn fq e (lef e.desc 0x30 0 3), words := msgWords e.desc (lef e.desc 0x30 0 3) } s), true) := by
  subst htg
  unfold postMessage deliver
  dsimp only
  rw [if_neg (by simp [hon]), if_pos hslot, if_pos rfl]

/-- A message that finds no slot waits (R378). -/
theorem postMessage_full {s : State} {fn fq : Nat} {e : Entry} {tg : Nat × Nat} (htg : tg = msgTarget (queueOf s fn fq))
    (hon : mboxEnabled s tg.1 tg.2 = true) (hfull : slotFree (.mbox tg.1 tg.2) (chanOf s (.mbox tg.1 tg.2)) = false) :
    postMessage fn fq e s = (s, false) := by
  subst htg
  unfold postMessage deliver
  dsimp only
  rw [if_neg (by simp [hon]), if_neg (show ¬ slotFree _ _ = true by simp [hfull]), if_neg (by simp)]

/-- The record of a core whose closed wait has been found (R383). -/
def frozenCore (c : Nat) (s : State) : State :=
  putCore c { coreOf s c with quiet := 0 } (putB (FC_CORE_STATUS c) 25 true s)

/-- Settles O49: turns and stalls, each control by the thread's state, closed waits, and CORE_MSG by the mailbox. -/
theorem threadsAndMailboxes : Obligations.ThreadsAndMailboxes := by
  unfold Obligations.ThreadsAndMailboxes
  refine ⟨fun core t s hrun hturn => ?_, fun core s hno => ?_, fun core t s hrun hready => ⟨_, ?_, rfl⟩,
    fun core t x s hx hst hdone => ?_, fun core t s hst hwait => ?_, fun core t s hopen hst => ?_, fun core t s hopen hst hsel => ?_,
    fun core t s hopen hst => ?_, fun core s hopen => congrArg Host.Outcome.next (setupWrite_of_open hopen _),
    fun core s hopen hnone => ?_, fun core ts u s hopen hts hu => ?_,
    fun core t x s hopen hdbg hx => ⟨fun hst => ?_, fun hst => ?_, fun hst => ?_, fun hst => ?_⟩,
    fun core t s hopen hdbg => ⟨?_, ?_, ?_⟩, fun core s hclosed => ?_, fun core ts u s hclosed hquiet hts hu => ?_,
    fun fn fq e s u h hcount => ?_, fun fn fq e tg s u h hcount htg hoff => ?_, fun fn fq e tg n s u h hg hn hcount htg hon hslot => ?_,
    fun fn fq e tg k s u h hg hcount htg hk hon hfull => ?_, fun core m k s u hk hposts hu => ?_,
    fun core m k p ps e s u v hk hlive hu he hpost => ?_⟩
  · show execTurnLimit core s = _
    unfold execTurnLimit
    dsimp only
    rw [hrun]
    exact congrArg _ (if_neg (by omega))
  · show execTurnLimit core s = _
    unfold execTurnLimit
    dsimp only
    split
    · rfl
    · next t hrun => exact congrArg _ (if_pos (hno.resolve_left (by simp [hrun])))
  · show execThreadSwitch core s = _
    unfold execThreadSwitch
    dsimp only
    rw [hrun, hready]
  · show execLongStallEnd core t s = _
    subst hx
    unfold execLongStallEnd
    dsimp only
    rw [retries_none (.inl hdone), if_neg (by simp [hst, stallDone, hdone])]
  · show execLongStallEnd core t s = _
    unfold execLongStallEnd
    dsimp only
    rw [retries_none (.inr hwait), if_pos (by simp [hst])]
  · exact congrArg Host.Outcome.next ((setupWrite_of_open hopen _).trans (congrArg linkBusy (if_neg hst)))
  · refine congrArg Host.Outcome.next ((setupWrite_of_open hopen _).trans (congrArg linkBusy ?_))
    dsimp only
    rw [if_neg (by simp [hst]), if_pos hsel]
  · exact congrArg Host.Outcome.next ((setupWrite_of_open hopen _).trans (congrArg linkBusy (if_pos (by simp [hst]))))
  · refine congrArg Host.Outcome.next ((setupWrite_of_open hopen _).trans (congrArg linkBusy ?_))
    have hempty : (threadsOf core.val).filter (fun t => (threadOf s core.val t).state == .frozen) = [] := by
      rw [threadsOf_core, List.filter_eq_nil_iff]
      exact fun t ht => by simpa using hnone t (List.mem_range.mp ht)
    dsimp only
    rw [hempty]
    rfl
  · refine congrArg Host.Outcome.next ((setupWrite_of_open hopen _).trans (congrArg linkBusy ?_))
    rw [← threadsOf_core core] at hts
    subst hu hts
    exact rfl
  · refine congrArg Host.Outcome.next ((debugWrite_open hopen hdbg ..).trans (congrArg linkBusy ?_))
    subst hx
    rcases hst with hst | hst
    · rw [hst]
      rfl
    · rw [hst]
      rfl
  · refine congrArg Host.Outcome.next ((debugWrite_open hopen hdbg ..).trans (congrArg linkBusy ?_))
    subst hx
    rw [hst]
    rfl
  · refine congrArg Host.Outcome.next ((debugWrite_open hopen hdbg ..).trans (congrArg linkBusy ?_))
    subst hx
    exact if_pos hst
  · refine congrArg Host.Outcome.next ((debugWrite_open hopen hdbg ..).trans (congrArg linkBusy ?_))
    subst hx
    exact if_pos hst
  · exact congrArg Host.Outcome.next (debugWrite_locked hopen hdbg ..)
  · exact congrArg Host.Outcome.next (debugWrite_locked hopen hdbg ..)
  · exact congrArg Host.Outcome.next (debugWrite_locked hopen hdbg ..)
  · exact congrArg Host.Outcome.next (if_pos (by simp [hclosed]))
  · have hexec : exec (.closedWait core) s = .next (postLog 8 0 blkFC (BitVec.ofNat 64 core.val)
        (BitVec.ofNat 64 ((ts.map (fun t => 2 ^ t)).sum)) (addErr (FC_CLOSED_WAITS core.val) 1 (frozenCore core.val u))) := by
      refine congrArg Host.Outcome.next ((if_neg (by simp [hclosed]; omega)).trans ?_)
      subst hu hts
      rw [threadsOf_core]
      rfl
    exact ⟨_, hexec, rfl⟩
  · show execMsgPost fn fq s = _
    unfold execMsgPost
    dsimp only
    rw [nextEntry_of_nextIs h]
    split
    · rw [if_pos hcount]
    · rw [if_pos hcount]
  · show execMsgPost fn fq s = _
    unfold execMsgPost
    dsimp only
    rw [nextEntry_of_nextIs h]
    split
    · rw [if_neg (by omega), ← htg, if_pos (by simp [hoff])]
    · rw [if_neg (by omega), postMessage_disabled htg hoff, if_pos rfl]
  · show execMsgPost fn fq s = _
    unfold execMsgPost
    dsimp only
    rw [nextEntry_of_nextIs h]
    rw [hg]
    dsimp only
    rw [← hn, if_neg (by omega), postMessage_slot htg hon hslot, if_pos rfl, hn]
  · show execMsgPost fn fq s = _
    subst hk
    unfold execMsgPost
    dsimp only
    rw [nextEntry_of_nextIs h]
    rw [hg]
    dsimp only
    rw [if_neg (by omega), postMessage_full htg hon hfull, if_neg (by simp), ← htg]
  · show execMailboxDelivery core m s = _
    subst hk hu
    unfold execMailboxDelivery
    dsimp only
    rw [hposts, List.filter_nil]
    dsimp only
    rw [← hposts]
  · show execMailboxDelivery core m s = _
    subst hk
    unfold execMailboxDelivery
    dsimp only
    rw [hlive]
    dsimp only
    rw [← hu, he]
    dsimp only
    rw [hpost, if_pos rfl]

end Sys2Proof.Machine
end

section
/-! Storage commands, namespaces and rebuilds, media bays. -/
namespace Sys2Proof.Machine

/-! ### Storage commands -/

/-- The entry that the arbiter picks is admitted (R432, R440). -/
theorem execAdmission_single {fq : Nat} {e : Entry} {s : State} (hpick : arbiterPick s = some (fq, e)) (hmet : e.met = .good) :
    execAdmission s = .next (admitEntry fq e s) := by
  unfold execAdmission
  rw [hpick]
  dsimp only
  rw [hmet]
  dsimp only
  rw [admission, hpick]

/-- An entry that fails its check fails at once (R440). -/
theorem admitEntry_fails {fq fns : Nat} {e : Entry} {s u : State} (hg : e.group = none)
    (hu : u = { s with st := { s.st with lastQueue := fq } }) (hfns : fns = stNs u (queueInst u 2 fq) e.desc)
    (hbad : admitCheck u fns e ≠ 0) : admitEntry fq e s = failStorage (newCmd u fq fns e) (admitCheck u fns e) none u := by
  subst hu hfns
  unfold admitEntry
  dsimp only
  rw [reissued, hg]
  exact if_pos hbad

/-- An entry that passes takes its lock where it can (R432, R434). -/
theorem admitEntry_granted {fq fns n : Nat} {e : Entry} {c : StCmd} {s u v : State} (hg : e.group = none)
    (hu : u = { s with st := { s.st with lastQueue := fq } }) (hfns : fns = stNs u (queueInst u 2 fq) e.desc)
    (hok : admitCheck u fns e = 0) (hn : n = s.st.nextCmd) (hc : c = newCmd u fq fns e) (hgrant : grantable u n c = true)
    (hv : v = { u with st := { u.st with nextCmd := n + 1 } }) :
    admitEntry fq e s = setPhase 2 fq e.idx .started (putCmd n { c with granted := true } v) := by
  subst hu hfns hn hc hv
  unfold admitEntry
  dsimp only
  rw [reissued, hg]
  dsimp only
  rw [if_neg (by simp [hok]), hgrant, if_neg (by simp)]

/-- The lock of a command but ST_FLUSH: no earlier command that holds one conflicts (R434, R435). -/
theorem grantable_iff {s : State} {n : Nat} {c : StCmd} (h : c.op ≠ 0x32) : grantable s n c = true ↔
    ∀ e ∈ s.st.cmds, n ≤ e.1 ∨ e.2.held = false ∨ overlaps c e.2 = false ∨ (c.op = 0x30 ∧ e.2.op = 0x30) := by
  unfold grantable
  rw [List.all_eq_true]
  refine forall₂_congr fun e _ => ?_
  rw [if_neg h]
  simp [or_assoc]

/-- An admitted command that waits runs its body (R430). -/
theorem stRun_ready {s : State} {op fq n : Nat} {idx : BitVec 32} {c : StCmd} {e : Entry} (h : StReady s op fq idx n c e)
    (body : Nat → StCmd → Entry → State → State) : stRun op fq idx s body = body n c e s := by
  obtain ⟨hcmd, he, hop, hwait, hkept⟩ := h
  unfold stRun
  rw [hcmd, he]
  exact if_neg (by simp [hop, hwait, hkept])

/-- Without a segment list the buffer is one run (R428). -/
theorem readSegs_single {fq len : Nat} {e : Entry} {r : Read} {s : State} (h : bit (leWord e.desc 0x24) 16 = false) :
    readSegs fq e len r s = (s, [(le e.desc 0x10 8, len)], 0) := if_pos (by simp [h])

/-- A pack's answers of a command that no pack failed end it done (R438). -/
theorem settleChange_done {n : Nat} {c : StCmd} {s : State} (ha : c.failA = none) (hb : c.failB = none) :
    settleChange n c s = stDone n c s := by
  have hnone : c.targets.filterMap (fun b => (failOf c b).map (fun f => (b, f))) = [] :=
    List.filterMap_eq_nil_iff.mpr fun b _ => by cases b <;> simp [failOf, ha, hb]
  unfold settleChange
  dsimp only
  rw [hnone]
  rfl

/-- Settles O50: admission by its check and its lock, the data of each command, locks granted later, and pack answers. -/
theorem storageCommands : Obligations.StorageCommands := by
  unfold Obligations.StorageCommands
  refine ⟨fun s hnone => ?_, fun fq fns e s u hpick hmet hg hu hfns hbad =>
      (execAdmission_single hpick hmet).trans (congrArg _ (admitEntry_fails hg hu hfns hbad)),
    fun fq fns n e c s u v hpick hmet hg hu hfns hok hn hc hgrant hv =>
      (execAdmission_single hpick hmet).trans (congrArg _ (admitEntry_granted hg hu hfns hok hn hc hgrant hv)),
    fun s n c hop => grantable_iff hop, fun fq idx r n c e s h hsgl => ?_, fun fq idx x b n len c e s h hg hsgl hlen => ?_,
    fun fq idx op n i c e s hop h => ?_, fun fq idx b d n len c e s h hlen => ?_, fun n c s hg => ?_,
    fun n c s hc hwait hgrant => ?_, fun n c s hc hwait hgrant => ?_, fun n c ecc s hc hgrant => ?_,
    fun b cid sf d l s hnone => ?_, fun b cid n off onB d l s huse => ?_, fun n c s ha hb => settleChange_done ha hb⟩
  · show execAdmission s = _
    rw [execAdmission, hnone]
  · refine congrArg Host.Outcome.next ((stRun_ready h _).trans ?_)
    dsimp only
    rw [readSegs_single hsgl]
    rfl
  · refine congrArg Host.Outcome.next ((stRun_ready h _).trans ?_)
    subst hlen
    dsimp only
    rw [if_neg (by simp [hg]), readSegs_single hsgl]
    rfl
  · rcases hop with ⟨rfl, rfl⟩ | ⟨rfl, rfl⟩ | ⟨rfl, rfl⟩
    · exact congrArg Host.Outcome.next (stRun_ready h _)
    · exact congrArg Host.Outcome.next (stRun_ready h _)
    · exact congrArg Host.Outcome.next (stRun_ready h _)
  · subst hlen
    exact congrArg Host.Outcome.next (stRun_ready h _)
  · unfold cmdReady
    dsimp only
    rw [hg]
  · show execLockGrant (n, .good) s = _
    rw [execLockGrant, hc]
    exact congrArg _ (if_neg (by simp [hwait, hgrant]))
  · show execLockGrant (n, .bad) s = _
    rw [execLockGrant, hc]
    exact congrArg _ ((if_neg (by simp [hwait, hgrant])).trans (if_pos rfl))
  · show execLockGrant (n, ecc) s = _
    rw [execLockGrant, hc]
    exact congrArg _ (if_pos (by simp [hgrant]))
  · show execPackCompletion b cid sf d l s = _
    rw [execPackCompletion, hnone]
  · show execPackCompletion b cid 0 d l s = _
    rw [execPackCompletion, huse]
    rfl

/-! ### Namespaces and rebuilds -/

/-- Settles O51: a configuration and a rebuild by their checks, and each chunk by its lock, its pace and its result. -/
theorem namespaces : Obligations.Namespaces := by
  unfold Obligations.Namespaces
  refine ⟨fun cq e s u h hadmin hbad => ?_, fun cq e n r s u h hadmin hok hset hn hr => ?_, fun cq e s u h hadmin => ?_,
    fun cq e i lg s u h hadmin hi hlg hcount hsize => ?_, fun cq e fns k tg s u h hadmin hfns htg hstart hok hslot => ?_,
    fun cq e r fns s u h hadmin hfns hstop hst hr => ?_, fun k r x s hr hlock => ?_, fun k r n m d s hr hlock hn hm hpace => ?_,
    fun k r n m d s hr hlock hn hm hmore hpace => ?_, fun k r s u hr hlock hu => ?_, fun k r d s u hr hlock hu => ?_⟩
  · show execNsConfig cq s = _
    rw [execNsConfig, nextEntry_of_nextIs h, nsConfig]
    exact congrArg _ ((if_neg (by simp [hadmin])).trans (if_pos hbad))
  · show execNsConfig cq s = _
    subst hr hn
    rw [execNsConfig, nextEntry_of_nextIs h, nsConfig]
    exact congrArg _ ((if_neg (by simp [hadmin])).trans ((if_neg (by simp [hok])).trans (if_pos hset)))
  · show execNsConfig cq s = _
    rw [execNsConfig, nextEntry_of_nextIs h, nsConfig]
    exact congrArg _ (if_pos (by simp [hadmin]))
  · show execStElogConfig cq s = _
    subst hi hlg
    rw [execStElogConfig, nextEntry_of_nextIs h, elogConfig]
    refine congrArg _ (if_neg ?_)
    simp only [hadmin, Bool.not_true, Bool.false_or, Bool.or_eq_true, Bool.and_eq_true, decide_eq_true_eq]
    omega
  · show execNsRebuild cq s = _
    subst hfns htg
    rw [execNsRebuild, nextEntry_of_nextIs h, nsRebuild]
    dsimp only
    rw [if_neg (by simp [hadmin]), if_neg (by simp [hstart]), hok, hslot]
    rfl
  · show execNsRebuild cq s = _
    subst hfns
    rw [execNsRebuild, nextEntry_of_nextIs h, nsRebuild]
    dsimp only
    rw [if_neg (by simp [hadmin]), if_pos hstop, hst, hr]
    rfl
  · show execRebuildChunk k x s = _
    rw [execRebuildChunk, hr]
    exact congrArg _ (if_pos (by simp [hlock]))
  · show execRebuildChunk k (.copied d) s = _
    subst hn hm
    rw [execRebuildChunk, hr]
    exact congrArg _ ((if_neg (by simp [hlock])).trans (if_neg fun h => absurd (of_decide_eq_true h) (Nat.not_le.mpr hpace)))
  · show execRebuildChunk k (.copied d) s = _
    subst hn hm
    rw [execRebuildChunk, hr]
    exact congrArg _ ((if_neg (by simp [hlock])).trans ((if_pos (decide_eq_true hpace)).trans (if_pos hmore)))
  · show execRebuildChunk k .sourceFailed s = _
    subst hu
    rw [execRebuildChunk, hr]
    exact congrArg _ (if_neg (by simp [hlock]))
  · show execRebuildChunk k (.targetFailed d) s = _
    subst hu
    rw [execRebuildChunk, hr]
    exact congrArg _ (if_neg (by simp [hlock]))

/-! ### Media bays -/

/-- A write of a bay's registers acts on a bay that is enabled (R449). -/
theorem bayWrite_enabled {s : State} {b : Nat} (hopen : setupOpen s = true) (hen : bayEnabled s b = true) (f : State → State) :
    bayWrite b s f = linkBusy (f s) := (setupWrite_of_open hopen _).trans (congrArg linkBusy (if_pos hen))

theorem bayWrite_disabled {s : State} {b : Nat} (hopen : setupOpen s = true) (hen : bayEnabled s b = false) (f : State → State) :
    bayWrite b s f = linkBusy s := (setupWrite_of_open hopen _).trans (congrArg linkBusy (if_neg (by simp [hen])))

/-- Setting a bay changes the bays, the link and the outputs (R531). -/
theorem putBay_frame (b : Nat) (x : BaySt) (s : State) : ∃ l o, putBay b x s =
    { s with link := l, out := o, st := { s.st with bays := tabSet (fun _ => BaySt.empty) s.st.bays b x } } := by
  unfold putBay pageIf
  split
  · exact pageChanged_frame 2 _
  · exact ⟨_, _, rfl⟩

theorem bayOf_putBay {s : State} (hs : tabSorted none s.st.bays = true) (b : Nat) (x : BaySt) : bayOf (putBay b x s) b = x := by
  obtain ⟨l, o, h⟩ := putBay_frame b x s
  rw [h]
  exact tabGet_set_same hs b x

theorem bayOf_putBay_other {s : State} (hs : tabSorted none s.st.bays = true) {b c : Nat} (x : BaySt) (h : c ≠ b) :
    bayOf (putBay b x s) c = bayOf s c := by
  obtain ⟨l, o, hput⟩ := putBay_frame b x s
  rw [hput]
  exact tabGet_set_other hs x h

/-- What LIFE_POLL does of one bay (R462). -/
def pollStep (s : State) (b : Nat) : State := if pollIsDue s b then pollBay b s else s

/-- The state of a bay, and what decides when its polls are due. -/
def pollView (s : State) (b : Nat) : BaySt × Nat × Nat := (bayOf s b, s.ticks, pollPeriod s)

/-- A poll of one bay leaves the others, the time and the period (R462). -/
theorem pollStep_other {s : State} (hs : tabSorted none s.st.bays = true) (b : Nat) :
    tabSorted none (pollStep s b).st.bays = true ∧ ∀ c, c ≠ b → pollView (pollStep s b) c = pollView s c := by
  unfold pollStep
  split
  · have hbay (u : State) (hu : u.st = s.st ∧ u.ticks = s.ticks ∧ u.regs = s.regs) (x : BaySt) :
        tabSorted none (putBay b x u).st.bays = true ∧ ∀ c, c ≠ b → pollView (putBay b x u) c = pollView s c := by
      obtain ⟨hst, hticks, hregs⟩ := hu
      obtain ⟨l, o, hput⟩ := putBay_frame b x u
      refine ⟨?_, fun c hc => ?_⟩
      · rw [hput, hst]
        exact tabSorted_set (d := fun _ => BaySt.empty) hs b x
      · have hother : bayOf (putBay b x u) c = bayOf s c := by
          rw [bayOf_putBay_other (hst ▸ hs) x hc, bayOf, hst, ← bayOf]
        rw [pollView, hother, hput]
        simp only [pollView, pollPeriod, rf, getReg, hticks, hregs]
    refine hbay (if (bayOf s b).polling then s else emit (.lifePoll (Fin.ofNat 4 b)) s) ?_ _
    split <;> exact ⟨rfl, rfl, rfl⟩
  · exact ⟨hs, fun _ _ => rfl⟩

/-- Polls of other bays leave a bay, the time and the period (R462). -/
theorem foldl_pollStep_other {l : List Nat} {b : Nat} (hb : b ∉ l) {s : State} (hs : tabSorted none s.st.bays = true) :
    tabSorted none (l.foldl pollStep s).st.bays = true ∧ pollView (l.foldl pollStep s) b = pollView s b := by
  induction l generalizing s with
  | nil => exact ⟨hs, rfl⟩
  | cons c l ih =>
    have hne : b ≠ c := fun h => hb (h ▸ List.mem_cons_self)
    have hl : b ∉ l := fun h => hb (List.mem_cons_of_mem _ h)
    obtain ⟨hsorted, hview⟩ := pollStep_other hs c
    obtain ⟨hsorted', hview'⟩ := ih hl hsorted
    exact ⟨hsorted', hview'.trans (hview b hne)⟩

/-- A poll that is due goes out, and the next one is due a period later (R462). -/
theorem pollStep_due {s : State} {b : Nat} (hs : tabSorted none s.st.bays = true) (h : pollIsDue s b = true) :
    (bayOf (pollStep s b) b).polling = true ∧ (bayOf (pollStep s b) b).pollDue = (bayOf s b).pollDue + pollPeriod s := by
  have hperiod : pollPeriod (if (bayOf s b).polling then s else emit (.lifePoll (Fin.ofNat 4 b)) s) = pollPeriod s := by
    split <;> rfl
  have hsorted : tabSorted none (if (bayOf s b).polling then s else emit (.lifePoll (Fin.ofNat 4 b)) s).st.bays = true := by
    split <;> exact hs
  rw [pollStep, if_pos h, pollBay]
  rw [bayOf_putBay hsorted, hperiod]
  exact ⟨rfl, rfl⟩

/-- LIFE_POLL polls a READY bay whose poll is due (R462). -/
theorem foldl_pollStep_due {l : List Nat} (hl : l.Nodup) {b : Nat} (hb : b ∈ l) {s : State} (hs : tabSorted none s.st.bays = true)
    (h : pollIsDue s b = true) : (bayOf (l.foldl pollStep s) b).polling = true ∧
      (bayOf (l.foldl pollStep s) b).pollDue = (bayOf s b).pollDue + pollPeriod s := by
  obtain ⟨l₁, l₂, rfl⟩ := List.append_of_mem hb
  rw [List.nodup_append] at hl
  obtain ⟨-, hl₂, hdisj⟩ := hl
  have hb₁ : b ∉ l₁ := fun hmem => hdisj b hmem b List.mem_cons_self rfl
  rw [List.foldl_append, List.foldl_cons]
  obtain ⟨hs₁, hview₁⟩ := foldl_pollStep_other hb₁ hs
  simp only [pollView, Prod.mk.injEq] at hview₁
  obtain ⟨hbay, hticks, hperiod⟩ := hview₁
  have hdue : pollIsDue (l₁.foldl pollStep s) b = true := by
    rw [pollIsDue, hbay, hticks]
    exact h
  obtain ⟨-, hview₂⟩ := foldl_pollStep_other (List.nodup_cons.mp hl₂).1 (pollStep_other hs₁ b).1
  have hbay₂ := congrArg Prod.fst hview₂
  simp only [pollView] at hbay₂
  rw [hbay₂, ← hbay, ← hperiod]
  exact pollStep_due hs₁ hdue

/-- Settles O52: each step of a bay in the state it names, refusals and failures, presence, polls and thresholds. -/
theorem bays : Obligations.Bays := by
  unfold Obligations.Bays
  refine ⟨fun b s hopen hst hen hoff => ?_, fun b s hopen hen => ⟨?_, ?_⟩, fun b s hopen hst hen href => ?_,
    fun b s u hopen hst hen href hu hready => ?_, fun b s hst => congrArg Host.Outcome.next (if_pos hst),
    fun b sp wd s hst => congrArg Host.Outcome.next (if_pos hst),
    fun b s => ⟨fun hst => congrArg Host.Outcome.next (if_pos hst), fun hst => congrArg Host.Outcome.next (if_pos hst),
      fun hst => congrArg Host.Outcome.next (if_neg (by simp [hst])), fun hst => congrArg Host.Outcome.next (if_pos hst)⟩,
    fun b p s u hst hq hu => ?_, fun b c s hst => congrArg Host.Outcome.next (if_neg (by simp [hst])),
    fun b s hst => ⟨congrArg Host.Outcome.next (if_pos (by simpa using hst)), congrArg Host.Outcome.next (if_pos (by simpa using hst))⟩,
    fun b s hpres hen hst => ?_, fun b s hpres hen hst => ?_, fun b p s hpres => congrArg Host.Outcome.next (if_pos (by simp [hpres])),
    fun b s hen hst => congrArg Host.Outcome.next (if_pos (by simp [bayLive, hen, hst])),
    fun s hhk => congrArg Host.Outcome.next (if_pos (by simp [hhk])), fun b s hs hhk hst hdue => ?_, fun s hnone => ?_,
    fun b ok x y s u hpoll hst hu => ?_, fun b w r s hopen hen => congrArg Host.Outcome.next (bayWrite_enabled hopen hen _),
    fun b st s hs => bayOf_putBay hs _ _⟩
  · refine congrArg Host.Outcome.next ((bayWrite_enabled hopen hen _).trans (congrArg linkBusy ?_))
    dsimp only
    rw [if_neg (by simp [hst])]
    exact if_pos hoff
  · exact congrArg Host.Outcome.next (bayWrite_disabled hopen hen _)
  · exact congrArg Host.Outcome.next (bayWrite_disabled hopen hen _)
  · refine congrArg Host.Outcome.next ((bayWrite_enabled hopen hen _).trans (congrArg linkBusy ?_))
    exact (if_neg (by simp [hst])).trans (if_pos (by simp [href]))
  · refine congrArg Host.Outcome.next ((bayWrite_enabled hopen hen _).trans (congrArg linkBusy ?_))
    refine (if_neg (by simp [hst])).trans ((if_neg (by simp [href])).trans ?_)
    dsimp only
    rw [if_neg (by simp), ← hu, hready]
  · subst hu
    exact congrArg Host.Outcome.next ((if_neg (by simp [hst])).trans (if_neg hq))
  · exact congrArg Host.Outcome.next ((if_neg (by simp [hpres])).trans ((if_neg (by simp [bayLive, hen, hst])).trans (if_pos rfl)))
  · exact congrArg Host.Outcome.next ((if_neg (by simp [hpres])).trans ((if_neg (by simp [bayLive, hen, hst])).trans (if_neg (by simp))))
  · have hready : pollIsDue s b.val = true := by simp [pollIsDue, hst, hdue]
    exact ⟨_, congrArg Host.Outcome.next (if_neg (by simp [hhk])),
      foldl_pollStep_due List.nodup_range (List.mem_range.mpr b.isLt) hs hready⟩
  · have hsteps (l : List Nat) (hl : ∀ b ∈ l, pollIsDue s b = false) : l.foldl pollStep s = s := by
      induction l with
      | nil => rfl
      | cons b l ih =>
        obtain ⟨hb, hrest⟩ := List.forall_mem_cons.mp hl
        rw [List.foldl_cons, pollStep, if_neg (by simp [hb]), ih hrest]
    have hall := hsteps (List.range 4) fun b hb => hnone b (List.mem_range.mp hb)
    show execLifePoll s = _
    unfold execLifePoll
    split
    · rfl
    · exact congrArg _ hall
  · subst hu
    exact congrArg Host.Outcome.next (if_neg (by simp [hpoll, hst]))

end Sys2Proof.Machine
end

section
/-! Commit groups and the journal. -/
namespace Sys2Proof.Machine

/-! ### The commit point -/

/-- A group with no table member commits by its token and its members alone (R479). -/
theorem commitPoint_noTables {g : Nat} {x : Group} {s : State} (hx : cgOf s g = some x) (hready : commitReady s g x = true)
    (hre : x.reissue = false) (hpls : groupPls s g = []) (hsh : ∀ y ∈ s.tab.shadows, y.group ≠ some g) :
    commitPoint g s = advanceGroup g (addStat CG_COMMITS 1 (putCg g { x with state := .committing, flips := [] }
      (x.members.foldl (fun s m => match m.entry with
        | none => s
        | some (fn, fq, idx) => setPhase fn.toNat fq.toNat idx .past s) (addToken x.domain x.token s)))) := by
  have hpls' : groupPls (addToken x.domain x.token s) g = [] := hpls
  have hmap : (addToken x.domain x.token s).tab.shadows.map (fun (y : Shadow) =>
      if y.group == some g && y.pl != 4 then { y with group := none } else y) = s.tab.shadows := by
    refine (List.map_congr_left fun y hy => ?_).trans (List.map_id _)
    exact if_neg (by simp [hsh y hy])
  unfold commitPoint
  rw [hx]
  dsimp only
  rw [if_neg (by simp [hready]), if_neg (by simp [hre]), hpls', hmap]
  exact rfl

/-- The ring of a domain after a token enters it (R495). -/
theorem tokenRing_addToken {s : State} (hs : tabSorted none s.cg.tokens = true) (d : Nat) (t : Word) :
    tokenRing (addToken d t s) d = (t :: tokenRing s d).take 65536 :=
  tabGet_set_same (d := fun _ => []) hs d ((t :: tokenRing s d).take 65536)

/-! ### The register of the unit -/

/-- The fields of a word of CG_CTRL (R499). -/
theorem cgCtrlWord_fields {b c : Nat} (hb : b < 2 ^ 5) (hc : c < 2 ^ 12) (on refused : Bool) {w : Word}
    (hw : w = BitVec.ofNat 64 (b2n on + 2 ^ 8 * b + 2 ^ 16 * c + 2 ^ 28 * b2n refused)) :
    bit w 0 = on ∧ fld w 8 5 = b ∧ fld w 16 12 = c ∧ bit w 28 = refused := by
  subst hw
  have hon : b2n on < 2 := by cases on <;> decide
  have href : b2n refused < 2 := by cases refused <;> decide
  have hval : (b2n on + 2 ^ 8 * b + 2 ^ 16 * c + 2 ^ 28 * b2n refused) % 2 ^ 64 =
      b2n on + 2 ^ 8 * b + 2 ^ 16 * c + 2 ^ 28 * b2n refused := Nat.mod_eq_of_lt (by omega)
  simp only [bit, fld, BitVec.getLsbD, BitVec.toNat_ofNat, hval, Nat.shiftRight_eq_div_pow, Nat.testBit_eq_decide_div_mod_eq]
  refine ⟨?_, by omega, by omega, ?_⟩
  · have h0 : (b2n on + 2 ^ 8 * b + 2 ^ 16 * c + 2 ^ 28 * b2n refused) / 2 ^ 0 % 2 = b2n on := by omega
    rw [h0]
    cases on <;> rfl
  · have h28 : (b2n on + 2 ^ 8 * b + 2 ^ 16 * c + 2 ^ 28 * b2n refused) / 2 ^ 28 % 2 = b2n refused := by omega
    rw [h28]
    cases refused <;> rfl

/-- A write of CG_CTRL that would disable a unit in use. -/
def ctrlStuck (v : Word) (s : State) : Bool :=
  rb s CG_CTRL 0 && !bit v 0 && (!s.cg.groups.isEmpty || s.cg.jstate != .closed)

/-- A write of CG_CTRL whose region is dropped. -/
def ctrlBadBase (v : Word) (s : State) : Bool := decide (26 < fld v 8 5) || rb s CG_CTRL 0

/-- What a write of CG_CTRL leaves in its fields (R499). -/
theorem execCgCtrlWrite_fields (v : BitVec 64) {s : State} (hopen : setupOpen s = true) (hs : tabSorted none s.regs = true) :
    ∃ t, execCgCtrlWrite v s = .next t ∧ rb t CG_CTRL 0 = (bit v 0 || ctrlStuck v s) ∧
      rf t CG_CTRL 8 5 = (if ctrlBadBase v s then rf s CG_CTRL 8 5 else fld v 8 5) ∧ rf t CG_CTRL 16 12 = fld v 16 12 ∧
      rb t CG_CTRL 28 = (ctrlStuck v s || ctrlBadBase v s || (rb s CG_CTRL 28 && !bit v 28)) := by
  have hfld (w : Word) (lo len : Nat) : fld w lo len < 2 ^ len := Nat.mod_lt _ (Nat.two_pow_pos len)
  have hbase : (if ctrlBadBase v s then rf s CG_CTRL 8 5 else fld v 8 5) < 2 ^ 5 := by
    split
    · exact hfld ..
    · exact hfld ..
  obtain ⟨hon, hregion, hevq, hrefused⟩ := cgCtrlWord_fields hbase (hfld v 16 12) (bit v 0 || ctrlStuck v s)
    (ctrlStuck v s || ctrlBadBase v s || (rb s CG_CTRL 28 && !bit v 28)) rfl
  refine ⟨_, congrArg Host.Outcome.next (setupWrite_of_open hopen _), ?_⟩
  rw [rb_linkBusy, rf_linkBusy, rf_linkBusy, rb_linkBusy]
  simp only [rb, rf, getReg_put_same hs] at *
  exact ⟨hon, hregion, hevq, hrefused⟩

/-! ### The journal -/

/-- A group of storage members that is ready submits its record (R487). -/
theorem journalSubmit_ready {g : Nat} {x : Group} {s : State} (hx : cgOf s g = some x) (hstate : x.state = .closed)
    (hre : x.reissue = false) (hst : holdsStorage x = true) (hj : s.cg.jstate = .opened) (hstaged : ∀ m ∈ x.members, m.staged = true)
    (hgrant : ∀ c ∈ groupCmds x, ∃ y, cmdOf s c = some y ∧ y.granted = true) (hroom : logRoom s (groupRecord s x).length = true) :
    journalSubmit g s = appendLog (groupRecord s x) (.record g)
      { seq := s.cg.nextSeq, slot := g, domain := x.domain, token := x.token, home := groupCmds x, cmds := groupCmds x,
        bytes := 0, lost := false, retired := false } (putCg g { x with state := .journal, seq := some s.cg.nextSeq } s) := by
  have hall : x.members.any (fun m => !m.staged) = false :=
    List.any_eq_false.mpr fun m hm => by simp [hstaged m hm]
  unfold journalSubmit
  rw [hx]
  dsimp only
  rw [if_neg, if_neg (by simp [hroom])]
  intro hstays
  simp only [hstate, hre, hst, hj, hall, bne_self_eq_false, Bool.not_true, Bool.or_false, Bool.false_or] at hstays
  obtain ⟨c, hc, hno⟩ := List.any_eq_true.mp hstays
  obtain ⟨y, hy, hgranted⟩ := hgrant c hc
  simp [hy, hgranted] at hno

/-- A journal with a live record stays CLOSING (R486). -/
theorem tryClose_live {s : State} (hlive : ∃ r ∈ s.cg.records, liveRecord r = true) : tryClose s = s := by
  have hany : s.cg.records.any liveRecord = true := List.any_eq_true.mpr hlive
  unfold tryClose
  split
  · exact if_pos (by simp [hany])
  · rfl

/-- JOURNAL_CLOSE while none is under way (R486). -/
theorem execJournalClose_of_nextIs {cq : BitVec 20} {e : Entry} {s u : State} (hnone : s.cg.closing = none)
    (h : NextIs s 0 cq.toNat 0xE9 e u) (hadmin : adminQueue u cq.toNat = true) : execJournalClose cq s = .next
      (if u.cg.jstate != .opened then finish 0 cq.toNat e.idx true 0x0509 0 none u
        else tryClose (setPhase 0 cq.toNat e.idx .started
          { u with cg := { u.cg with jstate := .closing, closing := some (cq, e.idx) } })) := by
  unfold execJournalClose
  rw [hnone]
  dsimp only
  rw [nextEntry_of_nextIs h, if_neg (by simp [hadmin])]

/-- JOURNAL_OPEN by its check (R486). -/
theorem execJournalOpen_of_nextIs {cq : BitVec 20} (m : JournalMedia) {e : Entry} {s u : State}
    (h : NextIs s 0 cq.toNat 0xE8 e u) (hadmin : adminQueue u cq.toNat = true) : execJournalOpen cq m s = .next
      (if journalCheck u e.desc m ≠ 0 then finish 0 cq.toNat e.idx true (journalCheck u e.desc m) 0 none u
        else openJournal cq.toNat e m u) := by
  unfold execJournalOpen
  rw [nextEntry_of_nextIs h, if_neg (by simp [hadmin])]

/-- A group of no core, with nothing under way in the journal, leaves its slot once it is discarded (R494). -/
theorem settleAborted_discarded {g : Nat} {x : Group} (hcore : x.core = none) (hcancel : x.cancelling = none) (s : State) :
    settleAborted g { x with fetched := max x.fetched x.n } s = freeCg g s := by
  unfold settleAborted
  rw [if_neg (by simp [hcore])]
  exact if_pos ⟨Nat.le_max_right .., by simp [hcancel]⟩

/-- CG_DISCARD once its token has named a group or none (R494). -/
def discardGroup (cq : BitVec 20) (e : Entry) (u : State) : Option (Nat × Group) → State
  | none => finish 0 cq.toNat e.idx false 0x050D 0 none u
  | some (g, x) =>
    if x.state != .aborted then finish 0 cq.toNat e.idx true 0x050C 0 none u
    else finish 0 cq.toNat e.idx false 0 0 none (settleAborted g { x with fetched := max x.fetched x.n } u)

/-- CG_DISCARD from a queue of PF0 instance 0 (R494). -/
theorem execCgDiscard_of_nextIs {cq : BitVec 20} {e : Entry} {s u : State} (h : NextIs s 0 cq.toNat 0xEA e u)
    (hadmin : adminQueue u cq.toNat = true) {r : Option (Nat × Group)}
    (hr : groupSlot u (lef e.desc 0x10 0 13) (leWord e.desc 0x18) = r) :
    execCgDiscard cq s = .next (discardGroup cq e u r) := by
  unfold execCgDiscard
  refine congrArg Host.Outcome.next ((nextEntry_of_nextIs h _).trans ((if_neg (by simp [hadmin])).trans ?_))
  rw [hr]
  cases r with
  | none => rfl
  | some y => rfl

/-- Settles O53: the commit point by its group and its error, CG_DISCARD by the group's state, CG_CTRL by its fields, and
the journal's records, opening and closing by their checks. -/
theorem commitGroups : Obligations.CommitGroups := by
  unfold Obligations.CommitGroups
  refine ⟨fun g err s hnone => ?_, fun g x err s hx hwait => ?_, fun g x s hx hready => ?_,
    fun g x u v s hx hready hre hpls hsh hu hv => ?_, fun d t s hs => ?_, fun cq e s u h hadmin hslot => execCgDiscard_of_nextIs h hadmin hslot,
    fun cq e g x s u h hadmin hslot hstate => ?_, fun cq e g x s u h hadmin hslot hstate hcore hcancel => ?_,
    fun v s hopen hs hon hoff huse => ?_, fun v s hopen hs hoff hbase => ?_,
    fun g x s u hx hstate hre hst hj hstaged hgrant hroom hu =>
      hu ▸ congrArg Host.Outcome.next (journalSubmit_ready hx hstate hre hst hj hstaged hgrant hroom),
    fun g x s hx hstate => ?_, fun g r s hr hj hroom => ?_, fun g s hnone => ?_,
    fun cq m e s u h hadmin hbad => (execJournalOpen_of_nextIs m h hadmin).trans (congrArg Host.Outcome.next (if_pos hbad)),
    fun cq m e s u h hadmin hok => (execJournalOpen_of_nextIs m h hadmin).trans (congrArg Host.Outcome.next (if_neg (by simp [hok]))),
    fun cq e m s => rfl,
    fun cq e s u hnone h hadmin hj =>
      (execJournalClose_of_nextIs hnone h hadmin).trans (congrArg Host.Outcome.next (if_pos (by simp [hj]))),
    fun cq e s u v hnone h hadmin hj hv =>
      hv ▸ (execJournalClose_of_nextIs hnone h hadmin).trans (congrArg Host.Outcome.next (if_neg (by simp [hj]))),
    fun s _ hlive => tryClose_live hlive⟩
  · show execCommitPoint (g, err) s = _
    rw [execCommitPoint, hnone]
  · show execCommitPoint (g, err) s = _
    rw [execCommitPoint, hx]
    exact congrArg Host.Outcome.next (if_pos (by simp [hwait]))
  · show execCommitPoint (g, .bad) s = _
    rw [execCommitPoint, hx]
    refine congrArg Host.Outcome.next ((if_neg (by simp [hready])).trans ?_)
    show stagedError g.toNat s = _
    rw [stagedError, hx]
    exact (if_neg (by simp [hready])).trans (if_congr (by simp) rfl rfl)
  · show execCommitPoint (g, .good) s = _
    rw [execCommitPoint, hx]
    refine congrArg Host.Outcome.next ((if_neg (by simp [hready])).trans ?_)
    subst hv hu
    exact commitPoint_noTables hx hready hre hpls hsh
  · rw [tokenRing_addToken hs]
    exact ⟨rfl, List.length_take_le ..⟩
  · exact (execCgDiscard_of_nextIs h hadmin hslot).trans (congrArg Host.Outcome.next (if_pos (by simp [hstate])))
  · refine (execCgDiscard_of_nextIs h hadmin hslot).trans (congrArg Host.Outcome.next ((if_neg (by simp [hstate])).trans ?_))
    rw [settleAborted_discarded hcore hcancel]
  · obtain ⟨t, ht, honb, -, -, hrefused⟩ := execCgCtrlWrite_fields v hopen hs
    have hstuck : ctrlStuck v s = true := by
      simpa [ctrlStuck, hon, hoff] using huse
    exact ⟨t, ht, by simp [honb, hstuck], by simp [hrefused, hstuck]⟩
  · obtain ⟨t, ht, hon, hregion, hevq, -⟩ := execCgCtrlWrite_fields v hopen hs
    have hfree : ctrlStuck v s = false := by simp [ctrlStuck, hoff]
    have hgood : ctrlBadBase v s = false := by simp [ctrlBadBase, hoff, hbase]
    exact ⟨t, ht, by simp [hon, hfree], by simp [hregion, hgood], hevq⟩
  · show execJournalSubmit g s = _
    rw [execJournalSubmit, journalSubmit, hx]
    exact congrArg Host.Outcome.next (if_pos (by simp [hstate]))
  · show execRetireAppend g s = _
    rw [execRetireAppend, retireAppend, hr]
    exact congrArg Host.Outcome.next (if_pos (by simp [hj, hroom]))
  · show execRetireAppend g s = _
    rw [execRetireAppend, retireAppend, hnone]
    exact rfl

end Sys2Proof.Machine
end
